-- ==== Sys2Proof/Word.lean ====
section
/-!
DEFINITION. The plainest arithmetic of the model: bit fields of a number (R3), little-endian bytes (R4), and `Tab`, the
sparse table by which every array of the device (register fields, ports, tiles, engines, contexts) is held as plain data.
-/
namespace Sys2Proof

/-- A byte of table space or of a packet's payload. -/
abbrev Byte := BitVec 8
/-- A register, descriptor or table word (R591). -/
abbrev Word := BitVec 64

/-- Bits `[lo + w - 1 : lo]` of `x` (R3). -/
def bits (x lo w : Nat) : Nat := x / 2 ^ lo % 2 ^ w

/-- Bit `i` of `x`. -/
def bit (x i : Nat) : Bool := x / 2 ^ i % 2 == 1

/-- `v` (cut to `w` bits) placed at bit `lo`. -/
def field (v lo w : Nat) : Nat := v % 2 ^ w * 2 ^ lo

/-- `x` with bits `[lo + w - 1 : lo]` replaced by `v`. -/
def setBits (x lo w v : Nat) : Nat :=
  x % 2 ^ lo + field v lo w + x / 2 ^ (lo + w) * 2 ^ (lo + w)

/-- The set bits of `x` among the first `n`, lowest first. -/
def setBitsOf (x n : Nat) : List Nat := (List.range n).filter (bit x)

/-- The number of set bits of `x` among the first `n`. -/
def popcount (x n : Nat) : Nat := (setBitsOf x n).length

/-- 1 for true and 0 for false, as a one-bit field reads. -/
def b2n (b : Bool) : Nat := if b then 1 else 0

/-- A count that saturates at the largest value of a `w`-bit field. -/
def satAdd (x d w : Nat) : Nat := min (x + d) (2 ^ w - 1)

/-- A `w`-bit field read as a two's-complement number. -/
def signedOf (x w : Nat) : Int := if bit x (w - 1) then (x % 2 ^ w : Int) - 2 ^ w else (x % 2 ^ w : Int)

/-- A signed number as a `w`-bit two's-complement field. -/
def ofSigned (i : Int) (w : Nat) : Nat := (i % (2 ^ w : Int)).toNat

/-- `x` rounded up to a whole multiple of `r`. -/
def roundUp (x r : Nat) : Nat := (x + r - 1) / r * r

/-- `ceil (x / r)`. -/
def divUp (x r : Nat) : Nat := (x + r - 1) / r

/-- The low `n` bytes of a number, lowest first (R4). -/
def leBytes : Nat → Nat → List Byte
  | 0, _ => []
  | n + 1, x => BitVec.ofNat 8 (x % 256) :: leBytes n (x / 256)

/-- The number that bytes spell, lowest first (R4). -/
def ofLeBytes : List Byte → Nat
  | [] => 0
  | b :: t => b.toNat + 256 * ofLeBytes t

/-- The first 8 bytes of each group of 8, as words (R4). -/
def wordsOfBytes : Nat → List Byte → List Nat
  | 0, _ => []
  | n + 1, l => ofLeBytes (l.take 8) :: wordsOfBytes n (l.drop 8)

/-- Words as bytes, each little-endian (R4). -/
def bytesOfWords (l : List Nat) : List Byte := l.flatMap (leBytes 8)

/-- A sparse table: the entries that differ from the default, by rising key. -/
abbrev Tab (α : Type) := List (Nat × α)

/-- The entry at `n`, or `d` where none is listed. -/
def Tab.get {α : Type} (d : α) : Tab α → Nat → α
  | [], _ => d
  | (k, v) :: t, n => if k = n then v else Tab.get d t n

/-- `t` without the entry at `n`. -/
def Tab.erase {α : Type} (t : Tab α) (n : Nat) : Tab α := t.filter (fun p => p.1 != n)

/-- `t` with `v` at `n`, keys kept rising. -/
def Tab.insert {α : Type} : Tab α → Nat → α → Tab α
  | [], n, v => [(n, v)]
  | (k, w) :: t, n, v =>
    if n < k then (n, v) :: (k, w) :: t
    else if n = k then (n, v) :: t
    else (k, w) :: Tab.insert t n v

/-- `t` with `v` at `n`; an entry equal to the default is not listed. -/
def Tab.put {α : Type} [DecidableEq α] (d : α) (t : Tab α) (n : Nat) (v : α) : Tab α :=
  if v = d then Tab.erase t n else Tab.insert t n v

/-- The canonical form: keys strictly rising, no entry equal to the default. -/
def Tab.wf {α : Type} [DecidableEq α] (d : α) : Tab α → Bool
  | [] => true
  | (_, v) :: [] => v != d
  | (k, v) :: (k', v') :: t => decide (k < k') && (v != d) && Tab.wf d ((k', v') :: t)

/-- The first element of a list that meets `p`, and the list without it. -/
def takeFirst {α : Type} (p : α → Bool) : List α → Option (α × List α)
  | [] => none
  | a :: t => if p a then some (a, t) else
    match takeFirst p t with
    | some (b, r) => some (b, a :: r)
    | none => none

/-- The list with every element that meets `p` replaced by `f` of it. -/
def updWhere {α : Type} (p : α → Bool) (f : α → α) (l : List α) : List α := l.map fun a => if p a then f a else a

/-- The least element of a list of numbers by a measure, the earlier of equals. -/
def argMin {α : Type} (m : α → Nat) : List α → Option α
  | [] => none
  | a :: t => match argMin m t with
    | some b => if m b < m a then some b else some a
    | none => some a

end Sys2Proof
end

