-- ==== Sys2Proof/Syntax.lean ====
section
/-!
DEFINITION. The commands of the block (one constructor per row of the command table) and the data they carry: packets,
link frames, and the parties that send register accesses. Unit numbers are `Fin`; other values are `Nat`, cut to the width
of the field they enter when a command uses them.
-/
namespace Sys2Proof

/-- A fabric packet: the routing fields of Table 6.1, the operation words 2 to 7, and the payload (R204). -/
structure Packet where
  dst : Nat
  src : Nat
  /-- CLASS: 0 REQ, 1 RSP, 2 COL, 3 MGT. -/
  cls : Nat
  sl : Nat
  /-- RMODE: 0 adaptive, 1 pinned, 2 directed. -/
  rmode : Nat
  ord : Bool
  ep : Bool
  tu : Bool
  ce : Bool
  nm : Bool
  escf : Bool
  mep : Bool
  birth : Nat
  len : Nat
  hops : Nat
  w2 : Nat
  w3 : Nat
  w4 : Nat
  w5 : Nat
  w6 : Nat
  w7 : Nat
  data : List Byte
deriving DecidableEq, Repr

/-- The fields that every link frame carries in its header and trailer (Table 4.1). -/
structure FrameHead where
  /-- SEQ of a DATA frame; NEXT of a control frame. -/
  seq : Nat
  rtx : Bool
  /-- Header bit 31: NAK on a compatibility link (R153). -/
  nak : Bool
  sack : Nat
  crVc : Nat
  crCnt : Nat
  cong : Nat
  cack : Nat
deriving DecidableEq, Repr

/-- A DATA frame: one cell of a packet (R121). -/
structure DataFrame where
  head : FrameHead
  ep : Bool
  vc : Nat
  sop : Bool
  eop : Bool
  /-- The 256 bytes of the cell. -/
  cell : List Byte
deriving DecidableEq, Repr

/-- The cell of a CAP frame (Table 4.2). -/
structure CapCell where
  vers : Nat
  feat : Nat
  /-- REQ: 0 none, 1 retrain, 2 width request, 3 width acknowledgement. -/
  req : Nat
  locked : Bool
  cfgWidth : Nat
  laneIdx : Nat
  lockedLanes : Nat
  propLanes : Nat
  nonce : Nat
  group : Nat
  device : Nat
  port : Nat
  /-- Word 3: the lane ladder fields (Table 18.3). -/
  ladder : Nat
deriving DecidableEq, Repr

/-- The cell of a TIME frame (Table 4.2). -/
structure TimeCell where
  /-- TKIND = 1. -/
  response : Bool
  state : Nat
  hops : Nat
  errNs : Nat
  xid : Nat
  txStamp : Nat
  echo : Nat
deriving DecidableEq, Repr

/-- The cell of a FENCE frame (Table 4.2). -/
structure FenceCell where
  reason : Nat
  mt : Nat
  group : Nat
  device : Nat
  port : Nat
deriving DecidableEq, Repr

/-- The cell of an ACK frame (Table 4.2): GRANT v and RELEASE v for v = 0 to 15, and the XSACK map. -/
structure AckCell where
  grants : List Nat
  releases : List Nat
  xsack : Nat
deriving DecidableEq, Repr

/-- A frame on a lane (R120, R123). -/
inductive Frame where
  | data (f : DataFrame)
  | idle (h : FrameHead)
  | ack (h : FrameHead) (c : AckCell)
  | time (h : FrameHead) (c : TimeCell)
  | fence (h : FrameHead) (c : FenceCell)
  | cap (h : FrameHead) (c : CapCell)
deriving DecidableEq, Repr

/-- A rising edge of TIME_PPS_IN: the filter residual of the servo in ns (R54), and whether TIME_CLK_IN runs at the edge (R45). -/
structure PpsEdge where
  residual : Nat
  clk : Bool
deriving DecidableEq, Repr

/-- A party that reads or writes registers (R594): a PCIe function at a host-port instance, a fabric endpoint (in-band), or
the MCTP path and the control processors. -/
inductive Master where
  | fn (port func : Nat)
  | endpoint (addr : Nat)
  | mctp
deriving DecidableEq, Repr

/-- Which bits of a register an access covers (R591). -/
inductive Half where
  | whole | lo | hi
deriving DecidableEq, Repr

/-- The rail groups that the device monitors (R743). -/
inductive RailGroup where
  | main
  | hio (k : Fin 4)
  | opt (e : Fin 16)
deriving DecidableEq, Repr

/-- What leaves a rung at the end of an exit time (R654). -/
inductive RungUnit where
  | port (p : Fin 1024)
  | tile (t : Fin 72)
  | lane (l : Fin 1024)
  | device
deriving DecidableEq, Repr

/-- What wakes the device beside RESET_N: PWR_CTL, PERST_N, light on a lane, an ALARM event, LSRC_PRSNT_N (R678). -/
inductive WakeSource where
  | command | perst | light | alarm | lsrc
deriving DecidableEq, Repr

/-- The capabilities of Table 15.3. -/
inductive Capability where
  | power | msix | express | aer | ari | acs | sriov | l1Substates | ltr | ptm | tph | doe
  | dataLinkFeature | physical | margining | flitLogging | serialNumber
deriving DecidableEq, Repr

/-- The fields of a function's configuration space: those that rules of the spec read or act on (Memory Space Enable, Bus Master Enable,
AtomicOp Requester Enable, MSI-X Enable and Function Mask, TPH Requester Enable, PTM Enable, PME_En, Completion Timeout Value, VF Enable,
VF Memory Space Enable, Max_Read_Request_Size, Max_Payload_Size, PowerState, Link Control's L1 enables, Initiate FLR), and the values of
Tables 15.2 and 15.3. Then: whether a capability is there; the BAR doublewords, and those of the SR-IOV capability; the Uncorrectable Error
Status, Mask and Severity of AER; the error reporting enables of Device Control (correctable, non-fatal, fatal, Unsupported Request); LTR
enable; ACS control; and the settings that Table 15.3 has the capabilities report. -/
inductive CfgField where
  | mse | bme | atomic | msix | fmask | tph | ptm | pme | cto | vfEn | vfMse | mrrs | mps | power | l1 | flr
  | vendorId | deviceId | revisionId | classCode | headerType | subsysVid | subsysId | interruptPin | vfDeviceId | serial
  | totalVfs | initialVfs | tableSize | mpsSupported
  | capable (c : Capability)
  | bar (i : Fin 6)
  | vfBar (i : Fin 6)
  | aerStatus | aerMask | aerSeverity | errorEnables | ltrEnable | acsControl
  | deviceType | flrCapable | ctoRanges | ctoDisable | atomicCompleter | tag14 | aspmSupport | noSoftReset | pmeSupport
  | acsCapability | l1Capability | ptmCapability | tphModes
deriving DecidableEq, Repr

/-- An inbound TLP by what R565 decodes: memory accesses by BAR and offset, the three AtomicOps (0 FetchAdd, 1 Swap, 2 CAS), accesses
to configuration space, and what an endpoint need not accept: an I/O request (`other`) or a Message Request. -/
inductive Tlp where
  | memRead (bar : Fin 6) (off len : Nat)
  | memWrite (bar : Fin 6) (off : Nat) (data : List Byte)
  | atomicOp (bar : Fin 6) (off len : Nat) (kind : Fin 3) (a b : Nat)
  | cfgRead (f : CfgField)
  | cfgWrite (f : CfgField) (v : Nat)
  | other
  | message
deriving DecidableEq, Repr

/-- The owner registers that a plain write reaches (R705): ALM_PROT, ALM_FW.BOOT, MGT_LIST n, FUS_ROW, FUS_DATA. -/
inductive OwnerReg where
  | prot | fwBoot | list (n : Fin 16) | fusRow | fusData
deriving DecidableEq, Repr

/-- An error of a 64-bit granule that a checker finds in a slot (R626, R633, R635): corrected in a page's unit; failed in a page's unit, in
no packet that the device still holds; failed at tile `t` in packet number `id` on its way to tile `out`; failed in packet `k` of those
that wait to leave by a port, or in packet `k` of those handed to an engine; corrected or failed in the bridge; found in an SRAM
word that the unit of its bank reads, in one bit or in more (R626); or the inversion of a page's last armed checker (R640). -/
inductive GranuleErr where
  | corrected (cls : Fin 31) (inst : Fin 1024)
  | failed (cls : Fin 31) (inst : Fin 1024)
  | inCore (t out : Fin 72) (id : Nat)
  | atPort (p : Fin 1024) (k : Nat)
  | atEngine (e : Fin 32) (k : Nat)
  | bridge (failed : Bool)
  | word (bank : Fin 10496) (word : Fin 8192) (failed : Bool)
  | disarm (cls : Fin 31) (inst : Fin 1024)
deriving DecidableEq, Repr

/-- One constructor per row of the command table. -/
inductive Instr where
  /-- COLD_RESET: Power-up or STBY_GOOD falling resets every field to its reset value. (R13) -/
  | coldReset
  /-- WARM_RESET: Assertion of RESET_N resets every field without ST and takes host links down. (R13) -/
  | warmReset
  /-- DEV_RESET: A write of KEY 0x5752 to DEV_RESET starts a software warm reset. (R612) -/
  | devReset (key : Nat)
  /-- PWR_GOOD_FALL: PWR_GOOD falls while STBY_GOOD stays high, and every main domain is held in reset. (R746) -/
  | pwrGoodFall
  /-- RESTORE_START: At the later of PWR_GOOD rising and RESET_N deasserting, the hardware restore checks the snapshot and calibration CRCs. (R690) -/
  | restoreStart (faultMode : Bool)
  /-- RESTORE_PHASE1_DONE: Calibration, AL fields and repair fences are in force, and host links may train. (R697) -/
  | restorePhase1Done
  /-- RESTORE_DONE: Tables are loaded, fabric ports start bring-up and the heartbeat starts. (R690) -/
  | restoreDone
  /-- REG_WRITE: A write to a register that has no behaviour of its own updates fields by their access codes. (R8) -/
  | regWrite (m : Master) (off : Nat) (h : Half) (v : Nat)
  /-- MT_NOW_READ: A read of MT_NOW latches the matching fraction into MT_FRAC. (R40) -/
  | mtNowRead (m : Master)
  /-- MT_TOD_NEXT_WRITE: A write to MT_TOD_NEXT sets a pending time of day for a qualifying PPS edge. (R46) -/
  | mtTodNextWrite (v : Nat)
  /-- PPS_IN_EDGE: A rising TIME_PPS_IN edge acts as a source update and may load a pending time of day. (R46) -/
  | ppsInEdge (x : PpsEdge)
  /-- SERVO_UPDATE: A source update moves the servo between states and slews MT. (R57) -/
  | servoUpdate (offPs : Int) (err : Nat) (qual : Bool)
  /-- SOURCE_LOST: Loss of the time source is detected and LOCKED moves to HOLDOVER. (R57) -/
  | sourceLost
  /-- MT_SRC_WRITE: A write to MT_SRC in LOCKED acts as a source loss. (R57) -/
  | mtSrcWrite (v : Nat)
  /-- HOLDOVER_LIMIT: The holdover bound grows past LIMIT and the servo enters UNSURE. (R54) -/
  | holdoverLimit
  /-- SETTLE_QUALIFIED: The source has been qualified for SETTLE, so the servo steps or slews and locks. (R57) -/
  | settleQualified
  /-- TIME_REQUEST_DUE: The interval 2^TIME_K ns elapses and a TIME request is sent. (R128) -/
  | timeRequestDue (p : Fin 1024)
  /-- TIME_FRAME_RX: A TIME frame is received, answered or used for the offset on the followed port. (R128) -/
  | timeFrameRx (p : Fin 1024) (k : Fin 8) (hd rest : List Byte) (residual : Nat)
  /-- PTM_DIALOG: The interval 2^PTM_K ns elapses and a PTM dialog is issued. (R47) -/
  | ptmDialog
  /-- PTM_RESPONSE_RX: A PTM dialog completes and gives a source update. (R47) -/
  | ptmResponseRx (ok : Bool) (t residual : Nat)
  /-- PPS_OUT_RISE: TIME_PPS_OUT rises at each whole second of MT and falls after WIDTH. (R48) -/
  | ppsOutRise
  /-- ALARM_FIRE: An enabled alarm slot reaches its instant and performs its action. (R66) -/
  | alarmFire (n : Fin 64)
  /-- EPOCH_AT_WRITE: A write to EPOCH_AT arms the page for an instant in an alarm slot. (R602) -/
  | epochAtWrite (cls : Fin 31) (i : Fin 1024) (t : Nat)
  /-- OPT_REACH_WRITE: A write to OPT_CTL.REACH changes the PMD or is refused. (R80) -/
  | optReachWrite (e : Fin 16) (reach : Fin 2)
  /-- FEED_LOW: Feed fibre power falls below FEED_LOW. (R82) -/
  | feedLow (e : Fin 16) (f : Fin 8) (pwr : Nat)
  /-- FEED_LOST: Feed power stays below FEED_MIN for 1 µs, so its 8 transmitters turn off and their ports go down. (R82) -/
  | feedLost (e : Fin 16) (f : Fin 8)
  /-- LSRC_REMOVED: LSRC_PRSNT_N goes high, and the engine's transmitters turn off and its ports go down. (R83) -/
  | lsrcRemoved (e : Fin 16)
  /-- LSRC_INSERTED: LSRC_PRSNT_N has stayed low for 50 ms. (R84) -/
  | lsrcInserted (e : Fin 16)
  /-- FEED_QUALIFIED: A feed fibre holds FEED_LOW power for 10 ms, and its ports may start bring-up. (R84) -/
  | feedQualified (e : Fin 16) (f : Fin 8) (pwr : Nat)
  /-- MONITOR_REFRESH: Every 2^20 ns, the lane monitors and feed powers are refreshed. (R85) -/
  | monitorRefresh (l : Fin 1024) (rx bias temp feed : Nat)
  /-- PORT_ENABLE: A write of PORT_CTL.EN = 1 starts bring-up, or fails the formation. (R94) -/
  | portEnable (p : Fin 1024) (v : Nat)
  /-- PORT_DISABLE: A write of EN = 0 turns the transmitters off, flushes at once and discards link-layer state. (R94) -/
  | portDisable (p : Fin 1024) (v : Nat)
  /-- LANE_SYMBOL_LOCK: A lane acquires symbol lock during bring-up. (R90) -/
  | laneSymbolLock (l : Fin 1024)
  /-- BRINGUP_DONE: An aligned locked block exists after the wait, and the port enters CAPX. (R90) -/
  | bringupDone (p : Fin 1024)
  /-- BRINGUP_TIMEOUT: 200 ms pass in BRINGUP with no locked lane. (R94) -/
  | bringupTimeout (p : Fin 1024)
  /-- CAP_SEND: Every 256 ns during capability exchange, each locked lane sends a CAP frame. (R91) -/
  | capSend (p : Fin 1024)
  /-- CAP_FRAME_RX: A CAP frame is received and handled for agreement, width exchange, ladder messages or a nonce check. (R92) -/
  | capFrameRx (p : Fin 1024) (k : Fin 8) (hd rest : List Byte)
  /-- NONCE_REDRAW: After a random wait following equal nonces, new nonces are drawn and CAP frames are resent. (R92) -/
  | nonceRedraw (p : Fin 1024)
  /-- TRAIN_RESTART: 10 ms after TRAIN_FAIL for no common version, bring-up restarts. (R92) -/
  | trainRestart (p : Fin 1024)
  /-- FRAME_LOCK: Frame lock is reached and the port enters ACTIVE. (R93) -/
  | frameLock (p : Fin 1024)
  /-- SYMBOL_LOCK_LOSS: A lane loses block or alignment-marker lock, and its loss timer starts. (R98) -/
  | symbolLockLoss (l : Fin 1024)
  /-- LANE_LOSS_EXPIRY: The lane loss timer reaches LANE_LOSS, the lane is failed and a width degrade starts. (R99) -/
  | laneLossExpiry (l : Fin 1024)
  /-- UNCORR_WINDOW: Uncorrectable codewords in a 2^20 ns window exceed UNCORR_MAX, and the lane fails. (R99) -/
  | uncorrWindow (l : Fin 1024) (corr uncorr : Nat)
  /-- LANE_RETRY_ATTEMPT: Every 10 ms, a failed lane repeats bring-up and may become ready. (R102) -/
  | laneRetryAttempt (l : Fin 1024) (locked : Bool) (idx : Fin 8)
  /-- PORT_RESTORE: PORT_CMD.RESTORE widens the port to the largest ready block. (R102) -/
  | portRestore (p : Fin 1024)
  /-- PORT_RETRAIN: PORT_CMD.RETRAIN holds traffic, keeps link-layer state and re-enters BRINGUP. (R94) -/
  | portRetrain (p : Fin 1024)
  /-- PORT_DOWN: PORT_CMD.DOWN takes the link down. (R103) -/
  | portDown (p : Fin 1024)
  /-- LOCK_LOSS_EXPIRY: Every active lane has been without lock for LOCK_LOSS, and the link goes down. (R103) -/
  | lockLossExpiry (p : Fin 1024)
  /-- GRACE_EXPIRY: GRACE_TIME runs out before ACTIVE, and held packets are flushed. (R106) -/
  | graceExpiry (p : Fin 1024)
  /-- RCAL_STEP: At most once per 2^17 ns, live recalibration moves one coefficient. (R110) -/
  | rcalStep (l : Fin 1024) (live : Nat) (drifted : Bool)
  /-- FRAME_SLOT: At each frame slot, the transmitter sends the highest-priority ready frame, scheduling a new DATA cell when it reaches that choice. (R124) -/
  | frameSlot (p : Fin 1024) (k : Fin 8)
  /-- DATA_FRAME_RX: A DATA frame with good CRC is accepted, held, discarded as a duplicate or refused for credit. (R131) -/
  | dataFrameRx (p : Fin 1024) (k : Fin 8) (b : List Byte)
  /-- IDLE_FRAME_RX: An IDLE frame with good CRC has its acknowledgement and credit fields applied. (R132) -/
  | idleFrameRx (p : Fin 1024) (k : Fin 8) (b : List Byte)
  /-- ACK_FRAME_RX: An ACK frame applies its grant counts, release counts and extended SACK. (R145) -/
  | ackFrameRx (p : Fin 1024) (k : Fin 8) (hd rest : List Byte)
  /-- FENCE_FRAME_RX: A FENCE frame is received, and four in a row take the link down. (R129) -/
  | fenceFrameRx (p : Fin 1024) (k : Fin 8) (b : List Byte)
  /-- BAD_FRAME_RX: A frame fails its CRC and is discarded whole. (R118) -/
  | badFrameRx (lane : Fin 1024) (b : List Byte)
  /-- REPLAY_TIMEOUT: The replay timer expires and the unacknowledged frames are resent. (R135) -/
  | replayTimeout (p : Fin 1024)
  /-- CREDIT_GRANT: At a grant opportunity, the receiver grants one credit unit, guaranteed or lent. (R141) -/
  | creditGrant (p : Fin 1024)
  /-- CREDIT_RELEASE: After REL_IDLE with no waiting cell, the sender releases its unused grant. (R143) -/
  | creditRelease (p : Fin 1024) (vc : Fin 16)
  /-- SLOTS_WRITE: A write to LNK_REPLAY.SLOTS is taken or refused. (R149) -/
  | slotsWrite (p : Fin 1024) (v : Nat)
  /-- CELL_SLOT: In each core slot, each tile moves at most one cell in stage one and one in stage two over the cyclic pattern. (R163) -/
  | cellSlot (errs : List GranuleErr)
  /-- PACKET_ARRIVAL: A packet's SOP enters an input tile, is age-checked, looked up and queued, replicated or dropped. (R166) -/
  | packetArrival (t : Fin 72) (inPort : Fin 1024) (pkt : Packet)
  /-- RESERVATION_REQUEST: The input sends a reservation request for the packet at the head of a queue. (R167) -/
  | reservationRequest (t out : Fin 72) (port : Fin 1024) (vc : Fin 16) (mc : Bool)
  /-- RESERVATION_GRANT: The output admits all NCELLS and grants a RES_ID, or places an RSP in staging. (R167) -/
  | reservationGrant (out : Fin 72) (port : Fin 1024) (vc : Fin 16) (mc : Bool)
  /-- PACKET_COMPLETE: All cells of a packet are present at the output, which releases it to its port or engine under the ORD rule. (R170) -/
  | packetComplete (t : Fin 72) (res : Fin 65536)
  /-- REASM_TIMEOUT: A packet stays incomplete for REASM_TO, and its cells are dropped. (R172) -/
  | reasmTimeout (t : Fin 72) (res : Fin 65536)
  /-- PACKET_ABORT: A link abort closes a packet, and the input cancels it or sends an ABORT cell. (R173) -/
  | packetAbort (t : Fin 72) (id : Nat)
  /-- AGE_SWEEP: A sweep visit checks a held packet's age and drops it when expired. (R184) -/
  | ageSweep (t : Fin 72)
  /-- MID_FENCE_EFFECT: At the period boundary after a CORE commit, middles newly fenced stop receiving cells. (R187) -/
  | midFenceEffect
  /-- MID_DRAIN_DONE: At a period boundary with its queues empty, a fenced middle is skipped. (R187) -/
  | midDrainDone (m : Fin 72)
  /-- MID_RETURN: At the period boundary after an unfence commit, the middle rejoins both stages. (R190) -/
  | midReturn (m : Fin 72)
  /-- TILE_FENCE_FULL: TILE_FENCE.FULL = 1 fences a tile whole: its middle, its ports and its held packets. (R191) -/
  | tileFenceFull (t : Fin 72)
  /-- TILE_FENCE_RELEASE: TILE_FENCE.FULL = 0 releases the ports and returns the middle. (R191) -/
  | tileFenceRelease (t : Fin 72)
  /-- DEV_SELF_WRITE: A write to DEV_SELF takes effect for routing 100 ns later. (R203) -/
  | devSelfWrite (v : Nat)
  /-- ESC_MOVE: A packet waits ESC_WAIT without a grant and moves to the escape channel. (R218) -/
  | escMove (t : Fin 72) (id : Nat)
  /-- GOSSIP_SEND: At each whole microsecond of MT, a GOSSIP packet is sent on each enabled port. (R212) -/
  | gossipSend
  /-- GOSSIP_RX: A GOSSIP packet is applied to the learned slot levels and discarded. (R212) -/
  | gossipRx (p : Fin 1024) (pkt : Packet)
  /-- GOSSIP_STALE: A learned level is not refreshed for 8 µs and is taken as 0. (R213) -/
  | gossipStale (p : Fin 1024)
  /-- HOLD_END: RTE_EPOCH_CFG.HOLD after a swap, the retired bank leaves its hold. (R227) -/
  | holdEnd (t : Fin 72)
  /-- RTE_FENCE_WRITE: A write to RTE_FENCE fences ports, peers or engines 100 ns later. (R234) -/
  | rteFenceWrite (t : Fin 72) (v : Nat)
  /-- SHAPER_REFILL: Every 64 ns of MT, each shaper adds RATE/256 bytes up to BURST. (R254) -/
  | shaperRefill
  /-- SHAPER_CFG_WRITE: A write to SHP_CFG or SHP_RATE resets the bucket to BURST or 0. (R255) -/
  | shaperCfgWrite (t : Fin 72) (j : Fin 128) (rate : Bool) (v : Nat)
  /-- QUEUE_SAMPLE: Every 2^SAMPLE_K ns, each tile samples queue delay and depth per port and SL. (R258) -/
  | queueSample (t : Fin 72)
  /-- HIST_CLR: A write of HIST_CLR = 1 sets every histogram bin of the page to 0. (R259) -/
  | histClr (t : Fin 72)
  /-- TEL_RECORD: A telemetry record is written periodically or on an alarm, or is lost when the ring is full. (R261) -/
  | telRecord (t : Fin 72)
  /-- PMC_WRITE: A write to a PMC loads COUNT and SAT. (R269) -/
  | pmcWrite (cls : Fin 31) (i : Fin 1024) (k : Fin 8) (v : Nat)
  /-- PMC_SNAP_NOW: PMC_CTL.SNAP_NOW copies MT, CYC and the counters of the page into its snapshot area. (R273) -/
  | pmcSnapNow (cls : Fin 31) (i : Fin 1024)
  /-- PMN_SNAP_NOW: PMN_CTL.SNAP_NOW takes a snapshot in every enrolled page. (R273) -/
  | pmnSnapNow
  /-- CNT_CLR: CTL.CNT_CLR sets the counter fields of the page to 0. (R764) -/
  | cntClr (cls : Fin 31) (i : Fin 1024)
  /-- CTX_RANGE_WRITE: A write to CTX_RANGE enables or holds a range, or is refused for overlap. (R285) -/
  | ctxRangeWrite (e : Fin 32) (n : Fin 2) (v : Nat)
  /-- ENGINE_PACKET_RX: A packet reaches its engine, which looks up TCTX and handles it, holds it in the miss buffer or refuses it. (R286) -/
  | enginePacketRx (e : Fin 32) (q : Packet)
  /-- CTX_LOAD_START: A load of a context record starts when a fetch slot is free, evicting a victim if needed. (R294) -/
  | ctxLoadStart (e : Fin 32)
  /-- CTX_WORD0_RETURN: Word 0 of a record returns and is checked, and words 1–63 are read. (R291) -/
  | ctxWord0Return (e : Fin 32) (c w0 : Nat)
  /-- CTX_LOAD_DONE: A load completes, and held packets and queue polls proceed. (R294) -/
  | ctxLoadDone (e : Fin 32) (c : Nat) (ws : List Nat)
  /-- CTX_LOAD_FAIL: A load fails, and held packets are answered NACK_ACCESS. (R298) -/
  | ctxLoadFail (e : Fin 32) (c : Nat)
  /-- EVICT: CTX_CMD EVICT stops fetching for a context and drops it once evictable. (R299) -/
  | evict (e : Fin 32) (c : Nat)
  /-- CLOSE: CTX_CMD CLOSE evicts a context and writes VALID = 0, abandoning its locks and matching entries. (R299) -/
  | close (e : Fin 32) (c : Nat)
  /-- EVICT_RANGE: CTX_CMD EVICT_RANGE evicts every cached context of a range. (R299) -/
  | evictRange (e : Fin 32) (n : Fin 2)
  /-- CTX_CMD_END: A CTX_CMD ends once its write-backs are issued, and BUSY clears. (R299) -/
  | ctxCmdEnd (e : Fin 32)
  /-- QUEUE_POLL: A queue's poll interval expires and entries are read ahead of START. (R303) -/
  | queuePoll (e : Fin 32) (c : Nat) (q : Fin 8)
  /-- POLL_READ_RETURN: A poll read returns, and entries with OWN = 1 are cached or a ring fault is taken. (R303) -/
  | pollReadReturn (e : Fin 32) (tag : Nat) (ok : Bool) (data : List Byte)
  /-- NUDGE: A write to NUDGE starts a poll at once and restarts the interval. (R305) -/
  | nudge (e : Fin 32) (c : Nat) (q : Fin 8) (port : Fin 64) (func : Nat)
  /-- WQ_INVAL: A write to WQ_INVAL discards cached unstarted entries from an index. (R307) -/
  | wqInval (e : Fin 32) (c : Nat) (q : Fin 8) (index : Nat) (port : Fin 64) (func : Nat)
  /-- WQ_CTL_RESET: WQ_CTL RESET stops fetching, discards cached entries and enters DRAIN. (R309) -/
  | wqCtlReset (e : Fin 32) (c : Nat) (q : Fin 8) (index : Nat) (port : Fin 64) (func : Nat)
  /-- QUEUE_DRAIN_DONE: The last operation of a draining queue ends, the queue sets START and DONE, and it returns to RUN. (R309) -/
  | queueDrainDone (e : Fin 32) (c : Nat) (q : Fin 8)
  /-- ENTRY_START: A cached entry starts when slot, cap, shaper and rate allow, after the opcode checks. (R308) -/
  | entryStart (e : Fin 32)
  /-- NOP: A NOP entry completes at once with SUCCESS. (R311) -/
  | nop (e : Fin 32) (c : Nat) (q : Fin 8)
  /-- COMPLETION_RECORD_WRITE: Within COAL after DONE advances, or at once, the completion record is written. (R318) -/
  | completionRecordWrite (e : Fin 32) (c : Nat) (q : Fin 8)
  /-- EVENT_RECORD_WRITE: An event record is written once the ring has room. (R319) -/
  | eventRecordWrite (e : Fin 32) (c : Nat)
  /-- ERROR_RECORD_WRITE: An error record is written, or is lost when the ring is full. (R321) -/
  | errorRecordWrite (e : Fin 32) (c : Nat)
  /-- EVQ_ARM: A write to EVQ_ARM arms the MSI-X message, or sends it at once. (R326) -/
  | evqArm (e : Fin 32) (c : Nat) (port : Fin 64) (func : Nat)
  /-- USER_PAGE_ACCESS: An access to the user page of an uncached context starts a load and takes effect after it. (R328) -/
  | userPageAccess (e : Fin 32) (c : Nat) (port : Fin 64) (func off len : Nat) (val : Option Nat)
  /-- PUT: A PUT entry issues its packets in ascending POFF. (R334) -/
  | put (e : Fin 32) (slot : Fin 2048)
  /-- PUT_FLAG: A PUT_FLAG entry issues data packets, with the flag in the highest one. (R367) -/
  | putFlag (e : Fin 32) (slot : Fin 2048)
  /-- GET: A GET entry starts and issues GET_REQ segments. (R340) -/
  | get (e : Fin 32) (slot : Fin 2048)
  /-- GET_SEGMENT_ISSUE: A GET segment issues once its staging reservation fits within QUOTA. (R340) -/
  | getSegmentIssue (e : Fin 32) (slot : Fin 2048)
  /-- ATOMIC_ADD: An ATOMIC_ADD entry sends its request. (R373) -/
  | atomicAdd (e : Fin 32) (slot : Fin 2048)
  /-- ATOMIC_FADD: An ATOMIC_FADD entry sends its request. (R373) -/
  | atomicFadd (e : Fin 32) (slot : Fin 2048)
  /-- ATOMIC_CAS: An ATOMIC_CAS entry of 64 or 128 bits sends its request. (R373) -/
  | atomicCas (e : Fin 32) (slot : Fin 2048)
  /-- SEND: A SEND entry sends SEND packets eagerly, or one RTS. (R394) -/
  | send (e : Fin 32) (slot : Fin 2048)
  /-- FENCE: A FENCE entry starts to wait for every earlier entry of its queue. (R477) -/
  | fence (e : Fin 32) (c : Nat) (q : Fin 8)
  /-- FENCE_FINISH: Earlier entries have finished, so the FENCE finishes or, with DURABLE, sends a FLUSH. (R478) -/
  | fenceFinish (e : Fin 32) (c : Nat) (q : Fin 8)
  /-- RECV_POST: A MODE 0 RECV_POST takes a matching unexpected entry or joins the posted list. (R392) -/
  | recvPost (e : Fin 32) (c : Nat) (q : Fin 8)
  /-- RECV_CLAIM: A MODE 1 RECV_POST binds a handed-over message to a buffer. (R410) -/
  | recvClaim (e : Fin 32) (c : Nat) (q : Fin 8)
  /-- RECV_RESUME: A MODE 2 RECV_POST clears OVF. (R411) -/
  | recvResume (e : Fin 32) (c : Nat) (q : Fin 8)
  /-- LOCK_ACQ: A LOCK_ACQ entry sends a lock request. (R524) -/
  | lockAcq (e : Fin 32) (slot : Fin 2048)
  /-- LOCK_REL: A LOCK_REL entry sends a release with its token. (R524) -/
  | lockRel (e : Fin 32) (slot : Fin 2048)
  /-- LOCK_RENEW: A LOCK_RENEW entry sends a renewal with its token. (R524) -/
  | lockRenew (e : Fin 32) (slot : Fin 2048)
  /-- COLL: A COLL entry checks its group and sends its contribution chunks. (R434) -/
  | coll (e : Fin 32) (c : Nat) (q : Fin 8)
  /-- XLT_INVAL: A supervisor XLT_INVAL entry invalidates translations on all engines of its die. (R513) -/
  | xltInval (e : Fin 32) (c : Nat) (q : Fin 8)
  /-- PUT_PACKET_RX: A PUT or PUT_FLAG packet is checked, performed, counted in its tracker and acknowledged. (R347) -/
  | putPacketRx (e : Fin 32) (q : Packet)
  /-- GET_REQ_RX: A GET_REQ reads host memory and returns GET_DATA. (R370) -/
  | getReqRx (e : Fin 32) (q : Packet)
  /-- ATOMIC_REQUEST_RX: An atomic request passes through the duplicate filter and is performed or refused. (R365) -/
  | atomicRequestRx (e : Fin 32) (q : Packet)
  /-- FLUSH_RX: A FLUSH request issues a flushing read on the context's port. (R479) -/
  | flushRx (e : Fin 32) (q : Packet)
  /-- FLUSH_READ_COMPLETE: A flushing read completes, and the ACK or the flag write follows. (R475) -/
  | flushReadComplete (e : Fin 32) (tag : Nat) (ok : Bool)
  /-- ATOMICOP_COMPLETION: A host AtomicOp completes and the atomic is answered. (R374) -/
  | atomicopCompletion (e : Fin 32) (tag : Nat) (ok : Bool) (data : List Byte)
  /-- HOST_READ_COMPLETION: A host read completion returns, or is discarded as late. (R481) -/
  | hostReadCompletion (e : Fin 32) (tag : Nat) (ok : Bool) (data : List Byte)
  /-- ACK_RX: An ACK completes its operation, subject to the completion hold, and feeds congestion control. (R358) -/
  | ackRx (e : Fin 32) (q : Packet)
  /-- SACK_RX: A SACK triggers a hole-driven resend of the named ranges. (R353) -/
  | sackRx (e : Fin 32) (q : Packet)
  /-- NACK_BUSY_RX: A NACK_BUSY starts a backoff for the refused packet. (R354) -/
  | nackBusyRx (e : Fin 32) (q : Packet)
  /-- NACK_ACCESS_RX: A NACK_ACCESS ends the operation with NACK_ACCESS. (R344) -/
  | nackAccessRx (e : Fin 32) (q : Packet)
  /-- GET_DATA_RX: GET_DATA is placed at LADDR + POFF or discarded as stale. (R371) -/
  | getDataRx (e : Fin 32) (q : Packet)
  /-- HOLE_TIMEOUT: The hole timer expires, and a SACK is sent or the tracker is freed. (R349) -/
  | holeTimeout (e : Fin 32) (get : Bool) (src opid : Nat)
  /-- RETRY_TIMEOUT: The operation retry timer expires, and a new attempt starts or the operation is exhausted. (R352) -/
  | retryTimeout (e : Fin 32) (slot : Fin 2048)
  /-- BUSY_BACKOFF_EXPIRY: A NACK_BUSY backoff ends and the packet is resent. (R354) -/
  | busyBackoffExpiry (e : Fin 32) (slot : Fin 2048) (poff : Nat)
  /-- COMPLETION_HOLD_END: A_Q + D after the last send, a held operation completes. (R356) -/
  | completionHoldEnd (e : Fin 32) (slot : Fin 2048)
  /-- DUP_EXPIRY: A duplicate-filter entry reaches its expiry and is freed. (R365) -/
  | dupExpiry (u : Fin 8) (src opid : Nat)
  /-- REG_INVAL: RMA_REG_INVAL.GO discards region-cache entries. (R342) -/
  | regInval (e : Fin 32) (v : Nat)
  /-- ACACHE_FLUSH: RMA_ACACHE.FLUSH writes back and invalidates atomic-cache lines. (R375) -/
  | acacheFlush (e : Fin 32) (v : Nat)
  /-- RATE_INCREASE: Every INC_PERIOD, each congestion entry without a decrease rises by STEP. (R379) -/
  | rateIncrease (e : Fin 32)
  /-- SEND_PACKET_RX: A SEND packet passes duplicate, stream and matching handling. (R401) -/
  | sendPacketRx (e : Fin 32) (q : Packet)
  /-- RTS_RX: An RTS is matched or kept as a rendezvous entry, or is answered RDV_ACCEPT. (R401) -/
  | rtsRx (e : Fin 32) (q : Packet)
  /-- RDV_GET_RX: The initiator answers an RDV_GET with GET_DATA or NACK_ACCESS. (R399) -/
  | rdvGetRx (e : Fin 32) (q : Packet)
  /-- RDV_ACCEPT_RX: An RDV_ACCEPT turns the SEND into rendezvous probing. (R400) -/
  | rdvAcceptRx (e : Fin 32) (q : Packet)
  /-- GAP_WINDOW_EXPIRY: A held ordered message waits WINDOW, and EXPECT skips the gap. (R404) -/
  | gapWindowExpiry (e : Fin 32) (src sctx sq tctx : Nat)
  /-- STREAM_ENTRY_EXPIRY: A send-side stream entry idles for WINDOW and is freed. (R402) -/
  | streamEntryExpiry (e : Fin 32) (c : Nat) (q : Fin 8) (dest tctx : Nat)
  /-- SETUP: COL_CMD SETUP checks entry g, reserves slots and sets VALID. (R431) -/
  | setup (u : Fin 8) (g : Fin 4096) (seq : Nat)
  /-- RELEASE: COL_CMD RELEASE discards chunks, frees the reservation and clears VALID. (R431) -/
  | release (u : Fin 8) (g : Fin 4096)
  /-- RESET: COL_CMD RESET acts as RELEASE followed by SETUP. (R431) -/
  | reset (u : Fin 8) (g : Fin 4096) (seq : Nat)
  /-- CONTRIB_RX: A CONTRIB is accepted into its chunk, combined and sent up or finished at the root. (R439) -/
  | contribRx (u : Fin 8) (q : Packet)
  /-- RESULT_RX: A RESULT frees slots at units and is written by the waiting COLL. (R443) -/
  | resultRx (e : Fin 32) (q : Packet)
  /-- REISSUE_RX: A REISSUE makes units and engines resend uncompleted chunks. (R459) -/
  | reissueRx (e : Fin 32) (q : Packet)
  /-- FENCED_RX: A FENCED packet ORs its branches into FENCED_BITS and is forwarded up. (R454) -/
  | fencedRx (u : Fin 8) (q : Packet)
  /-- PRUNE_NOTICE: A prune notice marks branches fenced and re-examines held chunks. (R453) -/
  | pruneNotice (u : Fin 8)
  /-- COL_TIMEOUT: The root's sequence timer expires, and a REISSUE or an END result is injected. (R458) -/
  | colTimeout (u : Fin 8) (g : Fin 4096)
  /-- COLL_WAIT_TIMEOUT: An engine receives no RESULT for TIMEOUT × (RETRY + 2) and ends the COLL. (R461) -/
  | collWaitTimeout (e : Fin 32) (c : Nat) (q : Fin 8)
  /-- WALK_READ_RETURN: A table entry read returns, is checked and continues the walk or faults. (R499) -/
  | walkReadReturn (e : Fin 32) (tag : Nat) (ok : Bool) (entry : Nat)
  /-- AD_CAS_RETURN: An A/D CAS returns, and the translation is installed, retried or faulted. (R505) -/
  | adCasReturn (e : Fin 32) (tag : Nat) (ok : Bool) (entry : Nat)
  /-- XLT_INVAL_CMD: XLT_INVAL.GO starts an invalidation on one engine. (R514) -/
  | xltInvalCmd (e : Fin 32) (v : Nat)
  /-- INVAL_COMPLETE: An invalidation completes once the walks in flight have ended or restarted. (R515) -/
  | invalComplete (e : Fin 32)
  /-- LOCK_ACQ_RX: A lock unit grants, queues or refuses a LOCK_ACQ. (R529) -/
  | lockAcqRx (e : Fin 32) (q : Packet)
  /-- LOCK_REL_RX: A LOCK_REL with the current token releases and passes the lock. (R535) -/
  | lockRelRx (e : Fin 32) (q : Packet)
  /-- LOCK_RENEW_RX: A LOCK_RENEW with the current token extends EXPIRY. (R535) -/
  | lockRenewRx (e : Fin 32) (q : Packet)
  /-- LOCK_RSP_RX: An initiator applies a LOCK_RSP of any attempt. (R533) -/
  | lockRspRx (e : Fin 32) (q : Packet)
  /-- LEASE_EXPIRY: MT reaches EXPIRY, the grant lapses and the lock passes. (R538) -/
  | leaseExpiry (u : Fin 8) (l : Fin 8192)
  /-- WAITER_EXPIRY: A waiter not seen for WAIT_LIFE is removed. (R534) -/
  | waiterExpiry (u : Fin 8) (src opid : Nat)
  /-- BOOST_REFRESH: Every BOOST_REFRESH while a boost stands, BOOST is resent. (R545) -/
  | boostRefresh (u : Fin 8) (l : Fin 8192)
  /-- BOOST_RX: A BOOST creates, refreshes or removes a boost-table entry. (R546) -/
  | boostRx (e : Fin 32) (q : Packet)
  /-- BOOST_EXPIRY: A boost entry expires and is removed. (R546) -/
  | boostExpiry (e : Fin 32)
  /-- PERST_DEASSERT: PERST_N deasserts, and SPLIT, EN and function resources take effect. (R553) -/
  | perstDeassert (p : Fin 16)
  /-- PERST_ASSERT: PERST_N asserts, and the port's functions behave as at FLR. (R579) -/
  | perstAssert (p : Fin 16)
  /-- HOST_LINK_UP: A host link reaches DL_Active. (R554) -/
  | hostLinkUp (h : Fin 64) (gen width : Nat)
  /-- HOST_LINK_DOWN: A host link goes to DL_Down, ending non-posted requests and applying FLR effects. (R585) -/
  | hostLinkDown (h : Fin 64)
  /-- INBOUND_REQUEST: An inbound TLP is decoded to a BAR, configuration space, or Unsupported Request. (R565) -/
  | inboundRequest (h : Fin 64) (f : Fin 264) (q : Tlp) (poisoned : Bool)
  /-- WIN_COMMIT: WIN_COMMIT.GO captures the window shadow. (R569) -/
  | winCommit (h : Fin 64)
  /-- WIN_COMMIT_IN_FORCE: The captured window values come into force at a TLP boundary. (R569) -/
  | winCommitInForce (h : Fin 64)
  /-- COMPLETION_TIMEOUT: A non-posted request ends by Completion Timeout. (R573) -/
  | completionTimeout (tag : Nat)
  /-- FAB_TIMEOUT: A host access for a fabric request ends at FAB_TO as a host failure. (R574) -/
  | fabTimeout (tag : Nat)
  /-- D3HOT_ENTRY: A function enters D3hot, and its contexts suffer FLR effects. (R578) -/
  | d3hotEntry (h : Fin 64) (f : Fin 264)
  /-- D0_RETURN: A function returns to D0, and its configuration is reset as at FLR. (R578) -/
  | d0Return (h : Fin 64) (f : Fin 264)
  /-- L1_ENTRY: A link idle for L1_IDLE enters L1 or a substate. (R581) -/
  | l1Entry (h : Fin 64)
  /-- FLR: A Function Level Reset discards the function's contexts and work. (R582) -/
  | flr (h : Fin 64) (f : Fin 264)
  /-- FLR_COMPLETE: An FLR completes within 1 ms and FLR_BUSY clears. (R582) -/
  | flrComplete (h : Fin 64) (f : Fin 264)
  /-- BME_WRITE: Bus Master Enable changes, stopping or resuming the function's requests. (R584) -/
  | bmeWrite (h : Fin 64) (f : Fin 264) (on : Bool)
  /-- MSIX_PENDING_SEND: A pending MSI-X message is sent once its enables and masks allow it. (R577) -/
  | msixPendingSend (h : Fin 64) (f : Fin 264) (v : Fin 2048)
  /-- SHADOW_COMMIT: SHADOW_CTL.COMMIT captures the page shadow for the block to put in force. (R601) -/
  | shadowCommit (cls : Fin 31) (i : Fin 1024)
  /-- SHADOW_DISCARD: SHADOW_CTL.DISCARD copies the values in force into the shadow. (R596) -/
  | shadowDiscard (cls : Fin 31) (i : Fin 1024)
  /-- SHADOW_DISARM: SHADOW_CTL.DISARM removes the page's epoch arming. (R603) -/
  | shadowDisarm (cls : Fin 31) (i : Fin 1024)
  /-- EVT_FORCE: A write to EVT_FORCE raises events as hardware would. (R598) -/
  | evtForce (m : Master) (cls : Fin 31) (i : Fin 1024) (v : Nat)
  /-- INJ_ARM: INJ.ARM arms the page's checkers to invert check bits. (R640) -/
  | injArm (cls : Fin 31) (i : Fin 1024)
  /-- DPT_BURST_WRITE: A write burst to the data port stores words into table space from the cursor. (R605) -/
  | dptBurstWrite (m : Master) (off : Nat) (data : List Byte)
  /-- DPT_BURST_READ: A read burst from the data port returns words from the cursor. (R605) -/
  | dptBurstRead (m : Master) (off len : Nat)
  /-- REG_RD: An in-band REG_RD request is checked and answered with the register value. (R613) -/
  | regRd (q : Packet)
  /-- REG_WR: An in-band REG_WR request is checked, applied and answered. (R613) -/
  | regWr (q : Packet)
  /-- DPT_RD: An in-band DPT_RD reads one burst of table space. (R613) -/
  | dptRd (q : Packet)
  /-- DPT_WR: An in-band DPT_WR writes one burst of table space. (R613) -/
  | dptWr (q : Packet)
  /-- RESPONSE: A management RESPONSE with the mailbox's TAG completes the mailbox. (R618) -/
  | response (q : Packet)
  /-- MGT_MBOX_GO: MGT_MBOX.GO sends the mailbox request. (R618) -/
  | mgtMboxGo
  /-- MGT_MBOX_RESEND: RTO passes without a response, and the request is resent or the mailbox fails. (R618) -/
  | mgtMboxResend
  /-- REPLY_CACHE_EXPIRY: A reply-cache entry reaches REPLY_LIFE and is freed. (R616) -/
  | replyCacheExpiry (src tag : Nat)
  /-- MCTP_REQUEST: An MCTP vendor-defined request is applied as a register or table request. (R620) -/
  | mctpRequest (w2 w3 w4 w5 : Nat) (data : List Byte)
  /-- FAULT_EVENT: The collector accepts an event and applies the reaction of its severity. (R627) -/
  | faultEvent
  /-- REPAIR_ENTRY_ADD: Within 10 ms of a bank fence, a repair-record entry is added. (R702) -/
  | repairEntryAdd
  /-- SCRUB_READ: The patrol scrub reads a word and corrects or reports it. (R646) -/
  | scrubRead (bank : Fin 10496) (word : Fin 8192) (bad : Fin 3) (last : Bool)
  /-- CFG_CHECK: The periodic parity check of the configuration registers runs. (R648) -/
  | cfgCheck (cls : Fin 31) (i : Fin 1024) (off : Fin 512) (bad : Bool)
  /-- THERM_WARN: A junction sensor reaches the warning temperature. (R635) -/
  | thermWarn (temp : Nat)
  /-- THERM_TRIP: A sensor reaches 115 °C, and THERM_TRIP_N asserts. (R726) -/
  | thermTrip (temp : Nat)
  /-- RAIL_FAULT: A main rail stays out of ±5% for 5 µs, and the event of its group is raised. (R743) -/
  | railFault (g : RailGroup)
  /-- REFCLK_LOSS: FAB_REFCLK is absent for 1 µs. (R635) -/
  | refclkLoss
  /-- CP_WATCHDOG: A control processor misses its watchdog and is restarted. (R635) -/
  | cpWatchdog
  /-- COLLECTOR_ERR: A check of the collector's own state fails. (R635) -/
  | collectorErr
  /-- HEARTBEAT_EDGE: A heartbeat half period ends and FAULT_N toggles. (R645) -/
  | heartbeatEdge
  /-- FAULT_PULSE_END: The 100 µs FAULT_N pulse ends. (R644) -/
  | faultPulseEnd
  /-- PORT_IDLE_REQUEST: An idle end requests automatic entry to a rung. (R662) -/
  | portIdleRequest (p : Fin 1024)
  /-- PORT_RUNG_CMD: PORT_PWR.CMD_GO requests a commanded rung, or exits with CMD_RUNG 0. (R662) -/
  | portRungCmd (p : Fin 1024) (rung : Fin 8)
  /-- LADDER_REQ_TIMEOUT: A ladder request is unanswered for 100 µs and the end stays in Run. (R662) -/
  | ladderReqTimeout (p : Fin 1024)
  /-- RUNG_STEP_DOWN: After automatic entry, the end steps to the next rung when its time passes. (R666) -/
  | rungStepDown (p : Fin 1024)
  /-- PORT_WAKE: An exit trigger brings the lanes to Run and sends CAP with WAKE = 1. (R668) -/
  | portWake (p : Fin 1024) (light : Bool)
  /-- WAKE_TIMEOUT: Good frames are not received in time after a wake, and the link goes down. (R670) -/
  | wakeTimeout (p : Fin 1024) (d : Nat)
  /-- TILE_RUNG_CMD: A write to TILE_PWR.RUNG commands a tile rung or its exit. (R673) -/
  | tileRungCmd (t : Fin 72) (rung : Fin 8)
  /-- TILE_RUNG_ENTRY: Once its conditions hold, a commanded tile enters its rung. (R673) -/
  | tileRungEntry (t : Fin 72)
  /-- TILE_AUTO_ENTRY: A fabric tile quiet for IDLE enters AUTO_MAX. (R674) -/
  | tileAutoEntry (t : Fin 64)
  /-- DEVICE_RUNG_CMD: PWR_CTL.GO sends the device to a rung, or is refused. (R676) -/
  | deviceRungCmd (rung : Fin 8)
  /-- DEVICE_RUNG_ARRIVAL: Every unit has reached the device rung. (R676) -/
  | deviceRungArrival
  /-- DEVICE_WAKE: A wake source returns the device from its rung. (R678) -/
  | deviceWake (w : WakeSource)
  /-- BANK_BIT_WRITE: A write to the bank RET or OFF bits stops allocation in the bank, or returns it. (R682) -/
  | bankBitWrite (t : Fin 72) (off : Bool) (n : Fin 2) (v : Nat)
  /-- BANK_RUNG_REACHED: A pending bank holds nothing live and moves to its rung. (R682) -/
  | bankRungReached (t : Fin 72) (l : Fin 128)
  /-- COMMIT: ALM_CMD COMMIT writes a snapshot into an Almanac slot. (R699) -/
  | commit (slot : Fin 4)
  /-- REPAIR_CLEAR: ALM_CMD REPAIR_CLEAR removes repair-record entries. (R704) -/
  | repairClear (arg : Fin 65536)
  /-- ERASE: ALM_CMD ERASE erases the selected Almanac regions. (R711) -/
  | erase (m : Master) (mask : Fin 65536)
  /-- UCODE: ALM_CMD UCODE fences an engine and loads its microcode. (R718) -/
  | ucode (arg : Fin 65536)
  /-- ALM_CMD_END: An Almanac command ends and sets RESULT. (R699) -/
  | almCmdEnd (ok : Bool)
  /-- ALM_UNFENCE: ALM_UNFENCE.GO lifts a Degrade fence and the unit returns empty. (R715) -/
  | almUnfence (cls : Fin 64) (i : Fin 1024) (bank : Fin 16384) (scope : Fin 4)
  /-- REFUSAL_PERIOD_END: After a reset or unfence, the non-idempotent refusal period of an engine ends. (R485) -/
  | refusalPeriodEnd (e : Fin 32)
  /-- INJECT_PAUSE_END: After a reset or unfence, the engine's injection pause of A_S + D ends. (R485) -/
  | injectPauseEnd (e : Fin 32)
  /-- OWNER_WRITE: A write to an owner register is accepted, or refused outside presence and seal. (R705) -/
  | ownerWrite (m : Master) (r : OwnerReg) (v : Nat)
  /-- PRESENCE_EDGE: A debounced falling edge of PRESENCE_N opens the presence window. (R706) -/
  | presenceEdge (low : Bool)
  /-- PRESENCE_WINDOW_EXPIRY: 60 s after PRESENCE_N goes high, the window closes. (R706) -/
  | presenceWindowExpiry
  /-- SEAL_MISMATCH: SEAL_B mismatches the pattern, and the window closes. (R707) -/
  | sealMismatch (xfer : Bool)
  /-- FUSE_PROG: FUS_CTL.PROG programs an owner fuse row. (R709) -/
  | fuseProg (m : Master)
  /-- PROG_DONE: Fuse programming ends. (R709) -/
  | progDone (ok : Bool)
  /-- DEBUG_UNLOCK: FUS_DEBUG.UNLOCK opens internal debug access until cold reset. (R710) -/
  | debugUnlock (m : Master)
  /-- FW_IMAGE_ACCEPT: A PLDM firmware image is accepted into the inactive slot. (R712) -/
  | fwImageAccept (version : Fin 65536) (crc : Bool)
  /-- FW_RESTART: ALM_FW.RESTART restarts the control processors on the BOOT image. (R712) -/
  | fwRestart
  /-- LSRC_BUS_POLL: The device reads a laser module's identifier and state over its I2C bus. (R737) -/
  | lsrcBusPoll (e : Fin 16) (ok : Bool) (id : Nat) (ready : Bool)
  /-- BRINGUP_RATE_ALTERNATE: With COMPAT_EN = 1 and no lane locked, every 5 ms bring-up switches between the 200 Gb/s and 100 Gb/s lane modes. (R79) -/
  | bringupRateAlternate (p : Fin 1024)
  /-- LANE_DELINEATED: A hunting lane sees 8 consecutive frames with good CRC, counts as delineated and starts delivering frames again. (R117) -/
  | laneDelineated (lane : Fin 1024)
  /-- DEC_GAP_EXPIRY: DEC_GAP after the last decrease for a destination, with marks already gathered, the engine lowers that destination's rate. (R378) -/
  | decGapExpiry (e : Fin 32) (dest : Nat)
  /-- L1_EXIT: A host link leaves L1 or an L1 substate and returns to L0, releasing requests that waited for the exit. (R581) -/
  | l1Exit (h : Fin 64)
  /-- PWR_GOOD_RISE: PWR_GOOD rises, main domains leave reset, fuse column repair is applied and the main-rail check and monitoring start. (R743) -/
  | pwrGoodRise (mainOut : Bool) (hio : List (Fin 4)) (opt : List (Fin 16))
  /-- RUNG_EXIT_DONE: A lane, tile, engine, unit or bank reaches Run at the end of its rung's exit time after an exit trigger. (R654) -/
  | rungExitDone (u : RungUnit)
  /-- CP_RESTART_DONE: The control processors finish their restart on the BOOT image, or fall back to the other image, and MCTP is answered again. (R712) -/
  | cpRestartDone
deriving DecidableEq, Repr

end Sys2Proof
end

