-- ==== Sys2Proof/Decode.lean ====
section
/-!
DEFINITION. The command that a word spells by the bits of the command table. The table gives no row any bits, so no word spells one.
-/
namespace Sys2Proof

/-- The command that the bits of a word spell (log entry 5). -/
def decodeTableWord (_nbits _w : Nat) : Option Instr := none

end Sys2Proof
end

