-- ==== Sys2Proof/Machine/Arith.lean ====
section
/-!
DEFINITION. The arithmetic of Constellations (R447 to R451): floating-point sums rounded to nearest even, minima and maxima,
integer operations, and exact-sum accumulators.
-/
namespace Sys2Proof.Machine
open Sys2Proof

/-- A floating-point format: exponent bits, mantissa bits, bias; whether it has infinities. -/
structure Fmt where
  eb : Nat
  mb : Nat
  bias : Nat
  inf : Bool
deriving DecidableEq, Repr

/-- The format of a TYPE code, for the floating-point types (Table 11.5). -/
def fmtOf (ty : Nat) : Option Fmt :=
  if ty = 0 then some ⟨8, 23, 127, true⟩
  else if ty = 1 then some ⟨8, 7, 127, true⟩
  else if ty = 2 then some ⟨5, 10, 15, true⟩
  else if ty = 3 then some ⟨4, 3, 7, false⟩
  else if ty = 4 then some ⟨5, 2, 15, true⟩
  else none

/-- Bytes of an element of a TYPE (Table 11.5). -/
def elemSize (ty : Nat) : Nat :=
  if ty = 0 ∨ ty = 5 ∨ ty = 7 then 4 else if ty = 1 ∨ ty = 2 then 2 else if ty = 6 ∨ ty = 8 then 8 else 1

/-- The canonical NaN of a format (R449). -/
def Fmt.nan (f : Fmt) : Nat :=
  if f.inf then (2 ^ f.eb - 1) * 2 ^ f.mb + 2 ^ (f.mb - 1) else 2 ^ (f.eb + f.mb) - 1

/-- Sign, exponent and mantissa of an encoding. -/
def Fmt.neg (f : Fmt) (x : Nat) : Bool := bit x (f.eb + f.mb)
def Fmt.exp (f : Fmt) (x : Nat) : Nat := bits x f.mb f.eb
def Fmt.man (f : Fmt) (x : Nat) : Nat := bits x 0 f.mb

def Fmt.isNan (f : Fmt) (x : Nat) : Bool :=
  f.exp x == 2 ^ f.eb - 1 && (if f.inf then f.man x != 0 else f.man x == 2 ^ f.mb - 1)
def Fmt.isInf (f : Fmt) (x : Nat) : Bool := f.inf && f.exp x == 2 ^ f.eb - 1 && f.man x == 0

/-- Values are whole multiples of 2^-scale. -/
def Fmt.scale (f : Fmt) : Nat := f.bias + f.mb - 1

/-- The magnitude of a finite encoding in units of 2^-scale. -/
def Fmt.mag (f : Fmt) (x : Nat) : Nat := if f.exp x = 0 then f.man x else (2 ^ f.mb + f.man x) * 2 ^ (f.exp x - 1)

/-- The value of a finite encoding in units of 2^-scale. -/
def Fmt.val (f : Fmt) (x : Nat) : Int := if f.neg x then -(f.mag x : Int) else f.mag x

/-- The number of bits of a number below 2^n. -/
def bitLen : Nat → Nat → Nat
  | 0, _ => 0
  | n + 1, x => if 2 ^ n ≤ x then n + 1 else bitLen n x

/-- `n / 2^k` rounded to nearest even. -/
def rne (n k : Nat) : Nat :=
  let q := n / 2 ^ k
  let r := n % 2 ^ k
  if 2 ^ k < 2 * r ∨ (2 * r = 2 ^ k ∧ q % 2 = 1) then q + 1 else q

/-- What an overflow gives: E4M3 saturates to 448, other formats give infinity (R449). -/
def Fmt.over (f : Fmt) : Nat := if f.inf then (2 ^ f.eb - 1) * 2 ^ f.mb else 2 ^ (f.eb + f.mb) - 2

/-- The encoding nearest to `n` units of 2^-t, ties to even, without its sign (`t` at least the scale). -/
def Fmt.round (f : Fmt) (n t : Nat) : Nat :=
  let base := t - f.scale
  let k := max base (bitLen 330 n - (f.mb + 1))
  let q := rne n k
  let (q, k) := if 2 ^ (f.mb + 1) ≤ q then (q / 2, k + 1) else (q, k)
  if q < 2 ^ f.mb then q
  else
    let x := (k - base + 1) * 2 ^ f.mb + q % 2 ^ f.mb
    if f.over < x then f.over else x

/-- A magnitude with its sign. -/
def Fmt.signed (f : Fmt) (neg : Bool) (x : Nat) : Nat := x + if neg then 2 ^ (f.eb + f.mb) else 0

/-- The sum of two encodings (R449). PRESUMED: log entry 119. -/
def Fmt.add (f : Fmt) (a b : Nat) : Nat :=
  if f.isNan a || f.isNan b then f.nan
  else if f.isInf a then (if f.isInf b && f.neg a != f.neg b then f.nan else a)
  else if f.isInf b then b
  else
    let v := f.val a + f.val b
    if v = 0 then f.signed (f.neg a && f.neg b) 0 else f.signed (decide (v < 0)) (f.round v.natAbs f.scale)

/-- The order of MIN and MAX: -0 lies below +0 (R449). -/
def Fmt.key (f : Fmt) (x : Nat) : Int := if f.neg x then -((x % 2 ^ (f.eb + f.mb) : Nat) : Int) - 1 else x

/-- MIN (or MAX) of two encodings. -/
def Fmt.pick (f : Fmt) (max : Bool) (a b : Nat) : Nat :=
  if f.isNan a || f.isNan b then f.nan else if (f.key a ≤ f.key b) = (max = false) then a else b

/-- Integer operations (Table 11.5, R449). -/
def intOp (op ty a b : Nat) : Nat :=
  let w := 8 * elemSize ty
  let sg := ty == 5 || ty == 6
  let le := if sg then decide (signedOf a w ≤ signedOf b w) else decide (a ≤ b)
  if op = 1 then (a + b) % 2 ^ w
  else if op = 2 then (if le then a else b)
  else if op = 3 then (if le then b else a)
  else if op = 4 then Nat.land a b
  else if op = 5 then Nat.lor a b
  else if op = 6 then Nat.xor a b
  else a

/-- One step of a fold (R448). -/
def combine (op ty a b : Nat) : Nat := match fmtOf ty with
  | some f => if op = 1 then f.add a b else if op = 2 then f.pick false a b else if op = 3 then f.pick true a b else a
  | none => intOp op ty a b

/-- The combinations of Table 11.5. -/
def colAllowed (op ty : Nat) (exact : Bool) : Bool :=
  if op = 0 then !exact
  else if exact then op == 1 && decide (ty ≤ 2)
  else decide (ty ≤ 8) && decide (op ≤ (if ty ≤ 4 then 3 else 6))

/-! ### Exact-sum accumulators (R450, R451) -/

/-- A raw input as an accumulator. -/
def toAcc (ty x : Nat) : Nat := match fmtOf ty with
  | none => 0
  | some f =>
    if f.isNan x then 2 ^ 317
    else if f.isInf x then (if f.neg x then 2 ^ 319 else 2 ^ 318)
    else ofSigned (f.val x * 2 ^ (149 - f.scale)) 317

/-- Two accumulators added. -/
def addAcc (a b : Nat) : Nat := (a % 2 ^ 317 + b % 2 ^ 317) % 2 ^ 317 + Nat.lor (bits a 317 3) (bits b 317 3) * 2 ^ 317

/-- An accumulator rounded in TYPE (R451). -/
def roundAcc (ty x : Nat) : Nat := match fmtOf ty with
  | none => 0
  | some f =>
    if bit x 317 || (bit x 318 && bit x 319) then f.nan
    else if bit x 318 then f.over
    else if bit x 319 then f.signed true f.over
    else
      let v := signedOf (x % 2 ^ 317) 317
      if v = 0 then 0 else f.signed (decide (v < 0)) (f.round v.natAbs 149)

/-- Numbers of `n` bytes each read from a list, `k` of them. -/
def elemsOf (n : Nat) : Nat → List Byte → List Nat
  | 0, _ => []
  | k + 1, l => ofLeBytes (l.take n) :: elemsOf n k (l.drop n)

/-- Lists combined element by element. -/
def zipFold (f : Nat → Nat → Nat) (a b : List Nat) : List Nat := (a.zip b).map fun p => f p.1 p.2

end Sys2Proof.Machine
end

