-- ==== Sys2Proof/Config.lean ====
section
/-!
DEFINITION. What an implementation fixes and the spec leaves open. Every constant here is opaque: nothing in Lean can
evaluate it or prove a value of it, so a claim holds whatever it is.
-/
namespace Sys2Proof.Config

/-- The free values of the model (log entry 1): the value drawn at count `n`. A use cuts it to the width it needs. Random
draws (nonces, jitter, backoff) and every value the spec leaves undefined come from here. -/
opaque free : Nat → Nat

/-- How many ports of a list a block takes for a number of ports that Table 6.2 does not list (R17; log entry 135). -/
opaque listLength : Nat → Nat

/-- The value that fuses load into the register field with this key (Table 0.3, code F; log entry 2). -/
opaque fuse : Nat → Nat

/-- ID.VERSION of the pages of a class (Table 16.3: set by hardware; log entry 2). -/
opaque blockVersion : Nat → Nat

/-- The bytes of the two factory firmware images' versions and of the factory microcode (log entry 2). -/
opaque factoryVersion : Nat → Nat

/-- The engine microcode version that the firmware image of a version carries (log entry 2). -/
opaque microcode : Nat → Nat

/-- Yoqua's PCI-SIG Vendor ID, which fuses hold, and the Revision ID of a PF and of a VF (Table 15.2; log entry 2). -/
opaque vendorId : Nat
opaque revisionId : Bool → Nat

end Sys2Proof.Config
end

