-- ==== Sys2Proof/Machine/EngState.lean ====
section
/-!
DEFINITION. The state of the engines and of the collective, lock and filter units: contexts, queues, operations, translations,
trackers, matching lists, streams, chunks and waiters (chapters 8 to 14), and the host requests that are out.
-/
namespace Sys2Proof.Machine
open Sys2Proof

/-! ### What leaves the device -/

/-- Something the device sends or drives, in the order of issue. -/
inductive Output where
  /-- The 272 bytes of a frame on a lane index of a fabric port (R115). -/
  | frame (port lane : Nat) (b : List Byte)
  /-- The value of a register read, to the party that read it. -/
  | regData (m : Master) (v : Nat)
  /-- A PTM dialog on a host port (R47). -/
  | ptmRequest (port : Nat)
  /-- A memory read of a host port, as segments (address, bytes, No Snoop). A flushing read has length 0. -/
  | hostRead (tag port func : Nat) (segs : List (Nat × Nat × Bool))
  /-- A posted write; with No Snoop; with TPH. -/
  | hostWrite (port func addr : Nat) (data : List Byte) (ns tph : Bool)
  /-- A PCIe AtomicOp: FetchAdd, or CAS with compare and swap values; with No Snoop. -/
  | atomicOp (tag port func addr size : Nat) (cas : Bool) (a b : Nat) (ns : Bool)
  /-- An MSI-X message (R577). -/
  | msix (port func addr data : Nat)
  /-- A PM_PME message (R580) and an LTR message (R581). -/
  | pme (port func : Nat)
  | ltr (port latency : Nat)
  /-- An error message of AER: ERR_NONFATAL or ERR_FATAL (R565, R573, R641). -/
  | errMsg (port func : Nat) (fatal : Bool)
  /-- The completion of an inbound request: Unsupported Request, Request Retry Status, or the data of a configuration read. -/
  | unsupported (port func : Nat)
  | retryStatus (port func : Nat)
  | cfgData (port func v : Nat)
  /-- Data that a data-port burst reads, and an MCTP response: words 2 to 5 and data (R605, R620). -/
  | burst (m : Master) (words : List Nat)
  | mctp (words : List Nat) (data : List Byte)
deriving DecidableEq, Repr

/-- A 64-byte descriptor as its eight words (Table 8.4). -/
abbrev Desc := List Nat

/-- What an access to a context virtual address is for (Table 13.4): descriptor fetch, the clearing of OWN (R302), read, write,
atomic. -/
inductive Use where
  | fetch | own | read | write | atomic
deriving DecidableEq, Repr

/-- An entry that has ended and waits to be counted: queue, index, status, SIGNAL (R316); whether it is a FENCE (R478). -/
structure Fin1 where
  q : Nat
  idx : Nat
  status : Nat
  sig : Bool
  fence : Bool
deriving DecidableEq, Repr

/-- A record on its way to a ring: its words but for OWN, the entry it finishes, and for an error record the event that
follows it (R317). -/
structure Rec where
  words : List Nat
  fin : Option Fin1
  next : Option (List Nat)
deriving DecidableEq, Repr

/-- A work queue of a cached context (Tables 8.1, 8.2). -/
structure WorkQ where
  /-- 0 OFF, 1 RUN, 2 ERROR, 3 DRAIN. -/
  st : Nat
  start : Nat
  done : Nat
  errs : Nat
  /-- Entries read and not started, from index START on. -/
  cache : List Desc
  /-- A poll read is out; the next poll follows its return; its result is discarded. -/
  out : Option Nat
  again : Bool
  drop : Bool
  /-- Elapsed MT of the next poll. -/
  pollAt : Nat
  /-- Started entries not finished, by rising index. -/
  live : List Nat
  /-- A completion record is to be written; elapsed MT since which, and at once. -/
  compFrom : Option Nat
  compNow : Bool
  /-- First failed entry since the last FENCE, reset or load (R478). -/
  bad : Option Nat
  /-- A FENCE that waits (R477). -/
  fence : Option (Nat × Desc)
  /-- WQ_CTL.INDEX. -/
  ctl : Nat
  /-- Polled as hot (R304). -/
  hot : Bool
  /-- Finished entries with SIGNAL that DONE has not passed (R318). -/
  sigs : List Nat
deriving DecidableEq, Repr

/-- A cached context (R289). -/
structure Ctx where
  num : Nat
  /-- The range of its engine that it was loaded by (R284). -/
  rng : Nat
  /-- The record as read: software fields. -/
  words : List Nat
  faulted : Bool
  /-- Fetching stopped by EVICT or CLOSE. -/
  stop : Bool
  /-- Loaded as if PIN = 0 and HOT = 0 (R293). -/
  plain : Bool
  evqWr : Nat
  errqWr : Nat
  evqRd : Nat
  errqRd : Nat
  qs : List WorkQ
  ovf : Bool
  uxpWr : Nat
  /-- CTX_STAT. -/
  lost : Nat
  evqFull : Bool
  errqFull : Bool
  armed : Bool
  /-- Elapsed MT of the last use. -/
  used : Nat
  events : List Rec
  errors : List Rec
deriving DecidableEq, Repr

/-- An access to a user page: offset, byte count, data written (none for a read) and the party. -/
structure PageAcc where
  off : Nat
  len : Nat
  val : Option Nat
  m : Master
deriving DecidableEq, Repr

/-- A load of a context record (R294). -/
structure Load where
  ctx : Nat
  /-- 0 waiting, 1 word 0 read, 2 words 1 to 63 read; by which range of the engine, once it has begun (R284). -/
  phase : Nat
  rng : Nat
  w0 : Nat
deriving DecidableEq, Repr

/-- A part of an operation to send: payload offset, length, and why: 0 first copy, 1 new attempt, 2 hole, 3 after NACK_BUSY. -/
structure Seg where
  poff : Nat
  len : Nat
  why : Nat
deriving DecidableEq, Repr

/-- A GET segment (R340, R371): range, offsets arrived, elapsed MT of the last arrival; packets written to host memory, whose cells are
free again; offsets asked for again, each with its own reservation (R372). -/
structure GetSeg where
  poff : Nat
  len : Nat
  got : List Nat
  last : Nat
  placed : Nat
  again : List Nat
deriving DecidableEq, Repr

/-- The receive that a message landed in: queue, index, buffer, its length, cookie (Table 10.1). -/
structure Buf where
  q : Nat
  idx : Nat
  addr : Nat
  len : Nat
  cookie : Nat
deriving DecidableEq, Repr

/-- A message as the matching lists know it (R389). -/
structure Msg where
  ctx : Nat
  src : Nat
  sctx : Nat
  opid : Nat
  bits : Nat
  total : Nat
  sl : Nat
  rdv : Bool
  skip : Bool
deriving DecidableEq, Repr

/-- What an entry ended with: status, peer and its context, address, operation, detail, returned value. -/
structure Ending where
  status : Nat
  peer : Nat := 0
  pctx : Nat := 0
  addr : Nat := 0
  opid : Nat := 0
  detail : Nat := 0
  info : Nat := 0
deriving DecidableEq, Repr

/-- An operation in flight (R333). -/
structure Op where
  gen : Nat
  /-- Opcode of the descriptor; 0x20 for a FLUSH, 0x109 for a pull (R398). -/
  kind : Nat
  ctx : Nat
  q : Nat
  idx : Nat
  desc : Desc
  dest : Nat
  tctx : Nat
  sl : Nat
  rmode : Nat
  ord : Bool
  total : Nat
  /-- The opcode's own command has begun it. -/
  begun : Bool
  attempt : Nat
  /-- Attempts counted against MAX_RETRY, NACK_BUSY answers. -/
  tries : Nat
  busyN : Nat
  unsent : List Seg
  /-- The payload of the front of `unsent`, and a read for it is out. -/
  buf : Option (List Byte)
  rd : Bool
  sentAny : Bool
  /-- Some packet was sent more than once (R356). -/
  twice : Bool
  lastSent : Nat
  /-- Start of the retry timer. -/
  timer : Option Nat
  /-- Elapsed MT of the last hole-driven resend. -/
  holeAt : Option Nat
  /-- Offsets refused by NACK_BUSY, with the end of the wait (R354). -/
  backoff : List (Nat × Nat)
  /-- The request last sent from each offset of a GET: offset, bytes (R354). -/
  asked : List (Nat × Nat)
  /-- A packet with TU = 1 was received for it. -/
  tu : Bool
  segs : List GetSeg
  /-- The SEND travels as an RTS (R394, R397); accepted or queued, so that further attempts are probes (R400, R533). -/
  rdv : Bool
  probe : Bool
  /-- Stream and SSEQ of an ordered SEND. -/
  stream : Option (Nat × Nat)
  /-- Bytes placed, for a GET or a pull. -/
  wrote : Nat
  /-- The outcome, while the completion hold runs (R356). -/
  held : Option Ending
  /-- The message and buffer of a pull. -/
  pull : Option (Msg × Buf)
  /-- Elapsed MT at which the slot was taken. -/
  since : Nat
deriving DecidableEq, Repr

/-- A COLL in progress at an engine (R444, R445). -/
structure Coll where
  ctx : Nat
  q : Nat
  idx : Nat
  desc : Desc
  g : Nat
  slot : Nat
  seq : Nat
  /-- Elements in the vector, elements per chunk, chunks. -/
  elems : Nat
  per : Nat
  chunks : Nat
  /-- Next chunk to send; chunks to send again. -/
  next : Nat
  resend : List Nat
  /-- A source read is out for this chunk. -/
  rd : Option Nat
  /-- Chunks whose RESULT has come; those of them written. -/
  seen : List Nat
  got : List Nat
  status : Nat
  fbits : Nat
  prune : Nat
  last : Nat
  begun : Bool
deriving DecidableEq, Repr

/-- A started entry that takes no operation slot and waits for its opcode's command. -/
structure Begun where
  ctx : Nat
  q : Nat
  idx : Nat
  desc : Desc
deriving DecidableEq, Repr

/-- A translation (R511). `rights` is R + 2W + 4X + 8U. -/
structure Tlb where
  ctx : Nat
  log2 : Nat
  vpage : Nat
  pa : Nat
  mtype : Nat
  rights : Nat
  d : Bool
deriving DecidableEq, Repr

/-- A walk-cache entry: a table pointer reached at `level` (R502). -/
structure WalkC where
  ctx : Nat
  level : Nat
  tag : Nat
  ptr : Nat
  mtype : Nat
  rights : Nat
deriving DecidableEq, Repr

/-- A region entry (R342, Table 9.3). -/
structure Region where
  ctx : Nat
  reg : Nat
  words : List Nat
deriving DecidableEq, Repr

/-- A line of the atomic cache (R375). -/
structure Line where
  /-- The contexts and regions whose atomics it holds. -/
  users : List (Nat × Nat)
  pa : Nat
  port : Nat
  func : Nat
  ns : Bool
  data : List Byte
  dirty : Bool
  used : Nat
deriving DecidableEq, Repr

/-- A piece of engine work that needs translations or a region entry; it is run again from its start when they are there. -/
inductive Job where
  /-- A poll of a queue (R303). -/
  | poll (c q : Nat)
  /-- OWN cleared in the slot of an entry (R302). -/
  | own (c q idx cookie : Nat)
  /-- The completion record of a queue (R315). -/
  | comp (c q : Nat)
  /-- The first waiting event record, error record (R319). -/
  | event (c : Nat)
  | error (c : Nat)
  /-- The payload of an operation's next packet. -/
  | src (slot gen : Nat)
  /-- A returned value written to its local address: status, value. -/
  | result (slot gen status value : Nat)
  /-- GET_DATA placed. -/
  | getData (slot gen : Nat) (pkt : Packet)
  /-- A request at its target, checks 2 to 7 (R343). -/
  | req (pkt : Packet)
  /-- The flag of a PUT_FLAG whose data are in place: SRC, OPID, context, address. -/
  | flag (pkt : Packet) (va : Nat)
  /-- The answer of a PUT or PUT_FLAG, and of a whole SEND, whose writes were held (R473). -/
  | done (pkt : Packet)
  | whole (pkt : Packet)
  /-- A chunk of a COLL read, a result chunk written. -/
  | collSrc (c q idx chunk : Nat)
  | collRes (c q idx : Nat) (pkt : Packet)
  /-- Payload of a SEND packet placed in its buffer or slot. -/
  | msg (pkt : Packet)
  /-- A pool slot read for a buffer, and its bytes placed in the buffer (R396, R410). -/
  | pool (m : Msg) (b : Buf) (slot : Nat)
  | place (m : Msg) (b : Buf) (data : List Byte)
  /-- The data of a rendezvous at the initiator (R399). -/
  | rdv (pkt : Packet)
deriving DecidableEq, Repr

/-- A table walk (R499): the entry awaited and the accesses that share it. -/
structure Walk where
  ctx : Nat
  /-- VA bits [47:12]. -/
  page : Nat
  level : Nat
  /-- Address of the entry that is out, and the rights so far. -/
  addr : Nat
  rights : Nat
  /-- The table that holds it is of type UC (R498). -/
  ns : Bool
  running : Bool
  /-- Compare and swap values of the A/D CAS that is out. -/
  cas : Option (Nat × Nat)
  retries : Nat
  /-- Begun before an invalidation of its scope (R515, R516). -/
  restart : Bool
  /-- The accesses that share it, each with its own address. -/
  waits : List (Job × Use × Nat)
deriving DecidableEq, Repr

/-- A reassembly tracker (R347). -/
structure Tracker where
  src : Nat
  opid : Nat
  ctx : Nat
  send : Bool
  attempt : Nat
  /-- Packets counted: offset and length. -/
  parts : List (Nat × Nat)
  high : Nat
  marks : Nat
  /-- The packet with the flag, counted and pending (R368). -/
  flag : Option Packet
  timer : Nat
  /-- The timer ran out with no packet counted since. -/
  ran : Bool
  tu : Bool
  /-- The packet last counted, for the answer. -/
  last : Packet
  /-- All bytes counted; the flush or the flag is under way. -/
  closing : Bool
deriving DecidableEq, Repr

/-- A duplicate-filter entry (R364): state, the stored answer (PKIND, word 5, words 6 and 7) and the expiry. -/
structure Dup where
  src : Nat
  opid : Nat
  done : Bool
  kind : Nat
  w5 : Nat
  w6 : Nat
  w7 : Nat
  expiry : Nat
  /-- A packet with TU = 1 was received for the operation (R61). -/
  tu : Bool
  /-- Latest expiry of a PENDING entry whose tracker has closed (R401). -/
  till : Option Nat
deriving DecidableEq, Repr

/-- A congestion entry (R377). `rate` is in units of 0.125 Gb/s; `dec`: it has decreased in this period (R379). -/
structure CC where
  dest : Nat
  rate : Nat
  dec : Bool
deriving DecidableEq, Repr

/-- What an engine gathered for a destination since its last decrease, and the elapsed MT of that decrease (R378). -/
structure Gather where
  marks : Nat
  pkts : Nat
  decAt : Option Nat
deriving DecidableEq, Repr

/-- A posted receive (R391). -/
structure Posted where
  ctx : Nat
  bits : Nat
  ignore : Nat
  filter : Nat
  buf : Buf
deriving DecidableEq, Repr

/-- Where an accepted eager message lands. -/
inductive Place where
  /-- A receive buffer, or a pool slot. -/
  | buf (b : Buf)
  | slot (n : Nat)
deriving DecidableEq, Repr

/-- A message known to the target: unexpected, held in its stream, handed to software, or landing. -/
structure Known where
  msg : Msg
  place : Option Place
  /-- 0 landing in a buffer, 1 unexpected, 2 held, 3 handed over, 4 being pulled or copied, 5 pulled and waiting for a filter
  entry, 6 waiting for an operation slot to be pulled, 7 released while its context was not cached, to be matched at its load. -/
  st : Nat
  /-- Stream order, for held messages. -/
  sseq : Nat
  squeue : Nat
  /-- Elapsed MT of the arrival. -/
  at_ : Nat
  /-- The eager data have all arrived. -/
  whole : Bool
  /-- The receive that took it from the list. -/
  recv : Option Buf
  /-- The RECV_POST of that receive, while its entry waits for the placement to start (R388). -/
  owes : Option Desc
  /-- ATTEMPT and CE of the last SEND or RTS packet accepted, and whether some packet had TU = 1 (R61, R376). -/
  attempt : Nat
  ce : Bool
  tu : Bool
deriving DecidableEq, Repr

/-- A send-side stream entry (R402). -/
structure TxStream where
  ctx : Nat
  q : Nat
  dest : Nat
  tctx : Nat
  sid : Nat
  next : Nat
  inflight : List Nat
  last : Nat
deriving DecidableEq, Repr

/-- A receive-side stream entry (R403). -/
structure RxStream where
  src : Nat
  sctx : Nat
  squeue : Nat
  tctx : Nat
  sid : Nat
  expect : Nat
  last : Nat
  tu : Bool
deriving DecidableEq, Repr

/-- A boost-table entry (R546): device (group and device), unit, lock, context, level, expiry. -/
structure Boost where
  dev : Nat
  unit : Nat
  lock : Nat
  ctx : Nat
  level : Nat
  expiry : Nat
deriving DecidableEq, Repr

/-- An invalidation under way: the entry it finishes (context, queue, index, descriptor) or none for XLT_INVAL, and the walks of its scope
(engine, context, page) that must end first, with the TLPs of its functions that must be sent first (R515). -/
structure Inval where
  entry : Option (Nat × Nat × Nat × Desc)
  walks : List (Nat × Nat × Nat)
  held : List (Nat × Nat × Output)
deriving DecidableEq, Repr

/-- One engine. -/
structure Eng where
  /-- Packets for cached contexts, and packets in the miss buffer (R295). -/
  ready : List Packet
  miss : List Packet
  loads : List Load
  /-- User-page accesses that wait for a load (R328). -/
  pages : List (Nat × PageAcc)
  /-- CTX_CMD running: OP and the contexts still to be dropped. -/
  cmd : Option (Nat × List Nat)
  begun : List Begun
  colls : List Coll
  tlb : List Tlb
  wc : List WalkC
  walks : List Walk
  regions : List Region
  /-- Jobs that wait for a region entry (context, region), or for a line of the atomic cache (context, 2^20 + line address). -/
  regWait : List (Nat × Nat × Job)
  lines : List Line
  trackers : List Tracker
  cc : List CC
  gath : Tab Gather
  /-- Elapsed MT at which the next packet to a destination may leave. -/
  pace : Tab Nat
  posted : List Posted
  known : List Known
  tx : List TxStream
  rx : List RxStream
  boosts : List Boost
  invals : List Inval
  jobs : List Job
  /-- Context and queue that started an entry last (R308). -/
  rr : Nat × Nat
  /-- Ends of the injection pause and of the refusal of non-idempotent requests (R485). -/
  pauseTo : Nat
  refuseTo : Nat
  /-- Jobs whose translation failed, with the fault kind and the faulting address, still to be reported. -/
  faults : List (Job × Nat × Nat)
  /-- Of a job that waits for a translation: how many of its accesses were looked up in the TLB. -/
  looked : List (Job × Nat)
  /-- Requests that ended at once because their link is down (R585). -/
  dead : List Nat
  /-- Answers that wait until the writes before them have been issued (R473). -/
  unissued : List Job
deriving DecidableEq, Repr

/-- A stage of a flushing read (R475). -/
inductive FlushFor where
  /-- The ACK of a PUT; the flag of a PUT_FLAG, at an address; a FLUSH. -/
  | ack (pkt : Packet)
  | flag (pkt : Packet) (va : Nat)
deriving DecidableEq, Repr

/-- What a host request is for. -/
inductive Purpose where
  | word0 (c : Nat)
  | record (c : Nat)
  | poll (c q first n : Nat)
  | walk (c page : Nat)
  | cas (c page : Nat)
  | payload (slot gen poff : Nat)
  | getTgt (pkt : Packet)
  | region (c r : Nat)
  | line (c region pa : Nat) (ns : Bool)
  | atomicOp (pkt : Packet)
  | flush (f : FlushFor)
  | coll (c q idx chunk : Nat)
  | pool (m : Msg) (b : Buf) (slot : Nat)
  | rdv (pkt : Packet)
deriving DecidableEq, Repr

/-- A non-posted request that is out (R573). -/
structure HostReq where
  tag : Nat
  eng : Nat
  port : Nat
  func : Nat
  why : Purpose
  /-- TLPs of it (R555). -/
  tlps : Nat
  /-- Elapsed MT from which its time runs; ended by FAB_TO before its completion (R574). -/
  since : Nat
  ended : Bool
  /-- No longer outstanding; a completion that still comes is late (R575). -/
  closed : Bool
deriving DecidableEq, Repr

/-- A chunk that a unit holds (R439). -/
structure Chunk where
  g : Nat
  idx : Nat
  /-- Senders present: 0 to 63 local slots, 64 + i child entry i; with the elements each gave. -/
  ins : List (Nat × List Nat)
  fbits : Nat
  prune : Nat
  /-- Sent up already. -/
  sent : Bool
deriving DecidableEq, Repr

/-- An open sequence of a group (R439, R458). -/
structure Sequence where
  g : Nat
  total : Nat
  timer : Nat
  reissues : Nat
  /-- Chunks with a RESULT seen or injected. -/
  done : List Nat
deriving DecidableEq, Repr

/-- A waiter for a lock (R529). -/
structure Waiter where
  lock : Nat
  src : Nat
  opid : Nat
  ctx : Nat
  prio : Nat
  lease : Nat
  seen : Nat
  tu : Bool
  sl : Nat
  /-- ATTEMPT of its last LOCK_ACQ (Table 9.1). -/
  attempt : Nat
deriving DecidableEq, Repr

/-- What a lock unit knows of a holder beside the lock entry: OPID, grant status, lease as asked. -/
structure Holder where
  opid : Nat
  stat : Nat
  boostAt : Nat
  tu : Bool
deriving DecidableEq, Repr

/-- One collective, lock and filter unit. -/
structure CUnit where
  dup : List Dup
  chunks : List Chunk
  seqs : List Sequence
  /-- Groups with VALID = 1 in the unit. -/
  groups : List Nat
  /-- Recorded prune points, and branches marked fenced here, by group (R453). -/
  prune : Tab Nat
  marks : Tab Nat
  /-- Groups whose present sequence has raised WINDOW_DROP (R439). -/
  warned : List Nat
  waiters : List Waiter
  holders : Tab Holder
deriving DecidableEq, Repr

/-- An engine, a unit, a queue and an operation slot at reset. -/
def WorkQ.reset : WorkQ := ⟨0, 0, 0, 0, [], none, false, false, 0, [], none, false, none, none, 0, false, []⟩
def Eng.reset : Eng :=
  ⟨[], [], [], [], none, [], [], [], [], [], [], [], [], [], [], [], [], [], [], [], [], [], [], [], (0, 0), 0, 0, [], [], [], []⟩
def CUnit.reset : CUnit := ⟨[], [], [], [], [], [], [], [], []⟩

end Sys2Proof.Machine
end

