-- ==== Sys2Proof/Machine/FieldType.lean ====
section
/-!
DEFINITION. The types that describe registers: access codes (Table 0.2), reset-column entries (Table 0.3), a field of a
register table, and an event bit of a page (R595).
-/
namespace Sys2Proof.Machine

/-- The base access codes of Table 0.2. -/
inductive Acc where
  | rw | ro | w1c | wo | rws
deriving DecidableEq, Repr

/-- The entries of a Reset column (Table 0.3), with the three columns that depend on the index of the field. -/
inductive Rst where
  /-- A number. -/
  | num (n : Nat)
  /-- Set by hardware as the field's description states: the description's rule computes it. -/
  | hw
  /-- Loaded from fuses. -/
  | fuse
  /-- Sampled from a strap pin. -/
  | pin
  /-- CORE_AGE c: 3,125 for REQ and RSP, 12,500 for COL, 625,000 for MGT (R198). -/
  | age
  /-- FUN_PF i: 1 for i = 0, else 0 (R587). -/
  | pfEn
  /-- FLT_SEV n.SEV k: the default of Table 17.3 (R634). -/
  | sev
deriving DecidableEq, Repr

/-- One field of a register table. -/
structure Fld where
  /-- Class code (Table 16.1); 63 for a field of the common header. -/
  cls : Nat
  /-- Offset in the page of the register, or of element 0 of a register array. -/
  off : Nat
  /-- Step in bytes of a register array. -/
  stride : Nat
  /-- Number of registers of the array. -/
  cnt : Nat
  /-- Lowest bit (of sub-field 0). -/
  lo : Nat
  /-- Width in bits. -/
  w : Nat
  /-- Step in bits from one sub-field to the next. -/
  sub : Nat
  /-- Number of sub-fields in one register. -/
  subn : Nat
  acc : Acc
  /-- Sticky (ST). -/
  st : Bool
  /-- Restored from the Almanac (AL). -/
  al : Bool
  /-- Marked as an owner register in its table. -/
  owner : Bool
  reset : Rst
deriving DecidableEq, Repr

/-- A bit of EVT_STAT in the pages of a class. -/
structure Evt where
  cls : Nat
  bit : Nat
deriving DecidableEq, Repr

end Sys2Proof.Machine
end

