-- ==== Sys2Proof/Machine/Events.lean ====
section
/-!
DEFINITION. The events of every page: class and bit of EVT_STAT, as the event tables of the spec number them; the docstring
names the rule that holds the table. The checker events common to every page (Table 17.1) are bit numbers only.
-/
namespace Sys2Proof.Machine.E

/-- MT ALARM: R76. -/
def MT_ALARM : Evt := ⟨1, 0⟩
/-- MT STATE_CHANGE: R76. -/
def MT_STATE_CHANGE : Evt := ⟨1, 1⟩
/-- MT UNSURE_ENTRY: R76. -/
def MT_UNSURE_ENTRY : Evt := ⟨1, 2⟩
/-- MT STEPPED: R76. -/
def MT_STEPPED : Evt := ⟨1, 3⟩
/-- MT SRC_LOST: R76. -/
def MT_SRC_LOST : Evt := ⟨1, 4⟩
/-- MT HOLD_BREACH: R76. -/
def MT_HOLD_BREACH : Evt := ⟨1, 5⟩
/-- MT LOOP: R76. -/
def MT_LOOP : Evt := ⟨1, 6⟩
/-- MT SWAP_REFUSED: R76. -/
def MT_SWAP_REFUSED : Evt := ⟨1, 7⟩
/-- MT ALM_EXHAUSTED: R76. -/
def MT_ALM_EXHAUSTED : Evt := ⟨1, 8⟩
/-- MT ALARM_LATE: R76. -/
def MT_ALARM_LATE : Evt := ⟨1, 9⟩
/-- LANE LOCK_LOSS: R114. -/
def LANE_LOCK_LOSS : Evt := ⟨8, 0⟩
/-- LANE FAILED: R114. -/
def LANE_FAILED : Evt := ⟨8, 1⟩
/-- LANE FEC_UNCORR: R114. -/
def LANE_FEC_UNCORR : Evt := ⟨8, 2⟩
/-- LANE RCAL_DRIFT: R114. -/
def LANE_RCAL_DRIFT : Evt := ⟨8, 3⟩
/-- LANE LANE_ORDER: R114. -/
def LANE_ORDER : Evt := ⟨8, 4⟩
/-- OPT LSRC_REMOVED: R114. -/
def OPT_LSRC_REMOVED : Evt := ⟨9, 0⟩
/-- OPT LSRC_INSERTED: R114. -/
def OPT_LSRC_INSERTED : Evt := ⟨9, 1⟩
/-- OPT FEED_LOW: R114. -/
def OPT_FEED_LOW : Evt := ⟨9, 2⟩
/-- OPT FEED_LOST: R114. -/
def OPT_FEED_LOST : Evt := ⟨9, 3⟩
/-- OPT REACH_REJ: R114. -/
def OPT_REACH_REJ : Evt := ⟨9, 4⟩
/-- PORT LINK_UP: R114. -/
def PORT_LINK_UP : Evt := ⟨10, 0⟩
/-- PORT LINK_DOWN: R114. -/
def PORT_LINK_DOWN : Evt := ⟨10, 1⟩
/-- PORT DEGRADED: R114. -/
def PORT_DEGRADED : Evt := ⟨10, 2⟩
/-- PORT RESTORED: R114. -/
def PORT_RESTORED : Evt := ⟨10, 3⟩
/-- PORT FLUSH: R114. -/
def PORT_FLUSH : Evt := ⟨10, 4⟩
/-- PORT FORM_ERR: R114. -/
def PORT_FORM_ERR : Evt := ⟨10, 5⟩
/-- PORT WIDTH_MISMATCH: R114. -/
def PORT_WIDTH_MISMATCH : Evt := ⟨10, 6⟩
/-- PORT TRAIN_FAIL: R114. -/
def PORT_TRAIN_FAIL : Evt := ⟨10, 7⟩
/-- PORT COMPAT_LINK: R114. -/
def PORT_COMPAT_LINK : Evt := ⟨10, 8⟩
/-- LNK CRC_ERR: R162. -/
def LNK_CRC_ERR : Evt := ⟨11, 0⟩
/-- LNK HUNT: R162. -/
def LNK_HUNT : Evt := ⟨11, 1⟩
/-- LNK RTX_TIMER: R162. -/
def LNK_RTX_TIMER : Evt := ⟨11, 2⟩
/-- LNK RTX_EXHAUST: R162. -/
def LNK_RTX_EXHAUST : Evt := ⟨11, 3⟩
/-- LNK PEER_FENCED: R162. -/
def LNK_PEER_FENCED : Evt := ⟨11, 4⟩
/-- LNK CR_VIOLATION: R162. -/
def LNK_CR_VIOLATION : Evt := ⟨11, 5⟩
/-- LNK CR_OVERCOMMIT: R162. -/
def LNK_CR_OVERCOMMIT : Evt := ⟨11, 6⟩
/-- LNK TRUNC: R162. -/
def LNK_TRUNC : Evt := ⟨11, 7⟩
/-- LNK COMPAT_DROP: R162. -/
def LNK_COMPAT_DROP : Evt := ⟨11, 8⟩
/-- LNK SLOTS_REJ: R162. -/
def LNK_SLOTS_REJ : Evt := ⟨11, 9⟩
/-- CORE MID_FENCED: R199. -/
def CORE_MID_FENCED : Evt := ⟨16, 0⟩
/-- CORE MID_RESTORED: R199. -/
def CORE_MID_RESTORED : Evt := ⟨16, 1⟩
/-- CORE FENCE_REJ: R199. -/
def CORE_FENCE_REJ : Evt := ⟨16, 2⟩
/-- CORE FENCE_LOSS: R199. -/
def CORE_FENCE_LOSS : Evt := ⟨16, 3⟩
/-- BUF OVER_QUOTA: R199. -/
def BUF_OVER_QUOTA : Evt := ⟨13, 0⟩
/-- BUF OUT_OVERCOMMIT: R199. -/
def BUF_OUT_OVERCOMMIT : Evt := ⟨13, 1⟩
/-- BUF AGE_DROP: R199. -/
def BUF_AGE_DROP : Evt := ⟨13, 2⟩
/-- BUF REASM_DROP: R199. -/
def BUF_REASM_DROP : Evt := ⟨13, 3⟩
/-- BUF MC_PRUNE: R199. -/
def BUF_MC_PRUNE : Evt := ⟨13, 4⟩
/-- BUF MC_BAD: R199. -/
def BUF_MC_BAD : Evt := ⟨13, 5⟩
/-- RTE NOROUTE: R242. -/
def RTE_NOROUTE : Evt := ⟨14, 0⟩
/-- RTE HOP_DROP: R242. -/
def RTE_HOP_DROP : Evt := ⟨14, 1⟩
/-- RTE FENCE_DROP: R242. -/
def RTE_FENCE_DROP : Evt := ⟨14, 2⟩
/-- RTE SWAP_DONE: R242. -/
def RTE_SWAP_DONE : Evt := ⟨14, 3⟩
/-- RTE BANK_BUSY: R242. -/
def RTE_BANK_BUSY : Evt := ⟨14, 4⟩
/-- RTE GOSSIP_STALE: R242. -/
def RTE_GOSSIP_STALE : Evt := ⟨14, 5⟩
/-- TEL RING_LOST: R282. -/
def TEL_RING_LOST : Evt := ⟨29, 0⟩
/-- TEL RING_HALF: R282. -/
def TEL_RING_HALF : Evt := ⟨29, 1⟩
/-- ENG CTX_FAULT: R331. -/
def ENG_CTX_FAULT : Evt := ⟨18, 0⟩
/-- ENG MISS_FULL: R331. -/
def ENG_MISS_FULL : Evt := ⟨18, 1⟩
/-- ENG PIN_EXCESS: R331. -/
def ENG_PIN_EXCESS : Evt := ⟨18, 2⟩
/-- CTX RANGE_OVERLAP: R331. -/
def CTX_RANGE_OVERLAP : Evt := ⟨19, 0⟩
/-- CTX CTX_BIND_ERR: R331. -/
def CTX_BIND_ERR : Evt := ⟨19, 1⟩
/-- CTX CTX_FETCH_ERR: R331. -/
def CTX_FETCH_ERR : Evt := ⟨19, 2⟩
/-- CTX CMD_DONE: R331. -/
def CTX_CMD_DONE : Evt := ⟨19, 3⟩
/-- WQ QUEUE_ERROR: R331. -/
def WQ_QUEUE_ERROR : Evt := ⟨20, 0⟩
/-- RMA RETRY_EXHAUST: R384. -/
def RMA_RETRY_EXHAUST : Evt := ⟨21, 0⟩
/-- RMA ACCESS_REFUSED: R384. -/
def RMA_ACCESS_REFUSED : Evt := ⟨21, 1⟩
/-- RMA NO_TRACKER: R384. -/
def RMA_NO_TRACKER : Evt := ⟨21, 2⟩
/-- RMA STG_OVERCOMMIT: R384. -/
def RMA_STG_OVERCOMMIT : Evt := ⟨21, 3⟩
/-- RMA BOUND_VIOL: R384. -/
def RMA_BOUND_VIOL : Evt := ⟨21, 4⟩
/-- RMA SPARE_DROP: R384. -/
def RMA_SPARE_DROP : Evt := ⟨21, 5⟩
/-- DUP DUP_FULL: R384. -/
def DUP_FULL : Evt := ⟨25, 0⟩
/-- DUP BOUND_VIOL: R384. -/
def DUP_BOUND_VIOL : Evt := ⟨25, 1⟩
/-- MAT OVERFLOW: R417. -/
def MAT_OVERFLOW : Evt := ⟨22, 0⟩
/-- MAT STREAM_FULL: R417. -/
def MAT_STREAM_FULL : Evt := ⟨22, 1⟩
/-- MAT GAP_SKIP: R417. -/
def MAT_GAP_SKIP : Evt := ⟨22, 2⟩
/-- MAT ORD_LATE: R417. -/
def MAT_ORD_LATE : Evt := ⟨22, 3⟩
/-- MAT BOUND_VIOL: R417. -/
def MAT_BOUND_VIOL : Evt := ⟨22, 4⟩
/-- COL CMD_DONE: R465. -/
def COL_CMD_DONE : Evt := ⟨17, 0⟩
/-- COL CMD_ERR: R465. -/
def COL_CMD_ERR : Evt := ⟨17, 1⟩
/-- COL MEMBER_FENCED: R465. -/
def COL_MEMBER_FENCED : Evt := ⟨17, 2⟩
/-- COL REISSUE: R465. -/
def COL_REISSUE : Evt := ⟨17, 3⟩
/-- COL COL_EXHAUSTED: R465. -/
def COL_EXHAUSTED : Evt := ⟨17, 4⟩
/-- COL ENTRY_BUSY: R465. -/
def COL_ENTRY_BUSY : Evt := ⟨17, 5⟩
/-- COL WINDOW_DROP: R465. -/
def COL_WINDOW_DROP : Evt := ⟨17, 6⟩
/-- XLT WALK_ERR: R520. -/
def XLT_WALK_ERR : Evt := ⟨23, 0⟩
/-- XLT XLT_FAULT: R520. -/
def XLT_FAULT : Evt := ⟨23, 1⟩
/-- XLT INVAL_DONE: R520. -/
def XLT_INVAL_DONE : Evt := ⟨23, 2⟩
/-- LCK LAPSE: R550. -/
def LCK_LAPSE : Evt := ⟨24, 0⟩
/-- LCK ABANDON: R550. -/
def LCK_ABANDON : Evt := ⟨24, 1⟩
/-- LCK WAITERS_FULL: R550. -/
def LCK_WAITERS_FULL : Evt := ⟨24, 2⟩
/-- LCK WAITER_DROP: R550. -/
def LCK_WAITER_DROP : Evt := ⟨24, 3⟩
/-- LCK BOUND_VIOL: R550. -/
def LCK_BOUND_VIOL : Evt := ⟨24, 4⟩
/-- LCK OVER_QUOTA: R550. -/
def LCK_OVER_QUOTA : Evt := ⟨24, 5⟩
/-- HPT LINK_UP: R588. -/
def HPT_LINK_UP : Evt := ⟨26, 0⟩
/-- HPT LINK_DOWN: R588. -/
def HPT_LINK_DOWN : Evt := ⟨26, 1⟩
/-- HPT CPL_TIMEOUT: R588. -/
def HPT_CPL_TIMEOUT : Evt := ⟨26, 2⟩
/-- HPT FAB_TIMEOUT: R588. -/
def HPT_FAB_TIMEOUT : Evt := ⟨26, 3⟩
/-- HPT UR_SENT: R588. -/
def HPT_UR_SENT : Evt := ⟨26, 4⟩
/-- HPT POISON_RX: R588. -/
def HPT_POISON_RX : Evt := ⟨26, 5⟩
/-- HPT DEGRADED: R588. -/
def HPT_DEGRADED : Evt := ⟨26, 6⟩
/-- HPT PERST: R588. -/
def HPT_PERST : Evt := ⟨26, 7⟩
/-- FUN FLR: R588. -/
def FUN_FLR : Evt := ⟨28, 0⟩
/-- FUN VF_OVERCOMMIT: R588. -/
def FUN_VF_OVERCOMMIT : Evt := ⟨28, 1⟩
/-- FUN VEC_OVERCOMMIT: R588. -/
def FUN_VEC_OVERCOMMIT : Evt := ⟨28, 2⟩
/-- FUN VEC_RANGE: R588. -/
def FUN_VEC_RANGE : Evt := ⟨28, 3⟩
/-- FUN PME_SENT: R588. -/
def FUN_PME_SENT : Evt := ⟨28, 4⟩
/-- WIN COMMIT_DONE: R588. -/
def WIN_COMMIT_DONE : Evt := ⟨27, 0⟩
/-- WIN COMMIT_IGNORED: R588. -/
def WIN_COMMIT_IGNORED : Evt := ⟨27, 1⟩
/-- DPT DPT_ERR: R623. -/
def DPT_ERR : Evt := ⟨6, 0⟩
/-- MGT MGT_DISCARD: R623. -/
def MGT_DISCARD : Evt := ⟨5, 0⟩
/-- MGT MGT_REFUSED: R623. -/
def MGT_REFUSED : Evt := ⟨5, 1⟩
/-- MGT MBOX_DONE: R623. -/
def MGT_MBOX_DONE : Evt := ⟨5, 2⟩
/-- MGT BOUND_VIOL: R623. -/
def MGT_BOUND_VIOL : Evt := ⟨5, 3⟩
/-- Bit of MEM_CE in every page: R626. -/
def bitMemCe : Nat := 56
/-- Bit of MEM_UE in every page: R626. -/
def bitMemUe : Nat := 57
/-- Bit of DP_CE in every page: R626. -/
def bitDpCe : Nat := 58
/-- Bit of DP_UE in every page: R626. -/
def bitDpUe : Nat := 59
/-- Bit of CFG_ERR in every page: R626. -/
def bitCfgErr : Nat := 60
/-- FLT THERM_WARN: R635. -/
def FLT_THERM_WARN : Evt := ⟨2, 0⟩
/-- FLT THERM_TRIP: R635. -/
def FLT_THERM_TRIP : Evt := ⟨2, 1⟩
/-- FLT RAIL_MAIN: R635. -/
def FLT_RAIL_MAIN : Evt := ⟨2, 2⟩
/-- FLT RAIL_HIO: R635. -/
def FLT_RAIL_HIO : Evt := ⟨2, 3⟩
/-- FLT RAIL_OPT: R635. -/
def FLT_RAIL_OPT : Evt := ⟨2, 4⟩
/-- FLT REFCLK_LOSS: R635. -/
def FLT_REFCLK_LOSS : Evt := ⟨2, 5⟩
/-- FLT BRIDGE_CE: R635. -/
def FLT_BRIDGE_CE : Evt := ⟨2, 6⟩
/-- FLT BRIDGE_UE: R635. -/
def FLT_BRIDGE_UE : Evt := ⟨2, 7⟩
/-- FLT SCRUB_LATE: R635. -/
def FLT_SCRUB_LATE : Evt := ⟨2, 8⟩
/-- FLT CP_WATCHDOG: R635. -/
def FLT_CP_WATCHDOG : Evt := ⟨2, 9⟩
/-- FLT NOTIFY_ERR: R635. -/
def FLT_NOTIFY_ERR : Evt := ⟨2, 10⟩
/-- FLT COLLECTOR_ERR: R635. -/
def FLT_COLLECTOR_ERR : Evt := ⟨2, 11⟩
/-- PWR DEV_RUNG_DONE: R688. -/
def PWR_DEV_RUNG_DONE : Evt := ⟨3, 0⟩
/-- PWR DEV_RUNG_REFUSED: R688. -/
def PWR_DEV_RUNG_REFUSED : Evt := ⟨3, 1⟩
/-- PWR WAKE: R688. -/
def PWR_WAKE : Evt := ⟨3, 2⟩
/-- PORT WAKE_FAIL: R688. -/
def PORT_WAKE_FAIL : Evt := ⟨10, 9⟩
/-- TILE RUNG_REFUSED: R688. -/
def TILE_RUNG_REFUSED : Evt := ⟨12, 0⟩
/-- TILE BANK_REJ: R688. -/
def TILE_BANK_REJ : Evt := ⟨12, 1⟩
/-- ALM RESTORE_DONE: R721. -/
def ALM_RESTORE_DONE : Evt := ⟨4, 0⟩
/-- ALM RESTORE_FAIL: R721. -/
def ALM_RESTORE_FAIL : Evt := ⟨4, 1⟩
/-- ALM CAL_FAIL: R721. -/
def ALM_CAL_FAIL : Evt := ⟨4, 2⟩
/-- ALM COMMIT_DONE: R721. -/
def ALM_COMMIT_DONE : Evt := ⟨4, 3⟩
/-- ALM COMMIT_FAIL: R721. -/
def ALM_COMMIT_FAIL : Evt := ⟨4, 4⟩
/-- ALM SEAL_BROKEN: R721. -/
def ALM_SEAL_BROKEN : Evt := ⟨4, 5⟩
/-- ALM OWNER_REFUSED: R721. -/
def ALM_OWNER_REFUSED : Evt := ⟨4, 6⟩
/-- ALM FW_FALLBACK: R721. -/
def ALM_FW_FALLBACK : Evt := ⟨4, 7⟩
/-- ALM REPAIR_FULL: R721. -/
def ALM_REPAIR_FULL : Evt := ⟨4, 8⟩
/-- ALM UNFENCE_DONE: R721. -/
def ALM_UNFENCE_DONE : Evt := ⟨4, 9⟩
/-- FUS PROG_DONE: R721. -/
def FUS_PROG_DONE : Evt := ⟨30, 0⟩
/-- FUS PROG_ERR: R721. -/
def FUS_PROG_ERR : Evt := ⟨30, 1⟩
/-- FUS DEBUG_UNLOCKED: R721. -/
def FUS_DEBUG_UNLOCKED : Evt := ⟨30, 2⟩
/-- Bit of PMC_SAT in every page: R282. -/
def bitPmcSat : Nat := 63

/-- The number of event bits a class lists in its chapter. -/
def chapterBits : Nat → Nat
  | 1 => 10
  | 2 => 12
  | 3 => 3
  | 4 => 10
  | 5 => 4
  | 6 => 1
  | 8 => 5
  | 9 => 5
  | 10 => 10
  | 11 => 10
  | 12 => 2
  | 13 => 6
  | 14 => 6
  | 16 => 4
  | 17 => 7
  | 18 => 3
  | 19 => 4
  | 20 => 1
  | 21 => 6
  | 22 => 5
  | 23 => 3
  | 24 => 6
  | 25 => 2
  | 26 => 8
  | 27 => 2
  | 28 => 5
  | 29 => 2
  | 30 => 3
  | _ => 0

end Sys2Proof.Machine.E
end

