-- ==== Sys2Proof/Machine/Fields.lean ====
section
/-!
DEFINITION. Every register field of the device, one constant each, as the field tables of the spec give it: class (Table
16.1), offset, array stride and length, lowest bit, width, sub-index step, access code (Table 0.2) and reset value.
The docstring of each names the rule of the table that holds it. `HDR` fields stand in every page (Table 16.3).
-/
namespace Sys2Proof.Machine.F

/-- CYC.COUNT: R278. -/
def CYC_COUNT : Fld := ⟨63, 0x60, 0, 1, 0, 64, 0, 1, .ro, true, false, false, .num 0⟩
/-- PMC_SEL.EV: R278. -/
def PMC_SEL_EV : Fld := ⟨63, 0x68, 0, 1, 0, 8, 8, 8, .rw, false, false, false, .num 0⟩
/-- PMC.COUNT: R278. -/
def PMC_COUNT : Fld := ⟨63, 0x70, 8, 8, 0, 48, 0, 1, .rw, false, false, false, .num 0⟩
/-- PMC.SAT: R278. -/
def PMC_SAT : Fld := ⟨63, 0x70, 8, 8, 63, 1, 0, 1, .rw, false, false, false, .num 0⟩
/-- PMC_CTL.EN: R278. -/
def PMC_CTL_EN : Fld := ⟨63, 0xB0, 0, 1, 0, 8, 0, 1, .rw, false, false, false, .num 0⟩
/-- PMC_CTL.SAT_EVT: R278. -/
def PMC_CTL_SAT_EVT : Fld := ⟨63, 0xB0, 0, 1, 8, 8, 0, 1, .rw, false, false, false, .num 0⟩
/-- PMC_CTL.SNAP_EN: R278. -/
def PMC_CTL_SNAP_EN : Fld := ⟨63, 0xB0, 0, 1, 16, 1, 0, 1, .rw, false, false, false, .num 0⟩
/-- PMC_CTL.FREEZE: R278. -/
def PMC_CTL_FREEZE : Fld := ⟨63, 0xB0, 0, 1, 17, 1, 0, 1, .rw, false, false, false, .num 0⟩
/-- PMC_CTL.SNAP_NOW: R278. -/
def PMC_CTL_SNAP_NOW : Fld := ⟨63, 0xB0, 0, 1, 18, 1, 0, 1, .wo, false, false, false, .num 0⟩
/-- PMC_CTL.NUM: R278. -/
def PMC_CTL_NUM : Fld := ⟨63, 0xB0, 0, 1, 20, 4, 0, 1, .ro, false, false, false, .hw⟩
/-- PMC_CTL.TAG: R278. -/
def PMC_CTL_TAG : Fld := ⟨63, 0xB0, 0, 1, 32, 24, 0, 1, .rw, false, false, false, .num 0⟩
/-- PMC_CTL.FILT_EN: R278. -/
def PMC_CTL_FILT_EN : Fld := ⟨63, 0xB0, 0, 1, 56, 8, 0, 1, .rw, false, false, false, .num 0⟩
/-- PMC_SNAP.TAG: R278. -/
def PMC_SNAP_TAG : Fld := ⟨63, 0xB8, 0, 1, 0, 24, 0, 1, .ro, false, false, false, .num 0⟩
/-- PMC_SNAP.SEQ: R278. -/
def PMC_SNAP_SEQ : Fld := ⟨63, 0xB8, 0, 1, 32, 16, 0, 1, .ro, false, false, false, .num 0⟩
/-- ID.CODE: R596. -/
def ID_CODE : Fld := ⟨63, 0x0, 0, 1, 0, 16, 0, 1, .ro, false, false, false, .hw⟩
/-- ID.CLASS: R596. -/
def ID_CLASS : Fld := ⟨63, 0x0, 0, 1, 16, 6, 0, 1, .ro, false, false, false, .hw⟩
/-- ID.INSTANCE: R596. -/
def ID_INSTANCE : Fld := ⟨63, 0x0, 0, 1, 22, 10, 0, 1, .ro, false, false, false, .hw⟩
/-- ID.VERSION: R596. -/
def ID_VERSION : Fld := ⟨63, 0x0, 0, 1, 32, 8, 0, 1, .ro, false, false, false, .hw⟩
/-- CAP.NEVT: R596. -/
def CAP_NEVT : Fld := ⟨63, 0x8, 0, 1, 0, 7, 0, 1, .ro, false, false, false, .hw⟩
/-- CAP.SHADOW: R596. -/
def CAP_SHADOW : Fld := ⟨63, 0x8, 0, 1, 8, 1, 0, 1, .ro, false, false, false, .hw⟩
/-- CAP.EPOCH: R596. -/
def CAP_EPOCH : Fld := ⟨63, 0x8, 0, 1, 9, 1, 0, 1, .ro, false, false, false, .hw⟩
/-- CAP.AL: R596. -/
def CAP_AL : Fld := ⟨63, 0x8, 0, 1, 10, 1, 0, 1, .ro, false, false, false, .hw⟩
/-- CTL.CNT_CLR: R596. -/
def CTL_CNT_CLR : Fld := ⟨63, 0x10, 0, 1, 0, 1, 0, 1, .wo, false, false, false, .num 0⟩
/-- STAT.CAP_VALID: R596. -/
def STAT_CAP_VALID : Fld := ⟨63, 0x18, 0, 1, 0, 1, 0, 1, .w1c, false, false, false, .num 0⟩
/-- STAT.CAP_OVF: R596. -/
def STAT_CAP_OVF : Fld := ⟨63, 0x18, 0, 1, 1, 1, 0, 1, .w1c, false, false, false, .num 0⟩
/-- STAT.RUNG: R596. -/
def STAT_RUNG : Fld := ⟨63, 0x18, 0, 1, 8, 3, 0, 1, .ro, false, false, false, .num 0⟩
/-- STAT.FENCED: R596. -/
def STAT_FENCED : Fld := ⟨63, 0x18, 0, 1, 12, 1, 0, 1, .ro, false, false, false, .num 0⟩
/-- EVT_STAT.EVT: R596. -/
def EVT_STAT_EVT : Fld := ⟨63, 0x20, 0, 1, 0, 64, 0, 1, .w1c, false, false, false, .num 0⟩
/-- EVT_EN.EN: R596. -/
def EVT_EN_EN : Fld := ⟨63, 0x28, 0, 1, 0, 64, 0, 1, .rw, false, true, false, .num 18446744073709551615⟩
/-- EVT_FORCE.FORCE: R596. -/
def EVT_FORCE_FORCE : Fld := ⟨63, 0x30, 0, 1, 0, 64, 0, 1, .wo, false, false, false, .num 0⟩
/-- EVT_BASE.BASE: R596. -/
def EVT_BASE_BASE : Fld := ⟨63, 0x38, 0, 1, 0, 11, 0, 1, .ro, false, false, false, .hw⟩
/-- CAP_ADDR.ADDR: R596. -/
def CAP_ADDR_ADDR : Fld := ⟨63, 0x40, 0, 1, 0, 64, 0, 1, .ro, true, false, false, .num 0⟩
/-- CAP_INFO.EVT: R596. -/
def CAP_INFO_EVT : Fld := ⟨63, 0x48, 0, 1, 0, 6, 0, 1, .ro, true, false, false, .num 0⟩
/-- CAP_INFO.SPACE: R596. -/
def CAP_INFO_SPACE : Fld := ⟨63, 0x48, 0, 1, 8, 2, 0, 1, .ro, true, false, false, .num 0⟩
/-- CAP_INFO.MKIND: R596. -/
def CAP_INFO_MKIND : Fld := ⟨63, 0x48, 0, 1, 12, 2, 0, 1, .ro, true, false, false, .num 0⟩
/-- CAP_INFO.MASTER: R596. -/
def CAP_INFO_MASTER : Fld := ⟨63, 0x48, 0, 1, 16, 24, 0, 1, .ro, true, false, false, .num 0⟩
/-- CAP_INFO.ACC: R596. -/
def CAP_INFO_ACC : Fld := ⟨63, 0x48, 0, 1, 40, 4, 0, 1, .ro, true, false, false, .num 0⟩
/-- CAP_TIME.MT: R596. -/
def CAP_TIME_MT : Fld := ⟨63, 0x50, 0, 1, 0, 64, 0, 1, .ro, true, false, false, .num 0⟩
/-- INJ.MASK: R596. -/
def INJ_MASK : Fld := ⟨63, 0x58, 0, 1, 0, 8, 0, 1, .rw, false, false, false, .num 0⟩
/-- INJ.ARM: R596. -/
def INJ_ARM : Fld := ⟨63, 0x58, 0, 1, 8, 1, 0, 1, .wo, false, false, false, .num 0⟩
/-- INJ.PEND: R596. -/
def INJ_PEND : Fld := ⟨63, 0x58, 0, 1, 9, 1, 0, 1, .ro, false, false, false, .num 0⟩
/-- SHADOW_CTL.COMMIT: R596. -/
def SHADOW_CTL_COMMIT : Fld := ⟨63, 0xC0, 0, 1, 0, 1, 0, 1, .wo, false, false, false, .num 0⟩
/-- SHADOW_CTL.DISCARD: R596. -/
def SHADOW_CTL_DISCARD : Fld := ⟨63, 0xC0, 0, 1, 1, 1, 0, 1, .wo, false, false, false, .num 0⟩
/-- SHADOW_CTL.DISARM: R596. -/
def SHADOW_CTL_DISARM : Fld := ⟨63, 0xC0, 0, 1, 2, 1, 0, 1, .wo, false, false, false, .num 0⟩
/-- SHADOW_CTL.VIEW_ACTIVE: R596. -/
def SHADOW_CTL_VIEW_ACTIVE : Fld := ⟨63, 0xC0, 0, 1, 8, 1, 0, 1, .rw, false, false, false, .num 0⟩
/-- SHADOW_CTL.PEND: R596. -/
def SHADOW_CTL_PEND : Fld := ⟨63, 0xC0, 0, 1, 16, 1, 0, 1, .ro, false, false, false, .num 0⟩
/-- SHADOW_CTL.ARMED: R596. -/
def SHADOW_CTL_ARMED : Fld := ⟨63, 0xC0, 0, 1, 17, 1, 0, 1, .ro, false, false, false, .num 0⟩
/-- SHADOW_CTL.SLOT: R596. -/
def SHADOW_CTL_SLOT : Fld := ⟨63, 0xC0, 0, 1, 24, 6, 0, 1, .ro, false, false, false, .num 0⟩
/-- EPOCH_AT.NS: R596. -/
def EPOCH_AT_NS : Fld := ⟨63, 0xC8, 0, 1, 0, 64, 0, 1, .rw, false, false, false, .num 0⟩

/-- DEV_SELF.GROUP: R241. -/
def DEV_SELF_GROUP : Fld := ⟨0, 0x140, 0, 1, 0, 11, 0, 1, .rw, false, true, false, .num 0⟩
/-- DEV_SELF.DEVICE: R241. -/
def DEV_SELF_DEVICE : Fld := ⟨0, 0x140, 0, 1, 16, 7, 0, 1, .rw, false, true, false, .num 0⟩
/-- DEV_SELF.VALID: R241. -/
def DEV_SELF_VALID : Fld := ⟨0, 0x140, 0, 1, 24, 1, 0, 1, .rw, false, true, false, .num 0⟩
/-- DEV_INFO.PART: R622. -/
def DEV_INFO_PART : Fld := ⟨0, 0x100, 0, 1, 0, 16, 0, 1, .ro, false, false, false, .fuse⟩
/-- DEV_INFO.STEP: R622. -/
def DEV_INFO_STEP : Fld := ⟨0, 0x100, 0, 1, 16, 8, 0, 1, .ro, false, false, false, .fuse⟩
/-- DEV_RESET.KEY: R622. -/
def DEV_RESET_KEY : Fld := ⟨0, 0x108, 0, 1, 0, 16, 0, 1, .wo, false, false, false, .num 0⟩
/-- DEV_SERIAL.SN: R622. -/
def DEV_SERIAL_SN : Fld := ⟨0, 0x110, 0, 1, 0, 64, 0, 1, .ro, false, false, false, .fuse⟩
/-- DEST_CAP.LEGACY: R760. -/
def DEST_CAP_LEGACY : Fld := ⟨0, 0x400, 8, 32, 0, 64, 0, 1, .rw, false, true, false, .num 0⟩

/-- MT_NOW.NS: R74. -/
def MT_NOW_NS : Fld := ⟨1, 0x100, 0, 1, 0, 64, 0, 1, .ro, true, false, false, .num 0⟩
/-- MT_FRAC.FRAC: R74. -/
def MT_FRAC_FRAC : Fld := ⟨1, 0x108, 0, 1, 0, 16, 0, 1, .ro, true, false, false, .num 0⟩
/-- MT_SRC.KIND: R74. -/
def MT_SRC_KIND : Fld := ⟨1, 0x110, 0, 1, 0, 2, 0, 1, .rw, false, true, false, .num 0⟩
/-- MT_SRC.EXT_MODE: R74. -/
def MT_SRC_EXT_MODE : Fld := ⟨1, 0x110, 0, 1, 2, 1, 0, 1, .rw, false, true, false, .num 0⟩
/-- MT_SRC.PTM_PORT: R74. -/
def MT_SRC_PTM_PORT : Fld := ⟨1, 0x110, 0, 1, 8, 6, 0, 1, .rw, false, true, false, .num 0⟩
/-- MT_SRC.UP_PORT: R74. -/
def MT_SRC_UP_PORT : Fld := ⟨1, 0x110, 0, 1, 16, 10, 0, 1, .rw, false, true, false, .num 0⟩
/-- MT_SRC.ALT_PORT: R74. -/
def MT_SRC_ALT_PORT : Fld := ⟨1, 0x110, 0, 1, 32, 10, 0, 1, .rw, false, true, false, .num 0⟩
/-- MT_SRC.ALT_EN: R74. -/
def MT_SRC_ALT_EN : Fld := ⟨1, 0x110, 0, 1, 48, 1, 0, 1, .rw, false, true, false, .num 0⟩
/-- MT_STAT.STATE: R74. -/
def MT_STAT_STATE : Fld := ⟨1, 0x118, 0, 1, 0, 2, 0, 1, .ro, true, false, false, .num 0⟩
/-- MT_STAT.FIRST_LOCK: R74. -/
def MT_STAT_FIRST_LOCK : Fld := ⟨1, 0x118, 0, 1, 2, 1, 0, 1, .ro, true, false, false, .num 0⟩
/-- MT_STAT.STEPPED: R74. -/
def MT_STAT_STEPPED : Fld := ⟨1, 0x118, 0, 1, 3, 1, 0, 1, .w1c, true, false, false, .num 0⟩
/-- MT_STAT.TOD_PENDING: R74. -/
def MT_STAT_TOD_PENDING : Fld := ⟨1, 0x118, 0, 1, 4, 1, 0, 1, .ro, false, false, false, .num 0⟩
/-- MT_STAT.ON_ALT: R74. -/
def MT_STAT_ON_ALT : Fld := ⟨1, 0x118, 0, 1, 5, 1, 0, 1, .ro, true, false, false, .num 0⟩
/-- MT_STAT.LOOP: R74. -/
def MT_STAT_LOOP : Fld := ⟨1, 0x118, 0, 1, 6, 1, 0, 1, .w1c, false, false, false, .num 0⟩
/-- MT_STAT.HOPS: R74. -/
def MT_STAT_HOPS : Fld := ⟨1, 0x118, 0, 1, 8, 4, 0, 1, .ro, true, false, false, .num 15⟩
/-- MT_STAT.ERR_NS: R74. -/
def MT_STAT_ERR_NS : Fld := ⟨1, 0x118, 0, 1, 32, 16, 0, 1, .ro, true, false, false, .num 65535⟩
/-- MT_TOD_NEXT.NS: R74. -/
def MT_TOD_NEXT_NS : Fld := ⟨1, 0x120, 0, 1, 0, 64, 0, 1, .rw, false, false, false, .num 0⟩
/-- MT_ACC.LIMIT: R74. -/
def MT_ACC_LIMIT : Fld := ⟨1, 0x128, 0, 1, 0, 16, 0, 1, .rw, false, true, false, .num 25⟩
/-- MT_ACC.HOLD_DRIFT: R74. -/
def MT_ACC_HOLD_DRIFT : Fld := ⟨1, 0x128, 0, 1, 16, 32, 0, 1, .rw, false, true, false, .num 1000⟩
/-- MT_ACC.SETTLE: R74. -/
def MT_ACC_SETTLE : Fld := ⟨1, 0x128, 0, 1, 48, 8, 0, 1, .rw, false, true, false, .num 100⟩
/-- MT_SLEW.MAX_PPB: R74. -/
def MT_SLEW_MAX_PPB : Fld := ⟨1, 0x130, 0, 1, 0, 16, 0, 1, .rw, false, true, false, .num 1000⟩
/-- MT_SLEW.STEP_THRESH: R74. -/
def MT_SLEW_STEP_THRESH : Fld := ⟨1, 0x130, 0, 1, 16, 32, 0, 1, .rw, false, true, false, .num 1000⟩
/-- MT_SYNC.TIME_K: R74. -/
def MT_SYNC_TIME_K : Fld := ⟨1, 0x138, 0, 1, 0, 5, 0, 1, .rw, false, true, false, .num 17⟩
/-- MT_SYNC.PTM_K: R74. -/
def MT_SYNC_PTM_K : Fld := ⟨1, 0x138, 0, 1, 8, 5, 0, 1, .rw, false, true, false, .num 20⟩
/-- MT_CONS.FACTOR: R74. -/
def MT_CONS_FACTOR : Fld := ⟨1, 0x140, 0, 1, 0, 8, 0, 1, .rw, false, true, false, .num 16⟩
/-- MT_PPS_OUT.EN: R74. -/
def MT_PPS_OUT_EN : Fld := ⟨1, 0x148, 0, 1, 0, 1, 0, 1, .rw, false, true, false, .num 0⟩
/-- MT_PPS_OUT.WIDTH: R74. -/
def MT_PPS_OUT_WIDTH : Fld := ⟨1, 0x148, 0, 1, 8, 20, 0, 1, .rw, false, true, false, .num 100⟩
/-- MT_PPS_OUT.COMP: R74. -/
def MT_PPS_OUT_COMP : Fld := ⟨1, 0x148, 0, 1, 32, 32, 0, 1, .rw, false, true, false, .num 0⟩
/-- MT_EXT_COMP.PS: R74. -/
def MT_EXT_COMP_PS : Fld := ⟨1, 0x150, 0, 1, 0, 32, 0, 1, .rw, false, true, false, .num 0⟩
/-- MT_PTM_OFS.NS: R74. -/
def MT_PTM_OFS_NS : Fld := ⟨1, 0x158, 0, 1, 0, 64, 0, 1, .rw, false, true, false, .num 0⟩
/-- MT_REF_ERR.EXT_ERR: R74. -/
def MT_REF_ERR_EXT_ERR : Fld := ⟨1, 0x160, 0, 1, 0, 16, 0, 1, .rw, false, true, false, .num 5⟩
/-- MT_REF_ERR.PTM_ERR: R74. -/
def MT_REF_ERR_PTM_ERR : Fld := ⟨1, 0x160, 0, 1, 16, 16, 0, 1, .rw, false, true, false, .num 10⟩
/-- MT_ALM_STAT.BITS: R74. -/
def MT_ALM_STAT_BITS : Fld := ⟨1, 0x168, 0, 1, 0, 64, 0, 1, .w1c, false, false, false, .num 0⟩
/-- MT_ALM_LATE.BITS: R74. -/
def MT_ALM_LATE_BITS : Fld := ⟨1, 0x170, 0, 1, 0, 64, 0, 1, .w1c, false, false, false, .num 0⟩
/-- MT_ALM_REFUSED.BITS: R74. -/
def MT_ALM_REFUSED_BITS : Fld := ⟨1, 0x178, 0, 1, 0, 64, 0, 1, .w1c, false, false, false, .num 0⟩
/-- MT_ALM_TIME.NS: R74. -/
def MT_ALM_TIME_NS : Fld := ⟨1, 0x200, 16, 64, 0, 64, 0, 1, .rw, false, false, false, .num 0⟩
/-- MT_ALM_CTL.EN: R74. -/
def MT_ALM_CTL_EN : Fld := ⟨1, 0x208, 16, 64, 0, 1, 0, 1, .rw, false, false, false, .num 0⟩
/-- MT_ALM_CTL.ACTION: R74. -/
def MT_ALM_CTL_ACTION : Fld := ⟨1, 0x208, 16, 64, 1, 3, 0, 1, .rw, false, false, false, .num 0⟩
/-- MT_ALM_CTL.INT: R74. -/
def MT_ALM_CTL_INT : Fld := ⟨1, 0x208, 16, 64, 4, 1, 0, 1, .rw, false, false, false, .num 0⟩
/-- MT_ALM_CTL.ARG: R74. -/
def MT_ALM_CTL_ARG : Fld := ⟨1, 0x208, 16, 64, 8, 24, 0, 1, .rw, false, false, false, .num 0⟩
/-- MT_ALM_CTL.PERIOD: R74. -/
def MT_ALM_CTL_PERIOD : Fld := ⟨1, 0x208, 16, 64, 32, 32, 0, 1, .rw, false, false, false, .num 0⟩

/-- FLT_CTL.ALERT_SEV: R652. -/
def FLT_CTL_ALERT_SEV : Fld := ⟨2, 0x100, 0, 1, 0, 3, 0, 1, .rw, false, true, false, .num 3⟩
/-- FLT_CTL.THERM_WARN: R652. -/
def FLT_CTL_THERM_WARN : Fld := ⟨2, 0x100, 0, 1, 16, 8, 0, 1, .rw, false, true, false, .num 100⟩
/-- FLT_STAT.SAFE: R652. -/
def FLT_STAT_SAFE : Fld := ⟨2, 0x108, 0, 1, 0, 1, 0, 1, .ro, false, false, false, .num 0⟩
/-- FLT_STAT.ALERT: R652. -/
def FLT_STAT_ALERT : Fld := ⟨2, 0x108, 0, 1, 1, 1, 0, 1, .ro, false, false, false, .num 0⟩
/-- FLT_STAT.MODE: R652. -/
def FLT_STAT_MODE : Fld := ⟨2, 0x108, 0, 1, 2, 1, 0, 1, .ro, false, false, false, .pin⟩
/-- FLT_STAT.HB_RUN: R652. -/
def FLT_STAT_HB_RUN : Fld := ⟨2, 0x108, 0, 1, 3, 1, 0, 1, .ro, false, false, false, .num 0⟩
/-- FLT_STAT.BUSY: R652. -/
def FLT_STAT_BUSY : Fld := ⟨2, 0x108, 0, 1, 4, 1, 0, 1, .ro, false, false, false, .num 0⟩
/-- FLT_PIN_CTL.ASSERT: R652. -/
def FLT_PIN_CTL_ASSERT : Fld := ⟨2, 0x110, 0, 1, 0, 1, 0, 1, .rw, true, false, false, .num 0⟩
/-- FLT_PIN_CTL.ON_DEGRADE: R652. -/
def FLT_PIN_CTL_ON_DEGRADE : Fld := ⟨2, 0x110, 0, 1, 1, 1, 0, 1, .rw, false, true, false, .num 0⟩
/-- FLT_SCRUB.EN: R652. -/
def FLT_SCRUB_EN : Fld := ⟨2, 0x118, 0, 1, 0, 1, 0, 1, .rw, false, true, false, .num 1⟩
/-- FLT_SCRUB.PERIOD: R652. -/
def FLT_SCRUB_PERIOD : Fld := ⟨2, 0x118, 0, 1, 8, 4, 0, 1, .rw, false, true, false, .num 8⟩
/-- FLT_SCRUB_STAT.LAST_US: R652. -/
def FLT_SCRUB_STAT_LAST_US : Fld := ⟨2, 0x120, 0, 1, 0, 24, 0, 1, .ro, false, false, false, .num 0⟩
/-- FLT_SCRUB_STAT.PASSES: R652. -/
def FLT_SCRUB_STAT_PASSES : Fld := ⟨2, 0x120, 0, 1, 32, 32, 0, 1, .ro, true, false, false, .num 0⟩
/-- FLT_NOTIFY.EN: R652. -/
def FLT_NOTIFY_EN : Fld := ⟨2, 0x128, 0, 1, 0, 1, 0, 1, .rw, false, true, false, .num 0⟩
/-- FLT_NOTIFY.PORT: R652. -/
def FLT_NOTIFY_PORT : Fld := ⟨2, 0x128, 0, 1, 8, 6, 0, 1, .rw, false, true, false, .num 0⟩
/-- FLT_NOTIFY.PF: R652. -/
def FLT_NOTIFY_PF : Fld := ⟨2, 0x128, 0, 1, 16, 3, 0, 1, .rw, false, true, false, .num 0⟩
/-- FLT_NOTIFY.VEC_CE: R652. -/
def FLT_NOTIFY_VEC_CE : Fld := ⟨2, 0x128, 0, 1, 32, 11, 0, 1, .rw, false, true, false, .num 0⟩
/-- FLT_NOTIFY.VEC_DG: R652. -/
def FLT_NOTIFY_VEC_DG : Fld := ⟨2, 0x128, 0, 1, 48, 11, 0, 1, .rw, false, true, false, .num 1⟩
/-- FLT_SUM.CLASS: R652. -/
def FLT_SUM_CLASS : Fld := ⟨2, 0x130, 0, 1, 0, 31, 0, 1, .ro, false, false, false, .num 0⟩
/-- FLT_CNT.CE: R652. -/
def FLT_CNT_CE : Fld := ⟨2, 0x138, 0, 1, 0, 32, 0, 1, .ro, true, false, false, .num 0⟩
/-- FLT_CNT.DG: R652. -/
def FLT_CNT_DG : Fld := ⟨2, 0x138, 0, 1, 32, 16, 0, 1, .ro, true, false, false, .num 0⟩
/-- FLT_CNT.FATAL: R652. -/
def FLT_CNT_FATAL : Fld := ⟨2, 0x138, 0, 1, 48, 16, 0, 1, .ro, true, false, false, .num 0⟩
/-- FLT_GCAP_SRC.SLOT: R652. -/
def FLT_GCAP_SRC_SLOT : Fld := ⟨2, 0x140, 0, 1, 0, 11, 0, 1, .ro, true, false, false, .num 0⟩
/-- FLT_GCAP_SRC.SEV: R652. -/
def FLT_GCAP_SRC_SEV : Fld := ⟨2, 0x140, 0, 1, 12, 3, 0, 1, .ro, true, false, false, .num 0⟩
/-- FLT_GCAP_SRC.VALID: R652. -/
def FLT_GCAP_SRC_VALID : Fld := ⟨2, 0x140, 0, 1, 63, 1, 0, 1, .w1c, true, false, false, .num 0⟩
/-- FLT_GCAP_ADDR.ADDR: R652. -/
def FLT_GCAP_ADDR_ADDR : Fld := ⟨2, 0x148, 0, 1, 0, 64, 0, 1, .ro, true, false, false, .num 0⟩
/-- FLT_GCAP_INFO.EVT: R652. -/
def FLT_GCAP_INFO_EVT : Fld := ⟨2, 0x150, 0, 1, 0, 6, 0, 1, .ro, true, false, false, .num 0⟩
/-- FLT_GCAP_INFO.SPACE: R652. -/
def FLT_GCAP_INFO_SPACE : Fld := ⟨2, 0x150, 0, 1, 8, 2, 0, 1, .ro, true, false, false, .num 0⟩
/-- FLT_GCAP_INFO.MKIND: R652. -/
def FLT_GCAP_INFO_MKIND : Fld := ⟨2, 0x150, 0, 1, 12, 2, 0, 1, .ro, true, false, false, .num 0⟩
/-- FLT_GCAP_INFO.MASTER: R652. -/
def FLT_GCAP_INFO_MASTER : Fld := ⟨2, 0x150, 0, 1, 16, 24, 0, 1, .ro, true, false, false, .num 0⟩
/-- FLT_GCAP_INFO.ACC: R652. -/
def FLT_GCAP_INFO_ACC : Fld := ⟨2, 0x150, 0, 1, 40, 4, 0, 1, .ro, true, false, false, .num 0⟩
/-- FLT_GCAP_TIME.MT: R652. -/
def FLT_GCAP_TIME_MT : Fld := ⟨2, 0x158, 0, 1, 0, 64, 0, 1, .ro, true, false, false, .num 0⟩
/-- FLT_FATAL.SLOT: R652. -/
def FLT_FATAL_SLOT : Fld := ⟨2, 0x160, 0, 1, 0, 11, 0, 1, .ro, true, false, false, .num 0⟩
/-- FLT_FATAL.VALID: R652. -/
def FLT_FATAL_VALID : Fld := ⟨2, 0x160, 0, 1, 63, 1, 0, 1, .w1c, true, false, false, .num 0⟩
/-- FLT_FATAL_TIME.MT: R652. -/
def FLT_FATAL_TIME_MT : Fld := ⟨2, 0x168, 0, 1, 0, 64, 0, 1, .ro, true, false, false, .num 0⟩
/-- FLT_FORCE_DOM.DOMAIN: R652. -/
def FLT_FORCE_DOM_DOMAIN : Fld := ⟨2, 0x170, 0, 1, 0, 4, 0, 1, .rw, false, false, false, .num 0⟩
/-- FLT_SEV.SEV: R652. -/
def FLT_SEV_SEV : Fld := ⟨2, 0x200, 8, 128, 0, 3, 4, 16, .rw, false, true, false, .sev⟩
/-- FLT_SEV.MSI: R652. -/
def FLT_SEV_MSI : Fld := ⟨2, 0x200, 8, 128, 3, 1, 4, 16, .rw, false, true, false, .num 0⟩
/-- FLT_PEND.PEND: R652. -/
def FLT_PEND_PEND : Fld := ⟨2, 0x600, 8, 32, 0, 64, 0, 1, .w1c, false, false, false, .num 0⟩
/-- FLT_CE_CNT.CNT: R652. -/
def FLT_CE_CNT_CNT : Fld := ⟨2, 0x800, 8, 256, 0, 8, 8, 8, .rw, false, false, false, .num 0⟩

/-- PWR_CTL.RUNG: R687. -/
def PWR_CTL_RUNG : Fld := ⟨3, 0x100, 0, 1, 0, 3, 0, 1, .rw, false, false, false, .num 0⟩
/-- PWR_CTL.GO: R687. -/
def PWR_CTL_GO : Fld := ⟨3, 0x100, 0, 1, 8, 1, 0, 1, .wo, false, false, false, .num 0⟩
/-- PWR_CTL.WAKE_EN: R687. -/
def PWR_CTL_WAKE_EN : Fld := ⟨3, 0x100, 0, 1, 16, 4, 0, 1, .rw, false, true, false, .num 15⟩
/-- PWR_STAT.RUNG: R687. -/
def PWR_STAT_RUNG : Fld := ⟨3, 0x108, 0, 1, 0, 3, 0, 1, .ro, false, false, false, .num 0⟩
/-- PWR_STAT.BUSY: R687. -/
def PWR_STAT_BUSY : Fld := ⟨3, 0x108, 0, 1, 4, 1, 0, 1, .ro, false, false, false, .num 0⟩
/-- PWR_STAT.REFUSE: R687. -/
def PWR_STAT_REFUSE : Fld := ⟨3, 0x108, 0, 1, 8, 4, 0, 1, .ro, false, false, false, .num 0⟩
/-- PWR_STAT.WAKE_CAUSE: R687. -/
def PWR_STAT_WAKE_CAUSE : Fld := ⟨3, 0x108, 0, 1, 16, 4, 0, 1, .ro, false, false, false, .num 0⟩
/-- PWR_STAT.LAST_EXIT: R687. -/
def PWR_STAT_LAST_EXIT : Fld := ⟨3, 0x108, 0, 1, 32, 32, 0, 1, .ro, false, false, false, .num 0⟩

/-- ALM_CFG.BOOT_SLOT: R720. -/
def ALM_CFG_BOOT_SLOT : Fld := ⟨4, 0x100, 0, 1, 0, 3, 0, 1, .rw, true, false, false, .num 7⟩
/-- ALM_CFG.FALLBACK: R720. -/
def ALM_CFG_FALLBACK : Fld := ⟨4, 0x100, 0, 1, 4, 1, 0, 1, .rw, true, false, false, .num 1⟩
/-- ALM_CFG.AUTO_REPAIR: R720. -/
def ALM_CFG_AUTO_REPAIR : Fld := ⟨4, 0x100, 0, 1, 8, 1, 0, 1, .rw, true, false, false, .num 1⟩
/-- ALM_CMD.OP: R720. -/
def ALM_CMD_OP : Fld := ⟨4, 0x108, 0, 1, 0, 4, 0, 1, .rw, false, false, false, .num 0⟩
/-- ALM_CMD.SLOT: R720. -/
def ALM_CMD_SLOT : Fld := ⟨4, 0x108, 0, 1, 8, 2, 0, 1, .rw, false, false, false, .num 0⟩
/-- ALM_CMD.ARG: R720. -/
def ALM_CMD_ARG : Fld := ⟨4, 0x108, 0, 1, 16, 16, 0, 1, .rw, false, false, false, .num 0⟩
/-- ALM_CMD.GO: R720. -/
def ALM_CMD_GO : Fld := ⟨4, 0x108, 0, 1, 63, 1, 0, 1, .wo, false, false, false, .num 0⟩
/-- ALM_STAT.BUSY: R720. -/
def ALM_STAT_BUSY : Fld := ⟨4, 0x110, 0, 1, 0, 1, 0, 1, .ro, false, false, false, .num 0⟩
/-- ALM_STAT.RESULT: R720. -/
def ALM_STAT_RESULT : Fld := ⟨4, 0x110, 0, 1, 8, 4, 0, 1, .ro, false, false, false, .num 0⟩
/-- ALM_STAT.SLOT: R720. -/
def ALM_STAT_SLOT : Fld := ⟨4, 0x110, 0, 1, 16, 3, 0, 1, .ro, false, false, false, .num 0⟩
/-- ALM_STAT.SOURCE: R720. -/
def ALM_STAT_SOURCE : Fld := ⟨4, 0x110, 0, 1, 20, 2, 0, 1, .ro, false, false, false, .num 0⟩
/-- ALM_STAT.CAL_OK: R720. -/
def ALM_STAT_CAL_OK : Fld := ⟨4, 0x110, 0, 1, 24, 1, 0, 1, .ro, false, false, false, .num 0⟩
/-- ALM_STAT.RESTORED: R720. -/
def ALM_STAT_RESTORED : Fld := ⟨4, 0x110, 0, 1, 25, 1, 0, 1, .ro, false, false, false, .num 0⟩
/-- ALM_STAT.PRESENCE: R720. -/
def ALM_STAT_PRESENCE : Fld := ⟨4, 0x110, 0, 1, 32, 1, 0, 1, .ro, false, false, false, .num 0⟩
/-- ALM_STAT.SEAL: R720. -/
def ALM_STAT_SEAL : Fld := ⟨4, 0x110, 0, 1, 33, 1, 0, 1, .ro, false, false, false, .num 0⟩
/-- ALM_PROT.SLOT_WP: R720. -/
def ALM_PROT_SLOT_WP : Fld := ⟨4, 0x118, 0, 1, 0, 4, 0, 1, .rw, false, false, true, .num 0⟩
/-- ALM_PROT.CAL_WP: R720. -/
def ALM_PROT_CAL_WP : Fld := ⟨4, 0x118, 0, 1, 4, 1, 0, 1, .rw, false, false, true, .num 0⟩
/-- ALM_SLOT.SEQ: R720. -/
def ALM_SLOT_SEQ : Fld := ⟨4, 0x120, 8, 4, 0, 32, 0, 1, .ro, false, false, false, .hw⟩
/-- ALM_SLOT.VALID: R720. -/
def ALM_SLOT_VALID : Fld := ⟨4, 0x120, 8, 4, 32, 1, 0, 1, .ro, false, false, false, .hw⟩
/-- ALM_SLOT_MT.MT: R720. -/
def ALM_SLOT_MT_MT : Fld := ⟨4, 0x140, 8, 4, 0, 64, 0, 1, .ro, false, false, false, .hw⟩
/-- ALM_FW.ACTIVE: R720. -/
def ALM_FW_ACTIVE : Fld := ⟨4, 0x160, 0, 1, 0, 1, 0, 1, .ro, false, false, false, .hw⟩
/-- ALM_FW.BOOT: R720. -/
def ALM_FW_BOOT : Fld := ⟨4, 0x160, 0, 1, 1, 1, 0, 1, .rw, false, false, true, .hw⟩
/-- ALM_FW.FALLBACK: R720. -/
def ALM_FW_FALLBACK : Fld := ⟨4, 0x160, 0, 1, 2, 1, 0, 1, .w1c, true, false, false, .num 0⟩
/-- ALM_FW.VER_A: R720. -/
def ALM_FW_VER_A : Fld := ⟨4, 0x160, 0, 1, 16, 16, 0, 1, .ro, false, false, false, .hw⟩
/-- ALM_FW.VER_B: R720. -/
def ALM_FW_VER_B : Fld := ⟨4, 0x160, 0, 1, 32, 16, 0, 1, .ro, false, false, false, .hw⟩
/-- ALM_FW.VALID_A: R720. -/
def ALM_FW_VALID_A : Fld := ⟨4, 0x160, 0, 1, 48, 1, 0, 1, .ro, false, false, false, .hw⟩
/-- ALM_FW.VALID_B: R720. -/
def ALM_FW_VALID_B : Fld := ⟨4, 0x160, 0, 1, 49, 1, 0, 1, .ro, false, false, false, .hw⟩
/-- ALM_FW.RESTART: R720. -/
def ALM_FW_RESTART : Fld := ⟨4, 0x160, 0, 1, 56, 1, 0, 1, .wo, false, false, false, .num 0⟩
/-- ALM_REPAIR.COUNT: R720. -/
def ALM_REPAIR_COUNT : Fld := ⟨4, 0x168, 0, 1, 0, 11, 0, 1, .ro, false, false, false, .hw⟩
/-- ALM_REPAIR.FULL: R720. -/
def ALM_REPAIR_FULL : Fld := ⟨4, 0x168, 0, 1, 16, 1, 0, 1, .ro, false, false, false, .hw⟩
/-- ALM_CNT.COMMITS: R720. -/
def ALM_CNT_COMMITS : Fld := ⟨4, 0x170, 0, 1, 0, 32, 0, 1, .ro, true, false, false, .num 0⟩
/-- ALM_CNT.SEAL_BREAKS: R720. -/
def ALM_CNT_SEAL_BREAKS : Fld := ⟨4, 0x170, 0, 1, 32, 16, 0, 1, .ro, true, false, false, .num 0⟩
/-- ALM_CNT.OWNER_REFUSED: R720. -/
def ALM_CNT_OWNER_REFUSED : Fld := ⟨4, 0x170, 0, 1, 48, 16, 0, 1, .ro, true, false, false, .num 0⟩
/-- ALM_UNFENCE.CLASS: R720. -/
def ALM_UNFENCE_CLASS : Fld := ⟨4, 0x178, 0, 1, 0, 6, 0, 1, .rw, false, false, false, .num 0⟩
/-- ALM_UNFENCE.INSTANCE: R720. -/
def ALM_UNFENCE_INSTANCE : Fld := ⟨4, 0x178, 0, 1, 6, 10, 0, 1, .rw, false, false, false, .num 0⟩
/-- ALM_UNFENCE.BANK: R720. -/
def ALM_UNFENCE_BANK : Fld := ⟨4, 0x178, 0, 1, 16, 14, 0, 1, .rw, false, false, false, .num 0⟩
/-- ALM_UNFENCE.SCOPE: R720. -/
def ALM_UNFENCE_SCOPE : Fld := ⟨4, 0x178, 0, 1, 30, 2, 0, 1, .rw, false, false, false, .num 0⟩
/-- ALM_UNFENCE.ERR: R720. -/
def ALM_UNFENCE_ERR : Fld := ⟨4, 0x178, 0, 1, 32, 4, 0, 1, .ro, false, false, false, .num 0⟩
/-- ALM_UNFENCE.GO: R720. -/
def ALM_UNFENCE_GO : Fld := ⟨4, 0x178, 0, 1, 63, 1, 0, 1, .wo, false, false, false, .num 0⟩
/-- ALM_UCODE_VER.VER: R720. -/
def ALM_UCODE_VER_VER : Fld := ⟨4, 0x180, 8, 8, 0, 16, 16, 4, .ro, false, false, false, .hw⟩

/-- MGT_CTL.RTO: R622. -/
def MGT_CTL_RTO : Fld := ⟨5, 0x100, 0, 1, 0, 16, 0, 1, .rw, false, true, false, .num 25000⟩
/-- MGT_CTL.REPLY_LIFE: R622. -/
def MGT_CTL_REPLY_LIFE : Fld := ⟨5, 0x100, 0, 1, 16, 16, 0, 1, .rw, false, true, false, .num 40000⟩
/-- MGT_CTL.RETRIES: R622. -/
def MGT_CTL_RETRIES : Fld := ⟨5, 0x100, 0, 1, 32, 4, 0, 1, .rw, false, true, false, .num 3⟩
/-- MGT_CTL.INB_EN: R622. -/
def MGT_CTL_INB_EN : Fld := ⟨5, 0x100, 0, 1, 40, 1, 0, 1, .rw, false, true, false, .num 1⟩
/-- MGT_MBOX.GO: R622. -/
def MGT_MBOX_GO : Fld := ⟨5, 0x108, 0, 1, 0, 1, 0, 1, .wo, false, false, false, .num 0⟩
/-- MGT_MBOX.BUSY: R622. -/
def MGT_MBOX_BUSY : Fld := ⟨5, 0x108, 0, 1, 1, 1, 0, 1, .ro, false, false, false, .num 0⟩
/-- MGT_MBOX.DONE: R622. -/
def MGT_MBOX_DONE : Fld := ⟨5, 0x108, 0, 1, 2, 1, 0, 1, .w1c, false, false, false, .num 0⟩
/-- MGT_MBOX.FAIL: R622. -/
def MGT_MBOX_FAIL : Fld := ⟨5, 0x108, 0, 1, 3, 1, 0, 1, .w1c, false, false, false, .num 0⟩
/-- MGT_MBOX.STATUS: R622. -/
def MGT_MBOX_STATUS : Fld := ⟨5, 0x108, 0, 1, 8, 8, 0, 1, .ro, false, false, false, .num 0⟩
/-- MGT_STAT.QUEUE: R622. -/
def MGT_STAT_QUEUE : Fld := ⟨5, 0x110, 0, 1, 0, 7, 0, 1, .ro, false, false, false, .num 0⟩
/-- MGT_STAT.CACHE: R622. -/
def MGT_STAT_CACHE : Fld := ⟨5, 0x110, 0, 1, 16, 9, 0, 1, .ro, false, false, false, .num 0⟩
/-- MGT_CNT.DISCARD: R622. -/
def MGT_CNT_DISCARD : Fld := ⟨5, 0x118, 0, 1, 0, 32, 0, 1, .ro, true, false, false, .num 0⟩
/-- MGT_CNT.REFUSED: R622. -/
def MGT_CNT_REFUSED : Fld := ⟨5, 0x118, 0, 1, 32, 32, 0, 1, .ro, true, false, false, .num 0⟩
/-- MGT_LIST.ENDPOINT: R622. -/
def MGT_LIST_ENDPOINT : Fld := ⟨5, 0x140, 8, 16, 0, 24, 0, 1, .rw, false, true, false, .num 0⟩
/-- MGT_LIST.MASK: R622. -/
def MGT_LIST_MASK : Fld := ⟨5, 0x140, 8, 16, 24, 24, 0, 1, .rw, false, true, false, .num 0⟩
/-- MGT_LIST.VALID: R622. -/
def MGT_LIST_VALID : Fld := ⟨5, 0x140, 8, 16, 48, 1, 0, 1, .rw, false, true, false, .num 0⟩
/-- MGT_HDR.WORD: R622. -/
def MGT_HDR_WORD : Fld := ⟨5, 0x200, 8, 8, 0, 64, 0, 1, .rw, false, false, false, .num 0⟩
/-- MGT_BUF.WORD: R618. -/
def MGT_BUF_WORD : Fld := ⟨5, 0x800, 8, 256, 0, 64, 0, 1, .rw, false, false, false, .num 0⟩

/-- DPT_ADDR.ADDR: R622. -/
def DPT_ADDR_ADDR : Fld := ⟨6, 0x100, 0, 1, 0, 48, 0, 1, .rw, false, false, false, .num 0⟩
/-- DPT_CTL.STRIDE: R622. -/
def DPT_CTL_STRIDE : Fld := ⟨6, 0x108, 0, 1, 0, 8, 0, 1, .rw, false, false, false, .num 1⟩
/-- DPT_CTL.AUTO_INC: R622. -/
def DPT_CTL_AUTO_INC : Fld := ⟨6, 0x108, 0, 1, 8, 1, 0, 1, .rw, false, false, false, .num 1⟩
/-- DPT_CTL.DIR: R622. -/
def DPT_CTL_DIR : Fld := ⟨6, 0x108, 0, 1, 9, 1, 0, 1, .rw, false, false, false, .num 0⟩
/-- DPT_CTL.BANK: R622. -/
def DPT_CTL_BANK : Fld := ⟨6, 0x108, 0, 1, 10, 2, 0, 1, .rw, false, false, false, .num 0⟩
/-- DPT_STAT.WORDS: R622. -/
def DPT_STAT_WORDS : Fld := ⟨6, 0x110, 0, 1, 0, 32, 0, 1, .ro, true, false, false, .num 0⟩
/-- DPT_STAT.UNMAPPED: R622. -/
def DPT_STAT_UNMAPPED : Fld := ⟨6, 0x110, 0, 1, 32, 1, 0, 1, .w1c, false, false, false, .num 0⟩
/-- DPT_STAT.DIR_ERR: R622. -/
def DPT_STAT_DIR_ERR : Fld := ⟨6, 0x110, 0, 1, 33, 1, 0, 1, .w1c, false, false, false, .num 0⟩
/-- DPT_STAT.BAD_LEN: R622. -/
def DPT_STAT_BAD_LEN : Fld := ⟨6, 0x110, 0, 1, 34, 1, 0, 1, .w1c, false, false, false, .num 0⟩
/-- DPT_STAT.DISCARDED: R622. -/
def DPT_STAT_DISCARDED : Fld := ⟨6, 0x110, 0, 1, 35, 1, 0, 1, .w1c, false, false, false, .num 0⟩

/-- PMN_CTL.FREEZE: R281. -/
def PMN_CTL_FREEZE : Fld := ⟨7, 0x100, 0, 1, 0, 1, 0, 1, .rw, false, false, false, .num 0⟩
/-- PMN_CTL.SNAP_NOW: R281. -/
def PMN_CTL_SNAP_NOW : Fld := ⟨7, 0x100, 0, 1, 1, 1, 0, 1, .wo, false, false, false, .num 0⟩
/-- PMN_CTL.TAG: R281. -/
def PMN_CTL_TAG : Fld := ⟨7, 0x100, 0, 1, 8, 24, 0, 1, .rw, false, false, false, .num 0⟩
/-- PMN_USER_MASK.MASK: R281. -/
def PMN_USER_MASK_MASK : Fld := ⟨7, 0x120, 8, 4, 0, 64, 0, 1, .rw, false, true, false, .num 0⟩

/-- LANE_CTL.RCAL_EN: R113. -/
def LANE_CTL_RCAL_EN : Fld := ⟨8, 0x100, 0, 1, 0, 1, 0, 1, .rw, false, true, false, .num 1⟩
/-- LANE_CTL.LOOPBACK: R113. -/
def LANE_CTL_LOOPBACK : Fld := ⟨8, 0x100, 0, 1, 1, 2, 0, 1, .rw, false, false, false, .num 0⟩
/-- LANE_CTL.PRBS: R113. -/
def LANE_CTL_PRBS : Fld := ⟨8, 0x100, 0, 1, 4, 2, 0, 1, .rw, false, false, false, .num 0⟩
/-- LANE_CTL.UNCORR_MAX: R113. -/
def LANE_CTL_UNCORR_MAX : Fld := ⟨8, 0x100, 0, 1, 16, 8, 0, 1, .rw, false, true, false, .num 16⟩
/-- LANE_STAT.LOCK: R113. -/
def LANE_STAT_LOCK : Fld := ⟨8, 0x108, 0, 1, 0, 1, 0, 1, .ro, false, false, false, .num 0⟩
/-- LANE_STAT.FAILED: R113. -/
def LANE_STAT_FAILED : Fld := ⟨8, 0x108, 0, 1, 1, 1, 0, 1, .ro, false, false, false, .num 0⟩
/-- LANE_STAT.PORT: R113. -/
def LANE_STAT_PORT : Fld := ⟨8, 0x108, 0, 1, 4, 10, 0, 1, .ro, false, false, false, .num 0⟩
/-- LANE_STAT.OWNED: R113. -/
def LANE_STAT_OWNED : Fld := ⟨8, 0x108, 0, 1, 14, 1, 0, 1, .ro, false, false, false, .num 0⟩
/-- LANE_EQ.PRESET: R113. -/
def LANE_EQ_PRESET : Fld := ⟨8, 0x110, 0, 1, 0, 48, 0, 1, .rw, false, true, false, .num 0⟩
/-- LANE_EQ.VALID: R113. -/
def LANE_EQ_VALID : Fld := ⟨8, 0x110, 0, 1, 48, 1, 0, 1, .rw, false, true, false, .num 0⟩
/-- LANE_EQ_LIVE.LIVE: R113. -/
def LANE_EQ_LIVE_LIVE : Fld := ⟨8, 0x118, 0, 1, 0, 48, 0, 1, .ro, false, false, false, .hw⟩
/-- LANE_FEC.CORR: R113. -/
def LANE_FEC_CORR : Fld := ⟨8, 0x120, 0, 1, 0, 32, 0, 1, .ro, false, false, false, .num 0⟩
/-- LANE_FEC.UNCORR: R113. -/
def LANE_FEC_UNCORR : Fld := ⟨8, 0x120, 0, 1, 32, 32, 0, 1, .ro, false, false, false, .num 0⟩
/-- LANE_MON.RX_PWR: R113. -/
def LANE_MON_RX_PWR : Fld := ⟨8, 0x128, 0, 1, 0, 16, 0, 1, .ro, false, false, false, .num 0⟩
/-- LANE_MON.MOD_BIAS: R113. -/
def LANE_MON_MOD_BIAS : Fld := ⟨8, 0x128, 0, 1, 16, 16, 0, 1, .ro, false, false, false, .num 0⟩
/-- LANE_MON.TEMP: R113. -/
def LANE_MON_TEMP : Fld := ⟨8, 0x128, 0, 1, 32, 16, 0, 1, .ro, false, false, false, .num 0⟩
/-- LANE_PWR.IDLE_RUNG: R687. -/
def LANE_PWR_IDLE_RUNG : Fld := ⟨8, 0x130, 0, 1, 0, 3, 0, 1, .rw, false, true, false, .num 3⟩

/-- OPT_CTL.REACH: R113. -/
def OPT_CTL_REACH : Fld := ⟨9, 0x100, 0, 1, 0, 1, 0, 1, .rw, false, true, false, .num 0⟩
/-- OPT_CTL.FEED_LOW: R113. -/
def OPT_CTL_FEED_LOW : Fld := ⟨9, 0x100, 0, 1, 8, 16, 0, 1, .rw, false, true, false, .num 1400⟩
/-- OPT_CTL.FEED_MIN: R113. -/
def OPT_CTL_FEED_MIN : Fld := ⟨9, 0x100, 0, 1, 24, 16, 0, 1, .rw, false, true, false, .num 1100⟩
/-- OPT_STAT.LSRC_PRSNT: R113. -/
def OPT_STAT_LSRC_PRSNT : Fld := ⟨9, 0x108, 0, 1, 0, 1, 0, 1, .ro, false, false, false, .pin⟩
/-- OPT_STAT.REACH_REJ: R113. -/
def OPT_STAT_REACH_REJ : Fld := ⟨9, 0x108, 0, 1, 1, 1, 0, 1, .w1c, false, false, false, .num 0⟩
/-- OPT_STAT.FEED_OK: R113. -/
def OPT_STAT_FEED_OK : Fld := ⟨9, 0x108, 0, 1, 8, 8, 0, 1, .ro, false, false, false, .num 0⟩
/-- OPT_FEED.PWR: R113. -/
def OPT_FEED_PWR : Fld := ⟨9, 0x110, 8, 8, 0, 16, 0, 1, .ro, false, false, false, .num 0⟩
/-- OPT_LSRC.ID: R738. -/
def OPT_LSRC_ID : Fld := ⟨9, 0x150, 0, 1, 0, 8, 0, 1, .ro, false, false, false, .num 0⟩
/-- OPT_LSRC.READY: R738. -/
def OPT_LSRC_READY : Fld := ⟨9, 0x150, 0, 1, 8, 1, 0, 1, .ro, false, false, false, .num 0⟩
/-- OPT_LSRC.VALID: R738. -/
def OPT_LSRC_VALID : Fld := ⟨9, 0x150, 0, 1, 9, 1, 0, 1, .ro, false, false, false, .num 0⟩
/-- OPT_LSRC.BUS_ERR: R738. -/
def OPT_LSRC_BUS_ERR : Fld := ⟨9, 0x150, 0, 1, 10, 1, 0, 1, .w1c, false, false, false, .num 0⟩

/-- PORT_CTL.EN: R113. -/
def PORT_CTL_EN : Fld := ⟨10, 0x100, 0, 1, 0, 1, 0, 1, .rw, false, true, false, .num 0⟩
/-- PORT_CTL.LANES: R113. -/
def PORT_CTL_LANES : Fld := ⟨10, 0x100, 0, 1, 1, 2, 0, 1, .rw, false, true, false, .num 0⟩
/-- PORT_CTL.BASE: R113. -/
def PORT_CTL_BASE : Fld := ⟨10, 0x100, 0, 1, 8, 10, 0, 1, .rw, false, true, false, .num 0⟩
/-- PORT_CTL.DEGRADE_EN: R113. -/
def PORT_CTL_DEGRADE_EN : Fld := ⟨10, 0x100, 0, 1, 20, 1, 0, 1, .rw, false, true, false, .num 1⟩
/-- PORT_CTL.AUTO_RESTORE: R113. -/
def PORT_CTL_AUTO_RESTORE : Fld := ⟨10, 0x100, 0, 1, 21, 1, 0, 1, .rw, false, true, false, .num 1⟩
/-- PORT_CTL.COMPAT_EN: R113. -/
def PORT_CTL_COMPAT_EN : Fld := ⟨10, 0x100, 0, 1, 22, 1, 0, 1, .rw, false, true, false, .num 0⟩
/-- PORT_CMD.RETRAIN: R113. -/
def PORT_CMD_RETRAIN : Fld := ⟨10, 0x108, 0, 1, 0, 1, 0, 1, .wo, false, false, false, .num 0⟩
/-- PORT_CMD.RESTORE: R113. -/
def PORT_CMD_RESTORE : Fld := ⟨10, 0x108, 0, 1, 1, 1, 0, 1, .wo, false, false, false, .num 0⟩
/-- PORT_CMD.DOWN: R113. -/
def PORT_CMD_DOWN : Fld := ⟨10, 0x108, 0, 1, 2, 1, 0, 1, .wo, false, false, false, .num 0⟩
/-- PORT_STAT.STATE: R113. -/
def PORT_STAT_STATE : Fld := ⟨10, 0x110, 0, 1, 0, 3, 0, 1, .ro, false, false, false, .num 0⟩
/-- PORT_STAT.ACT_LANES: R113. -/
def PORT_STAT_ACT_LANES : Fld := ⟨10, 0x110, 0, 1, 4, 2, 0, 1, .ro, false, false, false, .num 0⟩
/-- PORT_STAT.ACT_BASE: R113. -/
def PORT_STAT_ACT_BASE : Fld := ⟨10, 0x110, 0, 1, 8, 10, 0, 1, .ro, false, false, false, .num 0⟩
/-- PORT_STAT.READY: R113. -/
def PORT_STAT_READY : Fld := ⟨10, 0x110, 0, 1, 20, 8, 0, 1, .ro, false, false, false, .num 0⟩
/-- PORT_STAT.RLP_VER: R113. -/
def PORT_STAT_RLP_VER : Fld := ⟨10, 0x110, 0, 1, 28, 4, 0, 1, .ro, false, false, false, .num 0⟩
/-- PORT_STAT.FEAT: R113. -/
def PORT_STAT_FEAT : Fld := ⟨10, 0x110, 0, 1, 32, 16, 0, 1, .ro, false, false, false, .num 0⟩
/-- PORT_STAT.DEGRADED: R113. -/
def PORT_STAT_DEGRADED : Fld := ⟨10, 0x110, 0, 1, 48, 1, 0, 1, .ro, false, false, false, .num 0⟩
/-- PORT_STAT.HELD: R113. -/
def PORT_STAT_HELD : Fld := ⟨10, 0x110, 0, 1, 49, 1, 0, 1, .ro, false, false, false, .num 0⟩
/-- PORT_STAT.FLUSHING: R113. -/
def PORT_STAT_FLUSHING : Fld := ⟨10, 0x110, 0, 1, 50, 1, 0, 1, .ro, false, false, false, .num 0⟩
/-- PORT_TIMERS.LOCK_LOSS: R113. -/
def PORT_TIMERS_LOCK_LOSS : Fld := ⟨10, 0x118, 0, 1, 0, 20, 0, 1, .rw, false, true, false, .num 1250⟩
/-- PORT_TIMERS.GRACE: R113. -/
def PORT_TIMERS_GRACE : Fld := ⟨10, 0x118, 0, 1, 20, 23, 0, 1, .rw, false, true, false, .num 31250⟩
/-- PORT_TIMERS.LANE_LOSS: R113. -/
def PORT_TIMERS_LANE_LOSS : Fld := ⟨10, 0x118, 0, 1, 48, 8, 0, 1, .rw, false, true, false, .num 64⟩
/-- PORT_PEER.GROUP: R113. -/
def PORT_PEER_GROUP : Fld := ⟨10, 0x120, 0, 1, 0, 11, 0, 1, .ro, false, false, false, .num 0⟩
/-- PORT_PEER.DEVICE: R113. -/
def PORT_PEER_DEVICE : Fld := ⟨10, 0x120, 0, 1, 16, 7, 0, 1, .ro, false, false, false, .num 0⟩
/-- PORT_PEER.PORT: R113. -/
def PORT_PEER_PORT : Fld := ⟨10, 0x120, 0, 1, 32, 10, 0, 1, .ro, false, false, false, .num 0⟩
/-- PORT_PEER.VALID: R113. -/
def PORT_PEER_VALID : Fld := ⟨10, 0x120, 0, 1, 48, 1, 0, 1, .ro, false, false, false, .num 0⟩
/-- PORT_NONCE.LOCAL: R113. -/
def PORT_NONCE_LOCAL : Fld := ⟨10, 0x128, 0, 1, 0, 64, 0, 1, .ro, false, false, false, .hw⟩
/-- PORT_CNT.DOWN: R113. -/
def PORT_CNT_DOWN : Fld := ⟨10, 0x130, 0, 1, 0, 32, 0, 1, .ro, true, false, false, .num 0⟩
/-- PORT_CNT.DEGRADE: R113. -/
def PORT_CNT_DEGRADE : Fld := ⟨10, 0x130, 0, 1, 32, 16, 0, 1, .ro, true, false, false, .num 0⟩
/-- PORT_CNT.REPLAY_LOST: R113. -/
def PORT_CNT_REPLAY_LOST : Fld := ⟨10, 0x130, 0, 1, 48, 16, 0, 1, .ro, true, false, false, .num 0⟩
/-- PORT_FLUSH.PKTS: R113. -/
def PORT_FLUSH_PKTS : Fld := ⟨10, 0x140, 8, 4, 0, 48, 0, 1, .ro, true, false, false, .num 0⟩
/-- PORT_PWR.AUTO_MAX: R687. -/
def PORT_PWR_AUTO_MAX : Fld := ⟨10, 0x160, 0, 1, 0, 3, 0, 1, .rw, false, true, false, .num 0⟩
/-- PORT_PWR.ACCEPT_MAX: R687. -/
def PORT_PWR_ACCEPT_MAX : Fld := ⟨10, 0x160, 0, 1, 4, 3, 0, 1, .rw, false, true, false, .num 4⟩
/-- PORT_PWR.IDLE: R687. -/
def PORT_PWR_IDLE : Fld := ⟨10, 0x160, 0, 1, 8, 8, 0, 1, .rw, false, true, false, .num 16⟩
/-- PORT_PWR.CMD_RUNG: R687. -/
def PORT_PWR_CMD_RUNG : Fld := ⟨10, 0x160, 0, 1, 16, 3, 0, 1, .rw, false, false, false, .num 0⟩
/-- PORT_PWR.CMD_GO: R687. -/
def PORT_PWR_CMD_GO : Fld := ⟨10, 0x160, 0, 1, 24, 1, 0, 1, .wo, false, false, false, .num 0⟩
/-- PORT_PWR_STAT.RUNG: R687. -/
def PORT_PWR_STAT_RUNG : Fld := ⟨10, 0x168, 0, 1, 0, 3, 0, 1, .ro, false, false, false, .num 0⟩
/-- PORT_PWR_STAT.COMMANDED: R687. -/
def PORT_PWR_STAT_COMMANDED : Fld := ⟨10, 0x168, 0, 1, 3, 1, 0, 1, .ro, false, false, false, .num 0⟩
/-- PORT_PWR_STAT.REFUSED: R687. -/
def PORT_PWR_STAT_REFUSED : Fld := ⟨10, 0x168, 0, 1, 4, 1, 0, 1, .w1c, false, false, false, .num 0⟩
/-- PORT_PWR_STAT.EXITS: R687. -/
def PORT_PWR_STAT_EXITS : Fld := ⟨10, 0x168, 0, 1, 16, 32, 0, 1, .ro, true, false, false, .num 0⟩
/-- PORT_TASYM.ASYM: R75. -/
def PORT_TASYM_ASYM : Fld := ⟨10, 0x180, 0, 1, 0, 32, 0, 1, .rw, false, true, false, .num 0⟩
/-- PORT_TASYM.VALID: R75. -/
def PORT_TASYM_VALID : Fld := ⟨10, 0x180, 0, 1, 32, 1, 0, 1, .rw, false, true, false, .num 0⟩

/-- LNK_CTL.ACT_WIN: R161. -/
def LNK_CTL_ACT_WIN : Fld := ⟨11, 0x100, 0, 1, 0, 8, 0, 1, .rw, false, true, false, .num 16⟩
/-- LNK_CTL.REL_IDLE: R161. -/
def LNK_CTL_REL_IDLE : Fld := ⟨11, 0x100, 0, 1, 8, 8, 0, 1, .rw, false, true, false, .num 16⟩
/-- LNK_CTL.ACK_K: R161. -/
def LNK_CTL_ACK_K : Fld := ⟨11, 0x100, 0, 1, 16, 4, 0, 1, .rw, false, true, false, .num 10⟩
/-- LNK_STAT.NEXT: R161. -/
def LNK_STAT_NEXT : Fld := ⟨11, 0x108, 0, 1, 0, 20, 0, 1, .ro, false, false, false, .num 0⟩
/-- LNK_STAT.PEER_CACK: R161. -/
def LNK_STAT_PEER_CACK : Fld := ⟨11, 0x108, 0, 1, 20, 20, 0, 1, .ro, false, false, false, .num 0⟩
/-- LNK_STAT.EXPECT: R161. -/
def LNK_STAT_EXPECT : Fld := ⟨11, 0x108, 0, 1, 40, 20, 0, 1, .ro, false, false, false, .num 0⟩
/-- LNK_STAT.MODE: R161. -/
def LNK_STAT_MODE : Fld := ⟨11, 0x108, 0, 1, 60, 2, 0, 1, .ro, false, false, false, .num 0⟩
/-- LNK_REPLAY.SLOTS: R161. -/
def LNK_REPLAY_SLOTS : Fld := ⟨11, 0x110, 0, 1, 0, 13, 0, 1, .rw, false, true, false, .num 481⟩
/-- LNK_REPLAY.USED: R161. -/
def LNK_REPLAY_USED : Fld := ⟨11, 0x110, 0, 1, 16, 13, 0, 1, .ro, false, false, false, .num 0⟩
/-- LNK_REPLAY.PEAK: R161. -/
def LNK_REPLAY_PEAK : Fld := ⟨11, 0x110, 0, 1, 32, 13, 0, 1, .rw, false, false, false, .num 0⟩
/-- LNK_RTX.TIMEOUT: R161. -/
def LNK_RTX_TIMEOUT : Fld := ⟨11, 0x118, 0, 1, 0, 16, 0, 1, .rw, false, true, false, .num 1600⟩
/-- LNK_RTX.MAX_EXP: R161. -/
def LNK_RTX_MAX_EXP : Fld := ⟨11, 0x118, 0, 1, 16, 4, 0, 1, .rw, false, true, false, .num 8⟩
/-- LNK_RTX.EXP_NOW: R161. -/
def LNK_RTX_EXP_NOW : Fld := ⟨11, 0x118, 0, 1, 20, 4, 0, 1, .ro, false, false, false, .num 0⟩
/-- LNK_CR_POOL.POOL: R161. -/
def LNK_CR_POOL_POOL : Fld := ⟨11, 0x120, 0, 1, 0, 12, 0, 1, .rw, false, true, false, .num 192⟩
/-- LNK_CR_POOL.CAP: R161. -/
def LNK_CR_POOL_CAP : Fld := ⟨11, 0x120, 0, 1, 16, 12, 0, 1, .rw, false, true, false, .num 192⟩
/-- LNK_CR_POOL.POOL_USED: R161. -/
def LNK_CR_POOL_POOL_USED : Fld := ⟨11, 0x120, 0, 1, 32, 12, 0, 1, .ro, false, false, false, .num 0⟩
/-- LNK_CNT_ERR.CRC: R161. -/
def LNK_CNT_ERR_CRC : Fld := ⟨11, 0x128, 0, 1, 0, 32, 0, 1, .ro, true, false, false, .num 0⟩
/-- LNK_CNT_ERR.DISC: R161. -/
def LNK_CNT_ERR_DISC : Fld := ⟨11, 0x128, 0, 1, 32, 16, 0, 1, .ro, true, false, false, .num 0⟩
/-- LNK_CNT_ERR.HUNT: R161. -/
def LNK_CNT_ERR_HUNT : Fld := ⟨11, 0x128, 0, 1, 48, 16, 0, 1, .ro, true, false, false, .num 0⟩
/-- LNK_CNT_RTX.SACK: R161. -/
def LNK_CNT_RTX_SACK : Fld := ⟨11, 0x130, 0, 1, 0, 32, 0, 1, .ro, true, false, false, .num 0⟩
/-- LNK_CNT_RTX.TIMER: R161. -/
def LNK_CNT_RTX_TIMER : Fld := ⟨11, 0x130, 0, 1, 32, 32, 0, 1, .ro, true, false, false, .num 0⟩
/-- LNK_CNT_MISC.TRUNC: R161. -/
def LNK_CNT_MISC_TRUNC : Fld := ⟨11, 0x138, 0, 1, 0, 16, 0, 1, .ro, true, false, false, .num 0⟩
/-- LNK_CNT_MISC.COMPAT_DROP: R161. -/
def LNK_CNT_MISC_COMPAT_DROP : Fld := ⟨11, 0x138, 0, 1, 16, 16, 0, 1, .ro, true, false, false, .num 0⟩
/-- LNK_CNT_MISC.CR_VIOL: R161. -/
def LNK_CNT_MISC_CR_VIOL : Fld := ⟨11, 0x138, 0, 1, 32, 16, 0, 1, .ro, true, false, false, .num 0⟩
/-- LNK_CNT_MISC.EXHAUST: R161. -/
def LNK_CNT_MISC_EXHAUST : Fld := ⟨11, 0x138, 0, 1, 48, 16, 0, 1, .ro, true, false, false, .num 0⟩
/-- LNK_CR_MIN.MIN: R161. -/
def LNK_CR_MIN_MIN : Fld := ⟨11, 0x140, 8, 16, 0, 12, 0, 1, .rw, false, true, false, .num 4⟩
/-- LNK_CR_STAT.OUT: R161. -/
def LNK_CR_STAT_OUT : Fld := ⟨11, 0x1C0, 8, 16, 0, 12, 0, 1, .ro, false, false, false, .num 0⟩
/-- LNK_CR_STAT.HELD: R161. -/
def LNK_CR_STAT_HELD : Fld := ⟨11, 0x1C0, 8, 16, 16, 14, 0, 1, .ro, false, false, false, .num 0⟩
/-- LNK_CR_STAT.TX_AVAIL: R161. -/
def LNK_CR_STAT_TX_AVAIL : Fld := ⟨11, 0x1C0, 8, 16, 32, 14, 0, 1, .ro, false, false, false, .num 0⟩

/-- TILE_FENCE.FULL: R198. -/
def TILE_FENCE_FULL : Fld := ⟨12, 0x100, 0, 1, 0, 1, 0, 1, .rw, false, false, false, .num 0⟩
/-- TILE_FENCE.REASON: R198. -/
def TILE_FENCE_REASON : Fld := ⟨12, 0x100, 0, 1, 1, 2, 0, 1, .ro, false, false, false, .num 0⟩
/-- TILE_PWR.RUNG: R687. -/
def TILE_PWR_RUNG : Fld := ⟨12, 0x108, 0, 1, 0, 3, 0, 1, .rw, false, false, false, .num 0⟩
/-- TILE_PWR.AUTO_MAX: R687. -/
def TILE_PWR_AUTO_MAX : Fld := ⟨12, 0x108, 0, 1, 4, 3, 0, 1, .rw, false, true, false, .num 0⟩
/-- TILE_PWR.IDLE: R687. -/
def TILE_PWR_IDLE : Fld := ⟨12, 0x108, 0, 1, 16, 16, 0, 1, .rw, false, true, false, .num 1563⟩
/-- TILE_PWR.CUR: R687. -/
def TILE_PWR_CUR : Fld := ⟨12, 0x108, 0, 1, 32, 3, 0, 1, .ro, false, false, false, .num 0⟩
/-- TILE_BANK_RET.BITS: R687. -/
def TILE_BANK_RET_BITS : Fld := ⟨12, 0x140, 8, 2, 0, 64, 0, 1, .rw, false, true, false, .num 0⟩
/-- TILE_BANK_OFF.BITS: R687. -/
def TILE_BANK_OFF_BITS : Fld := ⟨12, 0x150, 8, 2, 0, 64, 0, 1, .rw, false, true, false, .num 0⟩
/-- TILE_BANK_PEND.BITS: R687. -/
def TILE_BANK_PEND_BITS : Fld := ⟨12, 0x160, 8, 2, 0, 64, 0, 1, .ro, false, false, false, .num 0⟩

/-- BUF_CTL.MID_MIN: R198. -/
def BUF_CTL_MID_MIN : Fld := ⟨13, 0x100, 0, 1, 0, 3, 0, 1, .rw, false, true, false, .num 2⟩
/-- BUF_STAT.OVER_QUOTA: R198. -/
def BUF_STAT_OVER_QUOTA : Fld := ⟨13, 0x108, 0, 1, 0, 1, 0, 1, .ro, false, false, false, .num 0⟩
/-- BUF_STAT.OVQ_PORTS: R198. -/
def BUF_STAT_OVQ_PORTS : Fld := ⟨13, 0x108, 0, 1, 16, 16, 0, 1, .ro, false, false, false, .num 0⟩
/-- BUF_STAT.MID_SHARED_USED: R198. -/
def BUF_STAT_MID_SHARED_USED : Fld := ⟨13, 0x108, 0, 1, 32, 13, 0, 1, .ro, false, false, false, .num 0⟩
/-- BUF_STAT.OUT_SHARED_USED: R198. -/
def BUF_STAT_OUT_SHARED_USED : Fld := ⟨13, 0x108, 0, 1, 48, 12, 0, 1, .ro, false, false, false, .num 0⟩
/-- BUF_ALPHA.MID: R198. -/
def BUF_ALPHA_MID : Fld := ⟨13, 0x110, 0, 1, 0, 32, 0, 1, .rw, false, true, false, .num 1717986918⟩
/-- BUF_ALPHA.OUT: R198. -/
def BUF_ALPHA_OUT : Fld := ⟨13, 0x110, 0, 1, 32, 32, 0, 1, .rw, false, true, false, .num 1717986918⟩
/-- BUF_IN.ENG_MIN: R198. -/
def BUF_IN_ENG_MIN : Fld := ⟨13, 0x118, 0, 1, 0, 8, 0, 1, .rw, false, true, false, .num 8⟩
/-- BUF_MID_OCC.USED: R198. -/
def BUF_MID_OCC_USED : Fld := ⟨13, 0x120, 0, 1, 0, 13, 0, 1, .ro, false, false, false, .num 0⟩
/-- BUF_MID_OCC.PEAK: R198. -/
def BUF_MID_OCC_PEAK : Fld := ⟨13, 0x120, 0, 1, 16, 13, 0, 1, .rw, false, false, false, .num 0⟩
/-- BUF_PORT.MIN_ESC: R198. -/
def BUF_PORT_MIN_ESC : Fld := ⟨13, 0x200, 8, 16, 0, 8, 0, 1, .rw, false, true, false, .num 17⟩
/-- BUF_PORT.MIN_OTHER: R198. -/
def BUF_PORT_MIN_OTHER : Fld := ⟨13, 0x200, 8, 16, 8, 8, 0, 1, .rw, false, true, false, .num 4⟩
/-- BUF_PORT.QUOTA: R198. -/
def BUF_PORT_QUOTA : Fld := ⟨13, 0x200, 8, 16, 16, 12, 0, 1, .rw, false, true, false, .num 2048⟩
/-- BUF_PORT.OCC: R198. -/
def BUF_PORT_OCC : Fld := ⟨13, 0x200, 8, 16, 32, 12, 0, 1, .ro, false, false, false, .num 0⟩
/-- BUF_PORT.OVER: R198. -/
def BUF_PORT_OVER : Fld := ⟨13, 0x200, 8, 16, 48, 1, 0, 1, .ro, false, false, false, .num 0⟩
/-- BUF_AGE_DROP.PKTS: R198. -/
def BUF_AGE_DROP_PKTS : Fld := ⟨13, 0x280, 8, 4, 0, 48, 0, 1, .ro, true, false, false, .num 0⟩
/-- BUF_CNT_A.REASM_DROP: R198. -/
def BUF_CNT_A_REASM_DROP : Fld := ⟨13, 0x2A0, 0, 1, 0, 32, 0, 1, .ro, true, false, false, .num 0⟩
/-- BUF_CNT_A.ABORT: R198. -/
def BUF_CNT_A_ABORT : Fld := ⟨13, 0x2A0, 0, 1, 32, 32, 0, 1, .ro, true, false, false, .num 0⟩
/-- BUF_CNT_B.MC_PRUNE: R198. -/
def BUF_CNT_B_MC_PRUNE : Fld := ⟨13, 0x2A8, 0, 1, 0, 32, 0, 1, .ro, true, false, false, .num 0⟩
/-- BUF_CNT_B.MC_BAD: R198. -/
def BUF_CNT_B_MC_BAD : Fld := ⟨13, 0x2A8, 0, 1, 32, 32, 0, 1, .ro, true, false, false, .num 0⟩

/-- RTE_CTL.ESC_WAIT: R241. -/
def RTE_CTL_ESC_WAIT : Fld := ⟨14, 0x100, 0, 1, 0, 16, 0, 1, .rw, false, true, false, .num 125⟩
/-- RTE_CTL.NM_BIAS: R241. -/
def RTE_CTL_NM_BIAS : Fld := ⟨14, 0x100, 0, 1, 16, 4, 0, 1, .rw, false, true, false, .num 2⟩
/-- RTE_CTL.NM_EN: R241. -/
def RTE_CTL_NM_EN : Fld := ⟨14, 0x100, 0, 1, 20, 1, 0, 1, .rw, false, true, false, .num 1⟩
/-- RTE_CTL.LVL_UNIT: R241. -/
def RTE_CTL_LVL_UNIT : Fld := ⟨14, 0x100, 0, 1, 24, 8, 0, 1, .rw, false, true, false, .num 16⟩
/-- RTE_CTL.HOP_MAX: R241. -/
def RTE_CTL_HOP_MAX : Fld := ⟨14, 0x100, 0, 1, 32, 6, 0, 1, .rw, false, true, false, .num 32⟩
/-- RTE_STAT.ACTIVE: R241. -/
def RTE_STAT_ACTIVE : Fld := ⟨14, 0x108, 0, 1, 0, 1, 0, 1, .ro, false, false, false, .num 0⟩
/-- RTE_STAT.HOLD: R241. -/
def RTE_STAT_HOLD : Fld := ⟨14, 0x108, 0, 1, 1, 1, 0, 1, .ro, false, false, false, .num 0⟩
/-- RTE_STAT.HW_FENCE: R241. -/
def RTE_STAT_HW_FENCE : Fld := ⟨14, 0x108, 0, 1, 2, 2, 0, 1, .ro, false, false, false, .num 0⟩
/-- RTE_STAT.EPOCH: R241. -/
def RTE_STAT_EPOCH : Fld := ⟨14, 0x108, 0, 1, 16, 16, 0, 1, .ro, false, false, false, .num 0⟩
/-- RTE_EPOCH_CFG.HOLD: R241. -/
def RTE_EPOCH_CFG_HOLD : Fld := ⟨14, 0x110, 0, 1, 0, 26, 0, 1, .rw, false, true, false, .num 3125⟩
/-- RTE_FENCE.PORTS: R241. -/
def RTE_FENCE_PORTS : Fld := ⟨14, 0x118, 0, 1, 0, 16, 0, 1, .rw, false, false, false, .num 0⟩
/-- RTE_FENCE.PEER: R241. -/
def RTE_FENCE_PEER : Fld := ⟨14, 0x118, 0, 1, 16, 16, 0, 1, .rw, false, false, false, .num 0⟩
/-- RTE_FENCE.MGT_PASS: R241. -/
def RTE_FENCE_MGT_PASS : Fld := ⟨14, 0x118, 0, 1, 32, 1, 0, 1, .rw, false, true, false, .num 1⟩
/-- RTE_HASH.SEED: R241. -/
def RTE_HASH_SEED : Fld := ⟨14, 0x120, 8, 4, 0, 16, 16, 4, .rw, false, true, false, .fuse⟩
/-- RTE_MARK_LO.DELAY: R241. -/
def RTE_MARK_LO_DELAY : Fld := ⟨14, 0x140, 0, 1, 0, 16, 16, 4, .rw, false, true, false, .num 250⟩
/-- RTE_MARK_HI.DELAY: R241. -/
def RTE_MARK_HI_DELAY : Fld := ⟨14, 0x148, 0, 1, 0, 16, 16, 4, .rw, false, true, false, .num 250⟩
/-- RTE_SLOT_LO.SLOT: R241. -/
def RTE_SLOT_LO_SLOT : Fld := ⟨14, 0x150, 0, 1, 0, 6, 6, 8, .rw, false, true, false, .num 0⟩
/-- RTE_SLOT_HI.SLOT: R241. -/
def RTE_SLOT_HI_SLOT : Fld := ⟨14, 0x158, 0, 1, 0, 6, 6, 8, .rw, false, true, false, .num 0⟩
/-- RTE_GOSSIP.PORTS: R241. -/
def RTE_GOSSIP_PORTS : Fld := ⟨14, 0x160, 0, 1, 0, 16, 0, 1, .rw, false, true, false, .num 0⟩
/-- RTE_CNT_A.NOROUTE: R241. -/
def RTE_CNT_A_NOROUTE : Fld := ⟨14, 0x170, 0, 1, 0, 32, 0, 1, .ro, true, false, false, .num 0⟩
/-- RTE_CNT_A.HOP_DROP: R241. -/
def RTE_CNT_A_HOP_DROP : Fld := ⟨14, 0x170, 0, 1, 32, 32, 0, 1, .ro, true, false, false, .num 0⟩
/-- RTE_CNT_B.FENCE_IN: R241. -/
def RTE_CNT_B_FENCE_IN : Fld := ⟨14, 0x178, 0, 1, 0, 32, 0, 1, .ro, true, false, false, .num 0⟩
/-- RTE_CNT_B.FENCE_EG: R241. -/
def RTE_CNT_B_FENCE_EG : Fld := ⟨14, 0x178, 0, 1, 32, 32, 0, 1, .ro, true, false, false, .num 0⟩
/-- RTE_CNT_C.ESC_MOVE: R241. -/
def RTE_CNT_C_ESC_MOVE : Fld := ⟨14, 0x180, 0, 1, 0, 32, 0, 1, .ro, true, false, false, .num 0⟩
/-- RTE_CNT_C.NONMIN: R241. -/
def RTE_CNT_C_NONMIN : Fld := ⟨14, 0x180, 0, 1, 32, 32, 0, 1, .ro, true, false, false, .num 0⟩
/-- RTE_CNT_D.MARKED: R241. -/
def RTE_CNT_D_MARKED : Fld := ⟨14, 0x188, 0, 1, 0, 48, 0, 1, .ro, true, false, false, .num 0⟩

/-- SCH_DRR.QUANTUM: R281. -/
def SCH_DRR_QUANTUM : Fld := ⟨15, 0x100, 8, 16, 0, 8, 8, 8, .rw, false, true, false, .num 17⟩
/-- SCH_GRP.EN: R281. -/
def SCH_GRP_EN : Fld := ⟨15, 0x180, 8, 4, 0, 64, 0, 1, .rw, false, false, false, .num 18446744073709551615⟩
/-- SHP_CFG.EN: R281. -/
def SHP_CFG_EN : Fld := ⟨15, 0x400, 8, 128, 0, 1, 0, 1, .rw, false, true, false, .num 0⟩
/-- SHP_CFG.RESET_FULL: R281. -/
def SHP_CFG_RESET_FULL : Fld := ⟨15, 0x400, 8, 128, 1, 1, 0, 1, .rw, false, true, false, .num 1⟩
/-- SHP_CFG.OVERHEAD: R281. -/
def SHP_CFG_OVERHEAD : Fld := ⟨15, 0x400, 8, 128, 8, 8, 0, 1, .rw, false, true, false, .num 0⟩
/-- SHP_CFG.GROUP: R281. -/
def SHP_CFG_GROUP : Fld := ⟨15, 0x400, 8, 128, 16, 8, 0, 1, .rw, false, true, false, .num 0⟩
/-- SHP_RATE.RATE: R281. -/
def SHP_RATE_RATE : Fld := ⟨15, 0x800, 8, 128, 0, 24, 0, 1, .rw, false, true, false, .num 0⟩
/-- SHP_RATE.BURST: R281. -/
def SHP_RATE_BURST : Fld := ⟨15, 0x800, 8, 128, 32, 24, 0, 1, .rw, false, true, false, .num 16384⟩
/-- SHP_TOK.TOK: R281. -/
def SHP_TOK_TOK : Fld := ⟨15, 0xC00, 8, 128, 0, 40, 0, 1, .ro, false, false, false, .hw⟩

/-- CORE_CTL.REASM_TO: R198. -/
def CORE_CTL_REASM_TO : Fld := ⟨16, 0x100, 0, 1, 0, 16, 0, 1, .rw, false, true, false, .num 1250⟩
/-- CORE_CTL.SWEEP_K: R198. -/
def CORE_CTL_SWEEP_K : Fld := ⟨16, 0x100, 0, 1, 16, 5, 0, 1, .rw, false, true, false, .num 12⟩
/-- CORE_STAT.MID_ACTIVE: R198. -/
def CORE_STAT_MID_ACTIVE : Fld := ⟨16, 0x108, 0, 1, 0, 7, 0, 1, .ro, false, false, false, .num 72⟩
/-- CORE_STAT.DRAINING: R198. -/
def CORE_STAT_DRAINING : Fld := ⟨16, 0x108, 0, 1, 8, 1, 0, 1, .ro, false, false, false, .num 0⟩
/-- CORE_MID_FENCE_LO.TILES: R198. -/
def CORE_MID_FENCE_LO_TILES : Fld := ⟨16, 0x110, 0, 1, 0, 64, 0, 1, .rws, false, false, false, .num 0⟩
/-- CORE_MID_FENCE_HI.TILES: R198. -/
def CORE_MID_FENCE_HI_TILES : Fld := ⟨16, 0x118, 0, 1, 0, 8, 0, 1, .rws, false, false, false, .num 0⟩
/-- CORE_MID_STATE_LO.TILES: R198. -/
def CORE_MID_STATE_LO_TILES : Fld := ⟨16, 0x120, 0, 1, 0, 64, 0, 1, .ro, false, false, false, .num 0⟩
/-- CORE_MID_STATE_HI.TILES: R198. -/
def CORE_MID_STATE_HI_TILES : Fld := ⟨16, 0x128, 0, 1, 0, 8, 0, 1, .ro, false, false, false, .num 0⟩
/-- CORE_AGE.LIMIT: R198. -/
def CORE_AGE_LIMIT : Fld := ⟨16, 0x140, 8, 4, 0, 26, 0, 1, .rw, false, true, false, .age⟩
/-- CORE_CNT.FENCE_LOSS: R198. -/
def CORE_CNT_FENCE_LOSS : Fld := ⟨16, 0x160, 0, 1, 0, 48, 0, 1, .ro, true, false, false, .num 0⟩

/-- COL_CTL.TIMEOUT: R464. -/
def COL_CTL_TIMEOUT : Fld := ⟨17, 0x100, 0, 1, 0, 16, 0, 1, .rw, false, true, false, .num 15625⟩
/-- COL_CTL.RETRY: R464. -/
def COL_CTL_RETRY : Fld := ⟨17, 0x100, 0, 1, 16, 4, 0, 1, .rw, false, true, false, .num 3⟩
/-- COL_STAT.SLOTS_FREE: R464. -/
def COL_STAT_SLOTS_FREE : Fld := ⟨17, 0x108, 0, 1, 0, 10, 0, 1, .ro, false, false, false, .num 512⟩
/-- COL_STAT.GROUPS: R464. -/
def COL_STAT_GROUPS : Fld := ⟨17, 0x108, 0, 1, 16, 13, 0, 1, .ro, false, false, false, .num 0⟩
/-- COL_STAT.OPEN: R464. -/
def COL_STAT_OPEN : Fld := ⟨17, 0x108, 0, 1, 32, 13, 0, 1, .ro, false, false, false, .num 0⟩
/-- COL_CMD.OP: R464. -/
def COL_CMD_OP : Fld := ⟨17, 0x110, 0, 1, 0, 2, 0, 1, .rw, false, false, false, .num 0⟩
/-- COL_CMD.GROUP: R464. -/
def COL_CMD_GROUP : Fld := ⟨17, 0x110, 0, 1, 8, 12, 0, 1, .rw, false, false, false, .num 0⟩
/-- COL_CMD.SEQ: R464. -/
def COL_CMD_SEQ : Fld := ⟨17, 0x110, 0, 1, 32, 16, 0, 1, .rw, false, false, false, .num 0⟩
/-- COL_CMD.GO: R464. -/
def COL_CMD_GO : Fld := ⟨17, 0x110, 0, 1, 63, 1, 0, 1, .wo, false, false, false, .num 0⟩
/-- COL_CMD_STAT.BUSY: R464. -/
def COL_CMD_STAT_BUSY : Fld := ⟨17, 0x118, 0, 1, 0, 1, 0, 1, .ro, false, false, false, .num 0⟩
/-- COL_CMD_STAT.ERR: R464. -/
def COL_CMD_STAT_ERR : Fld := ⟨17, 0x118, 0, 1, 8, 4, 0, 1, .ro, false, false, false, .num 0⟩
/-- COL_CNT_A.DUP_DISC: R464. -/
def COL_CNT_A_DUP_DISC : Fld := ⟨17, 0x120, 0, 1, 0, 32, 0, 1, .ro, true, false, false, .num 0⟩
/-- COL_CNT_A.WINDOW_DROP: R464. -/
def COL_CNT_A_WINDOW_DROP : Fld := ⟨17, 0x120, 0, 1, 32, 32, 0, 1, .ro, true, false, false, .num 0⟩
/-- COL_CNT_B.REISSUES: R464. -/
def COL_CNT_B_REISSUES : Fld := ⟨17, 0x128, 0, 1, 0, 16, 0, 1, .ro, true, false, false, .num 0⟩
/-- COL_CNT_B.EXHAUSTED: R464. -/
def COL_CNT_B_EXHAUSTED : Fld := ⟨17, 0x128, 0, 1, 16, 16, 0, 1, .ro, true, false, false, .num 0⟩
/-- COL_CNT_B.PRUNES: R464. -/
def COL_CNT_B_PRUNES : Fld := ⟨17, 0x128, 0, 1, 32, 16, 0, 1, .ro, true, false, false, .num 0⟩
/-- COL_CNT_B.LEN_DROP: R464. -/
def COL_CNT_B_LEN_DROP : Fld := ⟨17, 0x128, 0, 1, 48, 16, 0, 1, .ro, true, false, false, .num 0⟩
/-- COL_CNT_C.STRAY: R464. -/
def COL_CNT_C_STRAY : Fld := ⟨17, 0x130, 0, 1, 0, 32, 0, 1, .ro, true, false, false, .num 0⟩
/-- COL_CNT_C.FENCED_RX: R464. -/
def COL_CNT_C_FENCED_RX : Fld := ⟨17, 0x130, 0, 1, 32, 32, 0, 1, .ro, true, false, false, .num 0⟩

/-- ENG_STAT.OPS: R330. -/
def ENG_STAT_OPS : Fld := ⟨18, 0x100, 0, 1, 0, 12, 0, 1, .ro, false, false, false, .num 0⟩
/-- ENG_STAT.CACHED: R330. -/
def ENG_STAT_CACHED : Fld := ⟨18, 0x100, 0, 1, 16, 10, 0, 1, .ro, false, false, false, .num 0⟩
/-- ENG_STAT.MISS: R330. -/
def ENG_STAT_MISS : Fld := ⟨18, 0x100, 0, 1, 32, 9, 0, 1, .ro, false, false, false, .num 0⟩
/-- ENG_STAT.HOT: R330. -/
def ENG_STAT_HOT : Fld := ⟨18, 0x100, 0, 1, 48, 7, 0, 1, .ro, false, false, false, .num 0⟩
/-- ENG_CNT_A.MISSES: R330. -/
def ENG_CNT_A_MISSES : Fld := ⟨18, 0x108, 0, 1, 0, 32, 0, 1, .ro, true, false, false, .num 0⟩
/-- ENG_CNT_A.BUSY_NACK: R330. -/
def ENG_CNT_A_BUSY_NACK : Fld := ⟨18, 0x108, 0, 1, 32, 32, 0, 1, .ro, true, false, false, .num 0⟩
/-- ENG_CNT_B.CTX_FAULTS: R330. -/
def ENG_CNT_B_CTX_FAULTS : Fld := ⟨18, 0x110, 0, 1, 0, 16, 0, 1, .ro, true, false, false, .num 0⟩
/-- ENG_CNT_B.BAD_DESC: R330. -/
def ENG_CNT_B_BAD_DESC : Fld := ⟨18, 0x110, 0, 1, 16, 32, 0, 1, .ro, true, false, false, .num 0⟩
/-- ENG_CNT_C.LATE_RSP: R487. -/
def ENG_CNT_C_LATE_RSP : Fld := ⟨18, 0x118, 0, 1, 0, 32, 0, 1, .ro, true, false, false, .num 0⟩
/-- ENG_CNT_C.DISCARDED: R487. -/
def ENG_CNT_C_DISCARDED : Fld := ⟨18, 0x118, 0, 1, 32, 32, 0, 1, .ro, true, false, false, .num 0⟩
/-- ENG_BOOST.USED: R549. -/
def ENG_BOOST_USED : Fld := ⟨18, 0x120, 0, 1, 0, 7, 0, 1, .ro, false, false, false, .num 0⟩
/-- ENG_BOOST.IGNORED: R549. -/
def ENG_BOOST_IGNORED : Fld := ⟨18, 0x120, 0, 1, 32, 32, 0, 1, .ro, true, false, false, .num 0⟩
/-- PMC_FILT.FILT_CTX: R279. -/
def PMC_FILT_FILT_CTX : Fld := ⟨18, 0x1B8, 0, 1, 0, 20, 0, 1, .rw, false, false, false, .num 0⟩

/-- CTX_RANGE.FIRST: R330. -/
def CTX_RANGE_FIRST : Fld := ⟨19, 0x100, 8, 2, 0, 20, 0, 1, .rw, false, true, false, .num 0⟩
/-- CTX_RANGE.COUNT: R330. -/
def CTX_RANGE_COUNT : Fld := ⟨19, 0x100, 8, 2, 20, 21, 0, 1, .rw, false, true, false, .num 0⟩
/-- CTX_RANGE.EN: R330. -/
def CTX_RANGE_EN : Fld := ⟨19, 0x100, 8, 2, 48, 1, 0, 1, .rw, false, true, false, .num 0⟩
/-- CTX_RANGE.HOLD: R330. -/
def CTX_RANGE_HOLD : Fld := ⟨19, 0x100, 8, 2, 49, 1, 0, 1, .rw, false, true, false, .num 0⟩
/-- CTX_BASE.ADDR: R330. -/
def CTX_BASE_ADDR : Fld := ⟨19, 0x110, 8, 2, 12, 52, 0, 1, .rw, false, true, false, .num 0⟩
/-- CTX_CFG.PORT: R330. -/
def CTX_CFG_PORT : Fld := ⟨19, 0x120, 0, 1, 0, 6, 0, 1, .rw, false, true, false, .num 0⟩
/-- CTX_CFG.PIN_MAX: R330. -/
def CTX_CFG_PIN_MAX : Fld := ⟨19, 0x120, 0, 1, 8, 10, 0, 1, .rw, false, true, false, .num 256⟩
/-- CTX_CFG.FETCH_MAX: R330. -/
def CTX_CFG_FETCH_MAX : Fld := ⟨19, 0x120, 0, 1, 24, 6, 0, 1, .rw, false, true, false, .num 32⟩
/-- CTX_CMD.OP: R330. -/
def CTX_CMD_OP : Fld := ⟨19, 0x128, 0, 1, 0, 3, 0, 1, .rw, false, false, false, .num 0⟩
/-- CTX_CMD.RANGE: R330. -/
def CTX_CMD_RANGE : Fld := ⟨19, 0x128, 0, 1, 3, 1, 0, 1, .rw, false, false, false, .num 0⟩
/-- CTX_CMD.CTX: R330. -/
def CTX_CMD_CTX : Fld := ⟨19, 0x128, 0, 1, 8, 20, 0, 1, .rw, false, false, false, .num 0⟩
/-- CTX_CMD_STAT.BUSY: R330. -/
def CTX_CMD_STAT_BUSY : Fld := ⟨19, 0x130, 0, 1, 0, 1, 0, 1, .ro, false, false, false, .num 0⟩
/-- CTX_FAULT_LOG.CTX: R330. -/
def CTX_FAULT_LOG_CTX : Fld := ⟨19, 0x138, 0, 1, 0, 20, 0, 1, .ro, false, false, false, .num 0⟩
/-- CTX_FAULT_LOG.CAUSE: R330. -/
def CTX_FAULT_LOG_CAUSE : Fld := ⟨19, 0x138, 0, 1, 20, 4, 0, 1, .ro, false, false, false, .num 0⟩
/-- CTX_FAULT_LOG.KIND: R330. -/
def CTX_FAULT_LOG_KIND : Fld := ⟨19, 0x138, 0, 1, 24, 8, 0, 1, .ro, false, false, false, .num 0⟩
/-- CTX_FAULT_LOG.VALID: R330. -/
def CTX_FAULT_LOG_VALID : Fld := ⟨19, 0x138, 0, 1, 63, 1, 0, 1, .w1c, false, false, false, .num 0⟩

/-- WQ_STAT.DC_USED: R330. -/
def WQ_STAT_DC_USED : Fld := ⟨20, 0x100, 0, 1, 0, 11, 0, 1, .ro, false, false, false, .num 0⟩
/-- WQ_CNT_A.FETCHED: R330. -/
def WQ_CNT_A_FETCHED : Fld := ⟨20, 0x108, 0, 1, 0, 48, 0, 1, .ro, true, false, false, .num 0⟩
/-- WQ_CNT_B.EMPTY: R330. -/
def WQ_CNT_B_EMPTY : Fld := ⟨20, 0x110, 0, 1, 0, 32, 0, 1, .ro, true, false, false, .num 0⟩
/-- WQ_CNT_B.INVAL: R330. -/
def WQ_CNT_B_INVAL : Fld := ⟨20, 0x110, 0, 1, 32, 32, 0, 1, .ro, true, false, false, .num 0⟩

/-- RMA_RTX.TIMEOUT: R382. -/
def RMA_RTX_TIMEOUT : Fld := ⟨21, 0x100, 0, 1, 0, 16, 0, 1, .rw, false, true, false, .num 2344⟩
/-- RMA_RTX.MAX_RETRY: R382. -/
def RMA_RTX_MAX_RETRY : Fld := ⟨21, 0x100, 0, 1, 16, 4, 0, 1, .rw, false, true, false, .num 7⟩
/-- RMA_HOLE.HOLE: R382. -/
def RMA_HOLE_HOLE : Fld := ⟨21, 0x108, 0, 1, 0, 16, 0, 1, .rw, false, true, false, .num 832⟩
/-- RMA_BUSY.BASE: R382. -/
def RMA_BUSY_BASE : Fld := ⟨21, 0x110, 0, 1, 0, 16, 0, 1, .rw, false, true, false, .num 32⟩
/-- RMA_BUSY.MAX_TRIES: R382. -/
def RMA_BUSY_MAX_TRIES : Fld := ⟨21, 0x110, 0, 1, 16, 8, 0, 1, .rw, false, true, false, .num 12⟩
/-- RMA_CC.EN: R382. -/
def RMA_CC_EN : Fld := ⟨21, 0x118, 0, 1, 0, 1, 0, 1, .rw, false, true, false, .num 1⟩
/-- RMA_CC.ALPHA: R382. -/
def RMA_CC_ALPHA : Fld := ⟨21, 0x118, 0, 1, 4, 4, 0, 1, .rw, false, true, false, .num 8⟩
/-- RMA_CC.DEC_GAP: R382. -/
def RMA_CC_DEC_GAP : Fld := ⟨21, 0x118, 0, 1, 8, 8, 0, 1, .rw, false, true, false, .num 63⟩
/-- RMA_CC.INC_PERIOD: R382. -/
def RMA_CC_INC_PERIOD : Fld := ⟨21, 0x118, 0, 1, 16, 16, 0, 1, .rw, false, true, false, .num 125⟩
/-- RMA_CC_RATE.LINE: R382. -/
def RMA_CC_RATE_LINE : Fld := ⟨21, 0x120, 0, 1, 0, 14, 0, 1, .rw, false, true, false, .num 8192⟩
/-- RMA_CC_RATE.MIN: R382. -/
def RMA_CC_RATE_MIN : Fld := ⟨21, 0x120, 0, 1, 16, 14, 0, 1, .rw, false, true, false, .num 8⟩
/-- RMA_CC_RATE.STEP: R382. -/
def RMA_CC_RATE_STEP : Fld := ⟨21, 0x120, 0, 1, 32, 14, 0, 1, .rw, false, true, false, .num 40⟩
/-- RMA_STG.QUOTA: R382. -/
def RMA_STG_QUOTA : Fld := ⟨21, 0x128, 0, 1, 0, 13, 0, 1, .rw, false, true, false, .num 960⟩
/-- RMA_STG.GET_SEG: R382. -/
def RMA_STG_GET_SEG : Fld := ⟨21, 0x128, 0, 1, 16, 3, 0, 1, .rw, false, true, false, .num 2⟩
/-- RMA_STAT.TRACKERS: R382. -/
def RMA_STAT_TRACKERS : Fld := ⟨21, 0x130, 0, 1, 0, 13, 0, 1, .ro, false, false, false, .num 0⟩
/-- RMA_STAT.CC_USED: R382. -/
def RMA_STAT_CC_USED : Fld := ⟨21, 0x130, 0, 1, 16, 13, 0, 1, .ro, false, false, false, .num 0⟩
/-- RMA_STAT.STG_USED: R382. -/
def RMA_STAT_STG_USED : Fld := ⟨21, 0x130, 0, 1, 32, 13, 0, 1, .ro, false, false, false, .num 0⟩
/-- RMA_REG_INVAL.CTX: R382. -/
def RMA_REG_INVAL_CTX : Fld := ⟨21, 0x138, 0, 1, 0, 20, 0, 1, .rw, false, false, false, .num 0⟩
/-- RMA_REG_INVAL.REGION: R382. -/
def RMA_REG_INVAL_REGION : Fld := ⟨21, 0x138, 0, 1, 20, 20, 0, 1, .rw, false, false, false, .num 0⟩
/-- RMA_REG_INVAL.SCOPE: R382. -/
def RMA_REG_INVAL_SCOPE : Fld := ⟨21, 0x138, 0, 1, 40, 2, 0, 1, .rw, false, false, false, .num 0⟩
/-- RMA_REG_INVAL.GO: R382. -/
def RMA_REG_INVAL_GO : Fld := ⟨21, 0x138, 0, 1, 48, 1, 0, 1, .wo, false, false, false, .num 0⟩
/-- RMA_REG_INVAL.BUSY: R382. -/
def RMA_REG_INVAL_BUSY : Fld := ⟨21, 0x138, 0, 1, 49, 1, 0, 1, .ro, false, false, false, .num 0⟩
/-- RMA_ACACHE.CTX: R382. -/
def RMA_ACACHE_CTX : Fld := ⟨21, 0x140, 0, 1, 0, 20, 0, 1, .rw, false, false, false, .num 0⟩
/-- RMA_ACACHE.ALL: R382. -/
def RMA_ACACHE_ALL : Fld := ⟨21, 0x140, 0, 1, 20, 1, 0, 1, .rw, false, false, false, .num 0⟩
/-- RMA_ACACHE.FLUSH: R382. -/
def RMA_ACACHE_FLUSH : Fld := ⟨21, 0x140, 0, 1, 48, 1, 0, 1, .wo, false, false, false, .num 0⟩
/-- RMA_ACACHE.BUSY: R382. -/
def RMA_ACACHE_BUSY : Fld := ⟨21, 0x140, 0, 1, 49, 1, 0, 1, .ro, false, false, false, .num 0⟩
/-- RMA_CNT_A.RTX_TIMER: R382. -/
def RMA_CNT_A_RTX_TIMER : Fld := ⟨21, 0x148, 0, 1, 0, 32, 0, 1, .ro, true, false, false, .num 0⟩
/-- RMA_CNT_A.RTX_HOLE: R382. -/
def RMA_CNT_A_RTX_HOLE : Fld := ⟨21, 0x148, 0, 1, 32, 32, 0, 1, .ro, true, false, false, .num 0⟩
/-- RMA_CNT_B.EXHAUSTED: R382. -/
def RMA_CNT_B_EXHAUSTED : Fld := ⟨21, 0x150, 0, 1, 0, 16, 0, 1, .ro, true, false, false, .num 0⟩
/-- RMA_CNT_B.REFUSED: R382. -/
def RMA_CNT_B_REFUSED : Fld := ⟨21, 0x150, 0, 1, 16, 32, 0, 1, .ro, true, false, false, .num 0⟩
/-- RMA_CNT_B.SPARE_DROP: R382. -/
def RMA_CNT_B_SPARE_DROP : Fld := ⟨21, 0x150, 0, 1, 48, 16, 0, 1, .ro, true, false, false, .num 0⟩
/-- RMA_CNT_C.STALE: R382. -/
def RMA_CNT_C_STALE : Fld := ⟨21, 0x158, 0, 1, 0, 32, 0, 1, .ro, true, false, false, .num 0⟩
/-- RMA_CNT_C.NO_TRACKER: R382. -/
def RMA_CNT_C_NO_TRACKER : Fld := ⟨21, 0x158, 0, 1, 32, 32, 0, 1, .ro, true, false, false, .num 0⟩
/-- RMA_LEG.TIMEOUT: R760. -/
def RMA_LEG_TIMEOUT : Fld := ⟨21, 0x160, 0, 1, 0, 16, 0, 1, .rw, false, true, false, .num 4883⟩
/-- RMA_LEG.HOLE: R760. -/
def RMA_LEG_HOLE : Fld := ⟨21, 0x160, 0, 1, 16, 16, 0, 1, .rw, false, true, false, .num 2346⟩
/-- RMA_LEG.TRANSIT: R760. -/
def RMA_LEG_TRANSIT : Fld := ⟨21, 0x160, 0, 1, 32, 16, 0, 1, .rw, false, true, false, .num 1563⟩

/-- MAT_CTL.EAGER_MAX: R416. -/
def MAT_CTL_EAGER_MAX : Fld := ⟨22, 0x100, 0, 1, 0, 9, 0, 1, .rw, false, true, false, .num 64⟩
/-- MAT_STREAM.WINDOW: R416. -/
def MAT_STREAM_WINDOW : Fld := ⟨22, 0x108, 0, 1, 0, 16, 0, 1, .rw, false, true, false, .num 3141⟩
/-- MAT_STAT.POSTED: R416. -/
def MAT_STAT_POSTED : Fld := ⟨22, 0x110, 0, 1, 0, 16, 0, 1, .ro, false, false, false, .num 0⟩
/-- MAT_STAT.UNEXP: R416. -/
def MAT_STAT_UNEXP : Fld := ⟨22, 0x110, 0, 1, 16, 15, 0, 1, .ro, false, false, false, .num 0⟩
/-- MAT_STAT.STREAMS: R416. -/
def MAT_STAT_STREAMS : Fld := ⟨22, 0x110, 0, 1, 32, 15, 0, 1, .ro, false, false, false, .num 0⟩
/-- MAT_STAT.OVF_CTX: R416. -/
def MAT_STAT_OVF_CTX : Fld := ⟨22, 0x110, 0, 1, 48, 10, 0, 1, .ro, false, false, false, .num 0⟩
/-- MAT_CNT_A.ARR_MATCH: R416. -/
def MAT_CNT_A_ARR_MATCH : Fld := ⟨22, 0x118, 0, 1, 0, 32, 0, 1, .ro, true, false, false, .num 0⟩
/-- MAT_CNT_A.POST_MATCH: R416. -/
def MAT_CNT_A_POST_MATCH : Fld := ⟨22, 0x118, 0, 1, 32, 32, 0, 1, .ro, true, false, false, .num 0⟩
/-- MAT_CNT_B.OVERFLOWS: R416. -/
def MAT_CNT_B_OVERFLOWS : Fld := ⟨22, 0x120, 0, 1, 0, 16, 0, 1, .ro, true, false, false, .num 0⟩
/-- MAT_CNT_B.DEMOTED: R416. -/
def MAT_CNT_B_DEMOTED : Fld := ⟨22, 0x120, 0, 1, 16, 32, 0, 1, .ro, true, false, false, .num 0⟩
/-- MAT_CNT_C.GAP_SKIP: R416. -/
def MAT_CNT_C_GAP_SKIP : Fld := ⟨22, 0x128, 0, 1, 0, 16, 0, 1, .ro, true, false, false, .num 0⟩
/-- MAT_CNT_C.ORD_LATE: R416. -/
def MAT_CNT_C_ORD_LATE : Fld := ⟨22, 0x128, 0, 1, 16, 16, 0, 1, .ro, true, false, false, .num 0⟩
/-- MAT_CNT_C.STREAM_NACK: R416. -/
def MAT_CNT_C_STREAM_NACK : Fld := ⟨22, 0x128, 0, 1, 32, 32, 0, 1, .ro, true, false, false, .num 0⟩

/-- XLT_CFG.AD_RETRY: R519. -/
def XLT_CFG_AD_RETRY : Fld := ⟨23, 0x100, 0, 1, 0, 4, 0, 1, .rw, false, true, false, .num 4⟩
/-- XLT_CFG.WALKS: R519. -/
def XLT_CFG_WALKS : Fld := ⟨23, 0x100, 0, 1, 8, 5, 0, 1, .rw, false, true, false, .num 16⟩
/-- XLT_CFG.WC_EN: R519. -/
def XLT_CFG_WC_EN : Fld := ⟨23, 0x100, 0, 1, 16, 1, 0, 1, .rw, false, true, false, .num 1⟩
/-- XLT_STAT.TLB_USED: R519. -/
def XLT_STAT_TLB_USED : Fld := ⟨23, 0x108, 0, 1, 0, 9, 0, 1, .ro, false, false, false, .num 0⟩
/-- XLT_STAT.WALKS: R519. -/
def XLT_STAT_WALKS : Fld := ⟨23, 0x108, 0, 1, 16, 5, 0, 1, .ro, false, false, false, .num 0⟩
/-- XLT_STAT.WC_USED: R519. -/
def XLT_STAT_WC_USED : Fld := ⟨23, 0x108, 0, 1, 32, 7, 0, 1, .ro, false, false, false, .num 0⟩
/-- XLT_INVAL.CTX: R519. -/
def XLT_INVAL_CTX : Fld := ⟨23, 0x110, 0, 1, 0, 20, 0, 1, .rw, false, false, false, .num 0⟩
/-- XLT_INVAL.SCOPE: R519. -/
def XLT_INVAL_SCOPE : Fld := ⟨23, 0x110, 0, 1, 20, 2, 0, 1, .rw, false, false, false, .num 0⟩
/-- XLT_INVAL.REG: R519. -/
def XLT_INVAL_REG : Fld := ⟨23, 0x110, 0, 1, 22, 1, 0, 1, .rw, false, false, false, .num 0⟩
/-- XLT_INVAL.GO: R519. -/
def XLT_INVAL_GO : Fld := ⟨23, 0x110, 0, 1, 48, 1, 0, 1, .wo, false, false, false, .num 0⟩
/-- XLT_INVAL.BUSY: R519. -/
def XLT_INVAL_BUSY : Fld := ⟨23, 0x110, 0, 1, 49, 1, 0, 1, .ro, false, false, false, .num 0⟩
/-- XLT_INVAL_ADDR.VA: R519. -/
def XLT_INVAL_ADDR_VA : Fld := ⟨23, 0x118, 0, 1, 12, 52, 0, 1, .rw, false, false, false, .num 0⟩
/-- XLT_INVAL_LEN.LEN: R519. -/
def XLT_INVAL_LEN_LEN : Fld := ⟨23, 0x120, 0, 1, 0, 48, 0, 1, .rw, false, false, false, .num 0⟩
/-- XLT_FLT_LOG.CTX: R519. -/
def XLT_FLT_LOG_CTX : Fld := ⟨23, 0x128, 0, 1, 0, 20, 0, 1, .ro, false, false, false, .num 0⟩
/-- XLT_FLT_LOG.KIND: R519. -/
def XLT_FLT_LOG_KIND : Fld := ⟨23, 0x128, 0, 1, 20, 8, 0, 1, .ro, false, false, false, .num 0⟩
/-- XLT_FLT_LOG.ACC: R519. -/
def XLT_FLT_LOG_ACC : Fld := ⟨23, 0x128, 0, 1, 28, 3, 0, 1, .ro, false, false, false, .num 0⟩
/-- XLT_FLT_LOG.LEVEL: R519. -/
def XLT_FLT_LOG_LEVEL : Fld := ⟨23, 0x128, 0, 1, 32, 3, 0, 1, .ro, false, false, false, .num 0⟩
/-- XLT_FLT_LOG.VALID: R519. -/
def XLT_FLT_LOG_VALID : Fld := ⟨23, 0x128, 0, 1, 63, 1, 0, 1, .w1c, false, false, false, .num 0⟩
/-- XLT_FLT_ADDR.VA: R519. -/
def XLT_FLT_ADDR_VA : Fld := ⟨23, 0x130, 0, 1, 0, 64, 0, 1, .ro, false, false, false, .num 0⟩
/-- XLT_CNT_A.MISSES: R519. -/
def XLT_CNT_A_MISSES : Fld := ⟨23, 0x138, 0, 1, 0, 32, 0, 1, .ro, true, false, false, .num 0⟩
/-- XLT_CNT_A.WALK_ERR: R519. -/
def XLT_CNT_A_WALK_ERR : Fld := ⟨23, 0x138, 0, 1, 32, 32, 0, 1, .ro, true, false, false, .num 0⟩
/-- XLT_CNT_B.FAULTS: R519. -/
def XLT_CNT_B_FAULTS : Fld := ⟨23, 0x140, 0, 1, 0, 32, 0, 1, .ro, true, false, false, .num 0⟩
/-- XLT_CNT_B.AD_RETRIES: R519. -/
def XLT_CNT_B_AD_RETRIES : Fld := ⟨23, 0x140, 0, 1, 32, 32, 0, 1, .ro, true, false, false, .num 0⟩

/-- LCK_CTL.EN: R549. -/
def LCK_CTL_EN : Fld := ⟨24, 0x100, 0, 1, 0, 1, 0, 1, .rw, false, true, false, .num 1⟩
/-- LCK_CTL.DEF_QUOTA: R549. -/
def LCK_CTL_DEF_QUOTA : Fld := ⟨24, 0x100, 0, 1, 16, 14, 0, 1, .rw, false, true, false, .num 1024⟩
/-- LCK_TIME.WAIT_LIFE: R549. -/
def LCK_TIME_WAIT_LIFE : Fld := ⟨24, 0x108, 0, 1, 0, 16, 0, 1, .rw, false, true, false, .num 6266⟩
/-- LCK_TIME.BOOST_REFRESH: R549. -/
def LCK_TIME_BOOST_REFRESH : Fld := ⟨24, 0x108, 0, 1, 16, 16, 0, 1, .rw, false, true, false, .num 1000⟩
/-- LCK_STAT.HELD: R549. -/
def LCK_STAT_HELD : Fld := ⟨24, 0x110, 0, 1, 0, 14, 0, 1, .ro, false, false, false, .num 0⟩
/-- LCK_STAT.WAITERS: R549. -/
def LCK_STAT_WAITERS : Fld := ⟨24, 0x110, 0, 1, 16, 15, 0, 1, .ro, false, false, false, .num 0⟩
/-- LCK_STAT.PEAK: R549. -/
def LCK_STAT_PEAK : Fld := ⟨24, 0x110, 0, 1, 32, 15, 0, 1, .rw, false, false, false, .num 0⟩
/-- LCK_CNT_A.GRANTS: R549. -/
def LCK_CNT_A_GRANTS : Fld := ⟨24, 0x118, 0, 1, 0, 32, 0, 1, .ro, true, false, false, .num 0⟩
/-- LCK_CNT_A.LAPSES: R549. -/
def LCK_CNT_A_LAPSES : Fld := ⟨24, 0x118, 0, 1, 32, 32, 0, 1, .ro, true, false, false, .num 0⟩
/-- LCK_CNT_B.ABANDONS: R549. -/
def LCK_CNT_B_ABANDONS : Fld := ⟨24, 0x120, 0, 1, 0, 16, 0, 1, .ro, true, false, false, .num 0⟩
/-- LCK_CNT_B.BUSY: R549. -/
def LCK_CNT_B_BUSY : Fld := ⟨24, 0x120, 0, 1, 16, 32, 0, 1, .ro, true, false, false, .num 0⟩
/-- LCK_CNT_B.SLOTS_NACK: R549. -/
def LCK_CNT_B_SLOTS_NACK : Fld := ⟨24, 0x120, 0, 1, 48, 16, 0, 1, .ro, true, false, false, .num 0⟩
/-- LCK_CNT_C.STALE: R549. -/
def LCK_CNT_C_STALE : Fld := ⟨24, 0x128, 0, 1, 0, 32, 0, 1, .ro, true, false, false, .num 0⟩
/-- LCK_CNT_C.DROPPED: R549. -/
def LCK_CNT_C_DROPPED : Fld := ⟨24, 0x128, 0, 1, 32, 32, 0, 1, .ro, true, false, false, .num 0⟩

/-- DUP_CTL.LIFE: R382. -/
def DUP_CTL_LIFE : Fld := ⟨25, 0x100, 0, 1, 0, 16, 0, 1, .rw, false, true, false, .num 3141⟩
/-- DUP_STAT.USED: R382. -/
def DUP_STAT_USED : Fld := ⟨25, 0x108, 0, 1, 0, 15, 0, 1, .ro, false, false, false, .num 0⟩
/-- DUP_STAT.PEAK: R382. -/
def DUP_STAT_PEAK : Fld := ⟨25, 0x108, 0, 1, 16, 15, 0, 1, .rw, false, false, false, .num 0⟩
/-- DUP_CNT.HITS: R382. -/
def DUP_CNT_HITS : Fld := ⟨25, 0x110, 0, 1, 0, 32, 0, 1, .ro, true, false, false, .num 0⟩
/-- DUP_CNT.FULL_NACK: R382. -/
def DUP_CNT_FULL_NACK : Fld := ⟨25, 0x110, 0, 1, 32, 32, 0, 1, .ro, true, false, false, .num 0⟩
/-- DUP_CNT_B.PENDING_DISC: R382. -/
def DUP_CNT_B_PENDING_DISC : Fld := ⟨25, 0x118, 0, 1, 0, 32, 0, 1, .ro, true, false, false, .num 0⟩
/-- DUP_LEG.LIFE: R760. -/
def DUP_LEG_LIFE : Fld := ⟨25, 0x120, 0, 1, 0, 16, 0, 1, .rw, false, true, false, .num 7229⟩

/-- HPT_CTL.SPLIT: R587. -/
def HPT_CTL_SPLIT : Fld := ⟨26, 0x100, 0, 1, 0, 3, 0, 1, .rw, false, true, false, .num 0⟩
/-- HPT_CTL.MAX_GEN: R587. -/
def HPT_CTL_MAX_GEN : Fld := ⟨26, 0x100, 0, 1, 4, 3, 0, 1, .rw, false, true, false, .num 7⟩
/-- HPT_CTL.FAB_TO: R587. -/
def HPT_CTL_FAB_TO : Fld := ⟨26, 0x100, 0, 1, 16, 16, 0, 1, .rw, false, true, false, .num 1563⟩
/-- HPT_CTL.L1_IDLE: R587. -/
def HPT_CTL_L1_IDLE : Fld := ⟨26, 0x100, 0, 1, 32, 16, 0, 1, .rw, false, true, false, .num 16⟩
/-- HPT_CTL.LTR_NS: R587. -/
def HPT_CTL_LTR_NS : Fld := ⟨26, 0x100, 0, 1, 48, 16, 0, 1, .rw, false, true, false, .num 10000⟩
/-- HPT_STAT.UP: R587. -/
def HPT_STAT_UP : Fld := ⟨26, 0x108, 0, 1, 0, 1, 0, 1, .ro, false, false, false, .num 0⟩
/-- HPT_STAT.GEN: R587. -/
def HPT_STAT_GEN : Fld := ⟨26, 0x108, 0, 1, 1, 3, 0, 1, .ro, false, false, false, .num 0⟩
/-- HPT_STAT.WIDTH: R587. -/
def HPT_STAT_WIDTH : Fld := ⟨26, 0x108, 0, 1, 4, 5, 0, 1, .ro, false, false, false, .num 0⟩
/-- HPT_STAT.FORMED: R587. -/
def HPT_STAT_FORMED : Fld := ⟨26, 0x108, 0, 1, 9, 1, 0, 1, .ro, false, false, false, .hw⟩
/-- HPT_STAT.PM: R587. -/
def HPT_STAT_PM : Fld := ⟨26, 0x108, 0, 1, 10, 2, 0, 1, .ro, false, false, false, .num 0⟩
/-- HPT_STAT.PERST: R587. -/
def HPT_STAT_PERST : Fld := ⟨26, 0x108, 0, 1, 12, 1, 0, 1, .ro, false, false, false, .pin⟩
/-- HPT_STAT.NP_OUT: R587. -/
def HPT_STAT_NP_OUT : Fld := ⟨26, 0x108, 0, 1, 16, 14, 0, 1, .ro, false, false, false, .num 0⟩
/-- HPT_CNT_A.REPLAY: R587. -/
def HPT_CNT_A_REPLAY : Fld := ⟨26, 0x110, 0, 1, 0, 32, 0, 1, .ro, true, false, false, .num 0⟩
/-- HPT_CNT_A.RECOVERY: R587. -/
def HPT_CNT_A_RECOVERY : Fld := ⟨26, 0x110, 0, 1, 32, 32, 0, 1, .ro, true, false, false, .num 0⟩
/-- HPT_CNT_B.UR: R587. -/
def HPT_CNT_B_UR : Fld := ⟨26, 0x118, 0, 1, 0, 32, 0, 1, .ro, true, false, false, .num 0⟩
/-- HPT_CNT_B.CTO: R587. -/
def HPT_CNT_B_CTO : Fld := ⟨26, 0x118, 0, 1, 32, 32, 0, 1, .ro, true, false, false, .num 0⟩
/-- HPT_CNT_C.FAB_TO: R587. -/
def HPT_CNT_C_FAB_TO : Fld := ⟨26, 0x120, 0, 1, 0, 32, 0, 1, .ro, true, false, false, .num 0⟩
/-- HPT_CNT_C.LATE_CPL: R587. -/
def HPT_CNT_C_LATE_CPL : Fld := ⟨26, 0x120, 0, 1, 32, 32, 0, 1, .ro, true, false, false, .num 0⟩

/-- WIN_COMMIT.GO: R587. -/
def WIN_COMMIT_GO : Fld := ⟨27, 0x100, 0, 1, 0, 1, 0, 1, .wo, false, false, false, .num 0⟩
/-- WIN_COMMIT.PEND: R587. -/
def WIN_COMMIT_PEND : Fld := ⟨27, 0x100, 0, 1, 8, 1, 0, 1, .ro, false, false, false, .num 0⟩
/-- WIN_COMMIT.COUNT: R587. -/
def WIN_COMMIT_COUNT : Fld := ⟨27, 0x100, 0, 1, 32, 16, 0, 1, .ro, false, false, false, .num 0⟩
/-- WIN_IN_PF.CTX_FIRST: R587. -/
def WIN_IN_PF_CTX_FIRST : Fld := ⟨27, 0x110, 8, 8, 0, 20, 0, 1, .rws, false, true, false, .num 0⟩
/-- WIN_IN_PF.COUNT: R587. -/
def WIN_IN_PF_COUNT : Fld := ⟨27, 0x110, 8, 8, 20, 21, 0, 1, .rws, false, true, false, .num 0⟩
/-- WIN_IN_VF.CTX_FIRST: R587. -/
def WIN_IN_VF_CTX_FIRST : Fld := ⟨27, 0x150, 0, 1, 0, 20, 0, 1, .rws, false, true, false, .num 0⟩
/-- WIN_IN_VF.COUNT: R587. -/
def WIN_IN_VF_COUNT : Fld := ⟨27, 0x150, 0, 1, 20, 13, 0, 1, .rws, false, true, false, .num 0⟩
/-- WIN_OUT_SRC.EN: R587. -/
def WIN_OUT_SRC_EN : Fld := ⟨27, 0x200, 16, 16, 0, 1, 0, 1, .rws, false, true, false, .num 0⟩
/-- WIN_OUT_SRC.LOG2: R587. -/
def WIN_OUT_SRC_LOG2 : Fld := ⟨27, 0x200, 16, 16, 1, 6, 0, 1, .rws, false, true, false, .num 16⟩
/-- WIN_OUT_SRC.BASE: R587. -/
def WIN_OUT_SRC_BASE : Fld := ⟨27, 0x200, 16, 16, 16, 36, 0, 1, .rws, false, true, false, .num 0⟩
/-- WIN_OUT_TGT.TGT: R587. -/
def WIN_OUT_TGT_TGT : Fld := ⟨27, 0x208, 16, 16, 16, 48, 0, 1, .rws, false, true, false, .num 0⟩

/-- FUN_PF.EN: R587. -/
def FUN_PF_EN : Fld := ⟨28, 0x100, 8, 8, 0, 1, 0, 1, .rw, false, true, false, .pfEn⟩
/-- FUN_PF.MGMT: R587. -/
def FUN_PF_MGMT : Fld := ⟨28, 0x100, 8, 8, 1, 1, 0, 1, .rw, false, true, false, .num 0⟩
/-- FUN_PF.BAR2_LOG2: R587. -/
def FUN_PF_BAR2_LOG2 : Fld := ⟨28, 0x100, 8, 8, 8, 5, 0, 1, .rw, false, true, false, .num 12⟩
/-- FUN_PF.VECTORS: R587. -/
def FUN_PF_VECTORS : Fld := ⟨28, 0x100, 8, 8, 16, 12, 0, 1, .rw, false, true, false, .num 64⟩
/-- FUN_PF.TOTAL_VFS: R587. -/
def FUN_PF_TOTAL_VFS : Fld := ⟨28, 0x100, 8, 8, 32, 9, 0, 1, .rw, false, true, false, .num 0⟩
/-- FUN_PF.WAKE: R587. -/
def FUN_PF_WAKE : Fld := ⟨28, 0x100, 8, 8, 48, 1, 0, 1, .rw, false, true, false, .num 0⟩
/-- FUN_VF.BAR2_LOG2: R587. -/
def FUN_VF_BAR2_LOG2 : Fld := ⟨28, 0x140, 0, 1, 0, 5, 0, 1, .rw, false, true, false, .num 4⟩
/-- FUN_VF.VECTORS: R587. -/
def FUN_VF_VECTORS : Fld := ⟨28, 0x140, 0, 1, 16, 12, 0, 1, .rw, false, true, false, .num 16⟩
/-- FUN_ID.SUBSYS_VID: R587. -/
def FUN_ID_SUBSYS_VID : Fld := ⟨28, 0x148, 0, 1, 0, 16, 0, 1, .rw, false, true, false, .num 0⟩
/-- FUN_ID.SUBSYS_ID: R587. -/
def FUN_ID_SUBSYS_ID : Fld := ⟨28, 0x148, 0, 1, 16, 16, 0, 1, .rw, false, true, false, .num 0⟩
/-- FUN_STAT.FLR_BUSY: R587. -/
def FUN_STAT_FLR_BUSY : Fld := ⟨28, 0x150, 0, 1, 0, 8, 0, 1, .ro, false, false, false, .num 0⟩
/-- FUN_STAT.D3: R587. -/
def FUN_STAT_D3 : Fld := ⟨28, 0x150, 0, 1, 8, 8, 0, 1, .ro, false, false, false, .num 0⟩
/-- FUN_STAT.VF_CUT: R587. -/
def FUN_STAT_VF_CUT : Fld := ⟨28, 0x150, 0, 1, 16, 1, 0, 1, .ro, false, false, false, .num 0⟩
/-- FUN_STAT.VEC_CUT: R587. -/
def FUN_STAT_VEC_CUT : Fld := ⟨28, 0x150, 0, 1, 17, 1, 0, 1, .ro, false, false, false, .num 0⟩

/-- TEL_CTL.SAMPLE_K: R281. -/
def TEL_CTL_SAMPLE_K : Fld := ⟨29, 0x100, 0, 1, 0, 5, 0, 1, .rw, false, true, false, .num 8⟩
/-- TEL_CTL.RING_EN: R281. -/
def TEL_CTL_RING_EN : Fld := ⟨29, 0x100, 0, 1, 8, 1, 0, 1, .rw, false, true, false, .num 0⟩
/-- TEL_CTL.RING_K: R281. -/
def TEL_CTL_RING_K : Fld := ⟨29, 0x100, 0, 1, 16, 5, 0, 1, .rw, false, true, false, .num 16⟩
/-- TEL_CTL.WRAP: R281. -/
def TEL_CTL_WRAP : Fld := ⟨29, 0x100, 0, 1, 24, 1, 0, 1, .rw, false, true, false, .num 0⟩
/-- TEL_CTL.ALM_EN: R281. -/
def TEL_CTL_ALM_EN : Fld := ⟨29, 0x100, 0, 1, 25, 1, 0, 1, .rw, false, true, false, .num 0⟩
/-- TEL_CTL.HIST_CLR: R281. -/
def TEL_CTL_HIST_CLR : Fld := ⟨29, 0x100, 0, 1, 32, 1, 0, 1, .wo, false, false, false, .num 0⟩
/-- TEL_PTR.WR: R281. -/
def TEL_PTR_WR : Fld := ⟨29, 0x108, 0, 1, 0, 8, 0, 1, .ro, false, false, false, .num 0⟩
/-- TEL_PTR.RD: R281. -/
def TEL_PTR_RD : Fld := ⟨29, 0x108, 0, 1, 8, 8, 0, 1, .rw, false, false, false, .num 0⟩
/-- TEL_PTR.LOST: R281. -/
def TEL_PTR_LOST : Fld := ⟨29, 0x108, 0, 1, 32, 32, 0, 1, .ro, true, false, false, .num 0⟩
/-- TEL_HIST.BIN_LO: R281. -/
def TEL_HIST_BIN_LO : Fld := ⟨29, 0x400, 8, 128, 0, 32, 0, 1, .ro, false, false, false, .num 0⟩
/-- TEL_HIST.BIN_HI: R281. -/
def TEL_HIST_BIN_HI : Fld := ⟨29, 0x400, 8, 128, 32, 32, 0, 1, .ro, false, false, false, .num 0⟩

/-- FUS_CTL.PROG: R720. -/
def FUS_CTL_PROG : Fld := ⟨30, 0x100, 0, 1, 0, 1, 0, 1, .wo, false, false, true, .num 0⟩
/-- FUS_ROW.ROW: R720. -/
def FUS_ROW_ROW : Fld := ⟨30, 0x108, 0, 1, 0, 8, 0, 1, .rw, false, false, true, .num 0⟩
/-- FUS_DATA.DATA: R720. -/
def FUS_DATA_DATA : Fld := ⟨30, 0x110, 0, 1, 0, 64, 0, 1, .rw, false, false, true, .num 0⟩
/-- FUS_STAT.BUSY: R720. -/
def FUS_STAT_BUSY : Fld := ⟨30, 0x118, 0, 1, 0, 1, 0, 1, .ro, false, false, false, .num 0⟩
/-- FUS_STAT.ERR: R720. -/
def FUS_STAT_ERR : Fld := ⟨30, 0x118, 0, 1, 1, 1, 0, 1, .w1c, false, false, false, .num 0⟩
/-- FUS_STAT.DEBUG_LOCK: R720. -/
def FUS_STAT_DEBUG_LOCK : Fld := ⟨30, 0x118, 0, 1, 2, 1, 0, 1, .ro, false, false, false, .fuse⟩
/-- FUS_DEBUG.UNLOCK: R720. -/
def FUS_DEBUG_UNLOCK : Fld := ⟨30, 0x120, 0, 1, 0, 1, 0, 1, .wo, false, false, true, .num 0⟩
/-- FUS_DEBUG.UNLOCKED: R720. -/
def FUS_DEBUG_UNLOCKED : Fld := ⟨30, 0x120, 0, 1, 1, 1, 0, 1, .ro, false, false, false, .num 0⟩

/-- The fields of class HDR. -/
def fieldsOfHdr : List Fld :=
  [CYC_COUNT, PMC_SEL_EV, PMC_COUNT, PMC_SAT, PMC_CTL_EN, PMC_CTL_SAT_EVT, PMC_CTL_SNAP_EN, PMC_CTL_FREEZE, PMC_CTL_SNAP_NOW, PMC_CTL_NUM, PMC_CTL_TAG, PMC_CTL_FILT_EN, PMC_SNAP_TAG, PMC_SNAP_SEQ, ID_CODE, ID_CLASS, ID_INSTANCE, ID_VERSION, CAP_NEVT, CAP_SHADOW, CAP_EPOCH, CAP_AL, CTL_CNT_CLR, STAT_CAP_VALID, STAT_CAP_OVF, STAT_RUNG, STAT_FENCED, EVT_STAT_EVT, EVT_EN_EN, EVT_FORCE_FORCE, EVT_BASE_BASE, CAP_ADDR_ADDR, CAP_INFO_EVT, CAP_INFO_SPACE, CAP_INFO_MKIND, CAP_INFO_MASTER, CAP_INFO_ACC, CAP_TIME_MT, INJ_MASK, INJ_ARM] ++
  [INJ_PEND, SHADOW_CTL_COMMIT, SHADOW_CTL_DISCARD, SHADOW_CTL_DISARM, SHADOW_CTL_VIEW_ACTIVE, SHADOW_CTL_PEND, SHADOW_CTL_ARMED, SHADOW_CTL_SLOT, EPOCH_AT_NS]
/-- The fields of class DEV. -/
def fieldsOfDev : List Fld :=
  [DEV_SELF_GROUP, DEV_SELF_DEVICE, DEV_SELF_VALID, DEV_INFO_PART, DEV_INFO_STEP, DEV_RESET_KEY, DEV_SERIAL_SN, DEST_CAP_LEGACY]
/-- The fields of class MT. -/
def fieldsOfMt : List Fld :=
  [MT_NOW_NS, MT_FRAC_FRAC, MT_SRC_KIND, MT_SRC_EXT_MODE, MT_SRC_PTM_PORT, MT_SRC_UP_PORT, MT_SRC_ALT_PORT, MT_SRC_ALT_EN, MT_STAT_STATE, MT_STAT_FIRST_LOCK, MT_STAT_STEPPED, MT_STAT_TOD_PENDING, MT_STAT_ON_ALT, MT_STAT_LOOP, MT_STAT_HOPS, MT_STAT_ERR_NS, MT_TOD_NEXT_NS, MT_ACC_LIMIT, MT_ACC_HOLD_DRIFT, MT_ACC_SETTLE, MT_SLEW_MAX_PPB, MT_SLEW_STEP_THRESH, MT_SYNC_TIME_K, MT_SYNC_PTM_K, MT_CONS_FACTOR, MT_PPS_OUT_EN, MT_PPS_OUT_WIDTH, MT_PPS_OUT_COMP, MT_EXT_COMP_PS, MT_PTM_OFS_NS, MT_REF_ERR_EXT_ERR, MT_REF_ERR_PTM_ERR, MT_ALM_STAT_BITS, MT_ALM_LATE_BITS, MT_ALM_REFUSED_BITS, MT_ALM_TIME_NS, MT_ALM_CTL_EN, MT_ALM_CTL_ACTION, MT_ALM_CTL_INT, MT_ALM_CTL_ARG] ++
  [MT_ALM_CTL_PERIOD]
/-- The fields of class FLT. -/
def fieldsOfFlt : List Fld :=
  [FLT_CTL_ALERT_SEV, FLT_CTL_THERM_WARN, FLT_STAT_SAFE, FLT_STAT_ALERT, FLT_STAT_MODE, FLT_STAT_HB_RUN, FLT_STAT_BUSY, FLT_PIN_CTL_ASSERT, FLT_PIN_CTL_ON_DEGRADE, FLT_SCRUB_EN, FLT_SCRUB_PERIOD, FLT_SCRUB_STAT_LAST_US, FLT_SCRUB_STAT_PASSES, FLT_NOTIFY_EN, FLT_NOTIFY_PORT, FLT_NOTIFY_PF, FLT_NOTIFY_VEC_CE, FLT_NOTIFY_VEC_DG, FLT_SUM_CLASS, FLT_CNT_CE, FLT_CNT_DG, FLT_CNT_FATAL, FLT_GCAP_SRC_SLOT, FLT_GCAP_SRC_SEV, FLT_GCAP_SRC_VALID, FLT_GCAP_ADDR_ADDR, FLT_GCAP_INFO_EVT, FLT_GCAP_INFO_SPACE, FLT_GCAP_INFO_MKIND, FLT_GCAP_INFO_MASTER, FLT_GCAP_INFO_ACC, FLT_GCAP_TIME_MT, FLT_FATAL_SLOT, FLT_FATAL_VALID, FLT_FATAL_TIME_MT, FLT_FORCE_DOM_DOMAIN, FLT_SEV_SEV, FLT_SEV_MSI, FLT_PEND_PEND, FLT_CE_CNT_CNT]
/-- The fields of class PWR. -/
def fieldsOfPwr : List Fld :=
  [PWR_CTL_RUNG, PWR_CTL_GO, PWR_CTL_WAKE_EN, PWR_STAT_RUNG, PWR_STAT_BUSY, PWR_STAT_REFUSE, PWR_STAT_WAKE_CAUSE, PWR_STAT_LAST_EXIT]
/-- The fields of class ALM. -/
def fieldsOfAlm : List Fld :=
  [ALM_CFG_BOOT_SLOT, ALM_CFG_FALLBACK, ALM_CFG_AUTO_REPAIR, ALM_CMD_OP, ALM_CMD_SLOT, ALM_CMD_ARG, ALM_CMD_GO, ALM_STAT_BUSY, ALM_STAT_RESULT, ALM_STAT_SLOT, ALM_STAT_SOURCE, ALM_STAT_CAL_OK, ALM_STAT_RESTORED, ALM_STAT_PRESENCE, ALM_STAT_SEAL, ALM_PROT_SLOT_WP, ALM_PROT_CAL_WP, ALM_SLOT_SEQ, ALM_SLOT_VALID, ALM_SLOT_MT_MT, ALM_FW_ACTIVE, ALM_FW_BOOT, ALM_FW_FALLBACK, ALM_FW_VER_A, ALM_FW_VER_B, ALM_FW_VALID_A, ALM_FW_VALID_B, ALM_FW_RESTART, ALM_REPAIR_COUNT, ALM_REPAIR_FULL, ALM_CNT_COMMITS, ALM_CNT_SEAL_BREAKS, ALM_CNT_OWNER_REFUSED, ALM_UNFENCE_CLASS, ALM_UNFENCE_INSTANCE, ALM_UNFENCE_BANK, ALM_UNFENCE_SCOPE, ALM_UNFENCE_ERR, ALM_UNFENCE_GO, ALM_UCODE_VER_VER]
/-- The fields of class MGT. -/
def fieldsOfMgt : List Fld :=
  [MGT_CTL_RTO, MGT_CTL_REPLY_LIFE, MGT_CTL_RETRIES, MGT_CTL_INB_EN, MGT_MBOX_GO, MGT_MBOX_BUSY, MGT_MBOX_DONE, MGT_MBOX_FAIL, MGT_MBOX_STATUS, MGT_STAT_QUEUE, MGT_STAT_CACHE, MGT_CNT_DISCARD, MGT_CNT_REFUSED, MGT_LIST_ENDPOINT, MGT_LIST_MASK, MGT_LIST_VALID, MGT_HDR_WORD, MGT_BUF_WORD]
/-- The fields of class DPT. -/
def fieldsOfDpt : List Fld :=
  [DPT_ADDR_ADDR, DPT_CTL_STRIDE, DPT_CTL_AUTO_INC, DPT_CTL_DIR, DPT_CTL_BANK, DPT_STAT_WORDS, DPT_STAT_UNMAPPED, DPT_STAT_DIR_ERR, DPT_STAT_BAD_LEN, DPT_STAT_DISCARDED]
/-- The fields of class PMN. -/
def fieldsOfPmn : List Fld :=
  [PMN_CTL_FREEZE, PMN_CTL_SNAP_NOW, PMN_CTL_TAG, PMN_USER_MASK_MASK]
/-- The fields of class LANE. -/
def fieldsOfLane : List Fld :=
  [LANE_CTL_RCAL_EN, LANE_CTL_LOOPBACK, LANE_CTL_PRBS, LANE_CTL_UNCORR_MAX, LANE_STAT_LOCK, LANE_STAT_FAILED, LANE_STAT_PORT, LANE_STAT_OWNED, LANE_EQ_PRESET, LANE_EQ_VALID, LANE_EQ_LIVE_LIVE, LANE_FEC_CORR, LANE_FEC_UNCORR, LANE_MON_RX_PWR, LANE_MON_MOD_BIAS, LANE_MON_TEMP, LANE_PWR_IDLE_RUNG]
/-- The fields of class OPT. -/
def fieldsOfOpt : List Fld :=
  [OPT_CTL_REACH, OPT_CTL_FEED_LOW, OPT_CTL_FEED_MIN, OPT_STAT_LSRC_PRSNT, OPT_STAT_REACH_REJ, OPT_STAT_FEED_OK, OPT_FEED_PWR, OPT_LSRC_ID, OPT_LSRC_READY, OPT_LSRC_VALID, OPT_LSRC_BUS_ERR]
/-- The fields of class PORT. -/
def fieldsOfPort : List Fld :=
  [PORT_CTL_EN, PORT_CTL_LANES, PORT_CTL_BASE, PORT_CTL_DEGRADE_EN, PORT_CTL_AUTO_RESTORE, PORT_CTL_COMPAT_EN, PORT_CMD_RETRAIN, PORT_CMD_RESTORE, PORT_CMD_DOWN, PORT_STAT_STATE, PORT_STAT_ACT_LANES, PORT_STAT_ACT_BASE, PORT_STAT_READY, PORT_STAT_RLP_VER, PORT_STAT_FEAT, PORT_STAT_DEGRADED, PORT_STAT_HELD, PORT_STAT_FLUSHING, PORT_TIMERS_LOCK_LOSS, PORT_TIMERS_GRACE, PORT_TIMERS_LANE_LOSS, PORT_PEER_GROUP, PORT_PEER_DEVICE, PORT_PEER_PORT, PORT_PEER_VALID, PORT_NONCE_LOCAL, PORT_CNT_DOWN, PORT_CNT_DEGRADE, PORT_CNT_REPLAY_LOST, PORT_FLUSH_PKTS, PORT_PWR_AUTO_MAX, PORT_PWR_ACCEPT_MAX, PORT_PWR_IDLE, PORT_PWR_CMD_RUNG, PORT_PWR_CMD_GO, PORT_PWR_STAT_RUNG, PORT_PWR_STAT_COMMANDED, PORT_PWR_STAT_REFUSED, PORT_PWR_STAT_EXITS, PORT_TASYM_ASYM] ++
  [PORT_TASYM_VALID]
/-- The fields of class LNK. -/
def fieldsOfLnk : List Fld :=
  [LNK_CTL_ACT_WIN, LNK_CTL_REL_IDLE, LNK_CTL_ACK_K, LNK_STAT_NEXT, LNK_STAT_PEER_CACK, LNK_STAT_EXPECT, LNK_STAT_MODE, LNK_REPLAY_SLOTS, LNK_REPLAY_USED, LNK_REPLAY_PEAK, LNK_RTX_TIMEOUT, LNK_RTX_MAX_EXP, LNK_RTX_EXP_NOW, LNK_CR_POOL_POOL, LNK_CR_POOL_CAP, LNK_CR_POOL_POOL_USED, LNK_CNT_ERR_CRC, LNK_CNT_ERR_DISC, LNK_CNT_ERR_HUNT, LNK_CNT_RTX_SACK, LNK_CNT_RTX_TIMER, LNK_CNT_MISC_TRUNC, LNK_CNT_MISC_COMPAT_DROP, LNK_CNT_MISC_CR_VIOL, LNK_CNT_MISC_EXHAUST, LNK_CR_MIN_MIN, LNK_CR_STAT_OUT, LNK_CR_STAT_HELD, LNK_CR_STAT_TX_AVAIL]
/-- The fields of class TILE. -/
def fieldsOfTile : List Fld :=
  [TILE_FENCE_FULL, TILE_FENCE_REASON, TILE_PWR_RUNG, TILE_PWR_AUTO_MAX, TILE_PWR_IDLE, TILE_PWR_CUR, TILE_BANK_RET_BITS, TILE_BANK_OFF_BITS, TILE_BANK_PEND_BITS]
/-- The fields of class BUF. -/
def fieldsOfBuf : List Fld :=
  [BUF_CTL_MID_MIN, BUF_STAT_OVER_QUOTA, BUF_STAT_OVQ_PORTS, BUF_STAT_MID_SHARED_USED, BUF_STAT_OUT_SHARED_USED, BUF_ALPHA_MID, BUF_ALPHA_OUT, BUF_IN_ENG_MIN, BUF_MID_OCC_USED, BUF_MID_OCC_PEAK, BUF_PORT_MIN_ESC, BUF_PORT_MIN_OTHER, BUF_PORT_QUOTA, BUF_PORT_OCC, BUF_PORT_OVER, BUF_AGE_DROP_PKTS, BUF_CNT_A_REASM_DROP, BUF_CNT_A_ABORT, BUF_CNT_B_MC_PRUNE, BUF_CNT_B_MC_BAD]
/-- The fields of class RTE. -/
def fieldsOfRte : List Fld :=
  [RTE_CTL_ESC_WAIT, RTE_CTL_NM_BIAS, RTE_CTL_NM_EN, RTE_CTL_LVL_UNIT, RTE_CTL_HOP_MAX, RTE_STAT_ACTIVE, RTE_STAT_HOLD, RTE_STAT_HW_FENCE, RTE_STAT_EPOCH, RTE_EPOCH_CFG_HOLD, RTE_FENCE_PORTS, RTE_FENCE_PEER, RTE_FENCE_MGT_PASS, RTE_HASH_SEED, RTE_MARK_LO_DELAY, RTE_MARK_HI_DELAY, RTE_SLOT_LO_SLOT, RTE_SLOT_HI_SLOT, RTE_GOSSIP_PORTS, RTE_CNT_A_NOROUTE, RTE_CNT_A_HOP_DROP, RTE_CNT_B_FENCE_IN, RTE_CNT_B_FENCE_EG, RTE_CNT_C_ESC_MOVE, RTE_CNT_C_NONMIN, RTE_CNT_D_MARKED]
/-- The fields of class SCH. -/
def fieldsOfSch : List Fld :=
  [SCH_DRR_QUANTUM, SCH_GRP_EN, SHP_CFG_EN, SHP_CFG_RESET_FULL, SHP_CFG_OVERHEAD, SHP_CFG_GROUP, SHP_RATE_RATE, SHP_RATE_BURST, SHP_TOK_TOK]
/-- The fields of class CORE. -/
def fieldsOfCore : List Fld :=
  [CORE_CTL_REASM_TO, CORE_CTL_SWEEP_K, CORE_STAT_MID_ACTIVE, CORE_STAT_DRAINING, CORE_MID_FENCE_LO_TILES, CORE_MID_FENCE_HI_TILES, CORE_MID_STATE_LO_TILES, CORE_MID_STATE_HI_TILES, CORE_AGE_LIMIT, CORE_CNT_FENCE_LOSS]
/-- The fields of class COL. -/
def fieldsOfCol : List Fld :=
  [COL_CTL_TIMEOUT, COL_CTL_RETRY, COL_STAT_SLOTS_FREE, COL_STAT_GROUPS, COL_STAT_OPEN, COL_CMD_OP, COL_CMD_GROUP, COL_CMD_SEQ, COL_CMD_GO, COL_CMD_STAT_BUSY, COL_CMD_STAT_ERR, COL_CNT_A_DUP_DISC, COL_CNT_A_WINDOW_DROP, COL_CNT_B_REISSUES, COL_CNT_B_EXHAUSTED, COL_CNT_B_PRUNES, COL_CNT_B_LEN_DROP, COL_CNT_C_STRAY, COL_CNT_C_FENCED_RX]
/-- The fields of class ENG. -/
def fieldsOfEng : List Fld :=
  [ENG_STAT_OPS, ENG_STAT_CACHED, ENG_STAT_MISS, ENG_STAT_HOT, ENG_CNT_A_MISSES, ENG_CNT_A_BUSY_NACK, ENG_CNT_B_CTX_FAULTS, ENG_CNT_B_BAD_DESC, ENG_CNT_C_LATE_RSP, ENG_CNT_C_DISCARDED, ENG_BOOST_USED, ENG_BOOST_IGNORED, PMC_FILT_FILT_CTX]
/-- The fields of class CTX. -/
def fieldsOfCtx : List Fld :=
  [CTX_RANGE_FIRST, CTX_RANGE_COUNT, CTX_RANGE_EN, CTX_RANGE_HOLD, CTX_BASE_ADDR, CTX_CFG_PORT, CTX_CFG_PIN_MAX, CTX_CFG_FETCH_MAX, CTX_CMD_OP, CTX_CMD_RANGE, CTX_CMD_CTX, CTX_CMD_STAT_BUSY, CTX_FAULT_LOG_CTX, CTX_FAULT_LOG_CAUSE, CTX_FAULT_LOG_KIND, CTX_FAULT_LOG_VALID]
/-- The fields of class WQ. -/
def fieldsOfWq : List Fld :=
  [WQ_STAT_DC_USED, WQ_CNT_A_FETCHED, WQ_CNT_B_EMPTY, WQ_CNT_B_INVAL]
/-- The fields of class RMA. -/
def fieldsOfRma : List Fld :=
  [RMA_RTX_TIMEOUT, RMA_RTX_MAX_RETRY, RMA_HOLE_HOLE, RMA_BUSY_BASE, RMA_BUSY_MAX_TRIES, RMA_CC_EN, RMA_CC_ALPHA, RMA_CC_DEC_GAP, RMA_CC_INC_PERIOD, RMA_CC_RATE_LINE, RMA_CC_RATE_MIN, RMA_CC_RATE_STEP, RMA_STG_QUOTA, RMA_STG_GET_SEG, RMA_STAT_TRACKERS, RMA_STAT_CC_USED, RMA_STAT_STG_USED, RMA_REG_INVAL_CTX, RMA_REG_INVAL_REGION, RMA_REG_INVAL_SCOPE, RMA_REG_INVAL_GO, RMA_REG_INVAL_BUSY, RMA_ACACHE_CTX, RMA_ACACHE_ALL, RMA_ACACHE_FLUSH, RMA_ACACHE_BUSY, RMA_CNT_A_RTX_TIMER, RMA_CNT_A_RTX_HOLE, RMA_CNT_B_EXHAUSTED, RMA_CNT_B_REFUSED, RMA_CNT_B_SPARE_DROP, RMA_CNT_C_STALE, RMA_CNT_C_NO_TRACKER, RMA_LEG_TIMEOUT, RMA_LEG_HOLE, RMA_LEG_TRANSIT]
/-- The fields of class MAT. -/
def fieldsOfMat : List Fld :=
  [MAT_CTL_EAGER_MAX, MAT_STREAM_WINDOW, MAT_STAT_POSTED, MAT_STAT_UNEXP, MAT_STAT_STREAMS, MAT_STAT_OVF_CTX, MAT_CNT_A_ARR_MATCH, MAT_CNT_A_POST_MATCH, MAT_CNT_B_OVERFLOWS, MAT_CNT_B_DEMOTED, MAT_CNT_C_GAP_SKIP, MAT_CNT_C_ORD_LATE, MAT_CNT_C_STREAM_NACK]
/-- The fields of class XLT. -/
def fieldsOfXlt : List Fld :=
  [XLT_CFG_AD_RETRY, XLT_CFG_WALKS, XLT_CFG_WC_EN, XLT_STAT_TLB_USED, XLT_STAT_WALKS, XLT_STAT_WC_USED, XLT_INVAL_CTX, XLT_INVAL_SCOPE, XLT_INVAL_REG, XLT_INVAL_GO, XLT_INVAL_BUSY, XLT_INVAL_ADDR_VA, XLT_INVAL_LEN_LEN, XLT_FLT_LOG_CTX, XLT_FLT_LOG_KIND, XLT_FLT_LOG_ACC, XLT_FLT_LOG_LEVEL, XLT_FLT_LOG_VALID, XLT_FLT_ADDR_VA, XLT_CNT_A_MISSES, XLT_CNT_A_WALK_ERR, XLT_CNT_B_FAULTS, XLT_CNT_B_AD_RETRIES]
/-- The fields of class LCK. -/
def fieldsOfLck : List Fld :=
  [LCK_CTL_EN, LCK_CTL_DEF_QUOTA, LCK_TIME_WAIT_LIFE, LCK_TIME_BOOST_REFRESH, LCK_STAT_HELD, LCK_STAT_WAITERS, LCK_STAT_PEAK, LCK_CNT_A_GRANTS, LCK_CNT_A_LAPSES, LCK_CNT_B_ABANDONS, LCK_CNT_B_BUSY, LCK_CNT_B_SLOTS_NACK, LCK_CNT_C_STALE, LCK_CNT_C_DROPPED]
/-- The fields of class DUP. -/
def fieldsOfDup : List Fld :=
  [DUP_CTL_LIFE, DUP_STAT_USED, DUP_STAT_PEAK, DUP_CNT_HITS, DUP_CNT_FULL_NACK, DUP_CNT_B_PENDING_DISC, DUP_LEG_LIFE]
/-- The fields of class HPT. -/
def fieldsOfHpt : List Fld :=
  [HPT_CTL_SPLIT, HPT_CTL_MAX_GEN, HPT_CTL_FAB_TO, HPT_CTL_L1_IDLE, HPT_CTL_LTR_NS, HPT_STAT_UP, HPT_STAT_GEN, HPT_STAT_WIDTH, HPT_STAT_FORMED, HPT_STAT_PM, HPT_STAT_PERST, HPT_STAT_NP_OUT, HPT_CNT_A_REPLAY, HPT_CNT_A_RECOVERY, HPT_CNT_B_UR, HPT_CNT_B_CTO, HPT_CNT_C_FAB_TO, HPT_CNT_C_LATE_CPL]
/-- The fields of class WIN. -/
def fieldsOfWin : List Fld :=
  [WIN_COMMIT_GO, WIN_COMMIT_PEND, WIN_COMMIT_COUNT, WIN_IN_PF_CTX_FIRST, WIN_IN_PF_COUNT, WIN_IN_VF_CTX_FIRST, WIN_IN_VF_COUNT, WIN_OUT_SRC_EN, WIN_OUT_SRC_LOG2, WIN_OUT_SRC_BASE, WIN_OUT_TGT_TGT]
/-- The fields of class FUN. -/
def fieldsOfFun : List Fld :=
  [FUN_PF_EN, FUN_PF_MGMT, FUN_PF_BAR2_LOG2, FUN_PF_VECTORS, FUN_PF_TOTAL_VFS, FUN_PF_WAKE, FUN_VF_BAR2_LOG2, FUN_VF_VECTORS, FUN_ID_SUBSYS_VID, FUN_ID_SUBSYS_ID, FUN_STAT_FLR_BUSY, FUN_STAT_D3, FUN_STAT_VF_CUT, FUN_STAT_VEC_CUT]
/-- The fields of class TEL. -/
def fieldsOfTel : List Fld :=
  [TEL_CTL_SAMPLE_K, TEL_CTL_RING_EN, TEL_CTL_RING_K, TEL_CTL_WRAP, TEL_CTL_ALM_EN, TEL_CTL_HIST_CLR, TEL_PTR_WR, TEL_PTR_RD, TEL_PTR_LOST, TEL_HIST_BIN_LO, TEL_HIST_BIN_HI]
/-- The fields of class FUS. -/
def fieldsOfFus : List Fld :=
  [FUS_CTL_PROG, FUS_ROW_ROW, FUS_DATA_DATA, FUS_STAT_BUSY, FUS_STAT_ERR, FUS_STAT_DEBUG_LOCK, FUS_DEBUG_UNLOCK, FUS_DEBUG_UNLOCKED]

/-- The fields of a class's own page, above the common header. -/
def ofClass : Nat → List Fld
  | 0 => fieldsOfDev
  | 1 => fieldsOfMt
  | 2 => fieldsOfFlt
  | 3 => fieldsOfPwr
  | 4 => fieldsOfAlm
  | 5 => fieldsOfMgt
  | 6 => fieldsOfDpt
  | 7 => fieldsOfPmn
  | 8 => fieldsOfLane
  | 9 => fieldsOfOpt
  | 10 => fieldsOfPort
  | 11 => fieldsOfLnk
  | 12 => fieldsOfTile
  | 13 => fieldsOfBuf
  | 14 => fieldsOfRte
  | 15 => fieldsOfSch
  | 16 => fieldsOfCore
  | 17 => fieldsOfCol
  | 18 => fieldsOfEng
  | 19 => fieldsOfCtx
  | 20 => fieldsOfWq
  | 21 => fieldsOfRma
  | 22 => fieldsOfMat
  | 23 => fieldsOfXlt
  | 24 => fieldsOfLck
  | 25 => fieldsOfDup
  | 26 => fieldsOfHpt
  | 27 => fieldsOfWin
  | 28 => fieldsOfFun
  | 29 => fieldsOfTel
  | 30 => fieldsOfFus
  | _ => []

/-- The counter fields of R764, which CTL.CNT_CLR sets to 0. -/
def counters : List Fld :=
  [PORT_CNT_DOWN, PORT_CNT_DEGRADE, PORT_CNT_REPLAY_LOST, PORT_FLUSH_PKTS, LNK_CNT_ERR_CRC, LNK_CNT_ERR_DISC, LNK_CNT_ERR_HUNT, LNK_CNT_RTX_SACK, LNK_CNT_RTX_TIMER, LNK_CNT_MISC_TRUNC, LNK_CNT_MISC_COMPAT_DROP, LNK_CNT_MISC_CR_VIOL] ++
  [LNK_CNT_MISC_EXHAUST, CORE_CNT_FENCE_LOSS, BUF_AGE_DROP_PKTS, BUF_CNT_A_REASM_DROP, BUF_CNT_A_ABORT, BUF_CNT_B_MC_PRUNE, BUF_CNT_B_MC_BAD, RTE_CNT_A_NOROUTE, RTE_CNT_A_HOP_DROP, RTE_CNT_B_FENCE_IN, RTE_CNT_B_FENCE_EG, RTE_CNT_C_ESC_MOVE] ++
  [RTE_CNT_C_NONMIN, RTE_CNT_D_MARKED, TEL_PTR_LOST, ENG_CNT_A_MISSES, ENG_CNT_A_BUSY_NACK, ENG_CNT_B_CTX_FAULTS, ENG_CNT_B_BAD_DESC, WQ_CNT_A_FETCHED, WQ_CNT_B_EMPTY, WQ_CNT_B_INVAL, RMA_CNT_A_RTX_TIMER, RMA_CNT_A_RTX_HOLE] ++
  [RMA_CNT_B_EXHAUSTED, RMA_CNT_B_REFUSED, RMA_CNT_B_SPARE_DROP, RMA_CNT_C_STALE, RMA_CNT_C_NO_TRACKER, DUP_CNT_HITS, DUP_CNT_FULL_NACK, DUP_CNT_B_PENDING_DISC, MAT_CNT_A_ARR_MATCH, MAT_CNT_A_POST_MATCH, MAT_CNT_B_OVERFLOWS, MAT_CNT_B_DEMOTED] ++
  [MAT_CNT_C_GAP_SKIP, MAT_CNT_C_ORD_LATE, MAT_CNT_C_STREAM_NACK, COL_CNT_A_DUP_DISC, COL_CNT_A_WINDOW_DROP, COL_CNT_B_REISSUES, COL_CNT_B_EXHAUSTED, COL_CNT_B_PRUNES, COL_CNT_B_LEN_DROP, COL_CNT_C_STRAY, COL_CNT_C_FENCED_RX, ENG_CNT_C_LATE_RSP] ++
  [ENG_CNT_C_DISCARDED, XLT_CNT_A_MISSES, XLT_CNT_A_WALK_ERR, XLT_CNT_B_FAULTS, XLT_CNT_B_AD_RETRIES, LCK_CNT_A_GRANTS, LCK_CNT_A_LAPSES, LCK_CNT_B_ABANDONS, LCK_CNT_B_BUSY, LCK_CNT_B_SLOTS_NACK, LCK_CNT_C_STALE, LCK_CNT_C_DROPPED] ++
  [ENG_BOOST_IGNORED, HPT_CNT_A_REPLAY, HPT_CNT_A_RECOVERY, HPT_CNT_B_UR, HPT_CNT_B_CTO, HPT_CNT_C_FAB_TO, HPT_CNT_C_LATE_CPL, DPT_STAT_WORDS, MGT_CNT_DISCARD, MGT_CNT_REFUSED, FLT_SCRUB_STAT_PASSES, FLT_CNT_CE] ++
  [FLT_CNT_DG, FLT_CNT_FATAL, PORT_PWR_STAT_EXITS, ALM_CNT_COMMITS, ALM_CNT_SEAL_BREAKS, ALM_CNT_OWNER_REFUSED]

end Sys2Proof.Machine.F
end

