-- ==== Sys2Proof/Machine/SvcState.lean ====
section
/-!
DEFINITION. The state of start-up, the device ladder, the Almanac, the owner's presence and fuses, the control processors and
the management endpoint (chapters 16, 18 and 19).
-/
namespace Sys2Proof.Machine
open Sys2Proof

/-- Start-up (Table 19.2). -/
structure Boot where
  /-- PWR_GOOD is high. -/
  pwrGood : Bool
  /-- 0 held in reset, 1 restore running, 2 phase 1 done, 3 RESTORE_DONE. -/
  stage : Nat
  /-- A management or core rail was out of limits at PWR_GOOD: no restore until a reset (R743). -/
  railOut : Bool
  /-- Elapsed MT at which the restore started, and whether it follows a warm reset (R485, R698). -/
  since : Nat
  warm : Bool
deriving DecidableEq, Repr

/-- A device command of the ladder (R676, R678). -/
structure Ladder where
  /-- Rung that the units are on their way to. -/
  goal : Option Nat
  /-- A wake under way, until every unit is in Run: elapsed MT of the wake and the rung left. -/
  wakeAt : Option (Nat × Nat)
deriving DecidableEq, Repr

/-- A snapshot (R692): its header, the AL fields by key, and the tables: bank tables under their shadow-free addresses. -/
structure Snapshot where
  seq : Nat
  sn : Nat
  fw : Nat
  mt : Nat
  fields : Tab Nat
  tables : List (Nat × Byte)
deriving DecidableEq, Repr

/-- An Almanac command in progress (R699). -/
structure AlmCmd where
  op : Nat
  slot : Nat
  arg : Nat
  /-- An event of R700 has fallen since GO. -/
  changed : Bool
  /-- What a COMMIT captured. -/
  snap : Option Snapshot
deriving DecidableEq, Repr

/-- The Almanac (Table 19.1). -/
structure Almanac where
  /-- Snapshot slots 0 to 3 that are valid. -/
  slots : Tab Snapshot
  /-- Calibration copies 0 and 1 that are valid: order of writing and the fields. -/
  cal : Tab (Nat × Tab Nat)
  /-- Sequence number of the last commit, and order number of the last calibration write. -/
  seq : Nat
  calSeq : Nat
  /-- Repair record: bank number and MT of the fence. -/
  repair : List (Nat × Nat)
  /-- Bank fences whose entry is still to be added: bank number and MT. -/
  repairDue : List (Nat × Nat)
  cmd : Option AlmCmd
  /-- Images A and B: version and validity; the active image and BOOT. -/
  verA : Nat
  verB : Nat
  validA : Bool
  validB : Bool
  active : Nat
  boot : Nat
  /-- Microcode versions of engines that differ from the factory's. -/
  ucode : Tab Nat
deriving DecidableEq, Repr

/-- The owner's presence, seal and fuses (R706 to R710). -/
structure Owner where
  /-- Debounced level of PRESENCE_N: low. -/
  low : Bool
  /-- Elapsed MT at which the window closes after PRESENCE_N went high. -/
  until_ : Nat
  /-- The seal has broken since the last falling edge of PRESENCE_N. -/
  broken : Bool
  /-- Elapsed MT of the last mismatch, or of the start of the pattern. -/
  sealAt : Nat
  /-- Owner fuse rows with a bit blown. -/
  fuses : Tab Nat
  /-- Row being programmed, and the bits to blow. -/
  prog : Option (Nat × Nat)
  /-- Internal debug access open (R710). -/
  debug : Bool
deriving DecidableEq, Repr

/-- The control processors (R712, R713). -/
structure Cps where
  /-- A restart is under way: MCTP is not answered. -/
  busy : Bool
  /-- Halted for want of a valid image. -/
  halted : Bool
  /-- Elapsed MT of the last restart, and watchdog misses within 60 s of it. -/
  start : Nat
  misses : Nat
deriving DecidableEq, Repr

/-- An entry of the reply cache (R616): the response's words 2 to 5 and data. -/
structure Reply where
  src : Nat
  tag : Nat
  words : List Nat
  data : List Byte
  expiry : Nat
deriving DecidableEq, Repr

/-- The management endpoint (R615 to R618). -/
structure Mgmt where
  cache : List Reply
  /-- The mailbox request as sent, its resends so far and the elapsed MT of the last sending. -/
  mbox : Option (Packet × Nat × Nat)
deriving DecidableEq, Repr

/-- The service state after cold reset; the Almanac of a new part is empty but for two valid factory images. -/
def Boot.reset : Boot := ⟨false, 0, false, 0, false⟩
def Ladder.reset : Ladder := ⟨none, none⟩
def Almanac.new : Almanac := ⟨[], [], 0, 0, [], [], none, 0, 0, true, true, 0, 0, []⟩
def Owner.reset : Owner := ⟨false, 0, false, 0, [], none, false⟩
def Cps.reset : Cps := ⟨false, false, 0, 0⟩
def Mgmt.reset : Mgmt := ⟨[], none⟩

end Sys2Proof.Machine
end

