-- ==== Sys2Proof/Machine/State.lean ====
section
/-!
DEFINITION. The state of the block as plain data, and the state after reset. Register fields live in the field tables of
`RegFile`; the rest of the state, which the spec names outside registers or only implies, has a structure per unit.
Times are in units of 5·10⁻¹⁰ ns, so that one core clock at a slew of p parts per billion is 10⁹ + p units.
-/
namespace Sys2Proof.Machine
open Sys2Proof

/-- A byte of table space that differs from 0. -/
abbrev Memory := List Host.Cell

/-! ### Time (chapter "Meridian time") -/

/-- The clocks of the device. -/
structure Clock where
  /-- MT in time units (R40). -/
  mt : Nat
  /-- Elapsed MT in time units (R65). -/
  emt : Nat
  /-- Core clocks from cold reset (R266). -/
  cyc : Nat
  /-- Value of `emt` at which elapsed MT last started at 0: at cold reset, or at an exit from Dark (R65). -/
  base : Nat
deriving DecidableEq, Repr

/-- The state of the MT servo that no register shows. -/
structure Servo where
  /-- Correction still to be slewed into MT, in time units (R58). -/
  slew : Int
  /-- A pending time of day and the elapsed MT of its write (R46). -/
  tod : Option (Nat × Nat)
  /-- The trained frequency correction, in parts per billion (Table 2.2). -/
  freq : Int
  /-- Elapsed MT of the last signal of the source (Table 2.2). -/
  lastGood : Nat
  /-- Elapsed MT at which TIME_CLK_IN was last seen (Tables 2.1 and 2.2). -/
  lastClk : Nat
  /-- A PTM dialog is out, and dialogs failed in a row (R47). -/
  ptmOut : Bool
  ptmFails : Nat
  /-- Start of the present run of qualifying updates. -/
  qualSince : Option Nat
  /-- Offset of the last update, local MT minus source, in time units. -/
  lastOff : Int
  /-- Elapsed MT at the loss of the source, and ERR_NS then (R54). -/
  lossAt : Nat
  lossErr : Nat
deriving DecidableEq, Repr

/-- The time transfer of one port (R128). -/
structure TimeXfer where
  /-- XID of the next request sent. -/
  xid : Nat
  /-- t4 of the response to the last request sent, to be echoed. -/
  t4 : Nat
  /-- A request is due (R124). -/
  reqDue : Bool
  /-- XID, t1 and t2 of the requests whose response is owed, oldest first. -/
  owed : List (Nat × Nat × Nat)
  /-- XID, t1, t2 and t3 of the exchange last answered. -/
  ans : Option (Nat × Nat × Nat × Nat)
deriving DecidableEq, Repr

/-! ### Registers -/

/-- The field tables: fields without ST and AL, sticky fields, Almanac fields, the shadow copies of RWS fields, and the
captured shadow of a page that waits to come into force (R600). Keys are `Fld.key`; a field not listed holds its reset value. -/
structure RegFile where
  regs : Tab Nat
  sticky : Tab Nat
  alm : Tab Nat
  shadow : Tab Nat
  /-- Page number to captured (key, value) pairs. -/
  capt : Tab (Tab Nat)
  /-- Page number to the alarm slot of its arming (R602). -/
  armed : Tab Nat
  /-- Alarm slots taken for an instant already past (R602). -/
  past : List Nat
  /-- Keys of the RW fields that software has written in this core clock (R10). -/
  wrote : List Nat
  /-- Bits of W1C fields that hardware has set in this core clock, by key * 64 + bit (R11). -/
  fired : List Nat
  /-- Values that BUF and CORE fields held before the writes of this core clock, by key; the flag tells an AL field (R181). -/
  before : List (Bool × Nat × Nat)
  /-- Shadow copies as they stood before the writes of this core clock (R601). -/
  shadowOld : Tab Nat
deriving DecidableEq, Repr

/-! ### Faults -/

/-- What the capture registers of a page load (Table 16.3). -/
structure Capture where
  addr : Nat
  space : Nat
  mkind : Nat
  master : Nat
  acc : Nat
deriving DecidableEq, Repr

/-- An event on its way to the fault collector. -/
structure Arrival where
  slot : Nat
  inst : Nat
  /-- Severity of the slot when the event was raised (R628). -/
  sev : Nat
  /-- Elapsed MT of the raising, in time units, and MT then, in ns. -/
  emt : Nat
  mt : Nat
  cap : Capture
deriving DecidableEq, Repr

/-- The fault collector (chapter "Fault collection"). -/
structure Collector where
  /-- Events raised and not yet accepted, oldest first. -/
  arrivals : List Arrival
  /-- Elapsed MT until which the collector handles an event (R637). -/
  busyUntil : Nat
  /-- End of the FAULT_N pulse, if one is driven (R644). -/
  pulseEnd : Option Nat
  /-- Heartbeat alignment instant in ns (R645). -/
  hbAlign : Nat
  /-- MT in ns at safe-state entry. -/
  safeMt : Nat
  /-- Blocks fenced by Degrade, by class (R765). -/
  blockFence : List Nat
  /-- Host I/O dies whose domain is fenced (R29). -/
  hioFence : List Nat
  /-- Engines and collective/lock units fenced by Degrade (R630). -/
  engFence : List Nat
  unitFence : List Nat
  /-- SRAM banks fenced by R631: tile (72 + j for unit j) and local bank. -/
  bankFence : List (Nat × Nat)
  /-- Pages whose checkers are armed, with the mask (R640). -/
  inj : Tab Nat
  /-- Elapsed MT at which the present scrub pass began (R646). -/
  scrubAt : Nat
deriving DecidableEq, Repr

/-- The pins whose level the device drives or samples. -/
structure Pins where
  /-- FAULT_MODE strap: heartbeat mode. -/
  faultMode : Bool
  /-- Level of FAULT_N. -/
  faultN : Bool
  /-- MGMT_ALERT_N asserted. -/
  alert : Bool
  /-- THERM_TRIP_N asserted. -/
  thermTrip : Bool
  /-- TIME_PPS_OUT level and the elapsed MT at which it falls. -/
  ppsOut : Option Nat
deriving DecidableEq, Repr

/-! ### The switch core (chapter "Load-balanced switch core") -/

/-- What the injection of an engine's packet starts (R38): nothing; the timers of the operation in a slot, with the spacing of hole-driven
resends (R352, R353, R356); or the lease of a lock, of a length in 64 ns units (R531). -/
inductive Start where
  | nothing
  | op (slot gen : Nat) (hole : Bool)
  | lease (lock len : Nat)
deriving DecidableEq, Repr

/-- A packet whose SOP has been presented to an input tile and that PACKET_ARRIVAL has not taken yet. -/
structure Fresh where
  id : Nat
  pkt : Packet
  /-- Port instance, or engine number at an engine tile. -/
  inPort : Nat
  /-- VC on which it arrived. -/
  inVc : Nat
  /-- Cells received so far. -/
  got : Nat
  /-- The context class whose shaper holds and is charged for an engine's packet (R256). -/
  shp : Option Nat
  /-- What its injection starts. -/
  start : Start
deriving DecidableEq, Repr

/-- Where a packet in input memory stands. -/
inductive Phase where
  /-- Queued, no request out. -/
  | waiting
  /-- A reservation request is out (R167). -/
  | requested
  /-- Granted a RES_ID; `sent` cells have entered the core. -/
  | granted (res sent : Nat)
  /-- Held for down candidates (R105). -/
  | parked
deriving DecidableEq, Repr

/-- A packet in input memory (R166). -/
structure Held where
  id : Nat
  pkt : Packet
  inPort : Nat
  inVc : Nat
  got : Nat
  /-- Output tile and port instance (or engine number) of its queue, and its VC. -/
  out : Nat
  port : Nat
  vc : Nat
  /-- Elapsed MT from which it has stood at the head of its queue. -/
  since : Nat
  /-- The down candidates it is held for (R105). -/
  cands : List Nat
  /-- The escape port of its route entry, where valid. -/
  esc : Option Nat
  phase : Phase
  /-- Output tiles still to copy to, for a multicast packet (R193). -/
  mc : List Nat
deriving DecidableEq, Repr

/-- A reservation request at an output tile (R167). -/
structure ResReq where
  inTile : Nat
  id : Nat
  /-- A multicast copy. -/
  mc : Bool
  port : Nat
  vc : Nat
  sl : Nat
  n : Nat
  /-- The class and the birth stamp of the packet. -/
  cls : Nat
  birth : Nat
deriving DecidableEq, Repr

/-- The share of a reservation that one port or engine holds: cells not yet sent on it. -/
structure Member where
  port : Nat
  left : Nat
deriving DecidableEq, Repr

/-- A reservation at an output tile, and the packet that fills it (R170). -/
structure Resv where
  res : Nat
  inTile : Nat
  id : Nat
  mc : Bool
  vc : Nat
  n : Nat
  /-- Indices of the cells placed. -/
  cells : List Nat
  /-- Elapsed MT of the grant. -/
  since : Nat
  /-- Elapsed MT of its release to the transmit queue. -/
  rel : Nat
  /-- The packet; its payload is whole once the last cell has left the input tile. -/
  pkt : Packet
  inPort : Nat
  members : List Member
  /-- Placed in reassembly staging, outside output memory (R337); in the spare of its data cells (R338). -/
  stg : Bool
  spare : Bool
  /-- Its input tile has dropped and counted the packet, and an ABORT cell is on its way (R173, R184). -/
  dead : Bool
  /-- MT in ns of its release to the transmit queue (R258). -/
  relMt : Nat
deriving DecidableEq, Repr

/-- A cell in the core: the fields of its header (Table 5.1). Its payload stays with the packet until the last cell has entered. -/
structure Cell where
  srcTile : Nat
  dstTile : Nat
  outPort : Nat
  vc : Nat
  sl : Nat
  ord : Bool
  idx : Nat
  ncells : Nat
  mc : Bool
  ep : Bool
  abort : Bool
  res : Nat
  inPort : Nat
  tu : Bool
  cls : Nat
  birth : Nat
deriving DecidableEq, Repr

/-- One tile. -/
structure Tile where
  fresh : List Fresh
  held : List Held
  /-- Packets closed by a link abort whose cells the input must drop (R173): packet numbers. -/
  aborts : List Nat
  /-- ABORT cells of granted packets, still to be sent (R173). -/
  abortCells : List Cell
  reqs : List ResReq
  /-- Reservations not yet released. -/
  resv : List Resv
  /-- Packets released to their port or engine, in order of release. -/
  tx : List Resv
  /-- Middle queues by output tile * 16 + VC. -/
  mid : Tab (List Cell)
  /-- Round-robin pointers of the input: over output tiles, and over the VCs of each (R168). -/
  rrIn : Nat
  rrInVc : Tab Nat
  /-- Round-robin pointer of the middle over VCs, by output tile. -/
  rrMid : Tab Nat
  /-- Start position of candidate choice (R214). -/
  start : Nat
  /-- RES_ID given next. -/
  nextRes : Nat
  /-- Elapsed MT since which a fabric tile has met R672 (R674). -/
  quietSince : Option Nat
  /-- A commanded rung still to be entered or an exit under way: target rung and start. -/
  exitAt : Option Nat
deriving DecidableEq, Repr

/-- The pattern and the numbering of packets. -/
structure CoreSt where
  /-- Slot number from the last reset (R163). -/
  slot : Nat
  /-- Number given to the next packet. -/
  nextId : Nat
  /-- Middles draining (R187). -/
  draining : List Nat
  /-- Packets delivered to the management endpoint, with the port of arrival. -/
  mgtRx : List (Packet × Nat)
  /-- Prune notices on their way: unit, multicast entry, member port or engine, output tile (R195). -/
  prunes : List (Nat × Nat × Nat × Nat)
deriving DecidableEq, Repr

/-! ### Routing (chapter "Routing") -/

/-- What routing holds beside the tables and registers. -/
structure RouteSt where
  /-- DEV_SELF (group, device, valid) before the writes that follow, and the writes of the last 100 ns with their elapsed MT, oldest
  first (R203). -/
  selfOld : Nat × Nat × Bool
  selfNext : List (Nat × Nat × Nat × Bool)
  /-- PORTS bits that hardware set, by tile (R234, R675). -/
  hwFence : Tab Nat
  /-- Start of the hold, by tile (R227). -/
  holdAt : Tab Nat
  /-- Learned slot levels, by port * 64 + slot: level and elapsed MT of the refresh (R213). -/
  learned : Tab (Nat × Nat)
  /-- Ports that have raised GOSSIP_STALE and have had a level not refreshed for 8 µs ever since (R213). -/
  stale : List Nat
  /-- Samples by (port or 1024 + engine) * 8 + SL: queue delay in ns and depth in cells (R258). -/
  sample : Tab (Nat × Nat)
  /-- Cells held for each port (1024 + engine) at the last sample, MGT included (Table 7.1). -/
  depth : Tab Nat
  /-- Slot whose level the next frame of a port carries (R212). -/
  congRot : Tab Nat
deriving DecidableEq, Repr

/-- The scheduler of one port (R247). -/
structure Sched where
  deficit : List Nat
  active : List Nat
  rrMgt : Nat
  /-- Next VC of each SL. -/
  rrVc : List Nat
  rrScav : Nat
  /-- RES_IDs of the packets in progress, oldest first. -/
  prog : List Nat
deriving DecidableEq, Repr

/-! ### Links (chapter "Romiek Link Protocol") -/

/-- A frame in the replay memory of the sender. -/
structure TxFrame where
  seq : Nat
  vc : Nat
  ep : Bool
  sop : Bool
  eop : Bool
  cell : List Byte
  /-- Place in the order of sending, renewed at each resend. -/
  order : Nat
  /-- Resent on SACK evidence (R134). -/
  sacked : Bool
  /-- Marked received in the last applied bitmap. -/
  marked : Bool
deriving DecidableEq, Repr

/-- A frame that the receiver holds after a gap (R131). -/
structure RxFrame where
  seq : Nat
  vc : Nat
  ep : Bool
  sop : Bool
  eop : Bool
  cell : List Byte
deriving DecidableEq, Repr

/-- The credit state of one VC of a port. -/
structure VcSt where
  /-- Units granted to the peer, units the peer released, and data cells accepted from it. -/
  granted : Nat
  peerRel : Nat
  accepted : Nat
  /-- Units granted by the peer, units released, and data cells sent for the first time. -/
  g : Nat
  r : Nat
  sent : Nat
  /-- Elapsed MT of the last frame accepted (R141). -/
  lastAcc : Option Nat
  /-- Elapsed MT since which no cell has waited at the sender, and whether that idle period has been released (R143). -/
  idleSince : Option Nat
  released : Bool
  /-- The packet whose SOP has been presented and whose EOP has not. -/
  rxOpen : Option Nat
deriving DecidableEq, Repr

/-- The link layer of one port. -/
structure LinkSt where
  replay : List TxFrame
  /-- Sequence numbers owed a resend, oldest first. -/
  resend : List Nat
  /-- Order number of the next frame sent. -/
  order : Nat
  held : List RxFrame
  /-- Start of the replay timer. -/
  timer : Option Nat
  /-- Frames sent since the last ACK frame (R125). -/
  sinceAck : Nat
  vcs : List VcSt
  /-- VCs with an unreported grant change, oldest first (R144). -/
  unrep : List Nat
  rotVc : Nat
  /-- A release has not been reported in an ACK frame (R124). -/
  ackOwed : Bool
  rrGrant : Nat
  /-- FENCE frames received in a row (R129). -/
  fenceRun : Nat
  /-- Lane index from which the rotation looks for the next active lane (R119). -/
  rotLane : Nat
  /-- NAK owed, and the EXPECT for which NAK was sent last (R157). -/
  nak : Bool
  nakFor : Option Nat
  /-- Elapsed MT of the last DATA frame sent or received (R661). -/
  lastData : Nat
deriving DecidableEq, Repr

/-! ### Lanes, optical engines and ports -/

/-- One lane. -/
structure LaneSt where
  /-- Transmitter on. -/
  tx : Bool
  /-- Start of the loss timer (R98). -/
  loss : Option Nat
  /-- Elapsed MT since which both locks are held again without a break. -/
  relock : Option Nat
  /-- Good and bad frames in a row (R117). -/
  good : Nat
  bad : Nat
  delineated : Bool
  /-- The index this lane last received in a CAP frame. -/
  idxRx : Option Nat
  /-- Excluded for its index at training (R89). -/
  misordered : Bool
  /-- Uncorrectable codewords when the present 2^20 ns window began. -/
  uncorrBase : Nat
  /-- Elapsed MT of the last bring-up attempt of a failed lane (R102). -/
  attemptAt : Nat
  /-- Failed by a Degrade reaction. -/
  fenced : Bool
  /-- Rung that the lane has still to leave before bring-up (R658). -/
  rung : Nat
  /-- Coefficient step of the live recalibration last taken. -/
  rcalAt : Nat
deriving DecidableEq, Repr

/-- One optical engine. -/
structure OptSt where
  /-- Module present, and elapsed MT of the last change of the pin. -/
  prsnt : Bool
  prsntAt : Nat
  /-- LSRC_INSERTED has been raised since the last insertion. -/
  inserted : Bool
  /-- Per feed fibre: since when the power is below FEED_MIN, and since when it is at or above FEED_LOW. -/
  below : Tab Nat
  above : Tab Nat
  /-- Feed fibres whose power is below FEED_LOW, and those that have been reported lost since it fell below FEED_MIN. -/
  low : List Nat
  lost : List Nat
  /-- Out by a Degrade reaction or a lost rail group. -/
  fenced : Bool
deriving DecidableEq, Repr

/-- What one port holds beside its registers. -/
structure PortSt where
  /-- Elapsed MT at which this bring-up started, and at which its first lane locked. -/
  start : Nat
  firstLock : Option Nat
  /-- 100 Gb/s lane mode in bring-up, and elapsed MT of the last change (R79). -/
  slow : Bool
  rateAt : Nat
  /-- What the peer's CAP frames said in this exchange: nonce, locked lanes, versions, features, width. -/
  peerNonce : Option Nat
  peerLocked : Nat
  peerVers : Nat
  peerFeat : Nat
  peerWidth : Nat
  /-- Lane set this end sends, and lane set received (R92). -/
  setTx : Nat
  setRx : Nat
  /-- The set this end has sent in a CAP frame. -/
  setSent : Nat
  /-- A CAP frame with LOCKED = 1 has arrived. -/
  gotLocked : Bool
  /-- Nonce of the peer recorded at link-up (R97). -/
  recNonce : Option Nat
  /-- Elapsed MT at which a nonce redraw is due, and at which a failed training restarts. -/
  redrawAt : Option Nat
  restartAt : Option Nat
  /-- Start of grace (R104). -/
  grace : Option Nat
  /-- This bring-up is a retrain that keeps link-layer state (R150). -/
  retrain : Bool
  /-- Active lane indices. -/
  act : Nat
  /-- Width request outstanding: lane set proposed, and whether it widens. -/
  widthReq : Option (Nat × Bool)
  /-- Held in DISABLED by a Degrade fence of the port. -/
  fenced : Bool
  /-- Ladder: request outstanding (rung, commanded, elapsed MT of sending). -/
  ladReq : Option (Nat × Bool × Nat)
  /-- A commanded rung waits until the end is quiet. -/
  ladCmd : Option Nat
  /-- Elapsed MT since which the end has been idle for the automatic entry. -/
  idleFrom : Nat
  /-- Entry to the ladder: elapsed MT and deepest rung agreed. -/
  ladAt : Nat
  ladMax : Nat
  /-- Waking: elapsed MT of the trigger, rung left, lanes with a good frame since. -/
  wake : Option (Nat × Nat × Nat)
  /-- Frames the replay window may hold when the tile's slots were short at the enabling (R149). -/
  window : Option Nat
  /-- A retrain commanded below Run waits for the wake to end (R668). -/
  retrainDue : Bool
  /-- Held in BRINGUP until the peer sends CAP frames again (R129). -/
  awaitCap : Bool
  /-- The peer redraws its nonce, the two having been equal: its next one is recorded with the link kept (R96). -/
  renonce : Bool
deriving DecidableEq, Repr

/-! ### Host functions (chapter "PCI Express host ports") -/

/-- An entry of the MSI-X table of a function (R562, R577). -/
structure Vector where
  addr : Nat
  data : Nat
  mask : Bool
  pending : Bool
deriving DecidableEq, Repr

/-- The configuration space of one function, as far as the device's own rules read it, and its reset state. -/
structure FuncSt where
  /-- Memory Space Enable and Bus Master Enable. -/
  mse : Bool
  bme : Bool
  /-- AtomicOp Requester Enable, MSI-X Enable, MSI-X Function Mask, TPH Requester Enable, PTM Enable, PME_En. -/
  atomic : Bool
  msix : Bool
  fmask : Bool
  tph : Bool
  ptm : Bool
  pme : Bool
  /-- Completion Timeout Value. -/
  cto : Nat
  /-- VF Enable and VF Memory Space Enable of a PF, Max_Read_Request_Size and Max_Payload_Size codes. -/
  vfEn : Bool
  vfMse : Bool
  mrrs : Nat
  mps : Nat
  /-- D3hot. -/
  d3 : Bool
  /-- Elapsed MT at which an FLR began, until it completes (R582). -/
  flrAt : Option Nat
  /-- Contexts gone since an FLR or a link down, until Bus Master Enable is set again (R585). -/
  gone : Bool
  /-- MSI-X entries that differ from their reset state. -/
  vecs : Tab Vector
  /-- Link Control of PF0: bit 0 ASPM L1, bit 1 L1.1, bit 2 L1.2 enabled (R581). -/
  l1 : Nat
  /-- Bases written to BAR0, BAR2 and BAR4, and to the VF BARs of a PF (R564). -/
  bars : List Nat
  vfBars : List Nat
  /-- Uncorrectable Error Status, Mask and Severity (AER), and the error reporting enables of Device Control (R565, R573). -/
  aerStat : Nat
  aerMask : Nat
  aerSev : Nat
  errEn : Nat
  /-- LTR enable; ACS control. -/
  ltr : Bool
  acs : Nat
deriving DecidableEq, Repr

/-- A host-port instance: its link, and the values in force from the last deassertion of PERST_N (R563). -/
structure HostPort where
  /-- First quarter of a link (R552). -/
  formed : Bool
  /-- Width of the link (Table 15.1). -/
  width : Nat
  /-- PERST_N asserted. -/
  perst : Bool
  /-- PF i exists; has management rights. -/
  pfs : Nat
  mgmt : Nat
  /-- Log2 of BAR2 pages of PF 0 to 7, then of a VF. -/
  bar2 : List Nat
  /-- MSI-X table sizes of PF 0 to 7. -/
  vecs : List Nat
  /-- VFs of PF 0 to 7. -/
  vfs : List Nat
  /-- MSI-X table sizes of the VFs of the link, in order. -/
  vfVecs : List Nat
  /-- WAKE_N is asserted. -/
  wake : Bool
  /-- Elapsed MT of the last TLP. -/
  idleFrom : Nat
  /-- Held out of L0 by a Degrade fence (Table 17.4). -/
  fenced : Bool
deriving DecidableEq, Repr

/-! ### Outcomes -/

/-- The reasons a command stops with a fault. None is raised: the constructor stands for an access outside the model's
data that no command makes (safe). -/
inductive Fault where
  /-- Reserved: no meaning raises it; safe. -/
  | unreachable
deriving DecidableEq, Repr

/-- The reasons a command has no meaning. -/
inductive Refusal where
  /-- The command's meaning is not written (raised by the dispatch only); safe. -/
  | notModelled (mnemonic : String)
deriving DecidableEq, Repr

/-- The whole state. -/
structure State where
  clk : Clock
  servo : Servo
  xfer : Tab TimeXfer
  core : CoreSt
  tiles : Tab Tile
  rte : RouteSt
  sched : Tab Sched
  /-- Records written by each telemetry instance (Table 7.1). -/
  telSeq : Tab Nat
  links : Tab LinkSt
  lanes : Tab LaneSt
  opts : Tab OptSt
  ports : Tab PortSt
  /-- Functions by host-port instance * 512 + FUNC. -/
  funcs : Tab FuncSt
  hports : Tab HostPort
  engs : Tab Eng
  /-- Cached contexts by engine * 2^20 + context. -/
  ctxs : Tab Ctx
  /-- Operations by engine * 2048 + slot; generations of the slots and elapsed MT at which each was last freed; by engine,
  the draw from which the starting generations of its slots come (R357, R485). -/
  ops : Tab Op
  gens : Tab (Nat × Nat × Bool)
  genBase : Tab Nat
  units : Tab CUnit
  /-- Non-posted requests out on host ports, oldest first; the next tag; requests and writes held by Bus Master Enable (R584):
  port, function, and what is held. -/
  reqs : List HostReq
  nextTag : Nat
  parked : List (Nat × Nat × Output)
  rf : RegFile
  /-- Last period handled of each periodic process. -/
  marks : Tab Nat
  mem : Memory
  flt : Collector
  pins : Pins
  boot : Boot
  ladder : Ladder
  almanac : Almanac
  presence : Owner
  cps : Cps
  mgmt : Mgmt
  /-- Free values drawn so far (the model's own counter). -/
  free : Nat
  out : List Output
  /-- The commands that wait, first in first out. -/
  pending : List Instr
deriving DecidableEq, Repr

/-- The servo at cold reset (R43). -/
def Servo.reset : Servo := ⟨0, none, 0, 0, 0, false, 0, none, 0, 0, 0⟩

/-- The collector at reset. -/
def Collector.reset : Collector := ⟨[], 0, none, 0, 0, [], [], [], [], [], [], 0⟩

/-- A tile at reset. -/
def Tile.reset : Tile := ⟨[], [], [], [], [], [], [], [], 0, [], [], 0, 0, none, none⟩

/-- A port scheduler at reset. -/
def Sched.reset : Sched := ⟨List.replicate 8 0, [], 0, List.replicate 8 0, 0, []⟩

/-- A VC at entry to ACTIVE with new state (R152). -/
def VcSt.reset : VcSt := ⟨0, 0, 0, 0, 0, 0, none, none, false, none⟩

/-- A link with its state discarded. -/
def LinkSt.reset : LinkSt := ⟨[], [], 0, [], none, 0, List.replicate 16 VcSt.reset, [], 0, false, 0, 0, 0, false, none, 0⟩

/-- A lane at reset. -/
def LaneSt.reset : LaneSt := ⟨false, none, none, 0, 0, false, none, false, 0, 0, false, 0, 0⟩

/-- An optical engine at reset. -/
def OptSt.reset : OptSt := ⟨false, 0, false, [], [], [], [], false⟩

/-- A port at reset. -/
def PortSt.reset : PortSt :=
  ⟨0, none, false, 0, none, 0, 0, 0, 0, 0, 0, 0, false, none, none, none, none, false, 0, none, false, none, none, 0, 0, 0, none,
   none, false, false, false⟩

/-- The time transfer of a port at reset. -/
def TimeXfer.reset : TimeXfer := ⟨0, 0, false, [], none⟩

/-- A function with its configuration space at reset; an MSI-X entry at reset is masked. DESIGN CHOICE: log entry 126. -/
def FuncSt.reset : FuncSt := ⟨false, false, false, false, false, false, false, false, 0, false, false, 2, 0, false, none, true, [], 0,
  [0, 0, 0], [0, 0, 0], 0, 0x400000, 0x462030, 0, false, 0⟩
def Vector.reset : Vector := ⟨0, 0, true, false⟩

/-- A host-port instance before its first PERST_N deassertion: PERST_N is asserted. -/
def HostPort.reset : HostPort := ⟨false, 0, true, 0, 0, [], [], [], [], false, 0, false⟩

/-- The state after cold reset. DESIGN CHOICE: log entry 9. -/
def State.reset : State where
  clk := ⟨0, 0, 0, 0⟩
  servo := Servo.reset
  xfer := []
  core := ⟨0, 0, [], [], []⟩
  tiles := []
  rte := ⟨(0, 0, false), [], [], [], [], [], [], [], []⟩
  sched := []
  telSeq := []
  links := []
  lanes := []
  opts := []
  ports := []
  funcs := []
  hports := []
  engs := []
  ctxs := []
  ops := []
  gens := []
  genBase := []
  units := []
  reqs := []
  nextTag := 0
  parked := []
  rf := ⟨[], [], [], [], [], [], [], [], [], [], []⟩
  marks := []
  mem := []
  flt := Collector.reset
  pins := ⟨false, true, false, false, none⟩
  boot := Boot.reset
  ladder := Ladder.reset
  almanac := Almanac.new
  presence := Owner.reset
  cps := Cps.reset
  mgmt := Mgmt.reset
  free := 65536
  out := []
  pending := []

end Sys2Proof.Machine
end

