-- ==== Sys2Proof/Machine/Ops.lean ====
section
/-!
DEFINITION. The named operations over the state that every meaning uses: time (R64, R65), register fields (R8), free values,
table-space memory (R610), the alarm slots (R69), and the outputs.
-/
namespace Sys2Proof.Machine
open Sys2Proof

/-! ### Time -/

/-- Time units in one ns. DESIGN CHOICE: log entry 10. -/
def unitsPerNs : Nat := 2000000000

/-- A time in ns as time units. -/
def ns (n : Nat) : Nat := n * unitsPerNs

/-- A signed time in ps as time units. -/
def psUnits (p : Int) : Int := p * 2000000

/-- MT in ns (R40). -/
def State.mtNs (s : State) : Nat := s.clk.mt / unitsPerNs % 2 ^ 64

/-- The fraction of MT in 2^-16 ns (R40). -/
def State.mtFrac (s : State) : Nat := s.clk.mt % unitsPerNs * 65536 / unitsPerNs

/-- Elapsed MT in time units (R65). -/
def State.now (s : State) : Nat := s.clk.emt

/-- The stamp in 16 ns units that packets and leases use: MT bits [35:4] (R7, R183). -/
def State.stamp (s : State) : Nat := s.mtNs / 16 % 2 ^ 32

/-- A duration `d` with resolution `r`, started at `start`, has expired at `now`, elapsed MT having started at 0 at `base` (R65); all in
time units. -/
def expired (base start d r now : Nat) : Bool := decide (start + d ≤ base + (now - base) / r * r)

/-- The same with the duration and the resolution in ns. -/
def State.over (s : State) (start d r : Nat) : Bool := expired s.clk.base start (ns d) (ns r) s.now

/-- A duration of `d` ns with a resolution of 64 ns, started at elapsed MT `start`, has expired (R65, Table 2.4). -/
def State.past (s : State) (start d : Nat) : Bool := s.over start d 64

/-- The elapsed MT at which a duration of `d` ns with a resolution of 64 ns that starts now expires (R65). -/
def State.tickAfter (s : State) (d : Nat) : Nat :=
  s.clk.base + (s.now + ns d - s.clk.base + ns 64 - 1) / ns 64 * ns 64

/-! ### Free values -/

/-- The free value at the front of the stream (log entry 1). -/
def State.peek (s : State) : Nat := Config.free s.free

/-- The stream advanced by one value. -/
def State.drawn (s : State) : State := { s with free := s.free + 1 }

/-! ### Register fields -/

/-- The key of one field: page, offset and lowest bit. -/
def Fld.key (f : Fld) (i n k : Nat) : Nat :=
  (((f.cls * 1024 + i) * 4096 + f.off + f.stride * n) * 64) + f.lo + f.sub * k

/-- A common-header field in the pages of a class. -/
def Fld.of (f : Fld) (cls : Nat) : Fld := { f with cls := cls }

/-- The page number of a class and an instance. -/
def pageNo (cls i : Nat) : Nat := cls * 1024 + i

/-- The default severity of a slot (Table 17.3). -/
def defaultSev (slot : Nat) : Nat :=
  let c := slot / 64
  let b := slot % 64
  if c = 31 then 0
  else if b = E.bitMemCe ∨ b = E.bitDpCe then 2
  else if b = E.bitMemUe ∨ b = E.bitDpUe ∨ b = E.bitCfgErr then
    (if c = 0 ∨ c = 1 ∨ c = 2 ∨ c = 16 then 4 else 3)
  else if slot = 64 * 8 + E.LANE_FEC_UNCORR.bit then 2
  else if slot = 64 * 11 + E.LNK_CRC_ERR.bit ∨ slot = 64 * 11 + E.LNK_HUNT.bit then 2
  else if c = 2 then
    (if b = E.FLT_BRIDGE_CE.bit ∨ b = E.FLT_SCRUB_LATE.bit then 2
     else if b = E.FLT_RAIL_HIO.bit ∨ b = E.FLT_RAIL_OPT.bit then 3
     else if b = E.FLT_THERM_TRIP.bit ∨ b = E.FLT_RAIL_MAIN.bit ∨ b = E.FLT_REFCLK_LOSS.bit
        ∨ b = E.FLT_BRIDGE_UE.bit ∨ b = E.FLT_COLLECTOR_ERR.bit then 4
     else 1)
  else 1

/-- The value of a field after reset (Tables 0.3, 5.5, 15 and 17.3). DESIGN CHOICE: log entry 7. -/
def Fld.resetAt (f : Fld) (i n k : Nat) : Nat :=
  match f.reset with
  | .num v => v
  | .hw => 0
  | .fuse => Config.fuse (f.key i n k) % 2 ^ f.w
  | .pin => 0
  | .age => if n = 0 then 3125 else if n = 1 then 3125 else if n = 2 then 12500 else 625000
  | .pfEn => if n = 0 then 1 else 0
  | .sev => defaultSev (16 * n + k)

/-- The table that holds a field (R8, R9). -/
def RegFile.tab (r : RegFile) (f : Fld) : Tab Nat := if f.st then r.sticky else if f.al then r.alm else r.regs

/-- The value in force of a field. -/
def State.get (s : State) (f : Fld) (i : Nat := 0) (n : Nat := 0) (k : Nat := 0) : Nat :=
  Tab.get (f.resetAt i n k) (s.rf.tab f) (f.key i n k)

/-- A field as a flag. -/
def State.flag (s : State) (f : Fld) (i : Nat := 0) (n : Nat := 0) (k : Nat := 0) : Bool := s.get f i n k != 0

/-- A field as a two's-complement number. -/
def State.sget (s : State) (f : Fld) (i : Nat := 0) (n : Nat := 0) (k : Nat := 0) : Int := signedOf (s.get f i n k) f.w

/-- The register file with a field set, cut to its width. -/
def RegFile.set (r : RegFile) (f : Fld) (v i n k : Nat) : RegFile :=
  if f.st then { r with sticky := r.sticky.insert (f.key i n k) (v % 2 ^ f.w) }
  else if f.al then { r with alm := r.alm.insert (f.key i n k) (v % 2 ^ f.w) }
  else { r with regs := r.regs.insert (f.key i n k) (v % 2 ^ f.w) }

/-- The state with a field set. -/
def State.set (s : State) (f : Fld) (v : Nat) (i : Nat := 0) (n : Nat := 0) (k : Nat := 0) : State :=
  { s with rf := s.rf.set f v i n k }

/-- A field set from a flag. -/
def State.setFlag (s : State) (f : Fld) (b : Bool) (i : Nat := 0) (n : Nat := 0) (k : Nat := 0) : State :=
  s.set f (b2n b) i n k

/-- Bit `b` of a field. -/
def State.getBit (s : State) (f : Fld) (b : Nat) (i : Nat := 0) (n : Nat := 0) : Bool := bit (s.get f i n) b

/-- Bit `b` of a field set to `v`. -/
def State.setBit (s : State) (f : Fld) (b : Nat) (v : Bool) (i : Nat := 0) (n : Nat := 0) : State :=
  s.set f (setBits (s.get f i n) b 1 (b2n v)) i n

/-! ### Writes and hardware updates of one clock (R10, R11, R181) -/

/-- The value that a BUF or CORE field, or a severity, holds before its first write of this clock is kept (R181, R628). -/
def RegFile.keep (r : RegFile) (f : Fld) (i n k : Nat) : RegFile :=
  if (f.cls = 13 ∨ f.cls = 16 ∨ f = F.FLT_SEV_SEV) ∧ !r.before.any fun e => e.2.1 == f.key i n k then
    { r with before := r.before ++ [(f.al, f.key i n k, Tab.get (f.resetAt i n k) (r.tab f) (f.key i n k))] }
  else r

/-- A field written by software: hardware updates of the same clock are lost (R10). -/
def State.write (s : State) (f : Fld) (v : Nat) (i : Nat := 0) (n : Nat := 0) (k : Nat := 0) : State :=
  { s with rf := { (s.rf.keep f i n k).set f v i n k with wrote := f.key i n k :: s.rf.wrote } }

/-- A RW field updated by hardware, unless software writes it in the same clock (R10). -/
def State.hw (s : State) (f : Fld) (v : Nat) (i : Nat := 0) (n : Nat := 0) (k : Nat := 0) : State :=
  if s.rf.wrote.contains (f.key i n k) then s else s.set f v i n k

/-- A counter field advanced, saturating; a count that falls in the clock of its clear is lost (R764). -/
def State.inc (s : State) (f : Fld) (i : Nat := 0) (n : Nat := 0) (k : Nat := 0) (d : Nat := 1) : State :=
  s.hw f (satAdd (s.get f i n k) d f.w) i n k

/-- A PEAK field raised to a level that passes it (R161, R382). -/
def State.raisePeak (s : State) (f : Fld) (used i : Nat) : State := if s.get f i < used then s.hw f used i else s

/-- Bit `b` of a W1C field set by hardware: a write of the same clock does not clear it (R11). -/
def State.event (s : State) (f : Fld) (b : Nat) (i : Nat := 0) (n : Nat := 0) : State :=
  { s with rf := { s.rf.set f (setBits (s.get f i n) b 1 1) i n 0 with fired := (f.key i n 0 * 64 + b) :: s.rf.fired } }

/-- Bits of a W1C field that hardware has set in this clock (R11). -/
def State.firedBits (s : State) (f : Fld) (i n : Nat) : Nat :=
  ((List.range f.w).map fun b => if s.rf.fired.contains (f.key i n 0 * 64 + b) then 2 ^ b else 0).sum

/-- The state as an admission decision sees it: BUF and CORE fields written in this clock have their values from before (R181). -/
def State.asBefore (s : State) : State :=
  { s with rf := s.rf.before.foldl (fun r e =>
      if e.1 then { r with alm := r.alm.insert e.2.1 e.2.2 } else { r with regs := r.regs.insert e.2.1 e.2.2 }) s.rf }

/-- The value that a kept field had before the writes of this clock (R628). -/
def State.getBefore (s : State) (f : Fld) (i n k : Nat) : Nat := match s.rf.before.find? (·.2.1 == f.key i n k) with
  | some e => e.2.2
  | none => s.get f i n k

/-- A new core clock: no write and no hardware event in it yet. -/
def RegFile.newClock (r : RegFile) : RegFile := { r with wrote := [], fired := [], before := [], shadowOld := [] }

/-- The shadow copy of a RWS field: the value last written, or the value in force (R600). -/
def State.getShadow (s : State) (f : Fld) (i : Nat := 0) (n : Nat := 0) (k : Nat := 0) : Nat :=
  Tab.get (s.get f i n k) s.rf.shadow (f.key i n k)

/-- A write to the shadow copy of a RWS field; what it held before this clock is kept for a capture of the same clock (R601). -/
def State.setShadow (s : State) (f : Fld) (v : Nat) (i : Nat := 0) (n : Nat := 0) (k : Nat := 0) : State :=
  { s with rf := { s.rf with
      shadow := s.rf.shadow.insert (f.key i n k) (v % 2 ^ f.w),
      shadowOld := if s.rf.shadowOld.any (·.1 == f.key i n k) then s.rf.shadowOld
        else s.rf.shadowOld.insert (f.key i n k) (s.getShadow f i n k) } }

/-! ### Periodic processes -/

/-- The start of the present period of `p` ns, counted from 1. -/
def State.period (s : State) (p : Nat) : Nat := s.mtNs / p * p + 1

/-- A periodic process with key `m` and period `p` ns is due: MT stands at a whole multiple of the period that has not been handled (R73). -/
def State.due (s : State) (m p : Nat) : Bool := s.mtNs % p == 0 && Tab.get 0 s.marks m != s.period p

/-- The present period of a process marked as handled. -/
def State.mark (s : State) (m p : Nat) : State := { s with marks := s.marks.insert m (s.period p) }

/-- Keys of `State.marks` that hold an elapsed MT; under the others stand instants of MT. -/
def elapsedMark (m : Nat) : Bool := m == 2 || decide (7100 ≤ m)

/-! ### Outputs -/

/-- The state with something sent. DESIGN CHOICE: log entry 120. -/
def State.emit (s : State) (o : Output) : State := { s with out := s.out ++ [o] }

/-! ### Table-space memory (R610) -/

/-- The byte at a key; a byte not listed is 0. DESIGN CHOICE: log entry 6. -/
def Memory.read : Memory → Nat → Byte
  | [], _ => 0
  | (k, v) :: t, a => if k = a then v else Memory.read t a

/-- The memory with a byte placed at a key, kept in canonical form. -/
def Memory.write : Memory → Nat → Byte → Memory
  | [], a, v => if v = 0 then [] else [(a, v)]
  | (k, w) :: t, a, v =>
    if a < k then (if v = 0 then (k, w) :: t else (a, v) :: (k, w) :: t)
    else if a = k then (if v = 0 then t else (a, v) :: t)
    else (k, w) :: Memory.write t a v

/-- Every key of the list lies above `b`. -/
def Memory.above (b : Nat) : Memory → Bool
  | [] => true
  | (k, _) :: _ => decide (b < k)

/-- The canonical form: keys strictly rising, no byte 0. -/
def Memory.wf : Memory → Bool
  | [] => true
  | (k, v) :: t => v != 0 && Memory.above k t && Memory.wf t

/-- Bytes written one after another. -/
def Memory.writeBytes : Memory → Nat → List Byte → Memory
  | m, _, [] => m
  | m, a, b :: t => Memory.writeBytes (Memory.write m a b) (a + 1) t

/-- `n` bytes read one after another. -/
def Memory.readBytes (m : Memory) (a n : Nat) : List Byte := (List.range n).map fun i => Memory.read m (a + i)

/-- The 8-byte word at a key. -/
def Memory.word (m : Memory) (a : Nat) : Nat := ofLeBytes (Memory.readBytes m a 8)

/-- The memory with an 8-byte word placed. -/
def Memory.setWord (m : Memory) (a v : Nat) : Memory := Memory.writeBytes m a (leBytes 8 v)

/-- The word of table space at an address, unbanked. -/
def State.word (s : State) (a : Nat) : Nat := s.mem.word a

/-- A word of table space written. -/
def State.setWord (s : State) (a v : Nat) : State := { s with mem := s.mem.setWord a v }

/-- The key of an address in physical bank `b` of a banked region. DESIGN CHOICE: log entry 8. -/
def bankKey (b a : Nat) : Nat := (b + 1) * 2 ^ 48 + a

/-! ### Sparse tables of unit states -/

/-- An entry of a table changed by a function. -/
def Tab.modify {α : Type} (d : α) (t : Tab α) (n : Nat) (f : α → α) : Tab α := Tab.insert t n (f (Tab.get d t n))

/-! ### Snapshots under way -/

/-- Route tables or Constellations change while a COMMIT runs (R700). -/
def State.almTouch (s : State) : State :=
  { s with almanac := { s.almanac with cmd := s.almanac.cmd.map fun c => if c.op = 1 then { c with changed := true } else c } }

/-! ### Running a list of steps -/

/-- A state transformer applied to each element in turn. -/
def State.each {α : Type} (l : List α) (f : State → α → State) (s : State) : State := l.foldl f s

end Sys2Proof.Machine
end

