-- ==== Sys2Proof/Machine/Flags.lean ====
section
/-!
DEFINITION. The status flags of the pages: event bits, first-error captures, the reports to the fault collector (R597, R599,
R636), the programmable counters (R268), and the servo state changes (R59).
-/
namespace Sys2Proof.Machine
open Sys2Proof

/-! ### Programmable counters -/

/-- The number of programmable counters of a page (R267). -/
def pmcNum (cls : Nat) : Nat := if (12 ≤ cls ∧ cls ≤ 15) ∨ cls = 29 ∨ (18 ≤ cls ∧ cls ≤ 23) then 8 else 4

/-- Counter `k` of a page counts event `ev` (R268, R270, R276, R277). -/
def State.pmcHit (s : State) (cls i ev : Nat) (ctx : Option Nat) (k : Nat) : Bool :=
  s.getBit (F.PMC_CTL_EN.of cls) k i && s.get (F.PMC_SEL_EV.of cls) i 0 k == ev
    && !s.flag (F.PMC_SAT.of cls) i k
    && (!s.getBit (F.PMC_CTL_FILT_EN.of cls) k i
        || (cls == 18 && ctx == some (s.get F.PMC_FILT_FILT_CTX i)))

/-- Counters of the page hold: frozen (R268), or of a block that Degrade has fenced (R765). -/
def State.pmcFrozen (s : State) (cls i : Nat) : Bool :=
  s.flag (F.PMC_CTL_FREEZE.of cls) i || s.flag F.PMN_CTL_FREEZE || s.flt.blockFence.contains cls

/-- One counter advanced by `d`; SAT rises when the sum would pass 2^48 - 1 (R268). -/
def State.pmcAdd (s : State) (cls i k d : Nat) : State :=
  let c := s.get (F.PMC_COUNT.of cls) i k + d
  if c < 2 ^ 48 then s.hw (F.PMC_COUNT.of cls) c i k
  else (s.hw (F.PMC_COUNT.of cls) (2 ^ 48 - 1) i k).hw (F.PMC_SAT.of cls) 1 i k

/-! ### Events -/

/-- The capture of a block as master of no access (Table 16.3). -/
def blockCapture (cls i : Nat) : Capture := ⟨0, 0, 0, field cls 0 6 + field i 6 10, 0⟩

end Sys2Proof.Machine

namespace Sys2Proof
open Machine

/-- The capture made for a party's access (Table 16.3). -/
def Master.capture (m : Master) (addr space acc : Nat) : Capture :=
  match m with
  | .fn p f => ⟨addr, space, 1, field p 0 6 + field f 6 9, acc⟩
  | .endpoint a => ⟨addr, space, 2, a % 2 ^ 24, acc⟩
  | .mctp => ⟨addr, space, 3, 0, acc⟩

end Sys2Proof

namespace Sys2Proof.Machine
open Sys2Proof

/-- The severity of a slot, from before a write of this clock (R628). -/
def State.severity (s : State) (slot : Nat) : Nat :=
  if slot = 64 * 2 + E.FLT_THERM_TRIP.bit ∨ slot = 64 * 2 + E.FLT_COLLECTOR_ERR.bit then 4
  else min 4 (s.getBefore F.FLT_SEV_SEV 0 (slot / 16) (slot % 16))

/-- The page's capture registers loaded, or CAP_OVF set (R599). -/
def State.pageCapture (s : State) (cls i b : Nat) (c : Capture) : State :=
  if s.flag (F.STAT_CAP_VALID.of cls) i then s.event (F.STAT_CAP_OVF.of cls) 0 i
  else
    let s := s.set (F.CAP_ADDR_ADDR.of cls) c.addr i
    let s := s.set (F.CAP_INFO_EVT.of cls) b i
    let s := s.set (F.CAP_INFO_SPACE.of cls) c.space i
    let s := s.set (F.CAP_INFO_MKIND.of cls) c.mkind i
    let s := s.set (F.CAP_INFO_MASTER.of cls) c.master i
    let s := s.set (F.CAP_INFO_ACC.of cls) c.acc i
    let s := s.set (F.CAP_TIME_MT.of cls) s.mtNs i
    s.event (F.STAT_CAP_VALID.of cls) 0 i

/-- The event sent on its way to the collector when its EVT_EN bit is 1, with the page capture of severities 2 to 4
(R597, R629, R636). -/
def State.report (s : State) (cls i b : Nat) (c : Capture) : State :=
  if s.getBit (F.EVT_EN_EN.of cls) b i then
    let sev := s.severity (64 * cls + b)
    let s := if 2 ≤ sev then s.pageCapture cls i b c else s
    if sev = 0 then s
    else { s with flt := { s.flt with arrivals := s.flt.arrivals ++ [⟨64 * cls + b, i, sev, s.now, s.mtNs, c⟩] } }
  else s

/-- EVT_STAT bit `b` of a page set by hardware, and the event reported. -/
def State.raiseBit (s : State) (cls i b : Nat) (c : Capture) : State :=
  (s.event (F.EVT_STAT_EVT.of cls) b i).report cls i b c

/-- PMC_SAT raised; a bit that rises is an event of number 4 itself, whose counters may saturate in turn (R268, R271). -/
def State.raiseSat (s : State) (cls i : Nat) : State :=
  let t := s.raiseBit cls i E.bitPmcSat (blockCapture cls i)
  if s.getBit (F.EVT_STAT_EVT.of cls) E.bitPmcSat i || t.pmcFrozen cls i then t
  else
    let l := (List.range (pmcNum cls)).filter (t.pmcHit cls i 4 none)
    let t := l.foldl (fun t k => t.pmcAdd cls i k 1) t
    if l.any fun k => t.flag (F.PMC_SAT.of cls) i k && t.getBit (F.PMC_CTL_SAT_EVT.of cls) k i
    then t.raiseBit cls i E.bitPmcSat (blockCapture cls i) else t

/-- Event `ev` counted `d` times in one counter of a page, with PMC_SAT when its SAT rises (R268). -/
def State.countIn (s : State) (cls i d k : Nat) : State :=
  let t := s.pmcAdd cls i k d
  if t.flag (F.PMC_SAT.of cls) i k && t.getBit (F.PMC_CTL_SAT_EVT.of cls) k i then t.raiseSat cls i else t

/-- Event number `ev` occurred `d` times in a page, attributable to context `ctx` where one is given (R268 to R277). -/
def State.count (s : State) (cls i ev : Nat) (d : Nat := 1) (ctx : Option Nat := none) : State :=
  if s.pmcFrozen cls i then s
  else ((List.range (pmcNum cls)).filter (s.pmcHit cls i ev ctx)).foldl (fun t k => t.countIn cls i d k) s

/-- A hardware event of a page: its bit is set and reported, and bits that rise are counted (Table 7.2, number 4). DEDUCED: log entry 85. -/
def State.raiseAt (s : State) (cls i b : Nat) (c : Capture) : State :=
  if s.getBit (F.EVT_STAT_EVT.of cls) b i then s.raiseBit cls i b c
  else (s.raiseBit cls i b c).count cls i 4

/-- A named event raised in a page by the block itself. -/
def State.raise (s : State) (e : Evt) (i : Nat := 0) : State := s.raiseAt e.cls i e.bit (blockCapture e.cls i)

/-- A named event raised with a capture. -/
def State.raiseCap (s : State) (e : Evt) (i : Nat) (c : Capture) : State := s.raiseAt e.cls i e.bit c

/-- An event raised when a condition holds. -/
def State.raiseIf (s : State) (b : Bool) (e : Evt) (i : Nat := 0) : State := if b then s.raise e i else s

/-! ### The servo state -/

/-- The servo states of MT_STAT.STATE. -/
def unsure : Nat := 0
def locked : Nat := 1
def holdover : Nat := 2

/-- The device is UNSURE (R60). -/
def State.isUnsure (s : State) : Bool := s.get F.MT_STAT_STATE == unsure

/-- MT_STAT.STATE changed, with the events of R59 and SRC_LOST on entry to HOLDOVER (Table 2.7). -/
def State.servoTo (s : State) (st : Nat) : State :=
  let old := s.get F.MT_STAT_STATE
  if old = st then s
  else
    let s := s.set F.MT_STAT_STATE st
    let s := s.raise E.MT_STATE_CHANGE
    let s := s.raiseIf (st == unsure) E.MT_UNSURE_ENTRY
    s.raiseIf (st == holdover) E.MT_SRC_LOST

/-- The accuracy bound now, in ns: in HOLDOVER it grows by HOLD_DRIFT ps per second (R54). -/
def State.errNow (s : State) : Nat :=
  if s.get F.MT_STAT_STATE = holdover then
    min 0xFFFF (s.servo.lossErr + divUp (s.get F.MT_ACC_HOLD_DRIFT * (s.now - s.servo.lossAt)) (1000 * 1000000000 * unitsPerNs))
  else s.get F.MT_STAT_ERR_NS

/-- The source is lost (Table 2.2): LOCKED holds the trained frequency and enters HOLDOVER; in UNSURE the run of qualifying
updates ends. -/
def State.loseSource (s : State) : State :=
  let st := s.get F.MT_STAT_STATE
  if st = locked then
    State.servoTo { s with servo := { s.servo with slew := 0, lossAt := s.now, lossErr := s.get F.MT_STAT_ERR_NS } } holdover
  else if st = unsure then { s with servo := { s.servo with qualSince := none } }
  else s

/-- UNSURE entered: the slew ends and MT runs free on FAB_REFCLK (Table 2.2). -/
def State.goUnsure (s : State) : State :=
  State.servoTo { s with servo := { s.servo with slew := 0, freq := 0, qualSince := none } } unsure

/-- The fabric port that the servo follows (R128). -/
def State.followed (s : State) : Nat := if s.flag F.MT_STAT_ON_ALT then s.get F.MT_SRC_ALT_PORT else s.get F.MT_SRC_UP_PORT

/-- A fabric port that the servo follows has gone down: the alternate is followed where there is one (R52), and the source is
lost (Table 2.2). -/
def State.sourcePortDown (s : State) (p : Nat) : State :=
  if s.get F.MT_SRC_KIND = 3 && s.followed == p then
    let t := s.loseSource
    if s.flag F.MT_SRC_ALT_EN && !s.flag F.MT_STAT_ON_ALT then t.set F.MT_STAT_ON_ALT 1 else t
  else s

/-- A time multiplied by MT_CONS.FACTOR while the device is UNSURE or the operation came with TU = 1 (R60, R61). -/
def State.stretch (s : State) (tu : Bool) (d : Nat) : Nat :=
  if s.isUnsure || tu then d * s.get F.MT_CONS_FACTOR else d

/-- The device is in safe state (R641). -/
def State.safe (s : State) : Bool := s.flag F.FLT_STAT_SAFE

end Sys2Proof.Machine
end

