-- ==== Sys2Proof/Machine/Operands.lean ====
section
/-!
DEFINITION. How operands are read and formed: packet headers and cells (Table 6.1, R164), endpoint addresses (R200), frame
cells, VC numbers (R215), lane sets (R86, R92), route entries (Table 6.2) and the pinned hash (R216).
-/
namespace Sys2Proof.Machine
open Sys2Proof

/-! ### Unit numbers -/

/-- The tile of a fabric port or lane (R23). -/
def tileOf (p : Nat) : Nat := p / 16

/-- The engine tile of an engine (R24). -/
def tileOfEng (n : Nat) : Nat := 64 + n / 4

/-- Index of a port or engine within its tile (R178). -/
def slotIn (t p : Nat) : Nat := if t < 64 then p % 16 else p % 4

/-- The ports of a fabric tile, or the engines of an engine tile. -/
def portsOf (t : Nat) : List Nat :=
  if t < 64 then (List.range 16).map (16 * t + ·) else (List.range 4).map (4 * (t - 64) + ·)

/-! ### Endpoint addresses (R200) -/

/-- Bit 23: a multicast address. -/
def isMc (a : Nat) : Bool := bit a 23
def groupOf (a : Nat) : Nat := bits a 12 11
def deviceOf (a : Nat) : Nat := bits a 5 7
def engineOf (a : Nat) : Nat := bits a 0 5
/-- The unicast address of an engine of a device. -/
def endpoint (g d e : Nat) : Nat := field g 12 11 + field d 5 7 + field e 0 5

end Sys2Proof.Machine

namespace Sys2Proof

/-! ### Packets and cells -/

/-- Word 0 of the header (Table 6.1). -/
def Packet.w0 (p : Packet) : Nat :=
  field p.dst 0 24 + field p.src 24 24 + field p.cls 48 2 + field p.sl 50 3 + field p.rmode 53 2 + field (b2n p.ord) 55 1
    + field (b2n p.ep) 56 1 + field (b2n p.tu) 57 1 + field (b2n p.ce) 58 1 + field (b2n p.nm) 59 1
    + field (b2n p.escf) 60 1 + field (b2n p.mep) 61 1

/-- Word 1 of the header (Table 6.1). -/
def Packet.w1 (p : Packet) : Nat := field p.birth 0 32 + field p.len 32 13 + field p.hops 45 6

/-- The eight header words (R204). -/
def Packet.words (p : Packet) : List Nat := [p.w0, p.w1, p.w2, p.w3, p.w4, p.w5, p.w6, p.w7].map (· % 2 ^ 64)

/-- A packet from its header words and payload; reserved bits are ignored (R18). -/
def packetOf (w : List Nat) (data : List Byte) : Packet :=
  let a := w.getD 0 0
  let b := w.getD 1 0
  { dst := bits a 0 24, src := bits a 24 24, cls := bits a 48 2, sl := bits a 50 3, rmode := bits a 53 2, ord := bit a 55,
    ep := bit a 56, tu := bit a 57, ce := bit a 58, nm := bit a 59, escf := bit a 60, mep := bit a 61,
    birth := bits b 0 32, len := bits b 32 13, hops := bits b 45 6, w2 := w.getD 2 0, w3 := w.getD 3 0, w4 := w.getD 4 0,
    w5 := w.getD 5 0, w6 := w.getD 6 0, w7 := w.getD 7 0, data := data }

/-- The bytes of a packet (R6, R204). -/
def Packet.bytes (p : Packet) : List Byte := bytesOfWords p.words ++ p.data

/-- Cells of a packet (R164). -/
def Packet.ncells (p : Packet) : Nat := max 1 (min 17 (divUp (64 + p.len) 256))

/-- The bytes of cell `k`, filled up with 0 (R121, R164). -/
def Packet.cell (p : Packet) (k : Nat) : List Byte :=
  let b := (p.bytes.drop (256 * k)).take 256
  b ++ List.replicate (256 - b.length) 0

/-- The packet that a first cell opens: the header, and the payload bytes of the cell (R121). -/
def packetOfCell (c : List Byte) : Packet :=
  let p := packetOf (wordsOfBytes 8 c) []
  { p with data := ((c.drop 64).take 192).take p.len }

/-- A further cell's bytes added to the payload. -/
def Packet.addCell (p : Packet) (c : List Byte) : Packet := { p with data := (p.data ++ c.take 256).take p.len }

/-- CIDs of the VC: the class and kind of a VC index (R215). -/
def vcOf (cls kind : Nat) : Nat := cls * 4 + kind
/-- Kind 3 of a VC: the escape channel. -/
def isEscVc (vc : Nat) : Bool := vc % 4 == 3
/-- VCs of class MGT. -/
def isMgtVc (vc : Nat) : Bool := vc / 4 == 3

/-- A GOSSIP packet (R212). -/
def Packet.isGossip (p : Packet) : Bool := p.cls == 3 && p.mep && bits p.w2 0 8 == 1

/-- The physical bank that a route lookup of a packet reads (R224). -/
def Packet.bank (p : Packet) : Nat := b2n p.ep

/-- The RLP2 form of a packet (R207): the RLP3-only fields cleared. -/
def Packet.toRlp2 (p : Packet) : Packet :=
  { p with birth := 0, ep := false, tu := false, nm := false, escf := false, hops := 0 }

/-- The VC of a compatibility link (Table 4.6). -/
def rlp2Vc (vc : Nat) : Nat := if vc < 8 then vc else vc - 4
/-- The RLP3 VC of a compatibility link's VC. -/
def rlp3Vc (v : Nat) : Nat := if v < 8 then v else v + 4

/-! ### Frames (R115, R118, R120, R125, R126) -/

/-- One step of the CRC-32 of IEEE Std 802.3, least significant bit first: generator 0x04C1_1DB7 with its bits reversed (R118). -/
def crc32Bit (r : Nat) : Nat := if r % 2 = 1 then Nat.xor (r / 2) 0xEDB88320 else r / 2

/-- One byte into the register. -/
def crc32Byte (r : Nat) (b : Byte) : Nat :=
  crc32Bit (crc32Bit (crc32Bit (crc32Bit (crc32Bit (crc32Bit (crc32Bit (crc32Bit (Nat.xor r b.toNat))))))))

/-- Bytes into the register one after another; the register's value is taken before each byte. -/
def crc32From : List Byte → Nat → Nat
  | [], r => r
  | b :: l, 0 => crc32From l (crc32Byte 0 b)
  | b :: l, r + 1 => crc32From l (crc32Byte (r + 1) b)

/-- The CRC-32 of some bytes: initial value all ones, the result complemented (R118). -/
def crc32 (l : List Byte) : Nat := Nat.xor (crc32From l 0xFFFFFFFF) 0xFFFFFFFF

/-- Bytes filled up with 0 to the 256 of a cell. -/
def padCell (b : List Byte) : List Byte := (b ++ List.replicate (256 - b.length) 0).take 256

/-- GROUP, DEVICE and PORT in the layout of PORT_PEER (Table 4.2). -/
def identityWord (group device port : Nat) : Nat := field group 0 11 + field device 16 7 + field port 32 10

/-- The words of a CAP cell (Table 4.2). -/
def CapCell.words (c : CapCell) : List Nat :=
  [field c.vers 0 8 + field c.feat 8 16 + field c.req 24 2 + field (b2n c.locked) 26 1 + field c.cfgWidth 27 2 + field c.laneIdx 29 3
      + field c.lockedLanes 32 8 + field c.propLanes 40 8, c.nonce, identityWord c.group c.device c.port, field c.ladder 0 7]

/-- The words of a TIME cell (Table 4.2). -/
def TimeCell.words (c : TimeCell) : List Nat :=
  [field (b2n c.response) 0 1 + field c.state 1 2 + field c.hops 4 4 + field c.errNs 16 16 + field c.xid 32 32, c.txStamp, c.echo]

/-- The words of a FENCE cell (Table 4.2). -/
def FenceCell.words (c : FenceCell) : List Nat := [field c.reason 0 8, c.mt, identityWord c.group c.device c.port]

/-- The words of an ACK cell (Table 4.2). -/
def AckCell.words (c : AckCell) : List Nat :=
  ((List.range 8).map fun w => field (c.grants.getD (2 * w) 0) 0 12 + field (c.releases.getD (2 * w) 0) 16 12
      + field (c.grants.getD (2 * w + 1) 0) 32 12 + field (c.releases.getD (2 * w + 1) 0) 48 12)
    ++ (List.range 24).map fun i => bits c.xsack (64 * i) 64

/-- The header word of a frame (Table 4.1); bit 31 is NAK on a compatibility link and reserved on others (R153). -/
def FrameHead.word (h : FrameHead) (kind vc : Nat) (ep sop eop : Bool) : Nat :=
  field h.seq 0 20 + field kind 20 3 + field (b2n ep) 23 1 + field vc 24 4 + field (b2n sop) 28 1 + field (b2n eop) 29 1
    + field (b2n h.rtx) 30 1 + field (b2n h.nak) 31 1 + field h.sack 32 16 + field h.crVc 48 4 + field h.cong 52 12

/-- The trailer below the CRC (Table 4.1). -/
def FrameHead.tail (h : FrameHead) : Nat := field h.cack 0 20 + field h.crCnt 20 12

/-- The header word, the trailer below the CRC, and the cell of a frame. -/
def Frame.parts : Frame → Nat × Nat × List Byte
  | .data f => (f.head.word 0 f.vc f.ep f.sop f.eop, f.head.tail, padCell f.cell)
  | .idle h => (h.word 1 0 false false false, h.tail, padCell [])
  | .ack h c => (h.word 2 0 false false false, h.tail, padCell (bytesOfWords c.words))
  | .time h c => (h.word 3 0 false false false, h.tail, padCell (bytesOfWords c.words))
  | .fence h c => (h.word 4 0 false false false, h.tail, padCell (bytesOfWords c.words))
  | .cap h c => (h.word 5 0 false false false, h.tail, padCell (bytesOfWords c.words))

/-- Bytes 0 to 267 of a frame (R115). -/
def Frame.body (f : Frame) : List Byte := leBytes 8 f.parts.1 ++ f.parts.2.2 ++ leBytes 4 f.parts.2.1

/-- The 272 bytes of a frame (R115, R118). -/
def Frame.bytes (f : Frame) : List Byte := f.body ++ leBytes 4 (crc32 f.body)

/-- The CRC of 272 received bytes is good (R118). -/
def goodCrc (b : List Byte) : Bool := b.length == 272 && ofLeBytes (b.drop 268) == crc32 (b.take 268)

/-- The header and trailer fields of received bytes (Table 4.1). -/
def headOf (b : List Byte) : FrameHead :=
  let w := ofLeBytes (b.take 8)
  let t := ofLeBytes ((b.drop 264).take 4)
  { seq := bits w 0 20, rtx := bit w 30, nak := bit w 31, sack := bits w 32 16, crVc := bits w 48 4, crCnt := bits t 20 12,
    cong := bits w 52 12, cack := bits t 0 20 }

/-- A CAP cell from its words (Table 4.2). -/
def capOf (w : Nat → Nat) : CapCell :=
  { vers := bits (w 0) 0 8, feat := bits (w 0) 8 16, req := bits (w 0) 24 2, locked := bit (w 0) 26, cfgWidth := bits (w 0) 27 2,
    laneIdx := bits (w 0) 29 3, lockedLanes := bits (w 0) 32 8, propLanes := bits (w 0) 40 8, nonce := w 1, group := bits (w 2) 0 11,
    device := bits (w 2) 16 7, port := bits (w 2) 32 10, ladder := bits (w 3) 0 7 }

/-- A TIME cell from its words (Table 4.2). -/
def timeOf (w : Nat → Nat) : TimeCell :=
  { response := bit (w 0) 0, state := bits (w 0) 1 2, hops := bits (w 0) 4 4, errNs := bits (w 0) 16 16, xid := bits (w 0) 32 32,
    txStamp := w 1, echo := w 2 }

/-- A FENCE cell from its words (Table 4.2). -/
def fenceOf (w : Nat → Nat) : FenceCell :=
  { reason := bits (w 0) 0 8, mt := w 1, group := bits (w 2) 0 11, device := bits (w 2) 16 7, port := bits (w 2) 32 10 }

/-- An ACK cell from its words (Table 4.2). -/
def ackOf (w : Nat → Nat) : AckCell :=
  { grants := (List.range 16).map fun v => bits (w (v / 2)) (32 * (v % 2)) 12,
    releases := (List.range 16).map fun v => bits (w (v / 2)) (32 * (v % 2) + 16) 12,
    xsack := ((List.range 24).map fun i => w (8 + i) * 2 ^ (64 * i)).sum }

/-- The frame that 272 received bytes carry: none where the CRC fails or the kind is reserved (R118, R120). A reserved kind has no effect.
DESIGN CHOICE: log entry 156. -/
def frameOf (b : List Byte) : Option Frame :=
  let x := ofLeBytes (b.take 8)
  let kind := bits x 20 3
  let h := headOf b
  let cell := (b.drop 8).take 256
  let w := fun i => ofLeBytes ((cell.drop (8 * i)).take 8)
  if !goodCrc b then none
  else if kind = 0 then some (.data ⟨h, bit x 23, bits x 24 4, bit x 28, bit x 29, cell⟩)
  else if kind = 1 then some (.idle h)
  else if kind = 2 then some (.ack h (ackOf w))
  else if kind = 3 then some (.time h (timeOf w))
  else if kind = 4 then some (.fence h (fenceOf w))
  else if kind = 5 then some (.cap h (capOf w))
  else none

end Sys2Proof

namespace Sys2Proof.Machine
open Sys2Proof

/-! ### Lane sets -/

/-- The width a LANES code stands for. -/
def widthOf (code : Nat) : Nat := 2 ^ (code % 4)

/-- The code of a width. -/
def codeOf (w : Nat) : Nat := if 8 ≤ w then 3 else if 4 ≤ w then 2 else if 2 ≤ w then 1 else 0

/-- The mask of `w` lane indices from `k`. -/
def laneMask (k w : Nat) : Nat := (2 ^ w - 1) * 2 ^ k

/-- The naturally aligned blocks within 8 lane indices, largest first and lowest first among equals (R92). -/
def alignedBlocks : List (Nat × Nat) :=
  [(0, 8), (0, 4), (4, 4), (0, 2), (2, 2), (4, 2), (6, 2), (0, 1), (1, 1), (2, 1), (3, 1), (4, 1), (5, 1), (6, 1), (7, 1)]

/-- `x` holds every lane of mask `m`. -/
def holdsMask (x m : Nat) : Bool := Nat.land x m == m

/-- The largest naturally aligned block of lanes in `x`, the lowest on a tie (R92, R100); 0 when there is none. -/
def bestBlock (x : Nat) : Nat :=
  match alignedBlocks.find? (fun b => holdsMask x (laneMask b.1 b.2)) with
  | some (k, w) => laneMask k w
  | none => 0

/-- The number of lanes in a mask. -/
def laneCount (x : Nat) : Nat := popcount x 8

/-- The lowest lane index in a mask. -/
def lowLane (x : Nat) : Nat := (setBitsOf x 8).headD 0

/-! ### Sequence numbers (R130) -/

/-- `(a - b)` modulo 2^20. -/
def seqDiff (a b : Nat) : Nat := (a + 2 ^ 20 - b % 2 ^ 20) % 2 ^ 20

/-- `a` is ahead of `b`. -/
def ahead (a b : Nat) : Bool := decide (1 ≤ seqDiff a b ∧ seqDiff a b ≤ 2 ^ 19 - 1)

/-- A count carried modulo `m`, applied to the value `v` held when it is ahead of it or equal (R145). -/
def advance (m v wire : Nat) : Nat :=
  let d := (wire + m - v % m) % m
  if d < m / 2 then v + d else v

/-! ### Route entries -/

/-- Address of a word of a group entry, an in-group entry, an engine entry, a MC_TILE or a MC_LOCAL entry (Table 16.4). -/
def groupAddr (t e : Nat) : Nat := 0x0100000000 + t * 2 ^ 20 + 32 * e
def inGroupAddr (t e : Nat) : Nat := 0x0100010000 + t * 2 ^ 20 + 32 * e
def engAddr (t e : Nat) : Nat := 0x0100011000 + t * 2 ^ 20 + 8 * e
def mcTileAddr (t g : Nat) : Nat := 0x0100020000 + t * 2 ^ 20 + 16 * g
def mcLocalAddr (t g : Nat) : Nat := 0x0100030000 + t * 2 ^ 20 + 8 * g

/-- A word of a banked table in bank `b`. -/
def State.bankWord (s : State) (b a : Nat) : Nat := s.word (bankKey b a)

/-- A route entry (Table 6.2). -/
structure RouteEntry where
  min : List Nat
  non : List Nat
  esc : Option Nat
  hsel : Nat
  slot : Option Nat
  nslot : Option Nat
  valid : Bool
deriving DecidableEq, Repr

/-- Ports `[10i+9:10i]`, the first `n` of them (Table 6.2); for an `n` above 6 the number taken is a free value (R17). DESIGN CHOICE:
log entry 135. -/
def portList (w n : Nat) : List Nat :=
  (List.range (if n ≤ 6 then n else Config.listLength w % 7)).map fun i => bits w (10 * i) 10

/-- The route entry whose words 0 to 2 are given. -/
def routeEntry (a b c : Nat) : RouteEntry :=
  { min := portList a (bits a 60 3), non := portList b (bits b 60 3),
    esc := if bit c 10 then some (bits c 0 10) else none, hsel := bits c 12 4,
    slot := if bit c 22 then some (bits c 16 6) else none,
    nslot := if bit c 29 then some (bits c 23 6) else none, valid := bit a 63 }

/-- The route entry at an address in a bank. -/
def State.routeAt (s : State) (b a : Nat) : RouteEntry :=
  routeEntry (s.bankWord b a) (s.bankWord b (a + 8)) (s.bankWord b (a + 16))

/-! ### The pinned hash (R216) -/

/-- One bit into a CRC-16 register with generator 0x1021. -/
def crcBit (r : Nat) (b : Bool) : Nat :=
  let fb := bit r 15 != b
  let r := r * 2 % 2 ^ 16
  if fb then Nat.xor r 0x1021 else r

/-- One byte, most significant bit first. -/
def crcByte (r b : Nat) : Nat := [7, 6, 5, 4, 3, 2, 1, 0].foldl (fun r i => crcBit r (bit b i)) r

/-- The hash of a packet with a seed (R216). -/
def pinHash (seed src dst tctx : Nat) : Nat :=
  [bits src 0 8, bits src 8 8, bits src 16 8, bits dst 0 8, bits dst 8 8, bits dst 16 8,
   bits tctx 0 8, bits tctx 8 8, bits tctx 16 4].foldl crcByte seed

/-! ### Control cells -/

/-- CAP word 3: RUNG, PMSG, WAKE, CMD (Table 18.3). -/
def ladderWord (rung pmsg wake cmd : Nat) : Nat := field rung 0 3 + field pmsg 3 2 + field wake 5 1 + field cmd 6 1

end Sys2Proof.Machine
end

