-- ==== Sys2Proof/Machine/Route.lean ====
section
/-!
DEFINITION. Routing (chapter "Routing, message classes and deadlock freedom"): identity, fences, congestion levels, the choice
of port (R209 to R219, R237), and the counts of the packets that routing drops.
-/
namespace Sys2Proof.Machine
open Sys2Proof

/-! ### Unit records -/

def State.tile (s : State) (t : Nat) : Tile := Tab.get Tile.reset s.tiles t
def State.modTile (s : State) (t : Nat) (f : Tile → Tile) : State := { s with tiles := Tab.modify Tile.reset s.tiles t f }
def State.link (s : State) (p : Nat) : LinkSt := Tab.get LinkSt.reset s.links p
def State.modLink (s : State) (p : Nat) (f : LinkSt → LinkSt) : State := { s with links := Tab.modify LinkSt.reset s.links p f }
def State.port (s : State) (p : Nat) : PortSt := Tab.get PortSt.reset s.ports p
def State.modPort (s : State) (p : Nat) (f : PortSt → PortSt) : State := { s with ports := Tab.modify PortSt.reset s.ports p f }
def State.lane (s : State) (l : Nat) : LaneSt := Tab.get LaneSt.reset s.lanes l
def State.modLane (s : State) (l : Nat) (f : LaneSt → LaneSt) : State := { s with lanes := Tab.modify LaneSt.reset s.lanes l f }
def State.optic (s : State) (e : Nat) : OptSt := Tab.get OptSt.reset s.opts e
def State.modOpt (s : State) (e : Nat) (f : OptSt → OptSt) : State := { s with opts := Tab.modify OptSt.reset s.opts e f }
def State.schedOf (s : State) (p : Nat) : Sched := Tab.get Sched.reset s.sched p
def State.modSched (s : State) (p : Nat) (f : Sched → Sched) : State := { s with sched := Tab.modify Sched.reset s.sched p f }

/-- The port states of PORT_STAT.STATE (Table 3.5). -/
def stDisabled : Nat := 0
def stBringup : Nat := 1
def stCapx : Nat := 2
def stFrameLock : Nat := 3
def stActive : Nat := 4

/-- A port is ACTIVE. -/
def State.active (s : State) (p : Nat) : Bool := s.get F.PORT_STAT_STATE p == stActive

/-! ### Identity (R201 to R203) -/

/-- Group, device and VALID in force for routing and for the engines: a write acts 100 ns later (R202, R203). DESIGN CHOICE: log entry 159. -/
def State.devSelf (s : State) : Nat × Nat × Bool :=
  match (s.rte.selfNext.filter fun e => decide (e.1 + ns 100 ≤ s.now)).getLast? with
  | some (_, v) => v
  | none => s.rte.selfOld

/-! ### Fences (R234 to R239) -/

/-- The RTE_FENCE word of a tile as its fields hold it. -/
def State.fenceReg (s : State) (t : Nat) : Nat :=
  s.get F.RTE_FENCE_PORTS t + s.get F.RTE_FENCE_PEER t * 2 ^ 16 + s.get F.RTE_FENCE_MGT_PASS t * 2 ^ 32

/-- The PORTS bits of a tile that some cause still needs: the tile fenced whole or on the ladder, its host I/O domain, its engines or
ports fenced by Degrade, an engine that loads microcode. -/
def State.hwNeed (s : State) (t : Nat) : Nat :=
  if t < 64 then ((List.range 16).map fun i => if (s.port (16 * t + i)).fenced then 2 ^ i else 0).sum
  else if s.flag F.TILE_FENCE_FULL t || s.get F.TILE_PWR_CUR t != 0 || s.flt.hioFence.contains ((t - 64) / 2) then 15
  else ((List.range 4).map fun i =>
    let e := 4 * (t - 64) + i
    if s.flt.engFence.contains e || s.flt.unitFence.contains (t - 64)
      || s.almanac.cmd.any (fun c => c.op == 4 && c.arg == e) then 2 ^ i else 0).sum

/-- The fence word in force: the new value from a write on, as R239 allows, and the bits that hardware needs. DEDUCED: log entry 136. -/
def State.fenceWord (s : State) (t : Nat) : Nat := Nat.lor (s.fenceReg t) (s.hwNeed t)

/-- The cause that RTE_STAT.HW_FENCE reports for a tile: its host I/O domain, the ladder, a microcode update (Table 6.6). -/
def State.hwCause (s : State) (t : Nat) : Nat :=
  if t < 64 then 0
  else if s.flt.hioFence.contains ((t - 64) / 2) then 1
  else if s.get F.TILE_PWR_CUR t != 0 then 2
  else if s.almanac.cmd.any (fun c => c.op == 4 && decide (4 * (t - 64) ≤ c.arg ∧ c.arg < 4 * (t - 64) + 4)) then 3
  else 0

/-- MGT packets pass the fences of a tile. -/
def State.mgtPass (s : State) (t : Nat) : Bool := bit (s.fenceWord t) 32

/-- PORTS bit of a port; of an engine at an engine tile. -/
def State.portFence (s : State) (p : Nat) : Bool := bit (s.fenceWord (tileOf p)) (p % 16)
def State.peerFence (s : State) (p : Nat) : Bool := bit (s.fenceWord (tileOf p)) (16 + p % 16)
def State.engFence (s : State) (e : Nat) : Bool := bit (s.fenceWord (tileOfEng e)) (e % 4)

/-- A port is fenced for egress of a packet (R236). -/
def State.egressFenced (s : State) (p : Nat) (pkt : Packet) : Bool :=
  (s.portFence p || s.peerFence p) && !(pkt.cls == 3 && s.mgtPass (tileOf p))

/-- An engine is fenced for a packet (R236). -/
def State.engDenied (s : State) (e : Nat) (pkt : Packet) : Bool :=
  s.engFence e && !(pkt.cls == 3 && s.mgtPass (tileOfEng e))

/-- The packet enters from a fenced element (R235). -/
def State.ingressFenced (s : State) (t inPort : Nat) (pkt : Packet) : Bool :=
  (if t < 64 then s.portFence inPort || s.peerFence inPort else s.engFence inPort) && !(pkt.cls == 3 && s.mgtPass t)

/-- The packet's destination device is the recorded peer of a port with PEER set (R236). -/
def State.toFencedPeer (s : State) (pkt : Packet) : Bool :=
  !isMc pkt.dst && (List.range 64).any fun t =>
    bits (s.fenceWord t) 16 16 != 0 && !(pkt.cls == 3 && s.mgtPass t) && (portsOf t).any fun p =>
      s.peerFence p && s.flag F.PORT_PEER_VALID p && s.get F.PORT_PEER_GROUP p == groupOf pkt.dst
        && s.get F.PORT_PEER_DEVICE p == deviceOf pkt.dst

/-! ### Occupancy and levels -/

def State.eng (s : State) (e : Nat) : Eng := Tab.get Eng.reset s.engs e
def State.modEng (s : State) (e : Nat) (f : Eng → Eng) : State := { s with engs := Tab.modify Eng.reset s.engs e f }

/-- The requests in the miss buffer of an engine, whose cells still lie in the output memory of its tile (R295). -/
def State.engPackets (s : State) (e : Nat) : List Packet := (s.eng e).miss.filter (·.cls != 1)

/-- Cells held or reserved for a port or engine in output memory: BUF_PORT i.OCC. -/
def State.occ (s : State) (t p : Nat) : Nat :=
  let f := fun (r : Resv) => if r.stg then 0 else ((r.members.filter (·.port == p)).map Member.left).sum
  ((s.tile t).resv.map f).sum + ((s.tile t).tx.map f).sum + (if t < 64 then 0 else ((s.engPackets p).map Packet.ncells).sum)

/-- Gb/s of one lane of a port (R79, R153). -/
def State.laneRate (s : State) (p : Nat) : Nat := if s.get F.LNK_STAT_MODE p = 2 then 100 else 200

/-- The sampled head-of-line delay of a port (R258). -/
def State.holDelay (s : State) (p : Nat) : Nat :=
  ((List.range 8).map fun sl => (Tab.get (0, 0) s.rte.sample (p * 8 + sl)).1).foldl max 0

/-- The congestion level of a port (R211). DEDUCED: log entry 74. -/
def State.level (s : State) (p : Nat) : Nat :=
  let u := s.get F.RTE_CTL_LVL_UNIT (tileOf p)
  let w := widthOf (s.get F.PORT_STAT_ACT_LANES p)
  let send := s.occ (tileOf p) p * 2176 / (s.laneRate p * w * 16 * u)
  min 15 (max send (s.holDelay p / (16 * u)))

/-- The slot of a port (RTE_SLOT). -/
def State.slotOf (s : State) (p : Nat) : Nat :=
  if p % 16 < 8 then s.get F.RTE_SLOT_LO_SLOT (tileOf p) 0 (p % 16) else s.get F.RTE_SLOT_HI_SLOT (tileOf p) 0 (p % 16 - 8)

/-- The level of a slot: the highest among the ACTIVE ports in it (R211). -/
def State.slotLevel (s : State) (k : Nat) : Nat :=
  (((List.range 1024).filter fun p => s.active p && s.slotOf p == k).map s.level).foldl max 0

/-- The level of a slot learned from a port, 0 when not refreshed for 8 µs (R213). -/
def State.peerLevel (s : State) (p k : Nat) : Nat :=
  let (l, at_) := Tab.get (0, 0) s.rte.learned (p * 64 + k)
  if s.now < at_ + ns 8000 then l else 0

/-- Levels learned from a port and not refreshed for 8 µs: port * 64 + slot (R213). -/
def State.staleKeys (s : State) (p : Nat) : List Nat :=
  (s.rte.learned.filter fun e => e.1 / 64 == p && decide (e.2.2 + ns 8000 ≤ s.now)).map (·.1)

/-- A level learned from a port (R212); a port none of whose levels is stale may raise GOSSIP_STALE again (R213). -/
def State.learn (s : State) (p k l : Nat) : State :=
  let s := { s with rte := { s.rte with learned := s.rte.learned.insert (p * 64 + k) (l, s.now) } }
  if (s.staleKeys p).isEmpty then { s with rte := { s.rte with stale := s.rte.stale.filter (· != p) } } else s

/-- A port that goes down has every learned level reset (R213). -/
def State.forget (s : State) (p : Nat) : State :=
  { s with rte := { s.rte with learned := s.rte.learned.filter (fun e => e.1 / 64 != p), stale := s.rte.stale.filter (· != p) } }

/-! ### The choice of port -/

/-- A port is usable for a packet that entered on `inPort` (none from an engine or the management endpoint) (R210). -/
def State.usable (s : State) (pkt : Packet) (inPort : Option Nat) (p : Nat) : Bool :=
  s.active p && !s.egressFenced p pkt && !(pkt.cls == 2 && s.get F.LNK_STAT_MODE p == 2) && inPort != some p

/-- A port that stands below Run by command (R667). -/
def State.commandedRung (s : State) (p : Nat) : Bool := s.get F.PORT_PWR_STAT_RUNG p != 0 && s.flag F.PORT_PWR_STAT_COMMANDED p

/-- The list turned to begin at a start position. -/
def rotate {α : Type} (l : List α) (k : Nat) : List α := l.drop (k % l.length) ++ l.take (k % l.length)

/-- The adaptive choice among usable candidates (R214): port and whether it is non-minimal. -/
def State.adaptive (s : State) (t : Nat) (pkt : Packet) (e : RouteEntry) (ok : Nat → Bool) : Option (Nat × Bool) :=
  let start := (s.tile t).start
  let cmin := fun p => s.level p + (match e.slot with | some k => s.peerLevel p k | none => 0)
  let cnon := fun p => s.level p + (match e.nslot with | some k => s.peerLevel p k | none => 0) + s.get F.RTE_CTL_NM_BIAS t
  let bmin := argMin cmin ((rotate e.min start).filter ok)
  let bnon := if s.flag F.RTE_CTL_NM_EN t && !pkt.nm && pkt.cls != 2
    then argMin cnon ((rotate e.non start).filter ok) else none
  match bmin, bnon with
  | some a, some b => if cnon b < cmin a then some (b, true) else some (a, false)
  | none, some b => some (b, true)
  | some a, none => some (a, false)
  | none, none => none

/-- The pinned choice (R216). -/
def State.pinned (s : State) (t : Nat) (pkt : Packet) (e : RouteEntry) (ok : Nat → Bool) : Option (Nat × Bool) :=
  let l := e.min.filter ok
  let seed := s.get F.RTE_HASH_SEED t (e.hsel / 4) (e.hsel % 4)
  match l[pinHash seed pkt.src pkt.dst (bits pkt.w2 0 20) % l.length]? with
  | some p => some (p, false)
  | none => none

/-- The VC index on this hop (R215). -/
def State.vcFor (s : State) (pkt : Packet) (newNm : Bool) : Nat :=
  if pkt.cls = 2 then vcOf 2 0
  else if pkt.rmode = 2 then 14
  else if pkt.escf then vcOf pkt.cls 3
  else if newNm then vcOf pkt.cls 2
  else if s.devSelf.1 != groupOf pkt.src then vcOf pkt.cls 1
  else vcOf pkt.cls 0

/-- What becomes of a packet at its input tile. -/
inductive Decision where
  /-- Queued for a port on a VC. -/
  | toPort (p vc : Nat) (pkt : Packet)
  /-- Queued for an engine. -/
  | toEng (e vc : Nat) (pkt : Packet)
  /-- Delivered to the management endpoint. -/
  | toMgt (pkt : Packet)
  /-- Replicated to these output tiles. -/
  | replicate (tiles : List Nat) (vc : Nat)
  /-- Held for down candidates. -/
  | park (cands : List Nat) (pkt : Packet)
  /-- Dropped: counted in NOROUTE, FENCE_EG, MC_BAD, PORT_FLUSH of a port, or COMPAT_DROP of a port. -/
  | noroute
  | fenceEg
  | mcBad
  | flush (p : Nat)
  | compat (p : Nat)
deriving DecidableEq, Repr

/-- Elapsed MT at which the grace of a down candidate ends, or ended; that of a port with EN = 0 has ended before any other (R105). -/
def State.graceEnd (s : State) (p : Nat) : Nat :=
  if s.flag F.PORT_CTL_EN p then ((s.port p).grace.getD 0) + ns (16 * s.get F.PORT_TIMERS_GRACE p) else 0

/-- Of the down candidates, the one whose grace ends last (R105). -/
def State.lastGrace (s : State) (l : List Nat) : Nat :=
  (l.foldl (fun (b : Option Nat) p => match b with
    | none => some p
    | some q => if s.graceEnd q < s.graceEnd p then some p else some q) none).getD 0

/-- A down candidate whose grace has expired, or with EN = 0 (R105, R106). -/
def State.flushes (s : State) (p : Nat) : Bool := s.flag F.PORT_STAT_FLUSHING p || !s.flag F.PORT_CTL_EN p

/-- No usable candidate (R237). DESIGN CHOICE: log entries 138 and 139. -/
def State.noCandidate (s : State) (pkt : Packet) (cands : List Nat) : Decision :=
  if cands.any (fun p => s.egressFenced p pkt) then .fenceEg
  else
    let down := cands.filter fun p => !s.active p
    if down != [] then (if down.all s.flushes then .flush (s.lastGrace down) else .park down pkt)
    else match cands.find? (fun p => pkt.cls == 2 && s.get F.LNK_STAT_MODE p == 2) with
      | some p => .compat p
      | none => .noroute

/-- The decision for a packet under a route entry (R214, R216, R219, R237, R667). -/
def State.byEntry (s : State) (t : Nat) (pkt : Packet) (inPort : Option Nat) (e : RouteEntry) : Decision :=
  let ok := s.usable pkt inPort
  let run := fun p => ok p && !s.commandedRung p
  let pick := fun (f : Nat → Bool) => if pkt.rmode = 1 then s.pinned t pkt e ok else s.adaptive t pkt e f
  let nonOk := s.flag F.RTE_CTL_NM_EN t && !pkt.nm && pkt.cls != 2 && pkt.rmode != 1
  let cands := if pkt.escf then e.esc.toList else e.min ++ (if nonOk then e.non else []) ++ e.esc.toList
  let first := if pkt.escf then none else pick run
  let escChoice := fun (f : Nat → Bool) => match e.esc with
    | some p => if f p then some p else none
    | none => none
  let fin := fun (c : Option (Nat × Bool)) (k : Decision) => match c with
    | some (p, nm) => Decision.toPort p (s.vcFor pkt nm) { pkt with nm := pkt.nm || nm }
    | none => k
  let esc := fun (c : Option Nat) (k : Decision) => match c with
    | some p => let q := { pkt with escf := true }
      Decision.toPort p (s.vcFor q false) q
    | none => k
  fin first (esc (escChoice run) (fin (if pkt.escf then none else pick ok) (esc (escChoice ok) (s.noCandidate pkt cands))))

/-- DR_HOP `k` of a directed-route packet (Table 6.1). -/
def drHop (pkt : Packet) (k : Nat) : Nat := if k < 6 then bits pkt.w6 (10 * k) 10 else bits pkt.w7 (10 * (k - 6)) 10

/-- DR_HOP `k` replaced. -/
def setDrHop (pkt : Packet) (k v : Nat) : Packet :=
  if k < 6 then { pkt with w6 := setBits pkt.w6 (10 * k) 10 v } else { pkt with w7 := setBits pkt.w7 (10 * (k - 6)) 10 v }

/-- A directed-route packet (R217), which a hop that names its port of arrival sends back there; a compatibility link never carries one
(R207). DEDUCED: log entries 137 and 161. -/
def State.directed (s : State) (pkt : Packet) (inPort : Option Nat) : Decision :=
  let n := bits pkt.w6 60 4
  let k := bits pkt.w7 60 4
  if k < n then
    let p := drHop pkt k
    let q := setDrHop pkt k (inPort.getD 0x3FF)
    let q := { q with w7 := setBits q.w7 60 4 (k + 1) }
    if s.egressFenced p pkt then .fenceEg
    else if s.active p && s.get F.LNK_STAT_MODE p != 2 then .toPort p 14 q
    else .noroute
  else .toMgt pkt

/-- The group or in-group entry used for a packet, when a table of ports applies (R209). -/
def State.entryOf (s : State) (t : Nat) (pkt : Packet) : Option RouteEntry :=
  let (g, d, _) := s.devSelf
  if isMc pkt.dst ∨ pkt.rmode = 2 then none
  else if groupOf pkt.dst ≠ g then some (s.routeAt pkt.bank (groupAddr t (groupOf pkt.dst)))
  else if deviceOf pkt.dst ≠ d then some (s.routeAt pkt.bank (inGroupAddr t (deviceOf pkt.dst)))
  else none

/-- The tiles of a multicast entry, or none where the address or the entry is not valid (R192). -/
def State.mcTiles (s : State) (t : Nat) (pkt : Packet) : Option (List Nat) :=
  let g := bits pkt.dst 0 12
  let a := mcTileAddr t g
  let w0 := s.bankWord pkt.bank a
  let w1 := s.bankWord pkt.bank (a + 8)
  if bits pkt.dst 12 11 ≠ 0 ∨ !bit w1 8 then none
  else some (setBitsOf w0 64 ++ (setBitsOf w1 8).map (64 + ·))

/-- The lookup of R209, with the drops at the last hop of R236. -/
def State.route (s : State) (t : Nat) (pkt : Packet) (inPort : Option Nat) : Decision :=
  let (_, _, valid) := s.devSelf
  if !valid ∧ pkt.rmode ≠ 2 then .noroute
  else if isMc pkt.dst ∧ (pkt.cls = 0 ∨ pkt.cls = 1) then .mcBad
  else if isMc pkt.dst then
    match s.mcTiles t pkt with
    | some l => .replicate l (if pkt.cls = 3 then vcOf 3 3 else s.vcFor pkt false)
    | none => .mcBad
  else if pkt.rmode = 2 then s.directed pkt inPort
  else if s.toFencedPeer pkt then .fenceEg
  else match s.entryOf t pkt with
    | some e => if e.valid then s.byEntry t pkt inPort e else .noroute
    | none =>
      if pkt.mep then .toMgt pkt
      else
        let w := s.bankWord pkt.bank (engAddr t (engineOf pkt.dst))
        let e := bits w 0 5
        if !bit w 5 then .noroute
        else if s.engDenied e pkt then .fenceEg
        else .toEng e (s.vcFor pkt false) pkt

/-! ### Counts of routing drops -/

/-- A packet counted in NOROUTE of a tile, with its event (Table 6.7). -/
def State.dropNoroute (s : State) (t : Nat) : State := ((s.inc F.RTE_CNT_A_NOROUTE t).count 14 t 0x45).raise E.RTE_NOROUTE t

/-- A packet dropped by the hop limit (R206). -/
def State.dropHop (s : State) (t : Nat) : State := (s.inc F.RTE_CNT_A_HOP_DROP t).raise E.RTE_HOP_DROP t

/-- A packet dropped at a fence on its way in (R235). -/
def State.dropFenceIn (s : State) (t : Nat) : State := ((s.inc F.RTE_CNT_B_FENCE_IN t).count 14 t 0x46).raise E.RTE_FENCE_DROP t

/-- A packet dropped at a fence on its way out (R236 to R238). -/
def State.dropFenceEg (s : State) (t : Nat) : State := ((s.inc F.RTE_CNT_B_FENCE_EG t).count 14 t 0x46).raise E.RTE_FENCE_DROP t

/-- A packet with a bad multicast address or entry (R192). -/
def State.dropMcBad (s : State) (t : Nat) : State := (s.inc F.BUF_CNT_B_MC_BAD t).raise E.BUF_MC_BAD t

/-- A packet flushed for a port, counted per class (R106). -/
def State.dropFlush (s : State) (p cls : Nat) : State := s.inc F.PORT_FLUSH_PKTS p cls

/-- A COL packet that meets only compatibility ports (R155). -/
def State.dropCompat (s : State) (p : Nat) : State := (s.inc F.LNK_CNT_MISC_COMPAT_DROP p).raise E.LNK_COMPAT_DROP p

end Sys2Proof.Machine
end

