-- ==== Sys2Proof/Machine/Switch.lean ====
section
/-!
DEFINITION. The switch core (chapter "Load-balanced switch core and buffer management"): arrival at an input tile, reservations,
the cyclic pattern, completion, ageing, and the commands of that chapter that need no port or link.
-/
namespace Sys2Proof.Machine
open Sys2Proof

/-! ### Ageing (R182 to R186) -/

/-- The age of a packet in 16 ns units; an age of 2^31 or more reads as 0 (R183). -/
def State.age (s : State) (birth : Nat) : Nat :=
  let a := (s.stamp + 2 ^ 32 - birth % 2 ^ 32) % 2 ^ 32
  if 2 ^ 31 ≤ a then 0 else a

/-- A packet is dropped on age (R183, R185). -/
def State.tooOld (s : State) (pkt : Packet) : Bool :=
  !s.isUnsure && !pkt.tu && decide (s.get F.CORE_AGE_LIMIT 0 pkt.cls < s.age pkt.birth)

/-- An age drop counted in a tile (R186). -/
def State.dropAge (s : State) (t cls : Nat) : State := ((s.inc F.BUF_AGE_DROP_PKTS t cls).count 13 t 0x43).raise E.BUF_AGE_DROP t

/-! ### Middle tiles -/

/-- Middle `m` is skipped: its bit of CORE_MID_STATE. -/
def State.midSkipped (s : State) (m : Nat) : Bool :=
  if m < 64 then s.getBit F.CORE_MID_STATE_LO_TILES m else s.getBit F.CORE_MID_STATE_HI_TILES (m - 64)

/-- The bit of CORE_MID_STATE set or cleared. -/
def State.setMidSkipped (s : State) (m : Nat) (v : Bool) : State :=
  if m < 64 then s.setBit F.CORE_MID_STATE_LO_TILES m v else s.setBit F.CORE_MID_STATE_HI_TILES (m - 64) v

/-- The bit of CORE_MID_FENCE in force. -/
def State.midFence (s : State) (m : Nat) : Bool :=
  if m < 64 then s.getBit F.CORE_MID_FENCE_LO_TILES m else s.getBit F.CORE_MID_FENCE_HI_TILES (m - 64)

/-- The bit of CORE_MID_FENCE in force set or cleared by hardware: a shadow copy that software has written keeps its bit, one never written
shows the value in force (R189, R191). DESIGN CHOICE: log entry 157. -/
def State.setMidFence (s : State) (m : Nat) (v : Bool) : State :=
  if m < 64 then s.setBit F.CORE_MID_FENCE_LO_TILES m v else s.setBit F.CORE_MID_FENCE_HI_TILES (m - 64) v

/-- Middle `m` is fenced: skipped or draining. -/
def State.midOut (s : State) (m : Nat) : Bool := s.midSkipped m || s.core.draining.contains m

/-- The middles fenced at present. -/
def State.midsOut (s : State) : List Nat := (List.range 72).filter s.midOut

/-- The queue of a middle for an output tile and a VC (R169). -/
def State.midQueue (s : State) (m out vc : Nat) : List Cell := Tab.get [] (s.tile m).mid (out * 16 + vc)

/-- Cells in a middle tile: BUF_MID_OCC.USED. -/
def State.midUsed (s : State) (m : Nat) : Nat := ((s.tile m).mid.map fun e => e.2.length).sum

/-- Banks of a pool of a fabric or engine tile that the bank bits or a bank fence take away (R683, R684); `lo` and `n` give
the local banks of the pool. -/
def State.banksOut (s : State) (t lo n : Nat) : Nat :=
  ((List.range n).filter fun k =>
    let l := lo + k
    s.flt.bankFence.contains (t, l)
      || ((s.getBit F.TILE_BANK_RET_BITS (l % 64) t (l / 64) || s.getBit F.TILE_BANK_OFF_BITS (l % 64) t (l / 64))
        && !s.getBit F.TILE_BANK_PEND_BITS (l % 64) t (l / 64))).length

/-- Cells of middle memory (R177, R683). -/
def State.midPool (s : State) (m : Nat) : Nat := 6144 - 256 * s.banksOut m (if m < 64 then 64 else 32) 24

/-- Cells of output memory (R178, R683). -/
def State.outPool (s : State) (t : Nat) : Nat := 2048 - 256 * s.banksOut t (if t < 64 then 88 else 56) 8

/-- The dynamic threshold of R174 for code `k`: `n` more cells for a queue that holds `q` shared cells of a part of size
`size` with `used` in use. -/
def admits (k size used q n : Nat) : Bool := decide ((q + n) * 64 ≤ 2 ^ k * (size - used) ∧ used + n ≤ size)

/-- The shared part of middle memory, and its use (R177). -/
def State.midShared (s : State) (m : Nat) : Nat := s.midPool m - 1152 * s.get F.BUF_CTL_MID_MIN m
def State.midSharedUsed (s : State) (m : Nat) : Nat :=
  ((s.tile m).mid.map fun e => e.2.length - s.get F.BUF_CTL_MID_MIN m).sum

/-- The admission map bit of a middle for (output tile, VC) and a service level (R168, R177). -/
def State.midAdmits (s : State) (m out vc sl : Nat) : Bool :=
  let q := (s.midQueue m out vc).length
  let mn := s.get F.BUF_CTL_MID_MIN m
  decide (q < mn) || admits (bits (s.get F.BUF_ALPHA_MID m) (4 * sl) 4) (s.midShared m) (s.midSharedUsed m) (q - mn) 1

/-! ### Output memory (R178) -/

/-- A port of a fabric tile is enabled; an engine always is. -/
def State.outEnabled (s : State) (t p : Nat) : Bool := decide (64 ≤ t) || s.flag F.PORT_CTL_EN p

/-- The guaranteed cells of a VC of a port. -/
def State.outMin (s : State) (t p vc : Nat) : Nat :=
  if isEscVc vc then s.get F.BUF_PORT_MIN_ESC t (slotIn t p) else s.get F.BUF_PORT_MIN_OTHER t (slotIn t p)

/-- The sum of the minima of a tile's enabled ports (R178, R179). -/
def State.outMins (s : State) (t : Nat) : Nat :=
  (((portsOf t).filter (s.outEnabled t)).map fun p =>
    4 * s.get F.BUF_PORT_MIN_ESC t (slotIn t p) + 12 * s.get F.BUF_PORT_MIN_OTHER t (slotIn t p)).sum

/-- Cells of a VC of a port held or reserved. -/
def State.outHeld (s : State) (t p vc : Nat) : Nat :=
  let f := fun (r : Resv) => if r.stg || r.vc != vc then 0 else ((r.members.filter (·.port == p)).map Member.left).sum
  let missed := if t < 64 then 0 else (((s.engPackets p).filter fun q => s.vcFor q false == vc).map Packet.ncells).sum
  ((s.tile t).resv.map f).sum + ((s.tile t).tx.map f).sum + missed

/-- Cells of the shared part in use: BUF_STAT.OUT_SHARED_USED. -/
def State.outSharedUsed (s : State) (t : Nat) : Nat :=
  ((portsOf t).map fun p => ((List.range 16).map fun vc => s.outHeld t p vc - s.outMin t p vc).sum).sum

/-- R174 admits what a request needs beyond the minimum of its VC (R178). -/
def State.outAdmits (s : State) (t p vc sl n : Nat) : Bool :=
  let h := s.outHeld t p vc
  let mn := s.outMin t p vc
  let need := n - (mn - h)
  need == 0 || admits (bits (s.get F.BUF_ALPHA_OUT t) (4 * sl) 4) (s.outPool t - s.outMins t) (s.outSharedUsed t) (h - mn) need

/-- The quota rule of R178. -/
def State.quotaAdmits (s : State) (t p n : Nat) : Bool :=
  decide (s.occ t p + n ≤ s.get F.BUF_PORT_QUOTA t (slotIn t p))

/-- Cells of a packet in input memory: those not yet gone into the core. -/
def Held.cellsIn (h : Held) : Nat := match h.phase with
  | .granted _ k => if h.mc.length ≤ 1 then h.got - k else h.got
  | _ => h.got

/-- Cells of an engine's VC in the input memory of its tile. -/
def State.engIn (s : State) (t e vc : Nat) : Nat :=
  (((s.tile t).held.filter fun h => h.inPort == e && h.inVc == vc).map Held.cellsIn).sum

/-- The guaranteed cells of a source in the input memory of an engine tile: an engine has ENG_MIN for each VC, the management endpoint
none (R176). -/
def State.engInMin (s : State) (t e : Nat) : Nat := if (portsOf t).contains e then s.get F.BUF_IN_ENG_MIN t else 0

/-- The shared part of an engine tile's input memory, and its use by the engines and by the management endpoint (R176). -/
def State.engInPool (s : State) (t : Nat) : Nat := 8192 - 256 * s.banksOut t 0 32 - 64 * s.get F.BUF_IN_ENG_MIN t
def State.engInUsed (s : State) (t : Nat) : Nat :=
  ((portsOf t ++ [0x3FF]).map fun e => ((List.range 16).map fun vc => s.engIn t e vc - s.engInMin t e).sum).sum

/-- Some port is over its quota, or a shared part holds more than its size (R180). -/
def State.overQuota (s : State) (t : Nat) : Bool :=
  (portsOf t).any (fun p => decide (s.get F.BUF_PORT_QUOTA t (slotIn t p) < s.occ t p))
    || decide (s.midShared t < s.midSharedUsed t) || decide (s.outPool t - s.outMins t < s.outSharedUsed t)
    || (decide (64 ≤ t) && decide (s.engInPool t < s.engInUsed t))

/-- BUF_STAT.OVER_QUOTA brought up to date, with the event on a rise (R180). -/
def State.checkQuota (s : State) (t : Nat) : State :=
  let o := s.overQuota t
  let s' := s.setFlag F.BUF_STAT_OVER_QUOTA o t
  if o && !s.flag F.BUF_STAT_OVER_QUOTA t then s'.raise E.BUF_OVER_QUOTA t else s'

/-- OUT_OVERCOMMIT where the minima do not fit or fail their floor (R179). -/
def State.checkOvercommit (s : State) (t : Nat) : State :=
  s.raiseIf (decide (s.outPool t < s.outMins t) || s.get F.BUF_CTL_MID_MIN t == 0
    || ((portsOf t).filter (s.outEnabled t)).any fun p => decide (s.get F.BUF_PORT_MIN_ESC t (slotIn t p) < 17)) E.BUF_OUT_OVERCOMMIT t

/-! ### Packets in input memory -/

/-- Two packets stand in the same queue: unicast or multicast, output tile, port and VC. -/
def Held.sameQueue (a b : Held) : Bool :=
  (a.mc.isEmpty == b.mc.isEmpty) && a.out == b.out && a.port == b.port && a.vc == b.vc

/-- A packet stands in its queue and has no grant. -/
def Held.queued (h : Held) : Bool := match h.phase with
  | .waiting => true
  | .requested => true
  | _ => false

/-- The queue head by (multicast, output tile, port, VC). -/
def Tile.head (x : Tile) (mc : Bool) (out port vc : Nat) : Option Held :=
  x.held.find? fun h => h.queued && h.mc.isEmpty == !mc && h.out == out && h.port == port && h.vc == vc

/-- A packet of input memory by its number. -/
def Tile.byId (x : Tile) (id : Nat) : Option Held := x.held.find? (·.id == id)

/-- A packet's record changed. -/
def State.modHeld (s : State) (t id : Nat) (f : Held → Held) : State :=
  s.modTile t fun x => { x with held := updWhere (·.id == id) f x.held }

/-- The head of a packet's queue starts to wait there now. -/
def State.restamp (s : State) (t : Nat) (h : Held) : State :=
  match (s.tile t).held.find? (fun g => g.queued && g.sameQueue h) with
  | some g => s.modHeld t g.id fun x => { x with since := s.now }
  | none => s

/-- The requests of a packet withdrawn at every output. -/
def State.cancelReq (s : State) (t id : Nat) : State :=
  s.each (List.range 72) fun s o =>
    if (s.tile o).reqs.any (fun q => q.inTile == t && q.id == id)
    then s.modTile o fun x => { x with reqs := x.reqs.filter fun q => !(q.inTile == t && q.id == id) } else s

/-- A packet taken out of input memory; the next of its queue moves to the head. -/
def State.removeHeld (s : State) (t id : Nat) : State :=
  match (s.tile t).byId id with
  | some h =>
    let wasHead := (s.tile t).held.find? (fun g => g.queued && g.sameQueue h) == some h
    let s := (s.cancelReq t id).modTile t fun x => { x with held := x.held.filter (·.id != id) }
    if wasHead then s.restamp t h else s
  | none => s

/-- A packet placed at the tail of its queue. -/
def State.enqueue (s : State) (t : Nat) (h : Held) : State :=
  s.modTile t fun x => { x with held := x.held ++ [{ h with since := s.now }] }

/-- The inPort of a tile's packet as a port, for the rules about the port of entry. -/
def entryPort (t inPort : Nat) : Option Nat := if t < 64 then some inPort else none

/-- A packet of tile `t` dropped, given its decision's count. -/
def State.countDrop (s : State) (t cls : Nat) : Decision → State
  | .noroute => s.dropNoroute t
  | .fenceEg => s.dropFenceEg t
  | .mcBad => s.dropMcBad t
  | .flush p => s.dropFlush p cls
  | .compat p => s.dropCompat p
  | _ => s

/-- Counts of a routed packet (Table 7.3), its NM counted as the decision sets it (R241), and the start position's advance (R214). DESIGN
CHOICE: log entries 160 and 162. -/
def State.routed (s : State) (t : Nat) (old new : Packet) : State :=
  let s := s.modTile t fun x => { x with start := x.start + 1 }
  let s := s.count 14 t 0x40
  let s := if old.rmode = 1 then s.count 14 t 0x43 else s
  if new.nm && !old.nm then (s.inc F.RTE_CNT_C_NONMIN t).count 14 t 0x41 else s

/-- A management packet is a response (Table 16.6). -/
def isResponse (q : Packet) : Bool := bits q.w2 0 8 == 6

/-- Requests queued at the management endpoint: MGT_STAT.QUEUE. -/
def State.mgtQueue (s : State) : Nat := (s.core.mgtRx.filter fun x => !isResponse x.1).length

/-- A request discarded by the management endpoint (R615, R616). -/
def State.mgtDiscard (s : State) : State := ((s.inc F.MGT_CNT_DISCARD).raise E.MGT_DISCARD).count 5 0 0x43

/-- A packet delivered to the management endpoint: discarded when 64 requests are queued (R615); a block fenced by Degrade
discards every arrival (R765). -/
def State.mgtArrive (s : State) (q : Packet) (p : Nat) : State :=
  if s.flt.blockFence.contains 5 then s
  else if !isResponse q && decide (64 ≤ s.mgtQueue) then s.mgtDiscard
  else { s with core := { s.core with mgtRx := s.core.mgtRx ++ [(q, p)] } }

/-- A packet placed where its decision says: in a queue, in the hold, at the management endpoint, or dropped. The start position advances for
the first alone. DESIGN CHOICE: log entry 160. -/
def State.place (s : State) (t : Nat) (h : Held) (d : Decision) : State :=
  let esc := match s.entryOf t h.pkt with
    | some e => e.esc
    | none => none
  match d with
  | .toPort p vc q =>
    (s.routed t h.pkt q).enqueue t { h with pkt := q, out := tileOf p, port := p, vc := vc, cands := [], esc := esc, phase := .waiting }
  | .toEng e vc q =>
    (s.routed t h.pkt q).enqueue t { h with pkt := q, out := tileOfEng e, port := e, vc := vc, cands := [], esc := none, phase := .waiting }
  | .park l q => s.enqueue t { h with pkt := q, cands := l, esc := esc, phase := .parked }
  | .replicate [] _ => s
  | .replicate (o :: l) vc =>
    (s.routed t h.pkt h.pkt).enqueue t { h with out := o, port := 0, vc := vc, cands := [], esc := none, phase := .waiting, mc := o :: l }
  | .toMgt q => s.mgtArrive q h.inPort
  | d => s.countDrop t h.pkt.cls d

/-- The levels of a GOSSIP packet applied: slot k in bits [4k+3:4k] of words 4 to 7 (R212). -/
def State.applyGossip (s : State) (p : Nat) (q : Packet) : State :=
  let s := (s.each (List.range 64) fun s k =>
    s.learn p k (bits ([q.w4, q.w5, q.w6, q.w7].getD (k / 16) 0) (4 * (k % 16)) 4))
  s.count 14 (tileOf p) 0x47

/-- A packet entering an input tile: the drops of R184, R206, R235, then the lookup (R166, R209). At an engine tile the first cell is
handed over now: the birth stamp is taken (R38), and TU (R60). -/
def State.arrive (s : State) (t : Nat) (f : Fresh) : State :=
  let f := if t < 64 then f else { f with pkt := { f.pkt with birth := s.stamp, tu := s.isUnsure } }
  let q := if t < 64 then { f.pkt with hops := f.pkt.hops + 1 } else f.pkt
  let h : Held := ⟨f.id, q, f.inPort, f.inVc, f.got, 0, 0, 0, 0, [], none, .waiting, []⟩
  if t < 64 ∧ f.pkt.isGossip then s.applyGossip f.inPort f.pkt
  else if s.tooOld f.pkt then s.dropAge t f.pkt.cls
  else if t < 64 ∧ s.get F.RTE_CTL_HOP_MAX t ≤ f.pkt.hops then s.dropHop t
  else if s.ingressFenced t f.inPort f.pkt then s.dropFenceIn t
  else s.place t h (s.route t q (entryPort t f.inPort))

/-- A number for a packet that no link presented. -/
def State.fresh (s : State) (pkt : Packet) (inPort : Nat) : Fresh := ⟨s.core.nextId, pkt, inPort, vcOf pkt.cls 0, pkt.ncells, none, .nothing⟩

/-- Room in the input memory of an engine tile for `n` cells of an engine's VC: what is left of its guaranteed cells, and of the rest
(R176, R180). DESIGN CHOICE: log entry 84. -/
def State.engRoom (s : State) (t e vc n : Nat) : Bool :=
  let need := n - (s.engInMin t e - s.engIn t e vc)
  need == 0 || decide (s.engInUsed t + need ≤ s.engInPool t)

/-- The register key of SHP_TOK. -/
def tokKey (t j : Nat) : Nat := F.SHP_TOK_TOK.key t j 0

/-- The level of a bucket in 1/256 byte; BURST after reset (R255). -/
def State.tok (s : State) (t j : Nat) : Int :=
  signedOf (Tab.get (s.get F.SHP_RATE_BURST t j * 256) s.rf.regs (tokKey t j)) 40

/-- A bucket set. -/
def State.setTok (s : State) (t j : Nat) (v : Int) : State := s.set F.SHP_TOK_TOK (ofSigned v 40) t j

/-- Bit `g` of SCH_GRP, device-wide state kept in the page of tile 0 (R252). -/
def State.grpEn (s : State) (g : Nat) : Bool := s.getBit F.SCH_GRP_EN (g % 64) 0 (g / 64)

/-- A shaper is in force (R252). -/
def State.shaperOn (s : State) (t j : Nat) : Bool := s.flag F.SHP_CFG_EN t j && s.grpEn (s.get F.SHP_CFG_GROUP t j)

/-- A shaper lets a packet start (R244, R256). -/
def State.shaperOk (s : State) (t j : Nat) : Bool := !s.shaperOn t j || decide (0 < s.tok t j)

/-- A packet of `n` cells charged to a shaper in force (R253). -/
def State.charge (s : State) (t j n : Nat) : State :=
  if s.shaperOn t j then s.setTok t j (s.tok t j - (n * (272 + s.get F.SHP_CFG_OVERHEAD t j) * 256 : Nat)) else s

/-- The rate of a destination in 0.125 Gb/s. -/
def State.rateTo (s : State) (e dest : Nat) : Nat := match (s.eng e).cc.find? (·.dest == dest) with
  | some x => x.rate
  | none => s.get F.RMA_CC_RATE_LINE e

/-- The packet of an engine is spaced as it is handed over: responses and class COL, since operations are spaced as they are formed (R380).
DEDUCED: log entry 94. -/
def pacedHere (inPort : Nat) (q : Packet) : Bool := decide (inPort < 32) && (q.cls == 1 || q.cls == 2)

/-- The destination's next packet of an engine may go `bytes` later at its rate (R380). -/
def State.space (s : State) (e dest bytes : Nat) : State :=
  s.modEng e fun x => { x with pace := x.pace.insert dest (s.now + bytes * 64 * unitsPerNs / max 1 (s.rateTo e dest)) }

/-- What stalls the injection of an engine's packet: no identity (R202), the class shaper (R256), the rate of the destination (R380). -/
def State.engMute (s : State) (f : Fresh) : Bool :=
  (decide (f.inPort < 32) && !s.devSelf.2.2)
    || f.shp.any (fun c => !s.shaperOk (tileOfEng f.inPort) (16 * (f.inPort % 4) + c))
    || (pacedHere f.inPort f.pkt && decide (s.now < Tab.get 0 (s.eng f.inPort).pace f.pkt.dst))

/-- An engine's packet charged as its first cell reaches the tile (R253, R256, R380). -/
def State.engCharge (s : State) (f : Fresh) : State :=
  let s := match f.shp with
    | some c => s.charge (tileOfEng f.inPort) (16 * (f.inPort % 4) + c) f.pkt.ncells
    | none => s
  if pacedHere f.inPort f.pkt then s.space f.inPort f.pkt.dst (272 * f.pkt.ncells) else s

/-- The packet that PACKET_ARRIVAL names: the one presented, else a packet with a new number, taken as present whole; and the state
without it. DEDUCED: log entry 76. -/
def State.presented (s : State) (t inPort : Nat) (pkt : Packet) : Fresh × State :=
  match (s.tile t).fresh.find? (fun f => f.pkt == pkt && f.inPort == inPort) with
  | some f => (f, s.modTile t fun x => { x with fresh := x.fresh.filter (·.id != f.id) })
  | none => (s.fresh pkt inPort, { s with core := { s.core with nextId := s.core.nextId + 1 } })

/-! ### Reservations (R167, R178, R193, R195) -/

/-- RESERVATION_REQUEST (R167): the head of a queue of input tile `t` sends its request, one unanswered per queue. -/
def execReservationRequest (t out : Fin 72) (port : Fin 1024) (vc : Fin 16) (mc : Bool) (s : State) :
    Host.Outcome State Fault Refusal :=
  match (s.tile t).head mc out port vc with
  | some h =>
    if h.phase = .waiting then
      let s := s.modHeld t h.id fun x => { x with phase := .requested }
      .next (s.modTile out fun x => { x with reqs := x.reqs ++ [⟨t, h.id, mc, port, vc, h.pkt.sl, h.pkt.ncells, h.pkt.cls, h.pkt.birth⟩] })
    else .next s
  | none => .next s

/-- The members of a multicast copy at an output tile, but for the port of entry (R194). -/
def State.mcMembers (s : State) (out inTile inPort : Nat) (pkt : Packet) : List Nat :=
  let w := s.bankWord pkt.bank (mcLocalAddr out (bits pkt.dst 0 12))
  let l := (portsOf out).filter fun p => bit w (slotIn out p)
  l.filter fun p => !(p == inPort && decide (inTile < 64) == decide (out < 64))

/-- A member of a multicast copy is fenced (R195). -/
def State.memberFenced (s : State) (out p : Nat) (pkt : Packet) : Bool :=
  if out < 64 then s.egressFenced p pkt else s.engDenied p pkt

/-- A branch pruned at an output tile: counted, raised, and reported to the unit that the entry names (R195). -/
def State.prune (s : State) (out p : Nat) (pkt : Packet) : State :=
  let g := bits pkt.dst 0 12
  let w := s.bankWord pkt.bank (mcLocalAddr out g)
  let s := ((s.inc F.BUF_CNT_B_MC_PRUNE out).count 13 out 0x46).raise E.BUF_MC_PRUNE out
  if bit w 16 then { s with core := { s.core with prunes := s.core.prunes ++ [(bits w 17 3, g, p, out)] } } else s

/-- The members that a request needs room for (R178, R195). -/
def State.reqMembers (s : State) (out : Nat) (q : ResReq) (pkt : Packet) (inPort : Nat) : List Nat :=
  if q.mc then (s.mcMembers out q.inTile inPort pkt).filter (fun p => !s.memberFenced out p pkt) else [q.port]

/-- A response bound for an engine waits in reassembly staging, outside output memory (R337). DEDUCED: log entry 82. -/
def toStaging (out : Nat) (pkt : Packet) : Bool := decide (64 ≤ out) && pkt.cls == 1

/-- GET_DATA of a live GET segment of the current attempt (R338). -/
def State.liveGetData (s : State) (e : Nat) (q : Packet) : Bool :=
  let poff := bits q.w5 0 32
  s.ops.any fun o => o.1 == e * 2048 + bits q.w3 0 11 && o.2.gen == bits q.w3 11 21 && o.2.attempt == bits q.w2 48 4
    && o.2.segs.any fun g => decide (g.poff ≤ poff ∧ poff < g.poff + g.len) && !g.got.contains poff

/-- RSP data that are granted against the spare of an engine tile (R338). -/
def State.toSpare (s : State) (out : Nat) (q : Packet) : Bool :=
  toStaging out q && bits q.w2 40 8 == 0x44 && !s.liveGetData (engineOf q.dst) q

/-- Data cells of staging that the quotas of an engine tile leave over (R337, R339, R684), and those in use. -/
def State.spareCells (s : State) (t : Nat) : Nat :=
  4096 - 256 * s.banksOut t 80 16 - ((portsOf t).map fun e => s.get F.RMA_STG_QUOTA e).sum
def State.spareUsed (s : State) (t : Nat) : Nat :=
  ((((s.tile t).resv ++ (s.tile t).tx).filter (·.spare)).map Resv.n).sum

/-- RSP data dropped at their grant, the spare being full (R338). -/
def State.spareDrop (s : State) (q : ResReq) (e : Nat) : State :=
  ((s.removeHeld q.inTile q.id).inc F.RMA_CNT_B_SPARE_DROP e).raise E.RMA_SPARE_DROP e

/-- The oldest request of an output for (multicast, port, VC). -/
def Tile.oldestReq (x : Tile) (mc : Bool) (port vc : Nat) : Option ResReq :=
  x.reqs.find? fun q => q.mc == mc && q.port == port && q.vc == vc

/-- A request removed. -/
def State.dropReq (s : State) (out : Nat) (q : ResReq) : State := s.modTile out fun x => { x with reqs := x.reqs.erase q }

/-- A RES_ID stands for a reservation or a packet of an output tile. -/
def Tile.resUsed (x : Tile) (res : Nat) : Bool := x.resv.any (·.res == res) || x.tx.any (·.res == res)

/-- The first RES_ID from `res` on that is free; one of `fuel + 1` is, where at most `fuel` are in use (R167). -/
def Tile.freeRes (x : Tile) (res : Nat) : Nat → Nat
  | 0 => res
  | fuel + 1 => if x.resUsed res then Tile.freeRes x ((res + 1) % 2 ^ 16) fuel else res

/-- The RES_ID that an output tile gives next. -/
def Tile.newRes (x : Tile) : Nat := x.freeRes x.nextRes (x.resv.length + x.tx.length)

/-- The grant of a request: a RES_ID for all its cells. The granted packets of input memory stand behind the others, in grant order. -/
def State.grant (s : State) (out : Nat) (q : ResReq) (h : Held) (members : List Nat) : State :=
  let res := (s.tile out).newRes
  let r : Resv :=
    { res := res, inTile := q.inTile, id := q.id, mc := q.mc, vc := q.vc, n := q.n, cells := [], since := s.now, rel := 0, pkt := h.pkt,
      inPort := h.inPort, members := members.map (⟨·, q.n⟩), stg := toStaging out h.pkt, spare := s.toSpare out h.pkt, dead := false, relMt := 0 }
  let s := s.modTile out fun x => { x with reqs := x.reqs.erase q, resv := x.resv ++ [r], nextRes := (res + 1) % 2 ^ 16 }
  let s := s.modTile q.inTile fun x => { x with held := x.held.filter (·.id != q.id) ++ [{ h with phase := .granted res 0 }] }
  (s.restamp q.inTile h).count 13 out 0x41

/-- RESERVATION_GRANT (R167, R178, R184): the oldest request of an output's (port, VC) is granted when output memory admits
all its cells; a packet found expired as its grant arrives is dropped and the reservation returned. -/
def execReservationGrant (out : Fin 72) (port : Fin 1024) (vc : Fin 16) (mc : Bool) (s : State) :
    Host.Outcome State Fault Refusal :=
  match (s.tile out).oldestReq mc port vc with
  | none => .next s
  | some q =>
    match (s.tile q.inTile).byId q.id with
    | none => .next (s.dropReq out q)
    | some h =>
      let members := s.reqMembers out q h.pkt h.inPort
      let free := toStaging out h.pkt
      let old := s.asBefore
      if free || members.all (fun p => old.outAdmits out p q.vc q.sl q.n && old.quotaAdmits out p q.n) then
        if s.tooOld h.pkt then .next ((s.removeHeld q.inTile q.id).dropAge q.inTile h.pkt.cls)
        else if s.toSpare out h.pkt && decide (s.spareCells out < s.spareUsed out + q.n) then .next (s.spareDrop q q.port)
        else
          let s := if q.mc then s.each ((s.mcMembers out q.inTile h.inPort h.pkt).filter fun p => s.memberFenced out p h.pkt)
            (fun s p => s.prune out p h.pkt) else s
          .next ((s.grant out q h members).checkQuota out)
      else if members.any (fun p => !old.outAdmits out p q.vc q.sl q.n) then .next (s.count 13 out 0x47)
      else .next s

/-! ### The cyclic pattern (R163 to R169) -/

/-- What an input tile may send: the cell, and the packet (none for an ABORT cell). -/
structure Ready where
  cell : Cell
  id : Option Nat
deriving DecidableEq, Repr

/-- The header of a cell of a granted packet (R165, Table 5.1); an ABORT cell carries no payload (R173). -/
def Held.cell (h : Held) (t res idx : Nat) (abort : Bool) : Cell :=
  { srcTile := t, dstTile := h.out, outPort := if h.mc.isEmpty then h.port else 0, vc := h.vc, sl := h.pkt.sl, ord := h.pkt.ord, idx := idx,
    ncells := h.pkt.ncells, mc := !h.mc.isEmpty, ep := h.pkt.ep, abort := abort, res := res, inPort := h.inPort, tu := h.pkt.tu,
    cls := h.pkt.cls, birth := h.pkt.birth }

/-- The two header words of a cell (Table 5.1). -/
def Cell.words (c : Cell) : List Nat :=
  [field c.srcTile 0 7 + field c.dstTile 7 7 + field c.outPort 14 10 + field c.vc 24 4 + field c.sl 28 3 + field (b2n c.ord) 31 1
      + field c.idx 32 5 + field c.ncells 37 5 + field (b2n c.mc) 42 1 + field (b2n c.ep) 43 1 + field (b2n c.abort) 44 1 + field c.res 48 16,
    field c.inPort 0 10 + field (b2n c.tu) 10 1 + field c.cls 12 2 + field c.birth 16 32]

/-- The queue of a middle that a cell takes. -/
def Cell.key (c : Cell) : Nat := c.dstTile * 16 + c.vc

/-- The cell a granted packet of tile `t` sends next, when it is present (R168). -/
def Held.ready (t : Nat) (h : Held) : Option Ready := match h.phase with
  | .granted res sent => if sent < h.got then some ⟨h.cell t res sent false, some h.id⟩ else none
  | _ => none

/-- A packet holds a grant. -/
def Held.isGranted (h : Held) : Bool := match h.phase with
  | .granted _ _ => true
  | _ => false

/-- The packets of an input tile that may send: of each (output tile, VC), the one granted first, granted packets standing in grant order
(R168). -/
def Tile.firstGranted (x : Tile) : List Held :=
  x.held.filter fun h => h.isGranted && (x.held.find? fun k => k.isGranted && k.out == h.out && k.vc == h.vc).any (·.id == h.id)

/-- Everything input tile `t` may send now. -/
def Tile.readyCells (x : Tile) (t : Nat) : List Ready := x.abortCells.map (⟨·, none⟩) ++ x.firstGranted.filterMap (Held.ready t)

/-- The input's choice: round robin over output tiles, and over the VCs of the one chosen, among what the middle admits (R168). -/
def State.inputChoice (s : State) (i m : Nat) : Option Ready :=
  let x := s.tile i
  let l := (x.readyCells i).filter fun r => s.midAdmits m r.cell.dstTile r.cell.vc r.cell.sl
  argMin (fun r => (r.cell.dstTile + 72 - x.rrIn) % 72 * 16 + (r.cell.vc + 16 - Tab.get 0 x.rrInVc r.cell.dstTile) % 16) l

/-- A packet of an input tile after one more of its cells has entered the core: the next copy, or gone (R168, R193); each copy made is
counted at the input tile (Table 7.3). DEDUCED: log entry 29. DEDUCED: log entry 81. -/
def State.cellSent (s : State) (i id : Nat) : State :=
  match (s.tile i).byId id with
  | none => s
  | some h =>
    match h.phase with
    | .granted res sent =>
      if sent + 1 < h.pkt.ncells then s.modHeld i id fun x => { x with phase := .granted res (sent + 1) }
      else
        let s := s.modTile h.out fun x => { x with resv := updWhere (fun r => r.res == res && r.id == id) (fun r => { r with pkt := h.pkt }) x.resv }
        let s := if h.mc.isEmpty then s else s.count 13 i 0x45
        match h.mc with
        | _ :: o :: l =>
          (s.modTile i fun x => { x with held := x.held.filter (·.id != id) }).enqueue i { h with out := o, phase := .waiting, mc := o :: l }
        | _ => s.modTile i fun x => { x with held := x.held.filter (·.id != id) }
    | _ => s

/-- A cell placed in a middle queue, with the peak of BUF_MID_OCC. -/
def State.pushMid (s : State) (m key : Nat) (c : Cell) : State :=
  let s := s.modTile m fun x => { x with mid := Tab.modify [] x.mid key (· ++ [c]) }
  let s := s.raisePeak F.BUF_MID_OCC_PEAK (s.midUsed m) m
  s.count 13 m 0x40

/-- Stage one of a slot at middle `m`, met by input `i` (R168). -/
def State.stageOne (s : State) (i m : Nat) (c : Option Ready) : State :=
  match c with
  | none => s.count 12 i 0x42
  | some r =>
    let o := r.cell.dstTile
    let s := s.modTile i fun x => { x with rrIn := (o + 1) % 72, rrInVc := Tab.insert x.rrInVc o ((r.cell.vc + 1) % 16) }
    let s := (s.pushMid m r.cell.key r.cell).count 12 i 0x40
    match r.id with
    | some id => s.cellSent i id
    | none => s.modTile i fun x => { x with abortCells := x.abortCells.erase r.cell }

/-- The VC a middle serves for an output: round robin over its non-empty queues (R169). -/
def State.midChoice (s : State) (m out : Nat) : Option Nat :=
  let rr := Tab.get 0 (s.tile m).rrMid out
  argMin (fun vc => (vc + 16 - rr) % 16) ((List.range 16).filter fun vc => !(s.midQueue m out vc).isEmpty)

/-- A cell arriving at its output tile: placed by RES_ID and CIDX, or an abort of the reservation; a cell of no reservation is
discarded (R170, R172, R173). -/
def State.placeCell (s : State) (out : Nat) (c : Cell) : State :=
  s.modTile out fun x =>
    if c.abort then { x with resv := x.resv.filter (·.res != c.res) }
    else { x with resv := updWhere (fun r => r.res == c.res && !r.cells.contains c.idx) (fun r => { r with cells := r.cells ++ [c.idx] }) x.resv }

/-- Stage two of a slot: middle `m` sends the head of one queue to output `out` (R169). -/
def State.stageTwo (s : State) (m out : Nat) : State :=
  match s.midChoice m out with
  | none => s
  | some vc =>
    match s.midQueue m out vc with
    | [] => s
    | c :: l =>
      let s := s.modTile m fun x => { x with mid := if l.isEmpty then Tab.erase x.mid (out * 16 + vc) else Tab.insert x.mid (out * 16 + vc) l,
                                             rrMid := Tab.insert x.rrMid out ((vc + 1) % 16) }
      (s.placeCell out c).count 12 m 0x41

/-- One slot at middle `m`: the input chooses on the map of the slot's start, then stage two sends, then the cell of stage one
enters, so that no cell passes both stages in one slot (R163, R168, R169, R187). -/
def State.slotAt (s : State) (t m : Nat) : State :=
  let i := (m + 72 - t % 72) % 72
  let out := (m + t) % 72
  let c := if s.asBefore.midOut m then none else s.asBefore.inputChoice i m
  let s := if s.midSkipped m then s else s.stageTwo m out
  s.stageOne i m c

/-- One slot of the pattern at every middle; the slot number advances (R163). DESIGN CHOICE: log entry 12. -/
def State.coreSlot (s : State) : State :=
  let s := s.each (List.range 72) fun s m => s.slotAt s.core.slot m
  { s with core := { s.core with slot := s.core.slot + 1 } }

/-- The slot that comes next starts a period (R163). -/
def State.boundary (s : State) : Bool := s.core.slot % 72 == 0

/-! ### Completion (R170) -/

/-- An ordered packet granted earlier for the same (input tile, port, VC) is still unreleased (R170). -/
def Tile.ordBlocked (x : Tile) (r : Resv) : Bool :=
  r.pkt.ord && (x.resv.takeWhile (·.res != r.res)).any fun e =>
    e.pkt.ord && e.inTile == r.inTile && e.vc == r.vc && e.members.any fun m => r.members.any (·.port == m.port)

/-- A member that a COL packet or a directed route may not take: a compatibility port (R155, R207). DEDUCED: log entry 137. -/
def State.compatBars (s : State) (t : Nat) (r : Resv) (m : Member) : Bool :=
  decide (t < 64) && (r.pkt.cls == 2 || r.pkt.rmode == 2) && s.get F.LNK_STAT_MODE m.port == 2

/-- A complete packet is dropped for a member: flushing (R106), fenced (R238), pruned (R195), or on a compatibility port (R155). -/
def State.memberLost (s : State) (t : Nat) (r : Resv) (m : Member) : Bool :=
  (decide (t < 64) && s.flushes m.port) || s.memberFenced t m.port r.pkt || s.compatBars t r m

/-- A member that a complete packet leaves by, or why it does not. -/
def State.releaseMember (s : State) (t : Nat) (r : Resv) (acc : List Member) (m : Member) : State × List Member :=
  if t < 64 ∧ s.flushes m.port then (s.dropFlush m.port r.pkt.cls, acc)
  else if s.memberFenced t m.port r.pkt then (if r.mc then s.prune t m.port r.pkt else s.dropFenceEg t, acc)
  else if s.compatBars t r m then (s.dropCompat m.port, acc)
  else (s, acc ++ [m])

/-- The members of a complete packet taken one by one. -/
def State.releaseAll (s : State) (t : Nat) (r : Resv) : List Member → List Member → State × List Member
  | [], acc => (s, acc)
  | m :: l, acc => let (s, acc) := s.releaseMember t r acc m; State.releaseAll s t r l acc

/-- A packet released to the transmit queues of its ports or engines (R170, R243); an age drop comes before every other (R186). -/
def State.release (s : State) (t : Nat) (r : Resv) : State :=
  let s := s.modTile t fun x => { x with resv := x.resv.filter (·.res != r.res) }
  if s.tooOld r.pkt && r.members.any (s.memberLost t r) then s.dropAge t r.pkt.cls
  else
  let (s, l) := s.releaseAll t r r.members []
  let busy := fun (v : VcSt) => { v with idleSince := none, released := false }
  let s := if t < 64 then s.each l (fun s m => s.modLink m.port fun x => { x with vcs := x.vcs.modify r.vc busy }) else s
  if l.isEmpty then s else s.modTile t fun x => { x with tx := x.tx ++ [{ r with members := l, rel := s.now, relMt := s.mtNs }] }

/-- PACKET_COMPLETE (R170): all cells of the packet with this RES_ID are present, and its release is not held by ORD. -/
def execPacketComplete (t : Fin 72) (res : Fin 65536) (s : State) : Host.Outcome State Fault Refusal :=
  match (s.tile t).resv.find? (·.res == res.val) with
  | some r => if r.cells.length = r.n && !(s.tile t).ordBlocked r then .next ((s.release t r).checkQuota t) else .next s
  | none => .next s

/-- REASM_TIMEOUT (R172): a packet incomplete for REASM_TO, counted from its grant, is dropped, unless it is dropped on age; one that its input
tile has dropped was counted there (R173, R186). DESIGN CHOICE: log entry 152. -/
def execReasmTimeout (t : Fin 72) (res : Fin 65536) (s : State) : Host.Outcome State Fault Refusal :=
  match (s.tile t).resv.find? (·.res == res.val) with
  | some r =>
    if r.cells.length < r.n && s.over r.since (64 * s.get F.CORE_CTL_REASM_TO) 64 then
      let u := s.modTile t fun x => { x with resv := x.resv.filter (·.res != r.res) }
      if r.dead then .next u
      else if s.tooOld r.pkt then .next (u.dropAge t r.pkt.cls)
      else .next (((u.inc F.BUF_CNT_A_REASM_DROP t).count 13 t 0x44).raise E.BUF_REASM_DROP t)
    else .next s
  | none => .next s

/-- A granted packet dropped by its input tile, with an ABORT cell to send; its reservation is marked (R173). -/
def State.dropSent (s : State) (t : Nat) (h : Held) (res : Nat) : State :=
  let s := s.modTile h.out fun x => { x with resv := updWhere (fun r => r.res == res && r.id == h.id) (fun r => { r with dead := true }) x.resv }
  s.modTile t fun x => { x with held := x.held.filter (·.id != h.id), abortCells := x.abortCells ++ [h.cell t res 0 true] }

/-- The input side of an abort: the request cancelled, or an ABORT cell to send; counted once at the input tile (R173). -/
def State.abortHeld (s : State) (t id : Nat) : State :=
  let s := s.inc F.BUF_CNT_A_ABORT t
  match (s.tile t).byId id with
  | none => s.modTile t fun x => { x with fresh := x.fresh.filter (·.id != id) }
  | some h =>
    match h.phase with
    | .granted res _ => s.dropSent t h res
    | _ => s.removeHeld t id

/-- PACKET_ABORT (R173): a packet that a link closed with an abort. -/
def execPacketAbort (t : Fin 72) (id : Nat) (s : State) : Host.Outcome State Fault Refusal :=
  if (s.tile t).aborts.contains id then
    .next ((s.modTile t fun x => { x with aborts := x.aborts.filter (· != id) }).abortHeld t id)
  else .next s

/-! ### The sweep (R184) -/

/-- Keys of the periodic processes in `State.marks`. -/
def markSweep (t : Nat) : Nat := 1000 + t

/-- Reservation `res` of output tile `o` stands. -/
def State.reserved (s : State) (o res : Nat) : Bool := (s.tile o).resv.any (·.res == res)

/-- The expired packets of input memory dropped. One with cells in the core ends with an ABORT cell; one whose reservation is gone was
counted at its output (R184, R186). DEDUCED: log entry 80. -/
def State.sweepIn (s : State) (t : Nat) : State :=
  let dead := (s.tile t).held.filter fun h => s.tooOld h.pkt
  s.each dead fun s h => match h.phase with
    | .granted res k =>
      if k ≠ 0 ∧ s.reserved h.out res then (s.dropSent t h res).dropAge t h.pkt.cls
      else
        let gone := !s.reserved h.out res
        let s := s.modTile t fun x => { x with held := x.held.filter (·.id != h.id) }
        if gone then s else (s.modTile h.out fun x => { x with resv := x.resv.filter (·.res != res) }).dropAge t h.pkt.cls
    | _ => (s.removeHeld t h.id).dropAge t h.pkt.cls

/-- No cell of a packet has left its output. -/
def Resv.unsent (r : Resv) : Bool := r.members.all (·.left == r.n)

/-- The expired requests in the miss buffer of an engine, whose cells lie in output memory, dropped (R184, R295). -/
def State.sweepMiss (s : State) (t e : Nat) : State :=
  let old := (s.eng e).miss.filter s.tooOld
  let s := s.modEng e fun x => { x with miss := x.miss.filter fun q => !s.tooOld q }
  s.each old fun s q => s.dropAge t q.cls

/-- The expired packets of output memory that have a cell there and have not begun to leave dropped; at an engine tile, those of the miss
buffers too (R184). -/
def State.sweepOut (s : State) (t : Nat) : State :=
  let old := ((s.tile t).resv ++ (s.tile t).tx).filter fun r => s.tooOld r.pkt && r.unsent && !r.cells.isEmpty && !r.dead
  let s := s.each old fun s r =>
    (s.modTile t fun x => { x with resv := x.resv.filter (·.res != r.res), tx := x.tx.filter (·.res != r.res) }).dropAge t r.pkt.cls
  if t < 64 then s else s.each (portsOf t) fun s e => s.sweepMiss t e

/-- AGE_SWEEP (R184): a visit of tile `t`, once in every 2^SWEEP_K ns. -/
def execAgeSweep (t : Fin 72) (s : State) : Host.Outcome State Fault Refusal :=
  let p := 2 ^ s.get F.CORE_CTL_SWEEP_K
  if s.due (markSweep t) p then .next ((((s.mark (markSweep t) p).sweepIn t).sweepOut t).checkQuota t) else .next s

/-! ### Fencing middles (R187 to R190) -/

/-- A middle that holds no cell. -/
def State.midEmpty (s : State) (m : Nat) : Bool := s.midUsed m == 0

/-- A fabric tile that R672 lets leave Run: its middle is skipped and every port is DISABLED (state 0). -/
def State.fabricQuiet (s : State) (t : Nat) : Bool := s.midSkipped t && (portsOf t).all fun p => s.get F.PORT_STAT_STATE p == 0

/-- Since when a fabric tile has met R672, kept up at each change of its middle or its ports (R674). -/
def State.noteQuiet (s : State) (t : Nat) : State :=
  if t < 64 then s.modTile t fun x => { x with quietSince := if s.fabricQuiet t then x.quietSince <|> some s.now else none } else s

/-- The exit of a tile from its rung begins (R674, R675). -/
def State.exitTile (s : State) (t : Nat) : State :=
  if s.get F.TILE_PWR_CUR t = 0 then s else s.modTile t fun x => { x with exitAt := x.exitAt <|> some s.now }

/-- A middle skipped in both stages: CORE_MID_STATE set and MID_FENCED raised (R187). -/
def State.skipMid (s : State) (m : Nat) : State :=
  let s := { s with core := { s.core with draining := s.core.draining.filter (· != m) } }
  ((s.setMidSkipped m true).raise E.CORE_MID_FENCED).noteQuiet m

/-- A middle newly fenced by a commit: it drains, or is skipped at once when its queues are empty (R187). -/
def State.startDrain (s : State) (m : Nat) : State :=
  if s.midEmpty m then s.skipMid m else { s with core := { s.core with draining := s.core.draining ++ [m] } }

/-- The captured shadow of a page put in force (R600): the fields of a WIN page are Almanac fields. -/
def State.applyCapture (s : State) (page : Nat) : State :=
  let l := Tab.get [] s.rf.capt page
  let ins := fun (r : Tab Nat) => l.foldl (fun r e => r.insert e.1 e.2) r
  if page / 1024 = 27 then { s with rf := { s.rf with alm := ins s.rf.alm, capt := Tab.erase s.rf.capt page } }
  else { s with rf := { s.rf with regs := ins s.rf.regs, capt := Tab.erase s.rf.capt page } }

/-- A page waits for a captured shadow to come into force: SHADOW_CTL.PEND. -/
def State.capturePending (s : State) (page : Nat) : Bool := s.rf.capt.any (·.1 == page)

/-- What keeps a middle fenced: its bit of CORE_MID_FENCE in force, its tile fenced whole, or its tile's rung (R190, R191, R672). DEDUCED: log entry 130. -/
def State.midKept (s : State) (m : Nat) : Bool := s.midFence m || s.flag F.TILE_FENCE_FULL m || s.get F.TILE_PWR_CUR m != 0

/-- MID_FENCE_EFFECT (R187, R188): at a period boundary the captured CORE shadow comes into force; middles newly fenced
start to drain, and a commit that would fence a ninth fences none of the new ones. Middles that return at this boundary do not count. -/
def execMidFenceEffect (s : State) : Host.Outcome State Fault Refusal :=
  if s.boundary && s.capturePending (pageNo 16 0) then
    let u := s.applyCapture (pageNo 16 0)
    let new := (List.range 72).filter fun m => u.midFence m && !s.midFence m && !s.midOut m
    let u := u.each ((List.range 64).filter fun m => s.midFence m && !u.midFence m && s.get F.TILE_PWR_RUNG m == 0) State.exitTile
    if (s.midsOut.filter u.midKept).length + new.length ≤ 8 then .next (u.each new State.startDrain)
    else .next (u.raise E.CORE_FENCE_REJ)
  else .next s

/-- MID_DRAIN_DONE (R187): at a period boundary a draining middle with empty queues is skipped. -/
def execMidDrainDone (m : Fin 72) (s : State) : Host.Outcome State Fault Refusal :=
  if s.boundary && s.core.draining.contains m.val && s.midEmpty m then .next (s.skipMid m) else .next s

/-- MID_RETURN (R190, R191): at a period boundary a middle whose fence bit is clear in force rejoins both stages, unless its
tile is fenced whole. -/
def execMidReturn (m : Fin 72) (s : State) : Host.Outcome State Fault Refusal :=
  if s.boundary && s.midOut m && !s.midKept m then
    if s.midSkipped m then .next (((s.setMidSkipped m false).raise E.CORE_MID_RESTORED).noteQuiet m)
    else .next { s with core := { s.core with draining := s.core.draining.filter (· != m.val) } }
  else .next s

end Sys2Proof.Machine
end

