-- ==== Sys2Proof/Machine/Sched.lean ====
section
/-!
DEFINITION. Scheduling, shaping, telemetry and counters (that chapter): the port scheduler, the token buckets, the samples, the
histograms, the telemetry rings, and the counter commands.
-/
namespace Sys2Proof.Machine
open Sys2Proof

/-! ### Shapers (R251 to R257) -/

/-- The buckets that do not stand at their reset level: (tile, shaper). -/
def State.listedToks (s : State) : List (Nat × Nat) :=
  (s.rf.regs.filter fun e => e.1 / 64 / 4096 / 1024 == 15 && decide (0xC00 ≤ e.1 / 64 % 4096)).map
    fun e => (e.1 / 64 / 4096 % 1024, (e.1 / 64 % 4096 - 0xC00) / 8)

/-- Key of the shaper refill in `State.marks`, which counts 64 ns of elapsed MT (R254). -/
def markRefill : Nat := 2

/-- SHAPER_REFILL (R254): every 64 ns of elapsed MT each bucket gains RATE / 256 bytes, capped at BURST. -/
def execShaperRefill (s : State) : Host.Outcome State Fault Refusal :=
  let ticks := fun (t : Nat) => (t - s.clk.base) / ns 64
  let k := ticks s.now - ticks (Tab.get 0 s.marks markRefill)
  let s := s.each s.listedToks fun s (t, j) =>
    s.setTok t j (min (s.tok t j + (k * s.get F.SHP_RATE_RATE t j : Nat)) (s.get F.SHP_RATE_BURST t j * 256 : Nat))
  .next { s with marks := s.marks.insert markRefill s.now }

/-- The bucket after a write to its configuration (R255). -/
def State.resetBucket (s : State) (t j : Nat) : State :=
  s.setTok t j (if s.flag F.SHP_CFG_RESET_FULL t j then (s.get F.SHP_RATE_BURST t j * 256 : Nat) else 0)

/-- SHAPER_CFG_WRITE (R255): SHP_CFG j (or SHP_RATE j where `rate`) written with the word `v`, and the bucket reset. Shapers 64
to 127 of an engine tile are reserved (R251). -/
def execShaperCfgWrite (t : Fin 72) (j : Fin 128) (rate : Bool) (v : Nat) (s : State) : Host.Outcome State Fault Refusal :=
  if 64 ≤ t.val ∧ 64 ≤ j.val then .next s
  else
    let s := if rate then (s.set F.SHP_RATE_RATE (bits v 0 24) t j).set F.SHP_RATE_BURST (bits v 32 24) t j
      else (((s.set F.SHP_CFG_EN (bits v 0 1) t j).set F.SHP_CFG_RESET_FULL (bits v 1 1) t j).set
        F.SHP_CFG_OVERHEAD (bits v 8 8) t j).set F.SHP_CFG_GROUP (bits v 16 8) t j
    .next (s.resetBucket t j)

/-! ### The port scheduler (R243 to R250) -/

/-- Cells the sender may still send on a VC (R139, R140; in cells on a compatibility link, R153). -/
def State.txAvail (s : State) (p vc : Nat) : Nat :=
  let v := (s.link p).vcs.getD vc VcSt.reset
  if s.get F.LNK_STAT_MODE p = 2 then v.g - v.sent else 4 * (v.g - v.r) - v.sent

/-- Cells of a released packet not yet sent on a port. -/
def Resv.leftFor (r : Resv) (p : Nat) : Nat := ((r.members.filter (·.port == p)).map Member.left).sum

/-- At an engine tile each engine takes the place of a port (R243): to the scheduler, engine `e` is unit 1024 + e. The tile of a unit, its number
there, and its index in the registers of the tile. -/
def engUnit (e : Nat) : Nat := 1024 + e
def isEngUnit (p : Nat) : Bool := decide (1024 ≤ p)
def unitTile (p : Nat) : Nat := if isEngUnit p then tileOfEng (p - 1024) else tileOf p
def unitNum (p : Nat) : Nat := if isEngUnit p then p - 1024 else p
def unitIdx (p : Nat) : Nat := slotIn (unitTile p) (unitNum p)

/-- The packets released to a port or engine, in release order. -/
def State.txq (s : State) (p : Nat) : List Resv := (s.tile (unitTile p)).tx.filter fun r => decide (0 < r.leftFor (unitNum p))

/-- A packet in progress on a port. -/
def State.inProgress (s : State) (p : Nat) (r : Resv) : Bool := (s.schedOf p).prog.contains r.res

/-- The packets of a port not yet started. -/
def State.txWaiting (s : State) (p : Nat) : List Resv := (s.txq p).filter fun r => !s.inProgress p r

/-- The VC has a packet in progress (R246). -/
def State.vcBusy (s : State) (p vc : Nat) : Bool := (s.txq p).any fun r => s.inProgress p r && r.vc == vc

/-- An ordered packet waits for one released earlier from the same input port on the same VC, whatever its SL (R171). -/
def State.ordWaits (s : State) (p : Nat) (r : Resv) : Bool :=
  r.pkt.ord && ((s.txWaiting p).takeWhile (·.res != r.res)).any fun e =>
    e.pkt.ord && e.vc == r.vc && e.inTile == r.inTile && e.inPort == r.inPort

/-- The head packet of the queue (VC, SL) of a port, SL being ignored on MGT VCs (R243, R245); none while it must wait for an ordered packet of
another SL (R171). DEDUCED: log entry 151. -/
def State.txHead (s : State) (p vc sl : Nat) : Option Resv :=
  match (s.txWaiting p).find? fun r => r.vc == vc && (isMgtVc vc || r.pkt.sl == sl) with
  | some r => if s.ordWaits p r then none else some r
  | none => none

/-- Cells of the packets that carry `n` bytes of data, of 4,096 each but for the last (R121). -/
def dataCells (n : Nat) : Nat := n / 4096 * 17 + (if n % 4096 = 0 then 0 else divUp (64 + n % 4096) 256)

/-- Cells of the responses that a request requires: the data of a GET_REQ or an RDV_GET, as far as its tile's memory could hold them, and one
cell for any other (R220, R370, R399). DEDUCED: log entry 170. -/
def State.rspCells (s : State) (e : Nat) (q : Packet) : Nat :=
  let kind := bits q.w2 40 8
  if kind = 3 ∨ kind = 9 then max 1 (min (dataCells (bits q.w5 32 32)) (s.engInPool (tileOfEng e))) else 1

/-- An engine has room for a packet: for a request, once it can inject the responses behind those that wait (R220, R244). -/
def State.engTakes (s : State) (e : Nat) (q : Packet) : Bool :=
  let t := tileOfEng e
  let waiting := (((s.tile t).fresh.filter fun f => f.inPort == e && f.pkt.cls == 1).map Fresh.got).sum
  q.cls != 0 || s.engRoom t e (vcOf 1 0) (waiting + s.rspCells e q)

/-- A unit may send or take a cell of a packet: credit at a port, room at an engine (R244). -/
def State.unitRoom (s : State) (p : Nat) (r : Resv) : Bool :=
  if isEngUnit p then s.engTakes (unitNum p) r.pkt else decide (0 < s.txAvail p r.vc)

/-- The queue (VC, SL) is eligible (R244); an engine has no shaper of (port, SL) (R251). -/
def State.eligible (s : State) (p vc sl : Nat) : Bool :=
  (s.txHead p vc sl).any (s.unitRoom p) && !s.vcBusy p vc
    && (isMgtVc vc || isEngUnit p || s.shaperOk (tileOf p) (8 * (p % 16) + sl))

/-- The VCs of a port with no cell waiting begin an idle period (R143). -/
def State.noteIdle (s : State) (p : Nat) : State :=
  let wait := fun vc => (s.txq p).any (·.vc == vc)
  let f := fun (vc : Nat) (v : VcSt) =>
    if wait vc then { v with idleSince := none, released := false } else { v with idleSince := v.idleSince <|> some s.now }
  s.modLink p fun x => { x with vcs := x.vcs.mapIdx f }

/-- One dead packet of a unit dropped: on age, once for all the members that have not started, at a fence, or as a pruned branch (R184,
R186, R238, R195). -/
def State.dropDead (s : State) (p : Nat) (r : Resv) : State :=
  let t := unitTile p
  let old := s.tooOld r.pkt
  let s := if old then s.dropAge t r.pkt.cls else if r.mc then s.prune t (unitNum p) r.pkt else s.dropFenceEg t
  let cut := fun (r : Resv) => { r with members := r.members.filter fun m => if old then m.left != r.n else m.port != unitNum p }
  s.modTile t fun x => { x with tx := (updWhere (·.res == r.res) cut x.tx).filter (fun r => !r.members.isEmpty) }

/-- A released packet may not leave by a unit: expired (R184), or the unit fenced (R238). -/
def State.unitDead (s : State) (p : Nat) (r : Resv) : Bool := s.tooOld r.pkt || s.memberFenced (unitTile p) (unitNum p) r.pkt

/-- Members of a unit's unstarted packets that are expired or fenced, dropped before their first cell (R184, R238, R195). -/
def State.purge (s : State) (p : Nat) : State :=
  let s := s.each ((s.txWaiting p).filter (s.unitDead p)) fun s r => s.dropDead p r
  if isEngUnit p then s else s.noteIdle p

/-- The histogram bin of a wait in ns (R259). -/
def histBin (w : Nat) : Nat := if w < 64 then 0 else if 2 ^ 20 ≤ w then 15 else Nat.log2 w - 5

/-- A wait of `w` ns counted in the histogram of port index `i` of a tile (R259). DEDUCED: log entry 129. -/
def State.histAt (s : State) (t i w : Nat) : State :=
  let b := histBin w
  let n := 8 * i + b / 2
  let s := if b % 2 = 0 then s.inc F.TEL_HIST_BIN_LO t n else s.inc F.TEL_HIST_BIN_HI t n
  s.count 29 t 0x42

/-- MARK_DELAY of a service level (RTE_MARK). -/
def State.markDelay (s : State) (t sl : Nat) : Nat :=
  if sl < 4 then s.get F.RTE_MARK_LO_DELAY t 0 sl else s.get F.RTE_MARK_HI_DELAY t 0 (sl - 4)

/-- CE is set on a packet that leaves by a port (R222). -/
def State.marksCe (s : State) (p : Nat) (pkt : Packet) : Bool :=
  let d := s.markDelay (tileOf p) pkt.sl
  decide (pkt.cls < 2) && d != 0 && decide (16 * d < (Tab.get (0, 0) s.rte.sample (p * 8 + pkt.sl)).1)

/-- A released packet's record changed. -/
def State.modTx (s : State) (t res : Nat) (f : Resv → Resv) : State :=
  s.modTile t fun x => { x with tx := updWhere (·.res == res) f x.tx }

/-- A packet as its first cell leaves a port: CE set where R222 marks it. -/
def State.marked (s : State) (p : Nat) (r : Resv) : Resv := if !isEngUnit p && s.marksCe p r.pkt then { r with pkt := { r.pkt with ce := true } } else r

/-- A packet started on a port: marked, charged, counted, in progress (R222, R246, R253, R259). An engine takes it whole, and its wait alone is
counted. -/
def State.startPacket (s : State) (p : Nat) (r : Resv) : State :=
  let t := unitTile p
  if isEngUnit p then s.histAt t (unitIdx p) ((s.now - r.rel) / unitsPerNs)
  else
  let s := if s.marksCe p r.pkt then ((s.modTx t r.res fun _ => s.marked p r).inc F.RTE_CNT_D_MARKED t).count 14 t 0x44 else s
  let s := if isMgtVc r.vc then s else s.charge t (8 * (p % 16) + r.pkt.sl) r.n
  let s := s.histAt t (p % 16) ((s.now - r.rel) / unitsPerNs)
  s.modSched p fun x => { x with prog := x.prog ++ [r.res] }

/-- One cell of a packet sent on a port: its memory freed, and the packet gone when it was the last (R170, R194). -/
def State.takeCell (s : State) (p : Nat) (r : Resv) : State :=
  let t := tileOf p
  let s := if r.leftFor p ≤ 1 then s.modSched p fun x => { x with prog := x.prog.filter (· != r.res) } else s
  let upd := fun (r : Resv) => { r with members := (updWhere (·.port == p) (fun m => { m with left := m.left - 1 }) r.members).filter (fun m => decide (0 < m.left)) }
  (s.modTile t fun x => { x with tx := (updWhere (·.res == r.res) upd x.tx).filter (fun r => !r.members.isEmpty) }).noteIdle p

/-- The whole of a packet taken by a unit: its memory there freed (R170). -/
def State.takeWhole (s : State) (p : Nat) (r : Resv) : State :=
  let cut := fun (r : Resv) => { r with members := r.members.filter (·.port != unitNum p) }
  s.modTile (unitTile p) fun x => { x with tx := (updWhere (·.res == r.res) cut x.tx).filter fun r => !r.members.isEmpty }

/-- The next VC in round robin among those that meet `ok`, from a pointer. -/
def nextVc (ptr : Nat) (l : List Nat) (ok : Nat → Bool) : Option Nat := argMin (fun v => (v + 16 - ptr % 16) % 16) (l.filter ok)

/-- The VCs of classes REQ, RSP and COL. -/
def dataVcs : List Nat := List.range 12
/-- The VCs of class MGT. -/
def mgtVcs : List Nat := [12, 13, 14, 15]

/-- The packet a service level would start next (R247). -/
def State.slNext (s : State) (p sl : Nat) : Option Resv :=
  match nextVc ((s.schedOf p).rrVc.getD sl 0) dataVcs (fun v => s.eligible p v sl) with
  | some v => s.txHead p v sl
  | none => none

/-- The quantum of a service level (SCH_DRR). -/
def State.quantum (s : State) (p sl : Nat) : Nat := s.get F.SCH_DRR_QUANTUM (unitTile p) (unitIdx p) sl

/-- The active list brought up to date, and the deficits of empty service levels cleared (R247, R248): at every core clock and before each
choice. Those that join together join in ascending order. DESIGN CHOICE: log entry 169. -/
def State.drrJoin (s : State) (p : Nat) : State :=
  let ok := fun sl => decide (1 ≤ s.quantum p sl) && (s.slNext p sl).isSome
  let empty := fun sl => !(s.txq p).any fun r => !isMgtVc r.vc && r.pkt.sl == sl
  s.modSched p fun x =>
    let keep := x.active.filter ok
    { x with active := keep ++ ((List.range 8).filter fun sl => ok sl && !keep.contains sl),
             deficit := (List.range 8).map fun sl => if empty sl then 0 else x.deficit.getD sl 0 }

/-- The deficit round robin from the head of the active list (R247); `fuel` bounds the rounds. -/
def State.drr (s : State) (p : Nat) : Nat → Option Nat × State
  | 0 => (none, s)
  | fuel + 1 =>
    let x := s.schedOf p
    match x.active with
    | [] => (none, s)
    | sl :: l =>
      match s.slNext p sl with
      | none => (none, s)
      | some r =>
        if r.n ≤ x.deficit.getD sl 0 then
          (some sl, s.modSched p fun x => { x with deficit := x.deficit.set sl (x.deficit.getD sl 0 - r.n) })
        else
          let more := x.deficit.set sl (x.deficit.getD sl 0 + s.quantum p sl)
          State.drr ((s.modSched p fun x => { x with active := l ++ [sl], deficit := more }).count 15 (unitTile p) 0x58) p fuel

/-- The service level chosen: by deficit round robin, or a scavenger when no other has an eligible queue (R247, R249). -/
def State.chooseSl (s : State) (p : Nat) : Option Nat × State :=
  let s := s.drrJoin p
  if (s.schedOf p).active.isEmpty then
    match argMin (fun v => (v + 8 - (s.schedOf p).rrScav % 8) % 8) ((List.range 8).filter fun sl => s.quantum p sl == 0 && (s.slNext p sl).isSome) with
    | some sl => (some sl, s.modSched p fun x => { x with rrScav := (sl + 1) % 8 })
    | none => (none, s)
  else s.drr p 160

/-- The active lists of every unit that has packets, brought up to date (R247). -/
def State.joins (s : State) : State :=
  let units := fun (e : Nat × Tile) => e.2.tx.flatMap fun r => r.members.map fun m => if e.1 < 64 then m.port else engUnit m.port
  s.each (s.tiles.flatMap units).eraseDups State.drrJoin

/-- The packet whose next cell the scheduler sends, or that an engine takes next, started where it is new (R245 to R250). -/
def State.chooseCell (s : State) (p : Nat) : Option Resv × State :=
  let s := s.purge p
  let prog := fun (mgt : Bool) => (s.schedOf p).prog.filterMap (fun res => (s.txq p).find? (·.res == res)) |>.filter
    fun r => isMgtVc r.vc == mgt && decide (0 < s.txAvail p r.vc)
  match (prog true).head? with
  | some r => (some r, s)
  | none =>
    match nextVc (s.schedOf p).rrMgt mgtVcs (fun v => s.eligible p v 0) with
    | some v =>
      match s.txHead p v 0 with
      | some r => (some (s.marked p r), (s.startPacket p r).modSched p fun x => { x with rrMgt := (v + 1) % 16 })
      | none => (none, s)
    | none =>
      match (prog false).head? with
      | some r => (some r, s)
      | none =>
        match s.chooseSl p with
        | (some sl, s) =>
          match s.slNext p sl with
          | some r => (some (s.marked p r), (s.startPacket p r).modSched p fun x => { x with rrVc := x.rrVc.set sl ((r.vc + 1) % 12) })
          | none => (none, s)
        | (none, s) => (none, s)

/-! ### Samples, histograms and rings (R258 to R265) -/

/-- The cells of a port or engine in output memory: of the released packets, those placed of the others, and those in an engine's miss
buffer. -/
def State.outCells (s : State) (t p : Nat) (keep : Packet → Bool) : Nat :=
  (((s.tile t).tx.filter fun r => keep r.pkt && !r.stg).map fun r => r.leftFor p).sum
    + (((s.tile t).resv.filter fun r => keep r.pkt && !r.stg && r.members.any (·.port == p)).map fun r => r.cells.length).sum
    + (if t < 64 then 0 else (((s.engPackets p).filter keep).map Packet.ncells).sum)

/-- The oldest complete packet that waits for a port, or for an engine in its place. -/
def State.oldestOut (s : State) (t p : Nat) (keep : Packet → Bool) : Option Resv :=
  argMin Resv.rel ((s.tile t).tx.filter fun r => keep r.pkt && decide (0 < r.leftFor p))

/-- The sample of one (port, SL): queue delay, MT less the release time, and depth in cells, MGT left out (R258). An MT stepped back before
the release gives 0. DESIGN CHOICE: log entry 171. -/
def State.sampleOf (s : State) (t p sl : Nat) : Nat × Nat :=
  let keep := fun (q : Packet) => q.cls != 3 && q.sl == sl
  let delay := match s.oldestOut t p keep with
    | some r => s.mtNs - r.relMt
    | none => 0
  (delay, s.outCells t p keep)

/-- The key of a port's samples: engines follow the ports. -/
def sampleKey (t p sl : Nat) : Nat := (if t < 64 then p else 1024 + p) * 8 + sl

/-- Key of the sampling of a tile in `State.marks`. -/
def markSample (t : Nat) : Nat := 1100 + t

/-- The key of a port's total depth. -/
def depthKey (t p : Nat) : Nat := if t < 64 then p else 1024 + p

/-- The samples of tile `t` taken now (R258), and the depth of each of its ports (Table 7.1). -/
def State.sampleTile (s : State) (t : Nat) : State :=
  let l := (portsOf t).flatMap fun q => (List.range 8).map fun sl => (sampleKey t q sl, s.sampleOf t q sl)
  let d := (portsOf t).map fun q => (depthKey t q, s.outCells t q fun _ => true)
  { s with rte := { s.rte with sample := l.foldl (fun x e => Tab.insert x e.1 e.2) s.rte.sample,
                               depth := d.foldl (fun x e => Tab.insert x e.1 e.2) s.rte.depth } }

/-- QUEUE_SAMPLE (R258): every 2^SAMPLE_K ns tile `t` samples every (port, SL). -/
def execQueueSample (t : Fin 72) (s : State) : Host.Outcome State Fault Refusal :=
  let p := 2 ^ s.get F.TEL_CTL_SAMPLE_K t
  if s.due (markSample t) p then .next ((s.sampleTile t).mark (markSample t) p) else .next s

/-- HIST_CLR (R259): every bin of the page set to 0. -/
def execHistClr (t : Fin 72) (s : State) : Host.Outcome State Fault Refusal :=
  .next (s.each (List.range 128) fun s n => (s.set F.TEL_HIST_BIN_LO 0 t n).set F.TEL_HIST_BIN_HI 0 t n)

/-- The word half of one port in a record, of the sample in force (R261, Table 7.1); DEPTH saturates. DESIGN CHOICE: log entry 164. -/
def State.telPort (s : State) (t i : Nat) : Nat :=
  let p := (portsOf t).getD i 0
  if 64 ≤ t ∧ 4 ≤ i then 0
  else
    let hol := ((List.range 8).map fun sl => (Tab.get (0, 0) s.rte.sample (sampleKey t p sl)).1).foldl max 0
    field (min 4095 (Tab.get 0 s.rte.depth (depthKey t p))) 0 12 + field (min 0xFFFF (hol / 16)) 12 16
      + (if t < 64 then field (b2n (!s.active p)) 28 1 + field (s.get F.PORT_STAT_HELD p) 29 1 else 0)

/-- The depth of one service level over the ports of a tile, saturating (Table 7.1). -/
def State.telSl (s : State) (t sl : Nat) : Nat :=
  min 0xFFFF ((portsOf t).map fun p => (Tab.get (0, 0) s.rte.sample (sampleKey t p sl)).2).sum

/-- The 16 words of a record (Table 7.1); the first record after reset has SEQ 0. DESIGN CHOICE: log entry 163. -/
def State.telWords (s : State) (t tag : Nat) (alarm : Bool) : List Nat :=
  [s.mtNs, field tag 0 24 + field (b2n alarm) 24 1 + field (b2n s.isUnsure) 25 1 + field (Tab.get 0 s.telSeq t) 32 32]
    ++ (List.range 8).map (fun k => s.telPort t (2 * k) + s.telPort t (2 * k + 1) * 2 ^ 32)
    ++ (List.range 2).map (fun k => ((List.range 4).map fun j => s.telSl t (4 * k + j) * 2 ^ (16 * j)).sum)
    ++ [0, 0, 0, 0]

/-- Address of a record of a ring (Table 16.4). -/
def ringAddr (t k : Nat) : Nat := 0x0400000000 + t * 2 ^ 14 + 128 * k

/-- A telemetry record written, or lost on a full ring (R263, R264). -/
def State.telRecord (s : State) (t tag : Nat) (alarm : Bool) : State :=
  let wr := s.get F.TEL_PTR_WR t
  let rd := s.get F.TEL_PTR_RD t
  let full := (wr + 256 - rd) % 256 == 128
  let lost := fun (s : State) => ((s.inc F.TEL_PTR_LOST t).raise E.TEL_RING_LOST t).count 29 t 0x41
  if full && !s.flag F.TEL_CTL_WRAP t then lost s
  else
    let s' := { s with mem := s.mem.writeBytes (ringAddr t (wr % 128)) (bytesOfWords (s.telWords t tag alarm)),
                       telSeq := Tab.insert s.telSeq t ((Tab.get 0 s.telSeq t + 1) % 2 ^ 32) }
    let s' := if full then lost (s'.hw F.TEL_PTR_RD ((rd + 1) % 256) t) else s'
    let s' := (s'.set F.TEL_PTR_WR ((wr + 1) % 256) t).count 29 t 0x40
    s'.raiseIf ((wr + 1 + 256 - s'.get F.TEL_PTR_RD t) % 256 == 64 && !full) E.TEL_RING_HALF t

/-- Key of the periodic record of a ring in `State.marks`. -/
def markRing (t : Nat) : Nat := 1200 + t

/-- A record of an alarm: a periodic record that falls in the same instant is not written beside it (R261). -/
def State.telAlarm (s : State) (t tag : Nat) : State :=
  let p := 2 ^ s.get F.TEL_CTL_RING_K t
  let s := if s.flag F.TEL_CTL_RING_EN t && s.mtNs % p == 0 then s.mark (markRing t) p else s
  s.telRecord t tag true

/-- TEL_RECORD (R261): with RING_EN a record every 2^RING_K ns. Records of an alarm are written at its firing. -/
def execTelRecord (t : Fin 72) (s : State) : Host.Outcome State Fault Refusal :=
  let p := 2 ^ s.get F.TEL_CTL_RING_K t
  if s.flag F.TEL_CTL_RING_EN t && s.due (markRing t) p then .next ((s.mark (markRing t) p).telRecord t 0 false) else .next s

/-! ### Performance counters (R266 to R275, R764) -/

/-- A register class is implemented with this instance (Table 16.1, R593). -/
def implemented (cls i : Nat) : Bool :=
  decide (i < if cls ≤ 7 ∨ cls = 16 ∨ cls = 30 then 1
    else if cls = 8 ∨ cls = 10 ∨ cls = 11 then 1024
    else if cls = 9 then 16
    else if (12 ≤ cls ∧ cls ≤ 15) ∨ cls = 29 then 72
    else if cls = 17 ∨ cls = 24 ∨ cls = 25 then 8
    else if 18 ≤ cls ∧ cls ≤ 23 then 32
    else if 26 ≤ cls ∧ cls ≤ 28 then 64 else 0)

/-- PMC_WRITE (R267, R269): a write loads COUNT from bits [47:0] and SAT from bit 63; counters the page lacks ignore it. -/
def execPmcWrite (cls : Fin 31) (i : Fin 1024) (k : Fin 8) (v : Nat) (s : State) : Host.Outcome State Fault Refusal :=
  if implemented cls i && decide (k.val < pmcNum cls) then
    .next ((s.write (F.PMC_COUNT.of cls) (bits v 0 48) i k).write (F.PMC_SAT.of cls) (bits v 63 1) i k)
  else .next s

/-- Address of the snapshot area of a page (Table 16.4). -/
def snapAddr (cls i : Nat) : Nat := 0x0500000000 + cls * 2 ^ 17 + i * 128

/-- The words of a snapshot (Table 16.5). -/
def State.snapWords (s : State) (cls i tag seq : Nat) : List Nat :=
  [s.mtNs, s.clk.cyc % 2 ^ 64]
    ++ (List.range 8).map (fun k => if k < pmcNum cls then
        s.get (F.PMC_COUNT.of cls) i k + s.get (F.PMC_SAT.of cls) i k * 2 ^ 63 else 0)
    ++ [field tag 0 24 + field seq 32 16]

/-- A snapshot of a page with SNAP_EN = 1 (R273). -/
def State.snapshot (s : State) (cls i tag : Nat) : State :=
  if s.flag (F.PMC_CTL_SNAP_EN.of cls) i then
    let seq := (s.get (F.PMC_SNAP_SEQ.of cls) i + 1) % 2 ^ 16
    let s := { s with mem := s.mem.writeBytes (snapAddr cls i) (bytesOfWords (s.snapWords cls i tag seq)) }
    (s.set (F.PMC_SNAP_TAG.of cls) tag i).set (F.PMC_SNAP_SEQ.of cls) seq i
  else s

/-- The pages whose PMC_CTL.SNAP_EN is set: (class, instance). -/
def State.snapPages (s : State) : List (Nat × Nat) :=
  (s.rf.regs.filter fun e => e.1 % (64 * 4096) == 0xB0 * 64 + 16 && e.2 != 0).map fun e => (e.1 / 64 / 4096 / 1024, e.1 / 64 / 4096 % 1024)

/-- A snapshot of every enrolled page (R273). -/
def State.snapshotAll (s : State) (tag : Nat) : State := s.each s.snapPages fun s (c, i) => s.snapshot c i tag

/-- PMC_SNAP_NOW (R273): a write of PMC_CTL.SNAP_NOW, with the tag of PMC_CTL.TAG. -/
def execPmcSnapNow (cls : Fin 31) (i : Fin 1024) (s : State) : Host.Outcome State Fault Refusal :=
  if implemented cls i then .next (s.snapshot cls i (s.get (F.PMC_CTL_TAG.of cls) i)) else .next s

/-- The page's block is fenced by a Degrade reaction and refuses requests (R765). -/
def State.blockFenced (s : State) (cls : Nat) : Bool := s.flt.blockFence.contains cls

/-- PMN_SNAP_NOW (R273, R765): a snapshot of every enrolled page, with the tag of PMN_CTL.TAG. -/
def execPmnSnapNow (s : State) : Host.Outcome State Fault Refusal :=
  if s.blockFenced 7 then .next s else .next (s.snapshotAll (s.get F.PMN_CTL_TAG))

/-- The counter fields of a class (R764). DESIGN CHOICE: log entry 28. -/
def counterFields (cls : Nat) : List Fld := F.counters.filter (·.cls == cls)

/-- CNT_CLR (R764): the counter fields of the page set to 0, and nothing else. -/
def execCntClr (cls : Fin 31) (i : Fin 1024) (s : State) : Host.Outcome State Fault Refusal :=
  if implemented cls i then
    .next (s.each (counterFields cls) fun s f => s.each (List.range f.cnt) (fun s n =>
      s.each (List.range f.subn) fun s k => s.write f 0 i n k))
  else .next s

end Sys2Proof.Machine
end

