-- ==== Sys2Proof/Machine/Link.lean ====
section
/-!
DEFINITION. The link layer (chapter "Romiek Link Protocol"): acknowledgement, credit, presentation of cells to the input tile,
the discarding of link-layer state, and the commands that need no port state machine.
-/
namespace Sys2Proof.Machine
open Sys2Proof

/-- LNK_STAT.MODE: 0 no link, 1 RLP3, 2 compatibility. -/
def State.mode (s : State) (p : Nat) : Nat := s.get F.LNK_STAT_MODE p

/-- A VC record changed. -/
def State.modVc (s : State) (p vc : Nat) (f : VcSt → VcSt) : State := s.modLink p fun x => { x with vcs := x.vcs.modify vc f }

/-- A VC record. -/
def State.vcSt (s : State) (p vc : Nat) : VcSt := (s.link p).vcs.getD vc VcSt.reset

/-- A feature bit is agreed (Table 4.3). -/
def State.feat (s : State) (p b : Nat) : Bool := s.getBit F.PORT_STAT_FEAT b p

/-! ### Replay (R133 to R138) -/

/-- Frames in the replay window: LNK_REPLAY.USED. -/
def State.replayUsed (s : State) (p : Nat) : Nat := seqDiff (s.get F.LNK_STAT_NEXT p) (s.get F.LNK_STAT_PEER_CACK p)

/-- The replay timer set running from now, or stopped when nothing is unacknowledged (R135). -/
def State.restartTimer (s : State) (p : Nat) : State :=
  s.modLink p fun x => { x with timer := if x.replay.isEmpty then none else some s.now }

/-- A received CACK applied (R133). -/
def State.applyCack (s : State) (p cack : Nat) : State :=
  if ahead cack (s.get F.LNK_STAT_PEER_CACK p) then
    let s := (s.set F.LNK_STAT_PEER_CACK cack p).set F.LNK_RTX_EXP_NOW 0 p
    let keep := fun (q : Nat) => !ahead cack q
    (s.modLink p fun x => { x with replay := x.replay.filter (fun f => keep f.seq), resend := x.resend.filter keep }).restartTimer p
  else s

/-- A received bitmap marks frame `seq`: bit 0 stands for CACK + 1 (R126). -/
def bitmapHas (map cack seq : Nat) : Bool :=
  let d := seqDiff seq cack
  decide (1 ≤ d) && bit map (d - 1)

/-- A received bitmap of `n` bits applied: marks renewed, and every frame found missing resent once on this evidence (R134). DEDUCED: log entry 78. -/
def State.applySack (s : State) (p cack map n : Nat) : State :=
  if cack = s.get F.LNK_STAT_PEER_CACK p then
    let l := (s.link p).replay.map fun f => { f with marked := bitmapHas map cack f.seq }
    let shown := fun (f : TxFrame) => !f.marked && decide (seqDiff f.seq cack ≤ n)
    let gone := l.filter fun f => shown f && !f.sacked && l.any fun g => g.marked && decide (f.order < g.order)
    let seqs := gone.map TxFrame.seq
    let s := s.modLink p fun x =>
      { x with replay := l.map (fun f => if seqs.contains f.seq then { f with sacked := true } else f),
               resend := x.resend ++ seqs.filter fun q => !x.resend.contains q }
    s.inc F.LNK_CNT_RTX_SACK p (d := seqs.length)
  else s

/-- Every unacknowledged frame, oldest first, that a resend of all must cover. -/
def State.resendAll (s : State) (p : Nat) (keepMarked : Bool) : State :=
  s.modLink p fun x => { x with resend := (x.replay.filter fun f => keepMarked || !f.marked).map TxFrame.seq }

/-! ### Credit (R139 to R148) -/

/-- A grant report for a VC applied (R145). -/
def State.applyGrant (s : State) (p vc cnt : Nat) : State := s.modVc p vc fun v => { v with g := advance 4096 v.g cnt }

/-- A release report for a VC applied (R145). -/
def State.applyRelease (s : State) (p vc cnt : Nat) : State := s.modVc p vc fun v => { v with peerRel := advance 4096 v.peerRel cnt }

/-- Cells of (port, VC) in input memory: packets not yet gone into the core, and frames held after a gap (R141). -/
def State.cellsHeld (s : State) (p vc : Nat) : Nat :=
  let t := s.tile (tileOf p)
  ((t.fresh.filter fun f => f.inPort == p && f.inVc == vc).map Fresh.got).sum
    + ((t.held.filter fun h => h.inPort == p && h.inVc == vc).map Held.cellsIn).sum
    + ((s.link p).held.filter (·.vc == vc)).length

/-- Cells granted and neither received nor released. -/
def State.grantOut (s : State) (p vc : Nat) : Nat :=
  let v := s.vcSt p vc
  if s.mode p = 2 then v.granted - v.accepted else 4 * (v.granted - v.peerRel) - v.accepted

/-- The receiver's claim of a VC, in units (R141); in cells on a compatibility link (R158). -/
def State.claim (s : State) (p vc : Nat) : Nat :=
  if s.mode p = 2 then s.grantOut p vc + s.cellsHeld p vc else divUp (s.grantOut p vc + s.cellsHeld p vc) 4

/-- The claim in units on a link of either kind. -/
def State.claimUnits (s : State) (p vc : Nat) : Nat := if s.mode p = 2 then divUp (s.claim p vc) 4 else s.claim p vc

/-- pool_used of R141. -/
def State.poolUsed (s : State) (p : Nat) : Nat :=
  ((List.range 16).map fun vc => s.claimUnits p vc - s.get F.LNK_CR_MIN_MIN p vc).sum

/-- Credit units of a tile's input memory (R139, R683). -/
def State.inUnits (s : State) (t : Nat) : Nat := 4096 - 64 * s.banksOut t 0 64

/-- Units claimed on all ports of a tile. -/
def State.unitsClaimed (s : State) (t : Nat) : Nat :=
  ((portsOf t).map fun p => ((List.range 16).map (s.claimUnits p)).sum).sum

/-- A VC is active: a frame on it was accepted within ACT_WIN (R141). -/
def State.vcActive (s : State) (p vc : Nat) : Bool :=
  match (s.vcSt p vc).lastAcc with
  | some at_ => decide (s.now ≤ at_ + ns (64 * s.get F.LNK_CTL_ACT_WIN p))
  | none => false

/-- One unit (one cell on a compatibility link) granted to a VC (R142, R144). -/
def State.grantUnit (s : State) (p vc : Nat) : State :=
  let s := s.modVc p vc fun v => { v with granted := v.granted + 1 }
  s.modLink p fun x => { x with unrep := if x.unrep.contains vc then x.unrep else x.unrep ++ [vc] }

/-- The VC that a grant opportunity serves, and whether it is lent (R141); on a compatibility link the fixed amount of R158. -/
def State.grantChoice (s : State) (p : Nat) : Option (Nat × Bool) :=
  let mn := fun vc => s.get F.LNK_CR_MIN_MIN p vc
  if s.mode p = 2 then
    let fix := fun vc => min 2047 (4 * (mn vc + s.get F.LNK_CR_POOL_POOL p / 12))
    (((List.range 16).filter fun vc => vc / 4 != 2).find? fun vc => decide (s.claim p vc < fix vc)).map (·, false)
  else match (List.range 16).find? fun vc => decide (s.claim p vc + 1 ≤ mn vc) with
    | some vc => some (vc, false)
    | none =>
      let cap := s.get F.LNK_CR_POOL_CAP p
      if s.poolUsed p + 1 ≤ s.get F.LNK_CR_POOL_POOL p then
        (nextVc (s.link p).rrGrant (List.range 16) fun vc => s.vcActive p vc && decide (s.claim p vc + 1 ≤ mn vc + cap)).map (·, true)
      else none

/-- CREDIT_GRANT (R141, R158): one grant opportunity of the receiver of an ACTIVE port; in safe state nothing is granted (R159, R641). -/
def execCreditGrant (p : Fin 1024) (s : State) : Host.Outcome State Fault Refusal :=
  let t := tileOf p
  if s.active p && !s.safe && decide (s.unitsClaimed t + 1 ≤ s.inUnits t) then
    match s.grantChoice p with
    | some (vc, lent) =>
      let s := s.grantUnit p vc
      .next (if lent then s.modLink p fun x => { x with rrGrant := (vc + 1) % 16 } else s)
    | none => .next s
  else .next s

/-- CREDIT_RELEASE (R143): a VC with no cell waiting for REL_IDLE gives its unused whole units back, once per idle period. An expiry with
no whole unit to give back is that once. DESIGN CHOICE: log entry 140. -/
def execCreditRelease (p : Fin 1024) (vc : Fin 16) (s : State) : Host.Outcome State Fault Refusal :=
  let v := s.vcSt p vc
  match v.idleSince with
  | some at_ =>
    if s.mode p = 1 && !v.released && s.over at_ (64 * s.get F.LNK_CTL_REL_IDLE p) 64 then
      let units := s.txAvail p vc / 4
      let s := s.modVc p vc fun v => { v with r := v.r + units, released := true }
      .next (if units = 0 then s else s.modLink p fun x => { x with ackOwed := true })
    else .next s
  | none => .next s

/-- The sum of the guaranteed units and pools of a tile's enabled ports (R147). -/
def State.creditSum (s : State) (t : Nat) : Nat :=
  (((portsOf t).filter fun p => s.flag F.PORT_CTL_EN p).map fun p =>
    ((List.range 16).map fun vc => s.get F.LNK_CR_MIN_MIN p vc).sum + s.get F.LNK_CR_POOL_POOL p).sum

/-- CR_OVERCOMMIT on the page of a port whose setting came into force (R147, R683). -/
def State.checkCredit (s : State) (p : Nat) : State :=
  s.raiseIf (decide (s.inUnits (tileOf p) < s.creditSum (tileOf p))) E.LNK_CR_OVERCOMMIT p

/-! ### Replay slots (R149) -/

/-- Frame slots of a tile's replay memory (R149, R683). -/
def State.replaySlots (s : State) (t : Nat) : Nat := 65536 * (32 - s.banksOut t 96 32) / 272

/-- SLOTS of a tile's enabled ports but one. -/
def State.slotsOthers (s : State) (p : Nat) : Nat :=
  (((portsOf (tileOf p)).filter fun q => q != p && s.flag F.PORT_CTL_EN q).map fun q => s.get F.LNK_REPLAY_SLOTS q).sum

/-- The replay window of a port (R137, R149). -/
def State.window (s : State) (p : Nat) : Nat := ((s.port p).window).getD (s.get F.LNK_REPLAY_SLOTS p)

/-- SLOTS_WRITE (R149): a write to LNK_REPLAY; SLOTS is taken or refused, PEAK is loaded. -/
def execSlotsWrite (p : Fin 1024) (v : Nat) (s : State) : Host.Outcome State Fault Refusal :=
  let n := bits v 0 13
  let s := s.write F.LNK_REPLAY_PEAK (bits v 32 13) p
  if s.flag F.PORT_CTL_EN p || decide (s.replaySlots (tileOf p) < s.slotsOthers p + n) then .next (s.raise E.LNK_SLOTS_REJ p)
  else .next (s.set F.LNK_REPLAY_SLOTS n p)

/-! ### Presentation to the input tile (R131, R156) -/

/-- The active bank of a tile: EPOCH[0] (R223). -/
def State.bankOf (s : State) (t : Nat) : Bool := bit (s.get F.RTE_STAT_EPOCH t) 0

/-- A packet adopted from a compatibility link; the arrival then counts the hop (R156, R207). -/
def State.adopt (s : State) (p : Nat) (q : Packet) : Packet :=
  { q with birth := s.stamp, ep := s.bankOf (tileOf p), tu := s.isUnsure, nm := false, escf := false, hops := 0 }

/-- A further cell added to the packet with a number, wherever it stands in the input tile. -/
def State.appendCell (s : State) (t id : Nat) (cell : List Byte) : State :=
  s.modTile t fun x =>
    { x with fresh := updWhere (·.id == id) (fun f => { f with pkt := f.pkt.addCell cell, got := f.got + 1 }) x.fresh,
             held := updWhere (·.id == id) (fun h => { h with pkt := h.pkt.addCell cell, got := h.got + 1 }) x.held }

/-- A frame's cell presented in sequence to the input tile (R131). -/
def State.present (s : State) (p : Nat) (f : RxFrame) : State :=
  let t := tileOf p
  if f.sop then
    let id := s.core.nextId
    let q := packetOfCell f.cell
    let q := if s.mode p = 2 then s.adopt p q else q
    let s := { s with core := { s.core with nextId := id + 1 } }
    let s := s.modTile t fun x => { x with fresh := x.fresh ++ [⟨id, q, p, f.vc, 1, none, .nothing⟩] }
    s.modVc p f.vc fun v => { v with rxOpen := if f.eop then none else some id }
  else match (s.vcSt p f.vc).rxOpen with
    | some id =>
      let s := s.appendCell t id f.cell
      if f.eop then s.modVc p f.vc fun v => { v with rxOpen := none } else s
    | none => s

/-- The frames that follow EXPECT without a gap presented in order (R131); `fuel` bounds the chain. -/
def State.presentHeld (s : State) (p : Nat) : Nat → State
  | 0 => s
  | fuel + 1 =>
    let e := s.get F.LNK_STAT_EXPECT p
    match (s.link p).held.find? (·.seq == e) with
    | some f =>
      let s := (s.modLink p fun x => { x with held := x.held.filter (·.seq != e) }).set F.LNK_STAT_EXPECT ((e + 1) % 2 ^ 20) p
      State.presentHeld (s.present p f) p fuel
    | none => s

/-! ### Lanes on frames (R117, R118) -/

/-- A frame with good CRC on a lane. -/
def State.goodFrame (s : State) (lane : Nat) : State := s.modLane lane fun x => { x with good := x.good + 1, bad := 0 }

/-- The port with EN = 1 that holds a lane. -/
def State.owner (s : State) (lane : Nat) : Option Nat :=
  if s.flag F.LANE_STAT_OWNED lane then some (s.get F.LANE_STAT_PORT lane) else none

/-- BAD_FRAME_RX (R117, R118): 272 bytes with a bad CRC on a lane of an enabled port are discarded whole; the eighth such frame in a row returns a
delineated lane to hunting. DESIGN CHOICE: log entry 141. -/
def execBadFrameRx (lane : Fin 1024) (b : List Byte) (s : State) : Host.Outcome State Fault Refusal :=
  match s.owner lane with
  | none => .next s
  | some p =>
    if goodCrc b then .next s
    else
      let s := ((s.inc F.LNK_CNT_ERR_CRC p).count 11 p 0x43).raise E.LNK_CRC_ERR p
      let n := (s.lane lane).bad + 1
      let s := s.modLane lane fun x => { x with good := 0, bad := n }
      if 8 ≤ n ∧ (s.lane lane).delineated then
        .next (((s.modLane lane fun x => { x with delineated := false, bad := 0 }).inc F.LNK_CNT_ERR_HUNT p).raise E.LNK_HUNT p)
      else .next s

/-- LANE_DELINEATED (R117): a hunting lane that has seen 8 good frames in a row delivers frames again. -/
def execLaneDelineated (lane : Fin 1024) (s : State) : Host.Outcome State Fault Refusal :=
  if 8 ≤ (s.lane lane).good ∧ !(s.lane lane).delineated then .next (s.modLane lane fun x => { x with delineated := true })
  else .next s

/-! ### Discarding link-layer state (R104, R151) -/

/-- A packet truncated at this end (R151). -/
def State.truncated (s : State) (p : Nat) : State := (s.inc F.LNK_CNT_MISC_TRUNC p).raise E.LNK_TRUNC p

/-- The receiver's open packets closed with an abort (R151). -/
def State.closeRx (s : State) (p : Nat) : State :=
  let open_ := (s.link p).vcs.filterMap VcSt.rxOpen
  s.each open_ fun s id => (s.modTile (tileOf p) fun x => { x with aborts := x.aborts ++ [id] }).truncated p

/-- A port's share of a released packet removed. -/
def State.dropMember (s : State) (p res : Nat) : State :=
  let cut := fun (r : Resv) => { r with members := r.members.filter (·.port != p) }
  s.modTile (tileOf p) fun x => { x with tx := (updWhere (·.res == res) cut x.tx).filter fun r => !r.members.isEmpty }

/-- The sender's partly sent packets dropped (R151). -/
def State.closeTx (s : State) (p : Nat) : State :=
  let part := (s.schedOf p).prog
  (s.each part fun s res => (s.dropMember p res).truncated p).modSched p fun x => { x with prog := [] }

/-- Link-layer state discarded (R104, R151): replay, held frames, truncated packets, sequence and credit counts. -/
def State.discardLink (s : State) (p : Nat) : State :=
  let s := if (s.link p).replay.isEmpty then s else s.inc F.PORT_CNT_REPLAY_LOST p
  let s := (s.closeRx p).closeTx p
  let s := s.modLink p fun _ => LinkSt.reset
  ((((s.set F.LNK_STAT_NEXT 0 p).set F.LNK_STAT_PEER_CACK 0 p).set F.LNK_STAT_EXPECT 0 p).set F.LNK_STAT_MODE 0 p).set F.LNK_RTX_EXP_NOW 0 p

/-- A link entering ACTIVE with new state (R130, R152). -/
def State.newLink (s : State) (p mode : Nat) : State :=
  let idle : VcSt := { VcSt.reset with idleSince := some s.now }
  ((s.modLink p fun _ => { LinkSt.reset with vcs := List.replicate 16 idle, lastData := s.now }).noteIdle p).set F.LNK_STAT_MODE mode p

/-! ### The fields of every frame (R120, R132, R144, R212) -/

/-- SACK of an outgoing frame: the frames held after EXPECT (R120). -/
def State.sackMap (s : State) (p from_ n : Nat) : Nat :=
  let e := s.get F.LNK_STAT_EXPECT p
  ((List.range n).map fun i => if (s.link p).held.any (fun f => f.seq == (e + from_ + i) % 2 ^ 20) then 2 ^ i else 0).sum

/-- The VC whose grant count goes out next (R144). -/
def State.reportVc (s : State) (p : Nat) : Nat := (s.link p).unrep.headD (s.link p).rotVc

/-- The CONG field: the level of the slot whose turn it is (R212). -/
def State.congField (s : State) (p : Nat) : Nat :=
  let k := Tab.get 0 s.rte.congRot p
  if s.mode p = 1 && s.feat p 5 then field k 0 6 + field (s.slotLevel k) 6 4 + field 1 10 1 else 0

/-- The header and trailer fields of the next frame of a port, with a sequence number. -/
def State.frameHead (s : State) (p seq : Nat) (rtx : Bool) : FrameHead :=
  let vc := s.reportVc p
  let m2 := s.mode p == 2
  { seq := seq, rtx := rtx, nak := m2 && (s.link p).nak, sack := if m2 then 0 else s.sackMap p 1 16, crVc := if m2 then rlp2Vc vc else vc,
    crCnt := (s.vcSt p vc).granted % 4096, cong := s.congField p, cack := s.get F.LNK_STAT_EXPECT p }

/-- The lane index whose turn it is: the lowest active one from `rotLane`, else the lowest (R119). -/
def State.turn (s : State) (p : Nat) : Nat :=
  let l := setBitsOf (s.port p).act 8
  (l.find? fun k => decide ((s.link p).rotLane ≤ k)).getD (l.headD 0)

/-- The rotation moves past a lane index that had its turn (R119). -/
def State.turned (s : State) (p k : Nat) : State :=
  if k = s.turn p then s.modLink p fun x => { x with rotLane := k + 1 } else s

/-- What sending a frame moves on: the grant reported, the rotations, NAK, and the count since the last ACK frame. -/
def State.frameSent (s : State) (p : Nat) (isAck : Bool) : State :=
  let vc := s.reportVc p
  let m2 := s.mode p == 2
  let next := fun (v : Nat) => if m2 && v == 7 then 12 else (v + 1) % 16
  let s := s.modLink p fun x => { x with unrep := if isAck && !m2 then [] else x.unrep.filter (· != vc),
                                         rotVc := if x.unrep.isEmpty then next x.rotVc else x.rotVc, nak := false,
                                         sinceAck := if isAck then 0 else x.sinceAck + 1, ackOwed := !isAck && x.ackOwed }
  if s.mode p = 1 && s.feat p 5 then
    { s with rte := { s.rte with congRot := Tab.insert s.rte.congRot p ((Tab.get 0 s.rte.congRot p + 1) % 64) } } else s

/-- The acknowledgement, credit and congestion fields of a received frame applied (R132 to R134, R145, R157, R212); `map` and
`n` are the bitmap that the frame carries. -/
def State.applyHead (s : State) (p : Nat) (h : FrameHead) (map n : Nat) : State :=
  let s := s.applyCack p (h.cack % 2 ^ 20)
  if s.mode p = 2 then
    let s := s.applyGrant p (rlp3Vc (h.crVc % 12)) (h.crCnt % 4096)
    if h.nak then (s.resendAll p true).inc F.LNK_CNT_RTX_TIMER p (d := (s.link p).replay.length) else s
  else
    let s := s.applySack p (h.cack % 2 ^ 20) map n
    let s := s.applyGrant p (h.crVc % 16) (h.crCnt % 4096)
    if s.feat p 5 && bit h.cong 10 then s.learn p (bits h.cong 0 6) (bits h.cong 6 4) else s

/-- A port accepts frames: ACTIVE, and the device not in safe state (R641). -/
def State.accepts (s : State) (p : Nat) : Bool := s.active p && s.mode p != 0 && !s.safe

/-- A port is in a retrain that keeps link-layer state (R150). -/
def State.retraining (s : State) (p : Nat) : Bool := (s.port p).retrain && s.get F.PORT_STAT_STATE p != stDisabled

/-- The acknowledgement and credit fields of frames apply: the port accepts frames, or keeps link-layer state in a retrain (R132, R150). -/
def State.keepsLink (s : State) (p : Nat) : Bool := (s.active p || s.retraining p) && s.mode p != 0 && !s.safe

/-- A frame of any kind but FENCE ends a run of FENCE frames (R129). -/
def State.notFence (s : State) (p : Nat) : State := s.modLink p fun x => { x with fenceRun := 0 }

end Sys2Proof.Machine
end

