-- ==== Sys2Proof/Machine/Port.lean ====
section
/-!
DEFINITION. Lanes, optical engines and port formation (that chapter): formation, training, width changes, link down, grace and
flush, and the lane ladder of a port ("Power ladder", R658 to R671).
-/
namespace Sys2Proof.Machine
open Sys2Proof

/-! ### Formation (R86 to R88) -/

/-- Lanes of a port: BASE and width. -/
def State.base (s : State) (p : Nat) : Nat := s.get F.PORT_CTL_BASE p
def State.width (s : State) (p : Nat) : Nat := widthOf (s.get F.PORT_CTL_LANES p)
def State.lanesOf (s : State) (p : Nat) : List Nat := (List.range (s.width p)).map (s.base p + ·)

/-- The index of a lane in its port. -/
def State.idxOf (s : State) (p lane : Nat) : Nat := lane - s.base p

/-- A formation is valid (R86). -/
def State.validForm (s : State) (p base width : Nat) : Bool :=
  decide (base % width = 0) && tileOf base == tileOf p
    && (List.range width).all fun k => match s.owner (base + k) with
      | some q => q == p
      | none => true

/-- A port is held in DISABLED by a fence: its tile fenced whole, or the port fenced by Degrade (Table 3.2). -/
def State.fenceHeld (s : State) (p : Nat) : Bool := s.flag F.TILE_FENCE_FULL (tileOf p) || (s.port p).fenced

/-- The feed fibre of a lane is qualified and its engine is working, so that the lane may transmit (R81 to R84). -/
def State.lit (s : State) (lane : Nat) : Bool :=
  s.getBit F.OPT_STAT_FEED_OK (lane % 64 / 8) (lane / 64) && !(s.optic (lane / 64)).fenced

/-- A lane is healthy: locked, not failed, not in loopback or a test pattern (Table 3.5). -/
def State.healthy (s : State) (lane : Nat) : Bool :=
  s.flag F.LANE_STAT_LOCK lane && !s.flag F.LANE_STAT_FAILED lane && s.get F.LANE_CTL_LOOPBACK lane == 0
    && s.get F.LANE_CTL_PRBS lane == 0

/-- The lane indices that hold symbol lock, those left out for their index or in a loopback or test pattern, which count as failed, not among
them: LOCKED_LANES of a CAP frame that is no width request (R89, R91, Table 3.5). DEDUCED: log entry 142. -/
def State.lockedMask (s : State) (p : Nat) : Nat :=
  ((List.range (s.width p)).map fun k =>
    let l := s.base p + k
    if s.flag F.LANE_STAT_LOCK l && !(s.lane l).misordered && s.get F.LANE_CTL_LOOPBACK l == 0 && s.get F.LANE_CTL_PRBS l == 0 then 2 ^ k else 0).sum

/-- The healthy lane indices of a port. -/
def State.healthyMask (s : State) (p : Nat) : Nat :=
  ((List.range (s.width p)).map fun k => if s.healthy (s.base p + k) then 2 ^ k else 0).sum

/-- The mask of a port's configured lanes. -/
def State.fullMask (s : State) (p : Nat) : Nat := laneMask 0 (s.width p)

/-- Exit time of a rung in ns; of Dark with or without valid presets (Table 18.1). -/
def exitNs (rung : Nat) (presets : Bool) : Nat :=
  if rung = 0 then 0 else if rung = 1 then 100 else if rung = 2 then 1000 else if rung = 3 then 10000
  else if rung = 4 then 100000 else if presets then 1000000 else 200000000

/-! ### States -/

/-- PORT_STAT.STATE set. -/
def State.portTo (s : State) (p st : Nat) : State := (s.set F.PORT_STAT_STATE st p).noteQuiet (tileOf p)

/-- The active lane set published (R100). -/
def State.setActive (s : State) (p act : Nat) : State :=
  let s := s.modPort p fun x => { x with act := act }
  let s := (s.set F.PORT_STAT_ACT_LANES (codeOf (laneCount act)) p).set F.PORT_STAT_ACT_BASE (s.base p + lowLane act) p
  s.setFlag F.PORT_STAT_DEGRADED (decide (laneCount act < s.width p)) p

/-- The transmitters of a port's lanes. -/
def State.transmit (s : State) (p : Nat) (on : Bool) : State :=
  s.each (s.lanesOf p) fun s l => s.modLane l fun x => { x with tx := on && s.lit l }

/-- A lane made ready for a new bring-up, which uses the presets where they are valid (R90). -/
def State.laneFresh (s : State) (l : Nat) : State :=
  let s := (s.set F.LANE_STAT_LOCK 0 l).setFlag F.LANE_STAT_FAILED (s.lane l).fenced l
  let s := if s.flag F.LANE_EQ_VALID l then s.set F.LANE_EQ_LIVE_LIVE (s.get F.LANE_EQ_PRESET l) l else s
  s.modLane l fun x => { x with loss := none, relock := none, good := 0, bad := 0, delineated := false, idxRx := none, misordered := false,
                                attemptAt := s.now }

/-- BRINGUP entered (R90, R95): a new nonce where one is drawn (from DISABLED and on link down), and the exchange forgotten; `wait` ns
pass first. -/
def State.enterBringup (s : State) (p : Nat) (retrain : Bool) (wait : Nat) (draw : Bool := !retrain) : State :=
  let s := s.each (s.lanesOf p) State.laneFresh
  let s := if draw then (s.set F.PORT_NONCE_LOCAL s.peek p).drawn else s
  let s := ((s.set F.PORT_PWR_STAT_RUNG 0 p).set F.PORT_PWR_STAT_COMMANDED 0 p).set F.PORT_STAT_READY 0 p
  let s := (s.transmit p true).portTo p stBringup
  s.modPort p fun x => { PortSt.reset with start := s.now + ns wait, rateAt := s.now + ns wait, recNonce := x.recNonce, grace := x.grace,
                                           retrain := retrain, act := x.act, fenced := x.fenced, window := x.window, renonce := !draw && x.renonce }

/-- Traffic held from now: HELD, and grace started unless it runs already (R104, R108). -/
def State.holdTraffic (s : State) (p : Nat) : State :=
  let s := if s.flag F.PORT_STAT_FLUSHING p then s else s.set F.PORT_STAT_HELD 1 p
  s.modPort p fun x => { x with grace := x.grace <|> some s.now }

/-- What the end of a link leaves behind: link-layer state and the learned levels gone, the traffic held (R104, R213, Table 3.2), and the
time servo turned to the alternate port (R52). -/
def State.linkGone (s : State) (p : Nat) : State :=
  let s := ((s.discardLink p).forget p).holdTraffic p
  let s := (s.set F.PORT_STAT_DEGRADED 0 p).set F.PORT_STAT_READY 0 p
  State.sourcePortDown { s with xfer := Tab.erase s.xfer p } p

/-- What every fall of an ACTIVE link does: the event and the counts (R103), and `linkGone`. -/
def State.linkLost (s : State) (p : Nat) : State :=
  (((s.inc F.PORT_CNT_DOWN p).count 10 p 0x40).raise E.PORT_LINK_DOWN p).linkGone p

/-- What is left, in ns, of the exit of a port's rung, begun now where it has not begun yet (R668). -/
def State.exitLeft (s : State) (p : Nat) : Nat :=
  let full := exitNs (s.get F.PORT_PWR_STAT_RUNG p) true
  match (s.port p).wake with
  | some (at_, _, _) => full - (s.now - at_) / ns 1
  | none => full

/-- Link down (R103, R108): an ACTIVE port, or one in a retrain, returns to BRINGUP with a new nonce; a port below Run begins its exit
first (R668). DEDUCED: log entry 175. -/
def State.linkDown (s : State) (p : Nat) : State :=
  if s.active p || s.retraining p then (s.linkLost p).enterBringup p false (s.exitLeft p) else s

/-- A port held by a fence: DISABLED, LINK_DOWN if it was ACTIVE, transmitters off, link-layer state discarded, traffic held in grace
(Table 3.2). -/
def State.portFenced (s : State) (p : Nat) : State :=
  if s.get F.PORT_STAT_STATE p = stDisabled then s
  else
    let s := if s.active p then s.linkLost p else if s.retraining p then s.linkGone p else (s.discardLink p).holdTraffic p
    (s.transmit p false).portTo p stDisabled

/-- Bring-up started when EN = 1, the formation is valid, no fence holds the port and the restore is done (Table 3.2, R697). -/
def State.portStart (s : State) (p : Nat) : State :=
  if s.flag F.PORT_CTL_EN p && s.get F.PORT_STAT_STATE p == stDisabled && s.validForm p (s.base p) (s.width p) && !s.fenceHeld p
    && s.boot.stage == 3
  then
    let deep := ((s.lanesOf p).map fun l => (s.lane l).rung).foldl max 0
    let tileRung := s.get F.TILE_PWR_CUR (tileOf p)
    let presets := (s.lanesOf p).all fun l => s.flag F.LANE_EQ_VALID l
    let s := s.each (s.lanesOf p) fun s l => s.modLane l fun x => { x with rung := 0 }
    let s := s.exitTile (tileOf p)
    s.enterBringup p false (max (exitNs deep presets) (exitNs tileRung true))
  else s

/-! ### Flush (R106) -/

/-- A multicast copy's share for a port, or a unicast packet, flushed from the transmit queue of the port. -/
def State.flushTx (s : State) (p : Nat) : State :=
  s.each (s.txWaiting p) fun s r => ((s.dropMember p r.res).dropFlush p r.pkt.cls)

/-- The packets queued for a port at one input tile flushed. -/
def State.flushVoq (s : State) (p t : Nat) : State :=
  let l := (s.tile t).held.filter fun h => h.queued && h.mc.isEmpty && h.out == tileOf p && h.port == p
  s.each l fun s h => (s.removeHeld t h.id).dropFlush p h.pkt.cls

/-- The held packets of one input tile whose every down candidate has been flushed (R105). -/
def State.flushParked (s : State) (t : Nat) : State :=
  let l := (s.tile t).held.filter fun h => h.phase == .parked && h.cands.all fun q => !s.active q && s.flushes q
  s.each l fun s h => (s.modTile t fun x => { x with held := x.held.filter (·.id != h.id) }).dropFlush (s.lastGrace h.cands) h.pkt.cls

/-- A port flushed: every held packet dropped and counted per class, FLUSH raised once (R106). -/
def State.flushPort (s : State) (p : Nat) : State :=
  let s := (s.set F.PORT_STAT_HELD 0 p).set F.PORT_STAT_FLUSHING 1 p
  let s := s.flushTx p
  let s := s.each (List.range 72) fun s t => (s.flushVoq p t).flushParked t
  (s.noteIdle p).raise E.PORT_FLUSH p

/-- The packets held for a port routed again now that it is ACTIVE (R105). -/
def State.unpark (s : State) (p t : Nat) : State :=
  let l := (s.tile t).held.filter fun h => h.phase == .parked && h.cands.contains p
  s.each l fun s h =>
    let s := s.modTile t fun x => { x with held := x.held.filter (·.id != h.id) }
    s.place t { h with phase := .waiting } (s.route t h.pkt (entryPort t h.inPort))

/-! ### Going ACTIVE (R93, R107, R150, R152) -/

/-- The packets released to a port that its compatibility link may not carry: class COL (R155), and directed routes (R207). DEDUCED: log
entry 137. -/
def State.purgeCompat (s : State) (p : Nat) : State :=
  if s.mode p = 2 then
    s.each ((s.txWaiting p).filter fun r => r.pkt.cls == 2 || r.pkt.rmode == 2) fun s r => (s.dropMember p r.res).dropCompat p
  else s

/-- The port enters ACTIVE (R93). -/
def State.portUp (s : State) (p : Nat) : State :=
  let x := s.port p
  let s := s.each (s.lanesOf p) fun s l =>
    if bit x.act (s.idxOf p l) then s else if s.idxOf p l < widthOf x.peerWidth then s.set F.LANE_STAT_FAILED 1 l else s
  let mode := if s.get F.PORT_STAT_RLP_VER p = 2 then 2 else 1
  let s := if x.retrain then (s.set F.LNK_STAT_MODE mode p).resendAll p false else s.newLink p mode
  let s := (s.setActive p x.act).modPort p fun y => { y with recNonce := x.peerNonce, grace := none, retrain := false, idleFrom := s.now }
  let s := ((s.set F.PORT_STAT_HELD 0 p).set F.PORT_STAT_FLUSHING 0 p).portTo p stActive
  let s := (s.raise E.PORT_LINK_UP p).purgeCompat p
  s.each (List.range 72) (fun s t => s.unpark p t)

/-- FRAME_LOCK (R93): every agreed lane has had 8 good frames in a row and a CAP frame with LOCKED = 1 has arrived. -/
def State.frameLocked (s : State) (p : Nat) : Bool :=
  s.get F.PORT_STAT_STATE p == stFrameLock
    && (setBitsOf (s.port p).act 8).all fun k => decide (8 ≤ (s.lane (s.base p + k)).good)

def execFrameLock (p : Fin 1024) (s : State) : Host.Outcome State Fault Refusal :=
  if s.frameLocked p && (s.port p).gotLocked then .next (s.portUp p) else .next s

/-! ### CAP frames (R91, R126) -/

/-- The versions and features that the device offers (R126, R127, R659). -/
def capVers : Nat := 12
def capFeat : Nat := 0x7F

/-- The versions that a port can agree on: at 100 Gb/s a compatibility link alone (R79). -/
def State.offered (s : State) (p : Nat) : Nat := if (s.port p).slow then 4 else capVers

/-- A CAP cell of a port on lane index `k`; an ACTIVE port has reached frame lock (R93, Table 4.2). DEDUCED: log entry 75. -/
def State.capCell (s : State) (p k req prop : Nat) (locked : Bool) (ladder : Nat) : CapCell :=
  { vers := capVers, feat := capFeat, req := req, locked := locked || s.active p, cfgWidth := s.get F.PORT_CTL_LANES p, laneIdx := k,
    lockedLanes := if req = 2 then s.healthyMask p else s.lockedMask p, propLanes := prop, nonce := s.get F.PORT_NONCE_LOCAL p, group := s.get F.DEV_SELF_GROUP,
    device := s.get F.DEV_SELF_DEVICE, port := p, ladder := ladder }

/-- A CAP frame sent on every lane index of a mask (R91, R100, R662); none in safe state, in which only FENCE frames leave (R124). -/
def State.sendCaps (s : State) (p lanes req prop : Nat) (locked : Bool) (ladder : Nat) : State :=
  if s.safe then s
  else s.each (setBitsOf lanes 8) fun s k =>
    let h := s.frameHead p (s.get F.LNK_STAT_NEXT p) false
    ((s.emit (.frame p k (Frame.cap h (s.capCell p k req prop locked ladder)).bytes)).frameSent p false).count 11 p 0x44

/-- The width exchange stops data until it is answered; so does a ladder request (R100, R662). -/
def State.dataStopped (s : State) (p : Nat) : Bool :=
  let x := s.port p
  x.widthReq.isSome || x.ladReq.isSome || x.wake.isSome || s.get F.PORT_PWR_STAT_RUNG p != 0

/-- Key of the CAP cadence of a port in `State.marks`. -/
def markCap (p : Nat) : Nat := 2000 + p

/-- Agreement: the set has been sent and received (R92). The port goes to FRAMELOCK, or fails training (R127). -/
def State.trainFail (s : State) (p : Nat) : State :=
  let s := (s.raise E.PORT_TRAIN_FAIL p).portTo p stBringup
  s.modPort p fun x => { x with restartAt := some (s.now + ns 10000000) }

def State.tryAgree (s : State) (p : Nat) : State :=
  let x := s.port p
  if s.get F.PORT_STAT_STATE p = stCapx ∧ x.setTx ≠ 0 ∧ x.setTx = x.setRx ∧ x.setSent = x.setTx then
    let common := Nat.land (s.offered p) x.peerVers
    let feat := Nat.land capFeat x.peerFeat
    let ver := if bit common 3 then 3 else 2
    if ver = 3 ∧ Nat.land feat 0x1F ≠ 0x1F then s.trainFail p
    else
      let s := (s.set F.PORT_STAT_RLP_VER ver p).set F.PORT_STAT_FEAT feat p
      let s := s.raiseIf (ver == 2) E.PORT_COMPAT_LINK p
      let s := s.each (setBitsOf x.setTx 8) fun s k => s.modLane (s.base p + k) fun y => { y with good := 0 }
      (s.modPort p fun y => { y with act := x.setTx, gotLocked := false }).portTo p stFrameLock
  else s

/-- The lane set that the deciding end computes (R92). -/
def State.agreedSet (s : State) (p : Nat) : Nat :=
  let x := s.port p
  bestBlock (Nat.land (s.healthyMask p) (Nat.land x.peerLocked (Nat.land (s.fullMask p) (laneMask 0 (widthOf x.peerWidth)))))

/-- Every lane index of a set has been checked by a CAP frame (R89). -/
def State.indexed (s : State) (p set : Nat) : Bool := (setBitsOf set 8).all fun k => (s.lane (s.base p + k)).idxRx == some k

/-- Equal nonces (R92, R96): a new one is drawn after a random wait; the peer's next one is recorded, and a link kept across a retrain
stands. -/
def State.redraw (s : State) (p : Nat) : State :=
  (s.modPort p fun y => { y with redrawAt := y.redrawAt <|> some (s.now + ns (64 + s.peek % 961)), renonce := y.recNonce.isSome }).drawn

/-- The exchange's next move: nonce redraw, the deciding end's set, whose indices have all been checked, or the echo (R89, R92). A set with
a lane that this end leaves out as failed is not echoed. DEDUCED: log entry 166. -/
def State.settle (s : State) (p prop : Nat) : State :=
  let x := s.port p
  let own := s.get F.PORT_NONCE_LOCAL p
  match x.peerNonce with
  | none => s
  | some n =>
    if n = own then s.redraw p
    else if n < own then
      let set := s.agreedSet p
      if set = 0 then s.trainFail p
      else if !s.indexed p set then s
      else (s.modPort p fun y => { y with setTx := set, setRx := prop }).tryAgree p
    else if prop = 0 || !holdsMask (s.healthyMask p) prop then s
    else (s.modPort p fun y => { y with setTx := prop, setRx := prop }).tryAgree p

/-- Back to CAPX, or to BRINGUP when no lane locked at both ends remains (R767). Before a CAP frame of the peer has been heard, no lane
counts as locked there. DESIGN CHOICE: log entry 143. -/
def State.reagree (s : State) (p : Nat) : State :=
  let x := s.port p
  if Nat.land (s.healthyMask p) x.peerLocked = 0 then s.enterBringup p x.retrain 0 false
  else (s.modPort p fun y => { y with setTx := 0, setRx := 0, setSent := 0, gotLocked := false }).portTo p stCapx

/-- What a CAP frame says of the peer, recorded (R92). Nothing clears PORT_PEER.VALID again but a reset. DESIGN CHOICE: log entry 144. -/
def State.recordPeer (s : State) (p : Nat) (c : CapCell) : State :=
  let s := s.raiseIf ((s.port p).peerNonce.isNone && c.cfgWidth != s.get F.PORT_CTL_LANES p) E.PORT_WIDTH_MISMATCH p
  let s := s.modPort p fun x => { x with peerNonce := some c.nonce, peerLocked := c.lockedLanes, peerVers := c.vers, peerFeat := c.feat,
                                         peerWidth := c.cfgWidth }
  (((s.set F.PORT_PEER_GROUP c.group p).set F.PORT_PEER_DEVICE c.device p).set F.PORT_PEER_PORT c.port p).set F.PORT_PEER_VALID 1 p

/-- A lane whose received index differs from its own is left out as failed (R89). -/
def State.misorder (s : State) (l idx : Nat) : State :=
  ((s.modLane l fun x => { x with misordered := true, idxRx := some idx }).set F.LANE_STAT_FAILED 1 l).raise E.LANE_ORDER l

/-- A CAP frame during the capability exchange (R89, R92). DESIGN CHOICE: log entry 125. -/
def State.capExchange (s : State) (p k : Nat) (c : CapCell) : State :=
  let l := s.base p + k
  if (s.lane l).misordered then s
  else if c.laneIdx ≠ k then s.misorder l c.laneIdx
  else
    let s := (s.modLane l fun x => { x with idxRx := some k }).recordPeer p c
    if Nat.land (s.offered p) c.vers = 0 then s.trainFail p else s.settle p (if c.req = 0 then c.propLanes else 0)

/-- The deciding peer has sent a new set, computed before its own agreement: this end takes and echoes it as it did the first (R92). DEDUCED:
log entry 166. -/
def State.newSet (s : State) (p : Nat) (c : CapCell) : Bool :=
  c.req == 0 && c.propLanes != 0 && c.propLanes != (s.port p).act && decide (s.get F.PORT_NONCE_LOCAL p < c.nonce)
    && holdsMask (s.healthyMask p) c.propLanes

/-- A CAP frame during frame lock: a lane with a wrong index (R89), LOCKED, a new set from the deciding end (R92), or a lane of the agreed set
lost at the peer (R93, R767). -/
def State.capFrameLock (s : State) (p k : Nat) (c : CapCell) : State :=
  let l := s.base p + k
  if (s.lane l).misordered then s
  else if c.laneIdx ≠ k then (if bit (s.port p).act k then (s.misorder l c.laneIdx).reagree p else s.misorder l c.laneIdx)
  else
    let s := (s.modLane l fun x => { x with idxRx := some k }).modPort p fun x =>
      { x with peerLocked := c.lockedLanes, gotLocked := x.gotLocked || c.locked }
    if s.newSet p c then
      (s.modPort p fun y => { y with setTx := c.propLanes, setRx := c.propLanes, setSent := 0, gotLocked := false }).portTo p stCapx
    else if holdsMask c.lockedLanes (s.port p).act then s else s.reagree p

/-! ### Width changes (R96, R100 to R102) -/

/-- A width request sent on the proposed lanes. -/
def State.askWidth (s : State) (p prop : Nat) (widen : Bool) : State :=
  (s.modPort p fun x => { x with widthReq := some (prop, widen) }).sendCaps p prop 2 prop false 0

/-- A narrower active set in use: DEGRADED (R100). A lane left out that is healthy here and locked at the peer (`peer`) is ready. DEDUCED:
log entry 145. -/
def State.narrowed (s : State) (p act peer : Nat) : State :=
  let out := Nat.land (s.port p).act (Nat.xor act 0xFF)
  let ready := Nat.lor (s.get F.PORT_STAT_READY p) (Nat.land out (Nat.land (s.healthyMask p) peer))
  let s := ((s.setActive p act).set F.PORT_STAT_READY ready p).modPort p fun x => { x with widthReq := none }
  ((s.inc F.PORT_CNT_DEGRADE p).count 10 p 0x41).raise E.PORT_DEGRADED p

/-- A wider active set in use: RESTORED (R102). -/
def State.widened (s : State) (p act : Nat) : State :=
  let s := (s.setActive p act).modPort p fun x => { x with widthReq := none }
  let s := s.set F.PORT_STAT_READY (Nat.land (s.get F.PORT_STAT_READY p) (Nat.xor act 0xFF)) p
  s.raise E.PORT_RESTORED p

/-- The narrower set is proposed, or the link goes down (R100, R103). -/
def State.degrade (s : State) (p : Nat) : State :=
  let prop := bestBlock (Nat.land (s.healthyMask p) (s.port p).act)
  if s.flag F.PORT_CTL_DEGRADE_EN p && prop != 0 then s.askWidth p prop false else s.linkDown p

/-- The port widens by itself when every configured lane is active or ready (R102). -/
def State.autoWiden (s : State) (p : Nat) : State :=
  let have_ := Nat.lor (s.port p).act (s.get F.PORT_STAT_READY p)
  if s.active p && (s.port p).widthReq.isNone && s.flag F.PORT_CTL_AUTO_RESTORE p && holdsMask have_ (s.fullMask p)
      && (s.port p).act != s.fullMask p then s.askWidth p (s.fullMask p) true else s

/-- A lane of an ACTIVE port declared failed (R99); the port narrows when it is one of the active set (R100). -/
def State.failLane (s : State) (p l : Nat) : State :=
  let k := s.idxOf p l
  let s := (s.set F.LANE_STAT_FAILED 1 l).raise E.LANE_FAILED l
  if bit (s.port p).act k then s.degrade p else s.setBit F.PORT_STAT_READY k false p

/-- A lane set to loopback or to a test pattern counts as failed in a port with EN = 1 (Table 3.5). DEDUCED: log entry 128. -/
def State.laneTest (s : State) (l : Nat) : State := match s.owner l with
  | none => s
  | some p =>
    let st := s.get F.PORT_STAT_STATE p
    let inAct := bit (s.port p).act (s.idxOf p l)
    if s.get F.LANE_CTL_LOOPBACK l = 0 ∧ s.get F.LANE_CTL_PRBS l = 0 ∨ s.flag F.LANE_STAT_FAILED l then s
    else if st = stActive then s.failLane p l
    else if st = stCapx ∨ (st = stFrameLock ∧ inAct) then s.reagree p
    else s

/-- The answer to a width request (R100, R102): to a repeated one the acknowledgement again, nothing being counted twice. -/
def State.widthReply (s : State) (p : Nat) (c : CapCell) : State :=
  let act := (s.port p).act
  let prop := c.propLanes % 256
  if prop = act then s.sendCaps p prop 3 prop false 0
  else if holdsMask act prop then (s.sendCaps p prop 3 prop false 0).narrowed p prop c.lockedLanes
  else if holdsMask (Nat.lor act (s.get F.PORT_STAT_READY p)) prop then (s.sendCaps p prop 3 prop false 0).widened p prop
  else s.sendCaps p act 3 act false 0

/-- A width request received (R96, R100, R102): the leader keeps a widening against a widening, else asks for the block that is healthy at
both ends. The follower answers no request of the leader that holds a lane failed at the follower: it repeats its own until the leader's
covers the failed lanes of both. DEDUCED: log entry 167. -/
def State.widthAsked (s : State) (p : Nat) (c : CapCell) : State :=
  let x := s.port p
  let own := s.get F.PORT_NONCE_LOCAL p
  match x.widthReq with
  | none => s.widthReply p c
  | some (_, widen) =>
    if c.nonce = own then s.redraw p
    else if own < c.nonce then
      if holdsMask (s.healthyMask p) (c.propLanes % 256) then (s.modPort p fun y => { y with widthReq := none }).widthReply p c else s
    else if widen && holdsMask (c.propLanes % 256) x.act then s
    else
      let prop := bestBlock (Nat.land (Nat.land (s.healthyMask p) c.lockedLanes) x.act)
      if prop = 0 then s.linkDown p else s.askWidth p prop false

/-- A width acknowledgement received (R100, R102). -/
def State.widthAnswered (s : State) (p : Nat) (c : CapCell) : State :=
  let x := s.port p
  match x.widthReq with
  | none => s
  | some (prop, widen) =>
    if c.propLanes = prop then (if widen then s.widened p prop else s.narrowed p prop c.lockedLanes)
    else if widen && c.propLanes == x.act then
      let ready := Nat.land (s.get F.PORT_STAT_READY p) (Nat.xor (Nat.land prop (Nat.xor x.act 0xFF)) 0xFF)
      let s := s.each (setBitsOf (Nat.land prop (Nat.xor x.act 0xFF)) 8) fun s k => s.set F.LANE_STAT_FAILED 1 (s.base p + k)
      (s.set F.PORT_STAT_READY ready p).modPort p fun y => { y with widthReq := none }
    else s

/-- A retrain (Table 3.2): link-layer state kept, traffic held, BRINGUP entered. -/
def State.retrain (s : State) (p : Nat) : State := ((s.holdTraffic p).enterBringup p true 0)

/-! ### The lane ladder of a port (R659 to R671) -/

/-- The port is named in MT_SRC, so that it does not enter a rung by itself (R53, R662, R663). -/
def State.namedInSrc (s : State) (p : Nat) : Bool :=
  s.get F.MT_SRC_UP_PORT == p || (s.flag F.MT_SRC_ALT_EN && s.get F.MT_SRC_ALT_PORT == p)

/-- The end is quiet (R661). -/
def State.quiet (s : State) (p : Nat) : Bool :=
  (s.txq p).isEmpty && s.replayUsed p == 0 && (s.link p).held.isEmpty
    && !(s.tile (tileOf p)).resv.any (fun r => r.members.any (·.port == p))
    && (List.range 72).all fun t => !(s.tile t).held.any fun h => h.mc.isEmpty && h.out == tileOf p && h.port == p && h.phase != .parked

/-- The end is idle: quiet, and no DATA frame sent or received for PORT_PWR.IDLE (R661). -/
def State.idle (s : State) (p : Nat) : Bool :=
  s.quiet p && s.over (max (s.link p).lastData (s.port p).idleFrom) (64 * s.get F.PORT_PWR_IDLE p) 64

/-- A rung entered by this end (R664, R666); a commanded entry takes the servo's source away (R53). -/
def State.enterRung (s : State) (p rung deepest : Nat) (cmd : Bool) : State :=
  let s := (s.set F.PORT_PWR_STAT_RUNG rung p).setFlag F.PORT_PWR_STAT_COMMANDED cmd p
  let s := s.modPort p fun x => { x with ladReq := none, ladCmd := none, ladAt := s.now, ladMax := deepest }
  if cmd then s.sourcePortDown p else s

/-- The first rung entered once `rung` has been accepted: Dusk when automatic, the rung itself when commanded (R664). -/
def State.enterAccepted (s : State) (p rung : Nat) (cmd : Bool) : State :=
  if cmd then s.enterRung p rung rung true else s.enterRung p 1 rung false

/-- A request refused or cancelled (R662); under a device command the port is then taken down (R676). -/
def State.ladRefused (s : State) (p : Nat) : State :=
  let s := s.modPort p fun x => { x with ladReq := none, idleFrom := s.now }
  let s := (s.event F.PORT_PWR_STAT_REFUSED 0 p).count 10 p 0x46
  if s.ladder.goal.isSome then s.linkDown p else s

/-- The cell of an ACK frame (R126). -/
def State.ackCell (s : State) (p : Nat) : AckCell :=
  if s.mode p = 2 then ⟨List.replicate 16 0, List.replicate 16 0, 0⟩
  else ⟨(s.link p).vcs.map (·.granted % 4096), (s.link p).vcs.map (·.r % 4096), s.sackMap p 17 1536⟩

/-- An ACK frame sent on a lane index; none in safe state (R124). -/
def State.sendAck (s : State) (p k : Nat) : State :=
  if s.safe then s
  else
    let h := s.frameHead p (s.get F.LNK_STAT_NEXT p) false
    ((s.emit (.frame p k (Frame.ack h (s.ackCell p)).bytes)).frameSent p true).count 11 p 0x44

/-- One ACK frame on the lane whose turn it is (R119). -/
def State.ackInTurn (s : State) (p : Nat) : State := (s.sendAck p (s.turn p)).turned p (s.turn p)

/-- A ladder request sent on every active lane (R662). -/
def State.ladAsk (s : State) (p rung : Nat) (cmd : Bool) : State :=
  let s := s.modPort p fun x => { x with ladReq := some (rung, cmd, s.now), ladCmd := none }
  s.sendCaps p (s.port p).act 0 0 false (ladderWord rung 1 0 (b2n cmd))

/-- The frames of an end that accepts a rung: the accept in 8 CAP frames on every active lane, then one ACK frame (R664). -/
def State.sendAccept (s : State) (p rung : Nat) : State :=
  let act := (s.port p).act
  let s := s.each (List.range 8) fun s _ => s.sendCaps p act 0 0 false (ladderWord rung 2 0 0)
  s.ackInTurn p

/-- The answer to a ladder request (R663 to R665). -/
def State.ladAsked (s : State) (p rung : Nat) (cmd : Bool) : State :=
  let act := (s.port p).act
  match (s.port p).ladReq with
  | some (own, ownCmd, _) => (s.sendAccept p (min own rung)).enterAccepted p (min own rung) (cmd || ownCmd)
  | none =>
    let most := s.get F.PORT_PWR_ACCEPT_MAX p
    if s.quiet p && decide (1 ≤ most) && (cmd || !s.namedInSrc p) then
      (s.sendAccept p (min rung most)).enterAccepted p (min rung most) cmd
    else s.sendCaps p act 0 0 false (ladderWord rung 3 0 0)

/-- The exit of a port from its rung begins (R668). -/
def State.wakePort (s : State) (p : Nat) : State :=
  if s.get F.PORT_PWR_STAT_RUNG p = 0 ∨ (s.port p).wake.isSome then s
  else s.modPort p fun x => { x with wake := some (s.now, s.get F.PORT_PWR_STAT_RUNG p, 0) }

/-- The ladder part of a CAP frame on an ACTIVE port (R660). -/
def State.capLadder (s : State) (p : Nat) (w : Nat) : State :=
  let pmsg := bits w 3 2
  let rung := bits w 0 3
  if !s.feat p 6 then s
  else if pmsg = 1 then s.ladAsked p rung (bit w 6)
  else if pmsg = 2 then
    match (s.port p).ladReq with
    | some (_, cmd, _) => (s.ackInTurn p).enterAccepted p rung cmd
    | none => s
  else if pmsg = 3 then
    match (s.port p).ladReq with
    | some _ => s.ladRefused p
    | none => s
  else s

/-- A CAP frame on an ACTIVE port: a changed nonce, a retrain or width request, or a ladder message (R96, R97, R100). -/
def State.capActive (s : State) (p : Nat) (c : CapCell) : State :=
  if (s.port p).recNonce != some c.nonce then s.linkDown p
  else if c.req = 1 then s.retrain p
  else if c.req = 2 then s.widthAsked p c
  else if c.req = 3 then s.widthAnswered p c
  else s.capLadder p c.ladder

/-- A waking end has a good frame on a lane index (R668). -/
def State.wakeSeen (s : State) (p k : Nat) : State :=
  s.modPort p fun x => { x with wake := x.wake.map fun (at_, r, m) => (at_, r, Nat.lor m (2 ^ k)) }

/-- The nonce that a peer drew anew after equal ones is recorded, and the link stands (R96). -/
def State.heardNonce (s : State) (p : Nat) (c : CapCell) : State :=
  let x := s.port p
  if x.renonce && x.recNonce != some c.nonce then s.modPort p fun y => { y with recNonce := some c.nonce, renonce := false } else s

/-- A CAP frame that a delineated lane delivers. -/
def State.capHeard (s : State) (p k : Nat) (h : FrameHead) (c : CapCell) : State :=
  let st := s.get F.PORT_STAT_STATE p
  let s := if s.keepsLink p then s.applyHead p h h.sack 16 else s
  let s := (s.modPort p fun x => { x with awaitCap := false }).heardNonce p c
  if st = stActive then s.capActive p c
  else if st = stDisabled then s
  else if (s.port p).retrain && (s.port p).recNonce != some c.nonce then s.linkDown p
  else if st = stCapx then s.capExchange p k c
  else if st = stFrameLock then s.capFrameLock p k c
  else s

/-- CAP_FRAME_RX (R92, R96, R97, R767): a CAP frame with good CRC on lane index `k` of a port; in safe state it is not accepted (R641). -/
def execCapFrameRx (p : Fin 1024) (k : Fin 8) (hd rest : List Byte) (s : State) : Host.Outcome State Fault Refusal :=
  match frameOf (hd ++ rest) with
  | some (.cap h c) =>
    let heard := (s.lane (s.base p + k)).delineated && !s.safe
    let s := ((s.goodFrame (s.base p + k)).notFence p).wakeSeen p k
    if heard then .next (s.capHeard p k h c) else .next s
  | _ => .next s

/-- CAP_SEND (R91, R100, R662, R668): the CAP frames that are due, every 256 ns in training and every 64 ns while a request
or a waking end awaits its answer. LOCKED in training is the 8 good frames on every agreed lane. DESIGN CHOICE: log entry 154. -/
def execCapSend (p : Fin 1024) (s : State) : Host.Outcome State Fault Refusal :=
  let st := s.get F.PORT_STAT_STATE p
  let x := s.port p
  if (st = stCapx ∨ st = stFrameLock) ∧ s.due (markCap p) 256 then
    let s := (s.mark (markCap p) 256).sendCaps p (s.lockedMask p) 0 x.setTx (s.frameLocked p) 0
    .next ((s.modPort p fun y => { y with setSent := x.setTx }).tryAgree p)
  else if st = stActive ∧ s.due (markCap p) 64 then
    let s := s.mark (markCap p) 64
    match x.widthReq, x.ladReq, x.wake with
    | some (prop, _), _, _ => .next (s.sendCaps p prop 2 prop false 0)
    | none, some (rung, cmd, _), _ => .next (s.sendCaps p x.act 0 0 false (ladderWord rung 1 0 (b2n cmd)))
    | none, none, some _ =>
      if s.get F.PORT_PWR_STAT_RUNG p = 0 then .next (s.sendCaps p x.act 0 0 false (ladderWord 0 0 1 0)) else .next s
    | none, none, none => .next s
  else .next s

/-- NONCE_REDRAW (R92, R96): after the random wait following equal nonces, a new nonce is drawn. -/
def execNonceRedraw (p : Fin 1024) (s : State) : Host.Outcome State Fault Refusal :=
  match (s.port p).redrawAt with
  | some at_ =>
    if at_ ≤ s.now then
      let s := ((s.set F.PORT_NONCE_LOCAL s.peek p).drawn).modPort p fun x => { x with redrawAt := none, peerNonce := if s.active p then x.peerNonce else none }
      let x := s.port p
      match x.widthReq with
      | some (prop, _) => .next (s.sendCaps p prop 2 prop false 0)
      | none => .next (s.sendCaps p (s.lockedMask p) 0 0 false 0)
    else .next s
  | none => .next s

/-- TRAIN_RESTART (R92): 10 ms after a failed training, bring-up restarts. -/
def execTrainRestart (p : Fin 1024) (s : State) : Host.Outcome State Fault Refusal :=
  match (s.port p).restartAt with
  | some at_ => if at_ ≤ s.now && s.get F.PORT_STAT_STATE p == stBringup then .next (s.enterBringup p (s.port p).retrain 0 false) else .next s
  | none => .next s

/-! ### Enabling and disabling (R87, R94) -/

/-- The fields of PORT_CTL that form a port, from a written word. -/
def State.setForm (s : State) (p v : Nat) : State :=
  (((s.set F.PORT_CTL_LANES (bits v 1 2) p).set F.PORT_CTL_BASE (bits v 8 10) p).set F.PORT_CTL_COMPAT_EN (bits v 22 1) p)

/-- The fields of PORT_CTL that may change at any time. -/
def State.setModes (s : State) (p v : Nat) : State :=
  (s.set F.PORT_CTL_DEGRADE_EN (bits v 20 1) p).set F.PORT_CTL_AUTO_RESTORE (bits v 21 1) p

/-- A written word would change the formation. -/
def State.formChanges (s : State) (p v : Nat) : Bool :=
  s.get F.PORT_CTL_LANES p != bits v 1 2 || s.get F.PORT_CTL_BASE p != bits v 8 10 || s.get F.PORT_CTL_COMPAT_EN p != bits v 22 1

/-- The lanes of a port marked as owned or free (R88); a lane that enters a port has its idle rung to leave (R658). -/
def State.own (s : State) (p : Nat) (on : Bool) : State :=
  s.each (s.lanesOf p) fun s l =>
    let s := (s.setFlag F.LANE_STAT_OWNED on l).set F.LANE_STAT_PORT (if on then p else 0) l
    if on then s.modLane l fun x => { x with rung := s.get F.LANE_PWR_IDLE_RUNG l }
    else (s.modLane l fun x => { x with tx := false }).set F.LANE_STAT_LOCK 0 l

/-- The replay window at the enabling of a port (R149). -/
def State.setWindow (s : State) (p : Nat) : State :=
  let free := s.replaySlots (tileOf p) - s.slotsOthers p
  if s.get F.LNK_REPLAY_SLOTS p ≤ free then s.modPort p fun x => { x with window := none }
  else (s.modPort p fun x => { x with window := some free }).raise E.LNK_SLOTS_REJ p

/-- The port enabled as its PORT_CTL stands. -/
def State.enablePort (s : State) (p : Nat) : State :=
  if s.validForm p (s.base p) (s.width p) then
    let s := ((s.set F.PORT_CTL_EN 1 p).own p true).setWindow p
    let s := (((s.set F.PORT_STAT_FLUSHING 0 p).checkCredit p).checkOvercommit (tileOf p)).checkQuota (tileOf p)
    s.portStart p
  else (s.set F.PORT_CTL_EN 0 p).raise E.PORT_FORM_ERR p

/-- PORT_ENABLE (R87, R94): PORT_CTL written with EN = 1 and the word `v`. DEDUCED: log entry 77. -/
def execPortEnable (p : Fin 1024) (v : Nat) (s : State) : Host.Outcome State Fault Refusal :=
  let s := s.setModes p v
  if s.flag F.PORT_CTL_EN p then .next ((s.raiseIf (s.formChanges p v) E.PORT_FORM_ERR p).autoWiden p)
  else .next ((s.setForm p v).enablePort p)

/-- The port disabled: flushed at once, link-layer state discarded, DISABLED (R94, R106, R671). -/
def State.disablePort (s : State) (p : Nat) : State :=
  let s := State.sourcePortDown { s with xfer := Tab.erase s.xfer p } p
  let s := (s.set F.PORT_CTL_EN 0 p).discardLink p
  let s := ((s.transmit p false).own p false).flushPort p
  let s := ((s.set F.PORT_STAT_FLUSHING 0 p).set F.PORT_PWR_STAT_RUNG 0 p).set F.PORT_PWR_STAT_COMMANDED 0 p
  let s := ((s.set F.PORT_STAT_READY 0 p).set F.PORT_STAT_DEGRADED 0 p).forget p
  (s.modPort p fun x => { PortSt.reset with fenced := x.fenced }).portTo p stDisabled

/-- PORT_DISABLE (R94): PORT_CTL written with EN = 0 and the word `v`. -/
def execPortDisable (p : Fin 1024) (v : Nat) (s : State) : Host.Outcome State Fault Refusal :=
  let s := s.setModes p v
  if s.flag F.PORT_CTL_EN p then .next ((s.raiseIf (s.formChanges p v) E.PORT_FORM_ERR p).disablePort p)
  else .next (s.setForm p v)

/-! ### Bring-up (R79, R90, R94, R98) -/

/-- A lane of a port may lock: its transmitter is fed, the wait of the bring-up is over, and the device is not on its way to a rung or
on one (R676). -/
def State.mayLock (s : State) (p l : Nat) : Bool := s.ladder.goal.isNone && s.get F.PWR_STAT_RUNG == 0 && s.lit l && decide ((s.port p).start ≤ s.now) && (s.port p).restartAt.isNone

/-- LANE_SYMBOL_LOCK (R90, R98): a lane acquires symbol lock, with the settings that adaptation found where no preset is valid (a free
value: log entry 146); on an ACTIVE port it is a lock regained. -/
def execLaneSymbolLock (l : Fin 1024) (s : State) : Host.Outcome State Fault Refusal :=
  match s.owner l with
  | none => .next s
  | some p =>
    let st := s.get F.PORT_STAT_STATE p
    if st = stActive then .next ((s.modLane l fun x => { x with relock := some s.now }).set F.LANE_STAT_LOCK 1 l)
    else if st ≠ stDisabled ∧ s.mayLock p l then
      let s := (s.set F.LANE_STAT_LOCK 1 l).modLane l fun x => { x with good := 0, loss := none }
      let s := if s.flag F.LANE_EQ_VALID l then s else (s.set F.LANE_EQ_LIVE_LIVE s.peek l).drawn
      .next (s.modPort p fun x => { x with firstLock := x.firstLock <|> some s.now })
    else .next s

/-- BRINGUP_DONE (R90): an aligned locked block exists, and every lane has locked or 1 ms has passed since the first; after PEER_FENCED the
peer must have sent a CAP frame again (R129). -/
def execBringupDone (p : Fin 1024) (s : State) : Host.Outcome State Fault Refusal :=
  let x := s.port p
  match x.firstLock with
  | some at_ =>
    if s.get F.PORT_STAT_STATE p = stBringup ∧ x.restartAt = none ∧ x.awaitCap = false ∧ bestBlock (s.healthyMask p) ≠ 0
        ∧ (s.healthyMask p = s.fullMask p ∨ at_ + ns 1000000 ≤ s.now) then .next (s.portTo p stCapx)
    else .next s
  | none => .next s

/-- BRINGUP_TIMEOUT (R94): 200 ms in BRINGUP with no locked lane. -/
def execBringupTimeout (p : Fin 1024) (s : State) : Host.Outcome State Fault Refusal :=
  if s.get F.PORT_STAT_STATE p = stBringup ∧ s.healthyMask p = 0 ∧ (s.port p).start + ns 200000000 ≤ s.now then
    .next ((s.raise E.PORT_TRAIN_FAIL p).modPort p fun x => { x with start := s.now })
  else .next s

/-- BRINGUP_RATE_ALTERNATE (R79): with COMPAT_EN = 1 and no lane locked, the lane rate changes every 5 ms. -/
def execBringupRateAlternate (p : Fin 1024) (s : State) : Host.Outcome State Fault Refusal :=
  if s.get F.PORT_STAT_STATE p = stBringup ∧ s.flag F.PORT_CTL_COMPAT_EN p ∧ s.lockedMask p = 0
      ∧ (s.port p).rateAt + ns 5000000 ≤ s.now then
    .next (s.modPort p fun x => { x with slow := !x.slow, rateAt := s.now })
  else .next s

/-! ### Losing lanes (R98 to R103, R767) -/

/-- The start of a lane's loss timer, unless both locks have been held again for 1 µs (R98). -/
def State.lossStart (s : State) (l : Nat) : Option Nat :=
  let x := s.lane l
  match x.loss, x.relock with
  | some a, some r => if r + ns 1000 ≤ s.now then none else some a
  | a, _ => a

/-- A lane of a port in BRINGUP has lost lock: the 200 ms without a locked lane are counted from the last loss, and the 1 ms from the next lock
when none is left (R90, Table 3.2). DEDUCED: log entry 168. -/
def State.lockGone (s : State) (p : Nat) : State :=
  if s.lockedMask p = 0 then s.modPort p fun x => { x with start := max x.start s.now, firstLock := none } else s

/-- SYMBOL_LOCK_LOSS (R98, R102, R109, R767): a lane loses block or alignment-marker lock; a ready lane is failed again. -/
def execSymbolLockLoss (l : Fin 1024) (s : State) : Host.Outcome State Fault Refusal :=
  match s.owner l with
  | none => .next s
  | some p =>
    if !s.flag F.LANE_STAT_LOCK l || s.get F.PORT_PWR_STAT_RUNG p != 0 then .next s
    else
      let k := s.idxOf p l
      let st := s.get F.PORT_STAT_STATE p
      let inAct := bit (s.port p).act k
      let start := (s.lossStart l).getD s.now
      let s := ((s.set F.LANE_STAT_LOCK 0 l).count 8 l 0x42).raise E.LANE_LOCK_LOSS l
      let s := s.modLane l fun x => { x with loss := some start, relock := none }
      if st = stCapx ∨ (st = stFrameLock ∧ inAct) then .next (s.reagree p)
      else if st = stActive ∧ s.getBit F.PORT_STAT_READY k p then .next (s.failLane p l)
      else if st = stBringup then .next (s.lockGone p)
      else .next s

/-- LANE_LOSS_EXPIRY (R99): the loss timer of a lane of an ACTIVE port reaches LANE_LOSS, or LOCK_LOSS where that is not above it. -/
def execLaneLossExpiry (l : Fin 1024) (s : State) : Host.Outcome State Fault Refusal :=
  match s.owner l, s.lossStart l with
  | some p, some at_ =>
    if s.active p && !s.flag F.LANE_STAT_FAILED l
        && s.over at_ (16 * min (s.get F.PORT_TIMERS_LANE_LOSS p) (s.get F.PORT_TIMERS_LOCK_LOSS p)) 16 then .next (s.failLane p l)
    else .next s
  | _, _ => .next s

/-- Key of a lane's codeword window in `State.marks`. -/
def markUncorr (l : Nat) : Nat := 4000 + l

/-- UNCORR_WINDOW (R99, R114): a 2^20 ns window ends with these counts of corrected and uncorrectable codewords. -/
def execUncorrWindow (l : Fin 1024) (corr uncorr : Nat) (s : State) : Host.Outcome State Fault Refusal :=
  if s.due (markUncorr l) (2 ^ 20) then
    let s := ((s.mark (markUncorr l) (2 ^ 20)).inc F.LANE_FEC_CORR l (d := corr)).inc F.LANE_FEC_UNCORR l (d := uncorr)
    let s := (s.count 8 l 0x40 corr).count 8 l 0x41 uncorr
    let s := s.raiseIf (decide (0 < uncorr)) E.LANE_FEC_UNCORR l
    let most := s.get F.LANE_CTL_UNCORR_MAX l
    match s.owner l with
    | some p =>
      if most ≠ 0 ∧ most < uncorr ∧ s.active p ∧ !s.flag F.LANE_STAT_FAILED l then .next (s.failLane p l)
      else .next s
    | none => .next s
  else .next s

/-- LANE_RETRY_ATTEMPT (R102): an attempt of a lane of a narrow port that has failed at either end, so that it is neither active nor ready, ends
with the lock it found at both ends and the index received; every 10 ms. A lane that locks carries CAP frames on itself alone. DEDUCED: log
entry 79. -/
def execLaneRetryAttempt (l : Fin 1024) (locked : Bool) (idx : Fin 8) (s : State) : Host.Outcome State Fault Refusal :=
  match s.owner l with
  | some p =>
    let k := s.idxOf p l
    if s.active p && !bit (s.port p).act k && !s.getBit F.PORT_STAT_READY k p && !(s.lane l).fenced && s.lit l
        && s.get F.LANE_CTL_LOOPBACK l == 0 && s.get F.LANE_CTL_PRBS l == 0
        && decide ((s.lane l).attemptAt + ns 10000000 ≤ s.now) then
      let s := s.modLane l fun x => { x with attemptAt := s.now, idxRx := if locked then some idx.val else none }
      let s := if locked then s.sendCaps p (2 ^ k) 0 0 false 0 else s
      if !locked then .next s
      else if idx.val ≠ k then .next (s.misorder l idx)
      else
        let s := ((s.set F.LANE_STAT_LOCK 1 l).set F.LANE_STAT_FAILED 0 l).setBit F.PORT_STAT_READY k true p
        let s := s.modLane l fun x => { x with misordered := false, loss := none, relock := none, good := 8, bad := 0, delineated := true }
        .next (s.autoWiden p)
    else .next s
  | none => .next s

/-- PORT_RESTORE (R102): the port widens to the largest aligned block of active or ready lanes, when that is wider. -/
def execPortRestore (p : Fin 1024) (s : State) : Host.Outcome State Fault Refusal :=
  let best := bestBlock (Nat.land (Nat.lor (s.port p).act (s.get F.PORT_STAT_READY p)) (s.fullMask p))
  if s.active p && decide (laneCount (s.port p).act < laneCount best) then .next (s.askWidth p best true) else .next s

/-- A retrain begun here: the peer asked, link-layer state kept, BRINGUP (R94). -/
def State.askRetrain (s : State) (p : Nat) : State := (s.sendCaps p (s.port p).act 1 0 false 0).retrain p

/-- PORT_RETRAIN (R94, R668): a retrain; a port below Run, or on its way out of a rung, exits first. -/
def execPortRetrain (p : Fin 1024) (s : State) : Host.Outcome State Fault Refusal :=
  if s.active p then
    if s.get F.PORT_PWR_STAT_RUNG p != 0 || (s.port p).wake.isSome then .next ((s.wakePort p).modPort p fun x => { x with retrainDue := true })
    else .next (s.askRetrain p)
  else .next s

/-- PORT_DOWN (R103, R108): PORT_CMD.DOWN takes the link of an ACTIVE or retraining port down. -/
def execPortDown (p : Fin 1024) (s : State) : Host.Outcome State Fault Refusal := .next (s.linkDown p)

/-- LOCK_LOSS_EXPIRY (R103): every active lane has been without lock for LOCK_LOSS. -/
def execLockLossExpiry (p : Fin 1024) (s : State) : Host.Outcome State Fault Refusal :=
  let gone := fun k => match s.lossStart (s.base p + k) with
    | some at_ => s.over at_ (16 * s.get F.PORT_TIMERS_LOCK_LOSS p) 16
    | none => false
  if s.active p && s.get F.PORT_PWR_STAT_RUNG p == 0 && (setBitsOf (s.port p).act 8).all gone then .next (s.linkDown p) else .next s

/-- GRACE_EXPIRY (R106): grace ends before ACTIVE; the port is flushed and its link-layer state discarded. -/
def execGraceExpiry (p : Fin 1024) (s : State) : Host.Outcome State Fault Refusal :=
  match (s.port p).grace with
  | some at_ =>
    if !s.active p && !s.flag F.PORT_STAT_FLUSHING p && s.flag F.PORT_CTL_EN p && s.over at_ (16 * s.get F.PORT_TIMERS_GRACE p) 16 then
      .next ((((s.sourcePortDown p).discardLink p).flushPort p).modPort p fun x => { x with retrain := false })
    else .next s
  | none => .next s

/-- RCAL_STEP (R110, R111): live recalibration moves one coefficient, at most once in 2^17 ns; `live` is the new word and
`drifted` tells that it left the stored tolerance. -/
def execRcalStep (l : Fin 1024) (live : Nat) (drifted : Bool) (s : State) : Host.Outcome State Fault Refusal :=
  if s.flag F.LANE_CTL_RCAL_EN l && decide ((s.lane l).rcalAt + ns (2 ^ 17) ≤ s.now) then
    let s := (s.set F.LANE_EQ_LIVE_LIVE live l).modLane l fun x => { x with rcalAt := s.now }
    .next (s.raiseIf drifted E.LANE_RCAL_DRIFT l)
  else .next s

/-! ### Optical engines (R80 to R85) -/

/-- The ports with EN = 1 that hold a lane of a list. -/
def State.portsOn (s : State) (lanes : List Nat) : List Nat := (lanes.filterMap s.owner).eraseDups

/-- Lanes of an optical engine, and of one of its feed fibres (R81). -/
def lanesOfOpt (e : Nat) : List Nat := (List.range 64).map (64 * e + ·)
def lanesOfFeed (e f : Nat) : List Nat := (List.range 8).map (64 * e + 8 * f + ·)

/-- The transmitters of some lanes off, and every port holding one of them down at once (R82, R83); one in training agrees anew (R767). -/
def State.darken (s : State) (lanes : List Nat) : State :=
  let ps := s.portsOn lanes
  let s := s.each ps State.linkDown
  let s := s.each lanes fun s l => (s.modLane l fun x => { x with tx := false }).set F.LANE_STAT_LOCK 0 l
  s.each ps fun s p =>
    let st := s.get F.PORT_STAT_STATE p
    if st = stCapx ∨ (st = stFrameLock ∧ !holdsMask (s.healthyMask p) (s.port p).act) then s.reagree p
    else if st = stBringup then s.lockGone p else s

/-- OPT_REACH_WRITE (R80): REACH changed, or refused while a lane of the engine belongs to an enabled port. -/
def execOptReachWrite (e : Fin 16) (reach : Fin 2) (s : State) : Host.Outcome State Fault Refusal :=
  if s.get F.OPT_CTL_REACH e = reach then .next s
  else if (s.portsOn (lanesOfOpt e)).isEmpty then .next (s.set F.OPT_CTL_REACH reach e)
  else .next ((s.event F.OPT_STAT_REACH_REJ 0 e).raise E.OPT_REACH_REJ e)

/-- The power of a feed fibre measured (R82, R84): FEED_LOW raised as it falls below that threshold, the time below FEED_MIN and the time at
or above FEED_LOW kept. -/
def State.feedPower (s : State) (e f pwr : Nat) : State :=
  let v := signedOf (pwr % 2 ^ 16) 16
  let low := decide (v < s.sget F.OPT_CTL_FEED_LOW e)
  let under := decide (v < s.sget F.OPT_CTL_FEED_MIN e)
  let fell := low && !(s.optic e).low.contains f
  let start := fun (t : Tab Nat) => if t.any (·.1 == f) then t else Tab.insert t f s.now
  let s := (s.set F.OPT_FEED_PWR pwr e f).modOpt e fun x =>
    { x with above := if low then Tab.erase x.above f else start x.above, below := if under then start x.below else Tab.erase x.below f,
             low := if fell then x.low ++ [f] else if low then x.low else x.low.filter (· != f),
             lost := if under then x.lost else x.lost.filter (· != f) }
  s.raiseIf fell E.OPT_FEED_LOW e

/-- FEED_LOW (R82): the power of a feed fibre has fallen; `pwr` is the level as a signed 16-bit field. -/
def execFeedLow (e : Fin 16) (f : Fin 8) (pwr : Nat) (s : State) : Host.Outcome State Fault Refusal := .next (s.feedPower e f pwr)

/-- FEED_LOST (R82): the power has stayed below FEED_MIN for 1 µs. The fibre is no longer qualified, as at the removal of its module, and at
no other event. DESIGN CHOICE: log entry 147. -/
def execFeedLost (e : Fin 16) (f : Fin 8) (s : State) : Host.Outcome State Fault Refusal :=
  match (s.optic e).below.find? (·.1 == f.val) with
  | some (_, at_) =>
    if at_ + ns 1000 ≤ s.now ∧ !(s.optic e).lost.contains f.val then
      let s := (s.modOpt e fun x => { x with lost := x.lost ++ [f.val] }).setBit F.OPT_STAT_FEED_OK f false e
      .next ((s.darken (lanesOfFeed e f)).raise E.OPT_FEED_LOST e)
    else .next s
  | none => .next s

/-- LSRC_REMOVED (R83): LSRC_PRSNT_N goes high; 64 transmitters off and the engine's ports down. -/
def execLsrcRemoved (e : Fin 16) (s : State) : Host.Outcome State Fault Refusal :=
  let s := s.modOpt e fun x => { x with prsnt := false, prsntAt := s.now, inserted := false, below := [], above := [], lost := [] }
  let s := ((s.set F.OPT_STAT_LSRC_PRSNT 0 e).set F.OPT_STAT_FEED_OK 0 e).set F.OPT_LSRC_VALID 0 e
  .next ((s.darken (lanesOfOpt e)).raise E.OPT_LSRC_REMOVED e)

/-- LSRC_INSERTED (R84): LSRC_PRSNT_N goes low (the first time), and then has stayed low for 50 ms. -/
def execLsrcInserted (e : Fin 16) (s : State) : Host.Outcome State Fault Refusal :=
  let x := s.optic e
  if !x.prsnt then .next ((s.modOpt e fun x => { x with prsnt := true, prsntAt := s.now }).set F.OPT_STAT_LSRC_PRSNT 1 e)
  else if !x.inserted && decide (x.prsntAt + ns 50000000 ≤ s.now) then
    .next ((s.modOpt e fun x => { x with inserted := true }).raise E.OPT_LSRC_INSERTED e)
  else .next s

/-- A port in BRINGUP starts afresh as one of its fibres qualifies: the transmitters on, at 200 Gb/s (R79, R84). -/
def State.litAgain (s : State) (p : Nat) : State :=
  if s.get F.PORT_STAT_STATE p = stBringup then
    (s.transmit p true).modPort p fun x => { x with start := s.now, rateAt := s.now, slow := false }
  else s

/-- FEED_QUALIFIED (R84): a feed fibre of a present module at or above FEED_LOW (the first time), held for 10 ms; bring-up of its ports may
start. -/
def execFeedQualified (e : Fin 16) (f : Fin 8) (pwr : Nat) (s : State) : Host.Outcome State Fault Refusal :=
  let s := s.feedPower e f pwr
  match (s.optic e).above.find? (·.1 == f.val) with
  | some (_, at_) =>
    if at_ + ns 10000000 ≤ s.now && !s.getBit F.OPT_STAT_FEED_OK f e && (s.optic e).prsnt then
      .next (State.each (s.portsOn (lanesOfFeed e f)) State.litAgain (s.setBit F.OPT_STAT_FEED_OK f true e))
    else .next s
  | none => .next s

/-- Key of the monitor refresh in `State.marks`. -/
def markMonitor (l : Nat) : Nat := 6000 + l

/-- MONITOR_REFRESH (R85): every 2^20 ns a lane's monitors and its feed's power are loaded with the values measured. -/
def execMonitorRefresh (l : Fin 1024) (rx bias temp feed : Nat) (s : State) : Host.Outcome State Fault Refusal :=
  if s.due (markMonitor l) (2 ^ 20) then
    let s := ((s.mark (markMonitor l) (2 ^ 20)).set F.LANE_MON_RX_PWR rx l).set F.LANE_MON_MOD_BIAS bias l
    .next ((s.set F.LANE_MON_TEMP temp l).set F.OPT_FEED_PWR feed (l.val / 64) (l.val % 64 / 8))
  else .next s

/-- Key of a laser module's poll in `State.marks`. -/
def markLsrc (e : Nat) : Nat := 7100 + e

/-! ### The lane ladder commands (R662 to R671) -/

/-- A commanded request, sent once the end is quiet (R662). -/
def State.ladCommand (s : State) (p : Nat) : State :=
  match (s.port p).ladCmd with
  | some r => if s.active p && s.feat p 6 && s.quiet p && (s.port p).ladReq.isNone && s.get F.PORT_PWR_STAT_RUNG p == 0 then s.ladAsk p r true else s
  | none => s

/-- PORT_IDLE_REQUEST (R662): an idle end asks for AUTO_MAX; a commanded request that has waited goes once the end is quiet. -/
def execPortIdleRequest (p : Fin 1024) (s : State) : Host.Outcome State Fault Refusal :=
  let x := s.port p
  if s.active p && s.feat p 6 && decide (1 ≤ s.get F.PORT_PWR_AUTO_MAX p) && s.idle p && !s.namedInSrc p && x.ladReq.isNone && x.ladCmd.isNone
      && x.wake.isNone && x.widthReq.isNone && s.get F.PORT_PWR_STAT_RUNG p == 0 then
    .next (s.ladAsk p (s.get F.PORT_PWR_AUTO_MAX p) false)
  else .next (s.ladCommand p)

/-- PORT_RUNG_CMD (R662, R668): CMD_GO written with CMD_RUNG; rung 0 begins the exit. A waiting command is tried again. -/
def execPortRungCmd (p : Fin 1024) (rung : Fin 8) (s : State) : Host.Outcome State Fault Refusal :=
  let s := s.set F.PORT_PWR_CMD_RUNG rung p
  if rung.val = 0 then .next ((s.modPort p fun x => { x with ladCmd := none }).wakePort p)
  else if rung.val ≤ 4 then .next ((s.modPort p fun x => { x with ladCmd := some rung.val }).ladCommand p)
  else .next s

/-- LADDER_REQ_TIMEOUT (R662): no answer for 100 µs, or a packet queued before the answer: the end stays in Run. -/
def execLadderReqTimeout (p : Fin 1024) (s : State) : Host.Outcome State Fault Refusal :=
  match (s.port p).ladReq with
  | some (rung, _, at_) =>
    if !s.quiet p then .next ((s.sendCaps p (s.port p).act 0 0 false (ladderWord rung 3 0 0)).ladRefused p)
    else if at_ + ns 100000 ≤ s.now then .next (s.ladRefused p)
    else .next s
  | none => .next s

/-- RUNG_STEP_DOWN (R666): after automatic entry to rung K, rung j is entered 10^(j-1) idle times after the entry. -/
def execRungStepDown (p : Fin 1024) (s : State) : Host.Outcome State Fault Refusal :=
  let x := s.port p
  let j := s.get F.PORT_PWR_STAT_RUNG p + 1
  if 2 ≤ j ∧ j ≤ x.ladMax ∧ !s.flag F.PORT_PWR_STAT_COMMANDED p ∧ x.wake = none
      ∧ s.over x.ladAt (10 ^ (j - 1) * s.get F.PORT_PWR_IDLE p * 64) 64 then .next (s.set F.PORT_PWR_STAT_RUNG j p)
  else .next s

/-- PORT_WAKE (R668): an exit trigger: a packet queued for the port, light from the peer, or the wake going on once every
lane has had a good frame, with the retrain that waited for it. -/
def execPortWake (p : Fin 1024) (light : Bool) (s : State) : Host.Outcome State Fault Refusal :=
  let x := s.port p
  match x.wake with
  | some (_, _, m) =>
    if s.get F.PORT_PWR_STAT_RUNG p = 0 ∧ holdsMask m x.act then
      let s := s.modPort p fun y => { y with wake := none, idleFrom := s.now, ladMax := 0, retrainDue := false }
      .next (if x.retrainDue then s.askRetrain p else s)
    else .next s
  | none => if light || !s.quiet p then .next (s.wakePort p) else .next s

/-- WAKE_TIMEOUT (R670): no good frame on every active lane in time after the trigger; `d` is the one-way delay in ns. -/
def execWakeTimeout (p : Fin 1024) (d : Nat) (s : State) : Host.Outcome State Fault Refusal :=
  let x := s.port p
  match x.wake with
  | some (at_, rung, m) =>
    if !holdsMask m x.act && decide (at_ + ns (exitNs rung true + 2 * d + 16 * s.get F.PORT_TIMERS_LOCK_LOSS p) ≤ s.now) then
      .next ((s.linkDown p).raise E.PORT_WAKE_FAIL p)
    else .next s
  | none => .next s

end Sys2Proof.Machine
end

