-- ==== Sys2Proof/Machine/Frames.lean ====
section
/-!
DEFINITION. Frames sent and received in ACTIVE (chapter "Romiek Link Protocol"): the choice at each frame slot, the receiver's
handling of DATA, IDLE, ACK and FENCE frames, and the replay timer.
-/
namespace Sys2Proof.Machine
open Sys2Proof

/-! ### Sending (R119 to R125, R134, R137) -/

/-- The time transfer of a port. -/
def State.xferOf (s : State) (p : Nat) : TimeXfer := Tab.get TimeXfer.reset s.xfer p
def State.modXfer (s : State) (p : Nat) (f : TimeXfer → TimeXfer) : State := { s with xfer := Tab.modify TimeXfer.reset s.xfer p f }

/-- A port carries TIME frames (R128, R159). -/
def State.hasTime (s : State) (p : Nat) : Bool := s.active p && s.mode p == 1 && s.feat p 1

/-- The TIME cell with the device's own state, bound and hop count (Table 4.2). -/
def State.timeCell (s : State) (response : Bool) (xid echo : Nat) : TimeCell :=
  { response := response, state := s.get F.MT_STAT_STATE, hops := s.get F.MT_STAT_HOPS, errNs := s.errNow, xid := xid,
    txStamp := s.mtNs, echo := echo }

/-- A control frame sent on a lane index, and counted. -/
def State.sendControl (s : State) (p k : Nat) (f : FrameHead → Frame) : State :=
  let h := s.frameHead p (s.get F.LNK_STAT_NEXT p) false
  ((s.emit (.frame p k (f h).bytes)).frameSent p false).count 11 p 0x44

/-- The TIME response that is owed (R128). -/
def State.sendResponse (s : State) (p k : Nat) (q : Nat × Nat × Nat) : State :=
  let (xid, t1, t2) := q
  let s := s.sendControl p k fun h => .time h (s.timeCell true xid t2)
  s.modXfer p fun x => { x with owed := x.owed.drop 1, ans := some (xid, t1, t2, s.mtNs) }

/-- The TIME request that is due (R128). -/
def State.sendRequest (s : State) (p k : Nat) : State :=
  let x := s.xferOf p
  let s := s.sendControl p k fun h => .time h (s.timeCell false x.xid x.t4)
  s.modXfer p fun x => { x with reqDue := false, xid := (x.xid + 1) % 2 ^ 32, t4 := 0 }

/-- A DATA frame on a lane index. -/
def State.sendData (s : State) (p k : Nat) (f : TxFrame) (rtx : Bool) : State :=
  let vc := if s.mode p = 2 then rlp2Vc f.vc else f.vc
  let d : DataFrame := { head := s.frameHead p f.seq rtx, ep := s.mode p != 2 && f.ep, vc := vc, sop := f.sop, eop := f.eop, cell := f.cell }
  ((s.emit (.frame p k (Frame.data d).bytes)).frameSent p false).modLink p fun x => { x with lastData := s.now, order := x.order + 1 }

/-- The oldest frame that is owed a resend. -/
def State.resendHead (s : State) (p : Nat) : Option TxFrame :=
  match (s.link p).resend with
  | q :: _ => (s.link p).replay.find? (·.seq == q)
  | [] => none

/-- A frame resent: it takes its new place in the order of sending, and the timer restarts (R134, R135). -/
def State.resend (s : State) (p k : Nat) (f : TxFrame) : State :=
  let o := (s.link p).order
  let s := s.sendData p k f true
  let s := s.modLink p fun x => { x with resend := x.resend.drop 1, replay := updWhere (·.seq == f.seq) (fun g => { g with order := o }) x.replay }
  (s.restartTimer p).count 11 p 0x41

/-- The next cell of a packet sent as a new DATA frame (R121, R122, R130, R135). -/
def State.sendNew (s : State) (p k : Nat) (r : Resv) : State :=
  let i := r.n - r.leftFor p
  let pkt := if s.mode p = 2 then r.pkt.toRlp2 else r.pkt
  let next := s.get F.LNK_STAT_NEXT p
  let f : TxFrame := ⟨next, r.vc, r.pkt.ep, i == 0, i + 1 == r.n, pkt.cell i, (s.link p).order, false, false⟩
  let s := (s.sendData p k f false).modLink p fun x => { x with replay := x.replay ++ [f], timer := x.timer <|> some s.now }
  let s := (s.set F.LNK_STAT_NEXT ((next + 1) % 2 ^ 20) p).modVc p r.vc fun v => { v with sent := v.sent + 1 }
  let s := ((s.raisePeak F.LNK_REPLAY_PEAK (s.replayUsed p) p).takeCell p r).count 11 p 0x40
  s.count 15 (tileOf p) (if isMgtVc r.vc then 0x48 else 0x40 + r.pkt.sl)

/-- A service level has a waiting queue that only its shaper holds back (Table 7.3). -/
def State.shaperHeld (s : State) (p sl : Nat) : Bool :=
  !s.shaperOk (tileOf p) (8 * (p % 16) + sl)
    && dataVcs.any fun vc => (s.txHead p vc sl).isSome && !s.vcBusy p vc && decide (0 < s.txAvail p vc)

/-- The counts of a slot in which the choice of a new DATA frame was reached (Table 7.3). -/
def State.countHeldBack (s : State) (p : Nat) : State :=
  s.each (List.range 8) fun s sl => if s.shaperHeld p sl then s.count 15 (tileOf p) (0x50 + sl) else s

/-- Cells wait and no VC with one has credit (Table 7.3). -/
def State.noCredit (s : State) (p : Nat) : Bool :=
  !(s.txq p).isEmpty && (s.txq p).all fun r => s.txAvail p r.vc == 0

/-- The last two choices of R124: an ACK frame for an unreported change, else IDLE. -/
def State.sendFiller (s : State) (p k : Nat) : State :=
  if (s.link p).ackOwed || !(s.link p).unrep.isEmpty then s.sendAck p k else s.sendControl p k .idle

/-- A new DATA frame where the window and the scheduler allow one, or a filler (R124, R137). -/
def State.sendFresh (s : State) (p k : Nat) : State :=
  if s.dataStopped p then s.sendFiller p k
  else if s.window p ≤ s.replayUsed p then (s.count 11 p 0x46).sendFiller p k
  else
    let s := s.countHeldBack p
    let short := s.noCredit p
    match s.chooseCell p with
    | (some r, s) => s.sendNew p k r
    | (none, s) => (if short then s.count 11 p 0x45 else s).sendFiller p k

/-- The choices 3 to 7 of R124. -/
def State.dataSlot (s : State) (p k : Nat) : State :=
  if 2 ^ s.get F.LNK_CTL_ACK_K p ≤ (s.link p).sinceAck then s.sendAck p k
  else match s.resendHead p with
    | some f => if s.dataStopped p then s.sendFiller p k else s.resend p k f
    | none => s.sendFresh p k

/-- The frame of an ACTIVE port's slot on lane index `k` (R119, R124): a TIME frame on the lowest active lane, else the next frame in the
rotation when it is the lane's turn. DEDUCED: log entry 148. -/
def State.activeSlot (s : State) (p k : Nat) : State :=
  let x := s.xferOf p
  let low := s.hasTime p && k == lowLane (s.port p).act
  if low && !x.owed.isEmpty then (s.sendResponse p k (x.owed.headD (0, 0, 0))).turned p k
  else if low && x.reqDue then (s.sendRequest p k).turned p k
  else if k = s.turn p then (s.dataSlot p k).turned p k
  else s

/-- The FENCE cell of the device (Table 4.2). -/
def State.fenceCell (s : State) (p : Nat) : FenceCell :=
  { reason := 0, mt := s.flt.safeMt, group := s.get F.DEV_SELF_GROUP, device := s.get F.DEV_SELF_DEVICE, port := p }

/-- FRAME_SLOT (R124): one frame slot of lane index `k` of a port: FENCE in safe state, R124 in ACTIVE, IDLE in frame lock. A
port below Run sends nothing. -/
def execFrameSlot (p : Fin 1024) (k : Fin 8) (s : State) : Host.Outcome State Fault Refusal :=
  let st := s.get F.PORT_STAT_STATE p
  if s.safe then
    .next (if (s.lane (s.base p + k)).tx && decide (k.val < s.width p) then s.sendControl p k fun h => .fence h (s.fenceCell p) else s)
  else if st = stActive && bit (s.port p).act k && s.get F.PORT_PWR_STAT_RUNG p == 0 then .next (s.activeSlot p k)
  else if st = stFrameLock && bit (s.port p).act k then .next (s.sendControl p k .idle)
  else .next s

/-! ### Receiving (R117, R129 to R133, R145, R157) -/

/-- A frame with good CRC on a lane index: the lane's count, and the waking end's record. -/
def State.heard (s : State) (p k : Nat) : State := (s.goodFrame (s.base p + k)).wakeSeen p k

/-- A DATA frame received and kept, presented at once or held: counted against its grant, and the VC active from now (R131, R139, R141).
DESIGN CHOICE: log entry 149. -/
def State.noteRx (s : State) (p vc : Nat) : State :=
  (s.modVc p vc fun v => { v with accepted := v.accepted + 1, lastAcc := some s.now }).modLink p fun x => { x with lastData := s.now }

/-- The frame with the expected sequence number, and the held ones that follow it, presented (R131). -/
def State.accept (s : State) (p : Nat) (f : RxFrame) : State :=
  let s := (s.noteRx p f.vc).set F.LNK_STAT_EXPECT ((f.seq + 1) % 2 ^ 20) p
  (s.present p f).presentHeld p (s.link p).held.length

/-- A DATA frame discarded as a duplicate, or out of sequence on a compatibility link (R131, R157). -/
def State.discardData (s : State) (p : Nat) : State := s.inc F.LNK_CNT_ERR_DISC p

/-- A credit violation (R131). -/
def State.creditViolation (s : State) (p : Nat) : State := (s.inc F.LNK_CNT_MISC_CR_VIOL p).raise E.LNK_CR_VIOLATION p

/-- The cell of a DATA frame taken by an RLP3 receiver (R131). DEDUCED: log entry 68. -/
def State.takeData (s : State) (p : Nat) (f : RxFrame) : State :=
  let e := s.get F.LNK_STAT_EXPECT p
  if (f.seq ≠ e ∧ !ahead f.seq e) ∨ (s.link p).held.any (·.seq == f.seq) then s.discardData p
  else if s.grantOut p f.vc = 0 then s.creditViolation p
  else if f.seq = e then s.accept p f
  else (s.noteRx p f.vc).modLink p fun x => { x with held := x.held ++ [f] }

/-- The cell of a DATA frame taken by the receiver of a compatibility link (R157). -/
def State.takeCompat (s : State) (p : Nat) (f : RxFrame) : State :=
  let e := s.get F.LNK_STAT_EXPECT p
  if f.seq = e then (if s.grantOut p f.vc = 0 then s.creditViolation p else s.accept p f)
  else
    let s := s.discardData p
    if ahead f.seq e && (s.link p).nakFor != some e then s.modLink p fun x => { x with nak := true, nakFor := some e } else s

/-- A received frame's acknowledgement and credit fields applied where link-layer state stands (R132). -/
def State.applyAlways (s : State) (p : Nat) (h : FrameHead) : State := if s.keepsLink p then s.applyHead p h h.sack 16 else s

/-- A lane delivers the frames it receives. -/
def State.hears (s : State) (p k : Nat) : Bool := (s.lane (s.base p + k)).delineated

/-- A DATA frame delivered to a port that accepts frames (R131, R157). -/
def State.dataHeard (s : State) (p : Nat) (f : DataFrame) : State :=
  let s := (s.applyHead p f.head f.head.sack 16).count 11 p 0x42
  let q := fun vc => (⟨f.head.seq % 2 ^ 20, vc, f.ep, f.sop, f.eop, f.cell⟩ : RxFrame)
  if s.mode p = 2 then s.takeCompat p (q (rlp3Vc (f.vc % 12))) else s.takeData p (q (f.vc % 16))

/-- DATA_FRAME_RX (R131, R132, R157): a DATA frame with good CRC on lane index `k`. -/
def execDataFrameRx (p : Fin 1024) (k : Fin 8) (b : List Byte) (s : State) : Host.Outcome State Fault Refusal :=
  match frameOf b with
  | some (.data f) =>
    let ok := s.hears p k
    let s := (s.heard p k).notFence p
    if !ok then .next s else if s.accepts p then .next (s.dataHeard p f) else .next (s.applyAlways p f.head)
  | _ => .next s

/-- IDLE_FRAME_RX (R125, R132): an IDLE frame's acknowledgement, credit and congestion fields are applied. -/
def execIdleFrameRx (p : Fin 1024) (k : Fin 8) (b : List Byte) (s : State) : Host.Outcome State Fault Refusal :=
  match frameOf b with
  | some (.idle h) =>
    let ok := s.hears p k
    let s := (s.heard p k).notFence p
    if ok then .next (s.applyAlways p h) else .next s
  | _ => .next s

/-- Every grant and release count of an ACK cell applied (R144, R145). -/
def State.applyAckCell (s : State) (p : Nat) (c : AckCell) : State :=
  s.each (List.range 16) fun s v => (s.applyGrant p v (c.grants.getD v 0 % 4096)).applyRelease p v (c.releases.getD v 0 % 4096)

/-- An ACK frame applied: the grants, the releases and the bitmap of 1,552 frames; on a compatibility link the cell is not read (R153). -/
def State.ackHeard (s : State) (p : Nat) (h : FrameHead) (c : AckCell) : State :=
  if s.mode p = 2 then s.applyHead p h h.sack 16
  else (s.applyHead p h (h.sack % 2 ^ 16 + c.xsack % 2 ^ 1536 * 2 ^ 16) 1552).applyAckCell p c

/-- ACK_FRAME_RX (R126, R132, R145): an ACK frame with good CRC. -/
def execAckFrameRx (p : Fin 1024) (k : Fin 8) (hd rest : List Byte) (s : State) : Host.Outcome State Fault Refusal :=
  match frameOf (hd ++ rest) with
  | some (.ack h c) =>
    let ok := s.hears p k
    let s := (s.heard p k).notFence p
    if ok && s.keepsLink p then .next (s.ackHeard p h c) else .next s
  | _ => .next s

/-- The fourth FENCE frame in a row takes the link down, and the port waits in BRINGUP for a CAP frame (R129). -/
def State.peerFenced (s : State) (p : Nat) : State :=
  ((s.raise E.LNK_PEER_FENCED p).linkDown p).modPort p fun x => { x with awaitCap := true }

/-- FENCE_FRAME_RX (R129): the fourth FENCE frame in a row takes the link down. DEDUCED: log entry 69. -/
def execFenceFrameRx (p : Fin 1024) (k : Fin 8) (b : List Byte) (s : State) : Host.Outcome State Fault Refusal :=
  match frameOf b with
  | some (.fence h _) =>
    let ok := s.hears p k && s.get F.PORT_STAT_STATE p != stDisabled
    let s := s.heard p k
    if ok then
      let s := s.applyAlways p h
      let n := (s.link p).fenceRun + 1
      let s := s.modLink p fun x => { x with fenceRun := n }
      .next (if n = 4 then s.peerFenced p else s)
    else .next s
  | _ => .next s

/-! ### The replay timer (R135, R136) -/

/-- An expiry of the replay timer: every unacknowledged frame not marked is resent and counted (R135); on a compatibility link
every one from PEER_CACK onward (R157). DEDUCED: log entry 70. -/
def State.replayExpired (s : State) (p : Nat) : State :=
  let s := s.resendAll p (s.mode p == 2)
  let s := (s.inc F.LNK_CNT_RTX_TIMER p (d := (s.link p).resend.length)).inc F.LNK_RTX_EXP_NOW p
  (s.restartTimer p).raise E.LNK_RTX_TIMER p

/-- REPLAY_TIMEOUT (R135, R136): the replay timer has run for TIMEOUT; the expiry of number MAX_EXP in a row takes the link
down. No expiry counts while the port is not ACTIVE. DESIGN CHOICE: log entry 155. -/
def execReplayTimeout (p : Fin 1024) (s : State) : Host.Outcome State Fault Refusal :=
  match (s.link p).timer with
  | some at_ =>
    if s.active p && s.over at_ (16 * s.get F.LNK_RTX_TIMEOUT p) 16 then
      let s := s.replayExpired p
      if s.get F.LNK_RTX_MAX_EXP p ≤ s.get F.LNK_RTX_EXP_NOW p then
        .next (((s.inc F.LNK_CNT_MISC_EXHAUST p).raise E.LNK_RTX_EXHAUST p).linkDown p)
      else .next s
    else .next s
  | none => .next s

end Sys2Proof.Machine
end

