-- ==== Sys2Proof/Machine/Time.lean ====
section
/-!
DEFINITION. Meridian time (that chapter): the clock, the servo and its sources, TIME frames, the PPS output; the alarms (R66 to
R72) and the arming of pages (R600 to R603).
-/
namespace Sys2Proof.Machine
open Sys2Proof

/-! ### The clock (R40, R58, R65) -/

/-- MT wraps at 2^64 ns. -/
def mtSpan : Nat := 2 ^ 64 * unitsPerNs

/-- A number held within two bounds. -/
def clampInt (lo hi x : Int) : Int := if x < lo then lo else if hi < x then hi else x

/-- The device is Dark and no wake is under way (R44, R678). -/
def State.dark (s : State) : Bool := s.get F.PWR_STAT_RUNG == 5 && s.ladder.wakeAt.isNone

/-- One core clock passes: MT advances at its rate, slewed by at most MAX_PPB (R58), and so does elapsed MT (R65); in Dark both stand
(R44). A level of TIME_PPS_OUT whose width has passed falls (R48). -/
def State.clock (s : State) : State :=
  let m : Int := s.get F.MT_SLEW_MAX_PPB
  let adj := clampInt (-m) m (s.servo.freq + s.servo.slew)
  let d := if s.dark then 0 else (1000000000 + adj).toNat
  let now := s.clk.emt + d
  let pps := match s.pins.ppsOut with
    | some at_ => if at_ ≤ now then none else some at_
    | none => none
  { s with clk := ⟨(s.clk.mt + d) % mtSpan, now, s.clk.cyc + 1, s.clk.base⟩, rf := s.rf.newClock, servo := { s.servo with slew := s.servo.slew - (adj - s.servo.freq) },
           pins := { s.pins with ppsOut := pps } }

/-- MT stepped by `d` units, with STEPPED (R58); an instant that MT comes to again is a new one (R48, R73). -/
def State.stepMt (s : State) (d : Int) : State :=
  if d = 0 then s
  else
    let s := { s with clk := { s.clk with mt := (((s.clk.mt : Int) + d) % (mtSpan : Int)).toNat },
                      marks := s.marks.filter fun e => elapsedMark e.1 }
    (s.event F.MT_STAT_STEPPED 0).raise E.MT_STEPPED

/-- A signed difference of two instants in time units, wrapped at 2^64 ns. -/
def wrapDiff (a b : Int) : Int :=
  let d := (a - b) % (mtSpan : Int)
  if 2 * d < (mtSpan : Int) then d else d - (mtSpan : Int)

/-- MT_NOW_READ (R40): MT is returned to the reader, and its fraction latched into MT_FRAC. -/
def execMtNowRead (m : Master) (s : State) : Host.Outcome State Fault Refusal :=
  .next ((s.set F.MT_FRAC_FRAC s.mtFrac).emit (.regData m s.mtNs))

/-! ### The servo (R54 to R59) -/

/-- ERR_NS set, saturating. -/
def State.setErr (s : State) (e : Nat) : State := s.set F.MT_STAT_ERR_NS (min e 0xFFFF)

/-- The selected source shows a frequency (Table 2.1): an external reference with EXT_MODE = 0 shows it on TIME_CLK_IN alone. -/
def State.freqSeen (s : State) : Bool :=
  s.get F.MT_SRC_KIND != 1 || s.flag F.MT_SRC_EXT_MODE || decide (s.servo.lastGood ≤ s.servo.lastClk)

/-- The frequency trained by an update from a source that shows one: a free value within the slew limit (R58; log entry 1). DESIGN
CHOICE: log entry 67. -/
def State.train (s : State) : State :=
  let m := s.get F.MT_SLEW_MAX_PPB
  if s.freqSeen then { s with servo := { s.servo with freq := (s.peek % (2 * m + 1) : Nat) - (m : Int) } }.drawn else s

/-- MT slewed towards the source by the offset `off` (local minus source, in time units). -/
def State.slewBy (s : State) (off : Int) : State := { s with servo := { s.servo with slew := -off } }

/-- A source update in LOCKED or HOLDOVER whose bound is within LIMIT, or not (Table 2.2). -/
def State.updateLocked (s : State) (off : Int) (err : Nat) : State :=
  let limit := s.get F.MT_ACC_LIMIT
  let hold := s.get F.MT_STAT_STATE == holdover
  let s := s.setErr err
  if limit < err then s.goUnsure
  else if !hold then (s.train).slewBy off
  else if off.natAbs ≤ ns limit then ((s.servoTo locked).train).slewBy off
  else (s.raise E.MT_HOLD_BREACH).goUnsure

/-- A source update (Table 2.2): `off` is local MT minus the source in time units, `err` the bound of R54, and `qual` tells
that the source may be locked to (R51). DEDUCED: log entry 65. -/
def State.update (s : State) (off : Int) (err : Nat) (qual : Bool) : State :=
  let good := qual && decide (err ≤ s.get F.MT_ACC_LIMIT)
  let s := if qual then { s with servo := { s.servo with lastGood := s.now, lastOff := off } } else s
  if s.isUnsure then
    let since := if good then s.servo.qualSince <|> some s.now else none
    { s with servo := { s.servo with qualSince := since } }.setErr err
  else if qual then s.updateLocked off err
  else s

/-- SERVO_UPDATE (R57): an update of the selected source with offset in ps and bound in ns. -/
def execServoUpdate (offPs : Int) (err : Nat) (qual : Bool) (s : State) : Host.Outcome State Fault Refusal :=
  if s.get F.MT_SRC_KIND = 0 then .next s else .next (s.update (psUnits offPs) err qual)

/-- A port with PTM in use: the host link is up and PTM is enabled in PF0 (R47, R558). -/
def State.ptmReady (s : State) (h : Nat) : Bool :=
  s.flag F.HPT_STAT_UP h && (Tab.get FuncSt.reset s.funcs (h * 512)).ptm

/-- The source is lost by the tests of Table 2.2, R47 and R159. -/
def State.sourceGone (s : State) : Bool :=
  let kind := s.get F.MT_SRC_KIND
  if kind = 0 then true
  else if kind = 1 then
    s.over s.servo.lastGood 2000000000 1 || (!s.flag F.MT_SRC_EXT_MODE && s.over s.servo.lastClk 2000000000 1)
  else if kind = 2 then decide (4 ≤ s.servo.ptmFails) || !s.ptmReady (s.get F.MT_SRC_PTM_PORT)
  else !s.hasTime s.followed || s.over s.servo.lastGood (8 * 2 ^ s.get F.MT_SYNC_TIME_K) 1

/-- SOURCE_LOST (R57): the loss is detected. -/
def execSourceLost (s : State) : Host.Outcome State Fault Refusal := if s.sourceGone then .next s.loseSource else .next s

/-- The alternate is followed from now where the upstream port is down (R52). -/
def State.chooseUpstream (s : State) : State :=
  s.setFlag F.MT_STAT_ON_ALT (s.get F.MT_SRC_KIND == 3 && s.flag F.MT_SRC_ALT_EN && !s.active (s.get F.MT_SRC_UP_PORT))

/-- MT_SRC_WRITE (R52, R57): MT_SRC written with the word `v`; in LOCKED it acts as a source loss. -/
def execMtSrcWrite (v : Nat) (s : State) : Host.Outcome State Fault Refusal :=
  let s := (((((s.set F.MT_SRC_KIND (bits v 0 2)).set F.MT_SRC_EXT_MODE (bits v 2 1)).set F.MT_SRC_PTM_PORT (bits v 8 6)).set
    F.MT_SRC_UP_PORT (bits v 16 10)).set F.MT_SRC_ALT_PORT (bits v 32 10)).set F.MT_SRC_ALT_EN (bits v 48 1)
  let s := s.chooseUpstream.loseSource
  .next { s with servo := { s.servo with lastGood := s.now, lastClk := s.now, ptmOut := false, ptmFails := 0, qualSince := none } }

/-- HOLDOVER_LIMIT (R54, R57): the bound in HOLDOVER has grown past LIMIT. -/
def execHoldoverLimit (s : State) : Host.Outcome State Fault Refusal :=
  if s.get F.MT_STAT_STATE = holdover ∧ s.get F.MT_ACC_LIMIT < s.errNow then .next ((s.setErr s.errNow).goUnsure) else .next s

/-- SETTLE_QUALIFIED (R57): the source has qualified for SETTLE × 10 ms; MT is stepped or slewed, and the servo locks. -/
def execSettleQualified (s : State) : Host.Outcome State Fault Refusal :=
  match s.servo.qualSince with
  | some at_ =>
    if s.isUnsure && decide (at_ + ns (s.get F.MT_ACC_SETTLE * 10000000) ≤ s.now) then
      let off := s.servo.lastOff
      let step := decide (ns (s.get F.MT_SLEW_STEP_THRESH) < off.natAbs)
      let s := if step then s.stepMt (-off) else s
      let s := ((s.set F.MT_STAT_FIRST_LOCK 1).servoTo locked).train
      .next (s.slewBy (if step then 0 else off))
    else .next s
  | none => .next s

/-! ### External reference (R45, R46) -/

/-- MT_TOD_NEXT_WRITE (R46): a pending time of day; a second write replaces the first. -/
def execMtTodNextWrite (v : Nat) (s : State) : Host.Outcome State Fault Refusal :=
  let s := (s.set F.MT_TOD_NEXT_NS v).set F.MT_STAT_TOD_PENDING 1
  .next { s with servo := { s.servo with tod := some (v % 2 ^ 64, s.now) } }

/-- The pending time of day is used up. -/
def State.todDone (s : State) : State := { s with servo := { s.servo with tod := none } }.set F.MT_STAT_TOD_PENDING 0

/-- Half a second and a second, in time units. -/
def secUnits : Nat := 1000000000 * unitsPerNs

/-- The offset of MT at a reference edge from the nearest whole second. -/
def secOffset (ref : Int) : Int := (ref + (secUnits / 2 : Nat)) % (secUnits : Int) - (secUnits / 2 : Nat)

/-- The update of an edge at a root (Table 2.1): `ref` is MT at the corrected edge. -/
def State.ppsUpdate (s : State) (ref : Int) (residual : Nat) : State :=
  (s.set F.MT_STAT_HOPS 0).update (secOffset ref) (s.get F.MT_REF_ERR_EXT_ERR + 2 + residual) true

/-- A bound above LIMIT for an edge whose time of day is beyond the limit: a free value in that range (R46; log entry 1). -/
def State.boundAbove (s : State) : Nat := min 0xFFFF (s.get F.MT_ACC_LIMIT + 1 + s.peek)

/-- PPS_IN_EDGE (R45, R46): a rising edge of TIME_PPS_IN, the servo's filter residual in ns (R54), and whether TIME_CLK_IN runs at the
edge; a pin on the main supply is not heard while PWR_GOOD is low (R731). DEDUCED: log entry 66. -/
def execPpsInEdge (x : PpsEdge) (s : State) : Host.Outcome State Fault Refusal :=
  if s.get F.MT_SRC_KIND ≠ 1 || !s.boot.pwrGood then .next s
  else
    let s := if x.clk then { s with servo := { s.servo with lastClk := s.now } } else s
    let comp := psUnits (s.sget F.MT_EXT_COMP_PS)
    let ref : Int := s.clk.mt - comp
    match s.servo.tod with
    | some (v, at_) =>
      if s.now < at_ + ns 1000000 then .next (s.ppsUpdate ref x.residual)
      else
        let off := wrapDiff (ns v : Nat) ref
        if s.isUnsure then .next (((s.stepMt off).todDone).ppsUpdate (ns v : Nat) x.residual)
        else if off.natAbs ≤ ns (s.get F.MT_ACC_LIMIT) then .next ((s.todDone).ppsUpdate ref x.residual)
        else
          let s := { s with servo := { s.servo with tod := some ((v + 1000000000) % 2 ^ 64, at_), lastGood := s.now } }
          .next (((s.setErr s.boundAbove).drawn).goUnsure)
    | none => .next (s.ppsUpdate ref x.residual)

/-! ### PTM (R47) -/

/-- Key of the PTM dialogs in `State.marks`. -/
def markPtm : Nat := 3

/-- A dialog has failed; the fourth in a row is a source loss (Table 2.2). -/
def State.ptmFailed (s : State) : State :=
  let n := s.servo.ptmFails + 1
  let s := { s with servo := { s.servo with ptmOut := false, ptmFails := n } }
  if 4 ≤ n then s.loseSource else s

/-- PTM_DIALOG (R47): one dialog every 2^PTM_K ns; a dialog still out when the next is due has failed. -/
def execPtmDialog (s : State) : Host.Outcome State Fault Refusal :=
  let h := s.get F.MT_SRC_PTM_PORT
  let p := 2 ^ s.get F.MT_SYNC_PTM_K
  if s.get F.MT_SRC_KIND = 2 && s.due markPtm p then
    let s := s.mark markPtm p
    if s.ptmReady h then
      let s := if s.servo.ptmOut then s.ptmFailed else s
      .next ({ s with servo := { s.servo with ptmOut := true } }.emit (.ptmRequest h))
    else .next s.loseSource
  else .next s

/-- PTM_RESPONSE_RX (R45, R47): a dialog ends with PTM time `t` in ns, or fails. -/
def execPtmResponseRx (ok : Bool) (t residual : Nat) (s : State) : Host.Outcome State Fault Refusal :=
  if s.get F.MT_SRC_KIND = 2 && s.servo.ptmOut then
    if ok then
      let src := ns ((t + 2 ^ 64 - s.get F.MT_PTM_OFS_NS) % 2 ^ 64)
      let s := { s with servo := { s.servo with ptmOut := false, ptmFails := 0 } }.set F.MT_STAT_HOPS 0
      .next (s.update (wrapDiff s.clk.mt src) (s.get F.MT_REF_ERR_PTM_ERR + 2 + residual) true)
    else .next s.ptmFailed
  else .next s

/-! ### Fabric time transfer (R50 to R53, R128) -/

/-- Key of a port's TIME requests in `State.marks`. -/
def markTime (p : Nat) : Nat := 3000 + p

/-- TIME_REQUEST_DUE (R128): every 2^TIME_K ns a request becomes due; the next slot of the lowest active lane sends it. -/
def execTimeRequestDue (p : Fin 1024) (s : State) : Host.Outcome State Fault Refusal :=
  let d := 2 ^ s.get F.MT_SYNC_TIME_K
  if s.hasTime p && s.due (markTime p) d then .next ((s.mark (markTime p) d).modXfer p fun x => { x with reqDue := true }) else .next s

/-- The offset of an exchange in time units (the formulas before R50): half of ((t2 - t1) - (t4 - t3)), less ASYM. -/
def exchangeOffset (t1 t2 t3 t4 : Nat) (asymPs : Int) : Int :=
  let a : Int := t2 - t1
  let b : Int := t4 - t3
  (a - b) * (unitsPerNs / 2 : Nat) - psUnits asymPs

/-- The port may give updates: the followed one, or the upstream port while the alternate is followed (R52, R128). -/
def State.timeSource (s : State) (p : Nat) : Bool :=
  s.get F.MT_SRC_KIND == 3 && (p == s.followed || (s.flag F.MT_STAT_ON_ALT && p == s.get F.MT_SRC_UP_PORT))

/-- A refusal on account of the hop count sets LOOP (R51). -/
def State.loopSeen (s : State) (p hops : Nat) : State :=
  if 14 ≤ hops ∧ p = s.followed ∧ !s.flag F.MT_STAT_LOOP then (s.event F.MT_STAT_LOOP 0).raise E.MT_LOOP else s

/-- The frame may be locked to (R51). -/
def TimeCell.qual (c : TimeCell) : Bool := decide (c.hops < 14) && c.state != unsure

/-- The bound that a request gives this device (R50, R54). -/
def State.hopBound (s : State) (p : Nat) (c : TimeCell) (residual : Nat) : Nat :=
  c.errNs + (if s.flag F.PORT_TASYM_VALID p then 2 else 10) + residual

/-- An update from a port that may give one: the return to UP_PORT (R52), the hop count (R50), then the servo. -/
def State.timeUpdate (s : State) (p : Nat) (c : TimeCell) (off : Int) (err : Nat) : State :=
  let qual := TimeCell.qual c
  if p = s.followed then (s.set F.MT_STAT_HOPS (min 15 (c.hops + 1))).update off err qual
  else if qual && decide (err ≤ s.get F.MT_ACC_LIMIT) then
    ((s.set F.MT_STAT_ON_ALT 0).set F.MT_STAT_HOPS (min 15 (c.hops + 1))).update off err qual
  else s

/-- A TIME request: it is owed a response, and its ECHO closes the exchange before it (R128). -/
def State.timeRequest (s : State) (p : Nat) (c : TimeCell) (residual : Nat) : State :=
  let t2 := s.mtNs
  let ans := (s.xferOf p).ans
  let s := s.modXfer p fun x => { x with owed := x.owed ++ [(c.xid, c.txStamp, t2)], ans := none }
  if !s.timeSource p then s
  else
    let s := s.loopSeen p c.hops
    let err := s.hopBound p c residual
    let s := if TimeCell.qual c && p == s.followed then { s with servo := { s.servo with lastGood := s.now } } else s
    match ans with
    | some (xid, t1, t2, t3) =>
      if c.xid = (xid + 1) % 2 ^ 32 ∧ c.echo ≠ 0 then
        s.timeUpdate p c (exchangeOffset t1 t2 t3 c.echo (s.sget F.PORT_TASYM_ASYM p)) err
      else s
    | none => s

/-- A TIME response to the request sent last gives t4 (R128). -/
def State.timeResponse (s : State) (p : Nat) (c : TimeCell) : State :=
  if (c.xid + 1) % 2 ^ 32 = (s.xferOf p).xid then s.modXfer p fun x => { x with t4 := s.mtNs } else s

/-- A TIME frame delivered to a port that accepts frames (R128). -/
def State.timeHeard (s : State) (p : Nat) (h : FrameHead) (c : TimeCell) (residual : Nat) : State :=
  let s := s.applyHead p h h.sack 16
  if !s.hasTime p then s else if c.response then s.timeResponse p c else s.timeRequest p c residual

/-- TIME_FRAME_RX (R128): a TIME frame with good CRC; `residual` is the servo's filter residual in ns (R54). -/
def execTimeFrameRx (p : Fin 1024) (k : Fin 8) (hd rest : List Byte) (residual : Nat) (s : State) : Host.Outcome State Fault Refusal :=
  match frameOf (hd ++ rest) with
  | some (.time h c) =>
    let ok := s.hears p k
    let s := (s.heard p k).notFence p
    if !ok then .next s else if s.accepts p then .next (s.timeHeard p h c residual) else .next (s.applyAlways p h)
  | _ => .next s

/-! ### TIME_PPS_OUT (R48) -/

/-- Key of TIME_PPS_OUT in `State.marks`. -/
def markPps : Nat := 4

/-- The whole second of MT advanced by COMP, counted from 1. -/
def State.ppsCount (s : State) : Nat := (((s.clk.mt : Int) + psUnits (s.sget F.MT_PPS_OUT_COMP)) / (secUnits : Int)).toNat + 1

/-- MT, advanced by COMP, has come to a whole second in this core clock (R48). -/
def State.ppsNow (s : State) : Bool :=
  decide (((s.clk.mt : Int) + psUnits (s.sget F.MT_PPS_OUT_COMP)) % (secUnits : Int) < 1000000000 + (s.get F.MT_SLEW_MAX_PPB : Int))

/-- PPS_OUT_RISE (R48): TIME_PPS_OUT rises at a whole second, and stays high for WIDTH µs. -/
def execPpsOutRise (s : State) : Host.Outcome State Fault Refusal :=
  if s.flag F.MT_PPS_OUT_EN && s.ppsNow && Tab.get 0 s.marks markPps != s.ppsCount then
    .next { s with marks := s.marks.insert markPps s.ppsCount,
                   pins := { s.pins with ppsOut := some (s.now + ns (s.get F.MT_PPS_OUT_WIDTH * 1000)) } }
  else .next s

/-! ### Shadow pages (R600 to R603) -/

/-- Pages with CAP.SHADOW and CAP.EPOCH: CORE, RTE and WIN. -/
def shadowClass (cls : Nat) : Bool := cls == 14 || cls == 16 || cls == 27

/-- The shadow values of a page as they stood at the end of the previous clock (R601): (key, value). -/
def State.shadowOf (s : State) (page : Nat) : Tab Nat :=
  (s.rf.shadow.filter fun e => e.1 / 64 / 4096 == page).map fun e => (e.1, Tab.get e.2 s.rf.shadowOld e.1)

/-- The route banks of a tile swapped, with the hold and SWAP_DONE (R226, R227, R229). -/
def State.swapBanks (s : State) (t : Nat) : State :=
  let e := (s.get F.RTE_STAT_EPOCH t + 1) % 2 ^ 16
  let s := ((s.set F.RTE_STAT_EPOCH e t).set F.RTE_STAT_ACTIVE (e % 2) t).set F.RTE_STAT_HOLD 1 t
  (State.almTouch { s with rte := { s.rte with holdAt := Tab.insert s.rte.holdAt t s.now } }).raise E.RTE_SWAP_DONE t

/-- The shadow of a page captured (R600): RTE swaps at once; CORE and WIN hold the capture until their own point. -/
def State.capture (s : State) (page : Nat) : State :=
  if page / 1024 = 14 then s.swapBanks (page % 1024)
  else { s with rf := { s.rf with capt := Tab.insert s.rf.capt page (s.shadowOf page) } }

/-- Pages armed in a slot. -/
def State.pagesIn (s : State) (n : Nat) : List Nat := (s.rf.armed.filter (·.2 == n)).map Prod.fst

/-- A slot freed: nothing armed in it any more. -/
def State.freeSlot (s : State) (n : Nat) : State :=
  let s := (s.hw F.MT_ALM_CTL_EN 0 0 n).hw F.MT_ALM_CTL_ARG 0 0 n
  { s with rf := { s.rf with past := s.rf.past.filter (· != n) } }

/-- A page leaves its slot: ARG falls by 1, and a slot left with no page is freed (R603). -/
def State.disarm (s : State) (page : Nat) : State :=
  match s.rf.armed.find? (·.1 == page) with
  | none => s
  | some (_, n) =>
    let s := { s with rf := { s.rf with armed := Tab.erase s.rf.armed page } }
    let l := s.pagesIn n
    if l.isEmpty then s.freeSlot n else s.hw F.MT_ALM_CTL_ARG l.length 0 n

/-- The slot that an instant takes: the one that holds it already, or the highest free one (R69). -/
def State.slotFor (s : State) (t : Nat) : Option (Nat × Bool) :=
  match (List.range 64).find? fun n => !(s.pagesIn n).isEmpty && s.get F.MT_ALM_TIME_NS 0 n == t with
  | some n => some (n, false)
  | none => match ((List.range 64).reverse).find? fun n => !s.flag F.MT_ALM_CTL_EN 0 n && (s.pagesIn n).isEmpty with
    | some n => some (n, true)
    | none => none

/-- A slot taken for an instant (R69); an instant already past will fire late (R602). DEDUCED: log entry 127. -/
def State.takeSlot (s : State) (n t : Nat) : State :=
  let s := (((s.hw F.MT_ALM_TIME_NS t 0 n).hw F.MT_ALM_CTL_ACTION 1 0 n).hw F.MT_ALM_CTL_PERIOD 0 0 n).hw F.MT_ALM_CTL_EN 1 0 n
  if ns t < s.clk.mt then { s with rf := { s.rf with past := s.rf.past ++ [n] } } else s

/-! ### Alarms (R66 to R72) -/

/-- The pages of a firing slot swap, or are refused when it fired late or the device is UNSURE (R68, R602). -/
def State.swapArmed (s : State) (n : Nat) (late : Bool) : State :=
  let l := s.pagesIn n
  let s := { s with rf := { s.rf with armed := s.rf.armed.filter (·.2 != n), past := s.rf.past.filter (· != n) } }
  if l.isEmpty then s
  else if late || s.isUnsure then (s.event F.MT_ALM_REFUSED_BITS n).raise E.MT_SWAP_REFUSED
  else s.each l State.capture

/-- A shaper group enabled or disabled (R252, R257). DEDUCED: log entry 16. -/
def State.setGroup (s : State) (g : Nat) (on : Bool) : State :=
  let w := s.get F.SCH_GRP_EN 0 (g / 64)
  s.hw F.SCH_GRP_EN (setBits w (g % 64) 1 (b2n on)) 0 (g / 64)

/-- The sample of every ring enrolled for alarm samples (R261). -/
def State.sampleRings (s : State) (tag : Nat) : State :=
  s.each ((List.range 72).filter fun t => s.flag F.TEL_CTL_ALM_EN t) fun s t => s.telAlarm t tag

/-- The action of a slot (Table 2.3). -/
def State.alarmAction (s : State) (n action arg t : Nat) (late : Bool) : State :=
  if action = 1 then s.swapArmed n late
  else if action = 2 then s.snapshotAll arg
  else if action = 3 then s.sampleRings arg
  else if action = 4 then s.setGroup (arg % 256) true
  else if action = 5 then s.setGroup (arg % 256) false
  else if action = 6 then { s with flt := { s.flt with hbAlign := t } }
  else s

/-- A fired slot rearmed or cleared (R66, R67). -/
def State.rearm (s : State) (n t : Nat) (late : Bool) : State :=
  let p := s.get F.MT_ALM_CTL_PERIOD 0 n * 64
  if p = 0 then s.hw F.MT_ALM_CTL_EN 0 0 n
  else
    let next := t + p
    let next := if late && decide (next ≤ s.mtNs) then next + ((s.mtNs - next) / p + 1) * p else next
    s.hw F.MT_ALM_TIME_NS next 0 n

/-- Slot `n` is enabled and MT has reached its instant. -/
def State.slotDue (s : State) (n : Nat) : Bool := s.flag F.MT_ALM_CTL_EN 0 n && decide (ns (s.get F.MT_ALM_TIME_NS 0 n) ≤ s.clk.mt)

/-- Slot `n` fires late: more than LIMIT after its instant, or taken for an instant already past (R68, R602). -/
def State.slotLate (s : State) (n : Nat) : Bool :=
  decide (ns (s.get F.MT_ALM_TIME_NS 0 n + s.get F.MT_ACC_LIMIT) < s.clk.mt) || s.rf.past.contains n

/-- The bits and events of a firing slot, and its re-arming (R66, R67, R72). -/
def State.slotFired (s : State) (n : Nat) : State :=
  let t := s.get F.MT_ALM_TIME_NS 0 n
  let late := s.slotLate n
  let int := s.flag F.MT_ALM_CTL_INT 0 n
  let s := s.event F.MT_ALM_STAT_BITS n
  let s := if late then (s.event F.MT_ALM_LATE_BITS n).raise E.MT_ALARM_LATE else s
  (s.raiseIf int E.MT_ALARM).rearm n t late

/-- The action of slot `n` as its fields stand. -/
def State.slotAction (s : State) (n : Nat) (t : State) : State :=
  t.alarmAction n (s.get F.MT_ALM_CTL_ACTION 0 n) (s.get F.MT_ALM_CTL_ARG 0 n) (s.get F.MT_ALM_TIME_NS 0 n) (s.slotLate n)

/-- A slot fires (R66 to R72). -/
def State.fireSlot (s : State) (n : Nat) : State := s.slotAction n (s.slotFired n)

/-- The action of a slot captures state: a snapshot or a sample (Table 2.3). -/
def State.captures (s : State) (n : Nat) : Bool := s.get F.MT_ALM_CTL_ACTION 0 n == 2 || s.get F.MT_ALM_CTL_ACTION 0 n == 3

/-- The slots that capture and fire in this clock. -/
def State.capturing (s : State) : List Nat := (List.range 64).filter fun k => s.slotDue k && s.captures k

/-- Every slot that captures and is due fires: all captures come before the first event of a firing (R70). -/
def State.fireCaptures (s : State) : State :=
  let t := s.each s.capturing fun t k => s.slotAction k t
  t.each s.capturing State.slotFired

/-- Slot `n`, where it is due, fires, after the slots that capture in this clock (R70). -/
def State.fireDue (s : State) (n : Nat) : State :=
  if s.slotDue n then (if s.captures n then s.fireCaptures else s.fireCaptures.fireSlot n) else s

/-- ALARM_FIRE (R66 to R72): slot `n` is enabled and MT has reached its instant. -/
def execAlarmFire (n : Fin 64) (s : State) : Host.Outcome State Fault Refusal := .next (s.fireDue n)

/-- The slot of an armed page fires first where it fires in this clock (R602, R603). -/
def State.fireArmed (s : State) (page : Nat) : State := match s.rf.armed.find? (·.1 == page) with
  | some (_, n) => s.fireDue n
  | none => s

/-! ### Arming, committing and discarding (R600 to R603) -/

/-- EPOCH_AT_WRITE (R69, R602): EPOCH_AT of a page written with an instant; the page is armed, or its arming moved. -/
def execEpochAtWrite (cls : Fin 31) (i : Fin 1024) (t : Nat) (s : State) : Host.Outcome State Fault Refusal :=
  if shadowClass cls && implemented cls i then
    let page := pageNo cls i
    let t := t % 2 ^ 64
    let s := ((s.fireArmed page).set (F.EPOCH_AT_NS.of cls) t i).disarm page
    match s.slotFor t with
    | none => .next (s.raise E.MT_ALM_EXHAUSTED)
    | some (n, new) =>
      let s := if new then s.takeSlot n t else s
      let s := { s with rf := { s.rf with armed := Tab.insert s.rf.armed page n } }
      .next (s.hw F.MT_ALM_CTL_ARG (s.pagesIn n).length 0 n)
  else .next s

/-- The route banks of a tile have swapped in this clock: a commit in it is the same swap (R603). -/
def State.swappedNow (s : State) (page : Nat) : Bool :=
  page / 1024 == 14 && s.flag F.RTE_STAT_HOLD (page % 1024) && Tab.get 0 s.rte.holdAt (page % 1024) == s.now

/-- SHADOW_COMMIT (R601, R603): COMMIT written in a page; ignored while PEND = 1. -/
def execShadowCommit (cls : Fin 31) (i : Fin 1024) (s : State) : Host.Outcome State Fault Refusal :=
  let page := pageNo cls i
  if shadowClass cls && implemented cls i && !s.capturePending page && !s.swappedNow page then .next ((s.disarm page).capture page) else .next s

/-- The active bank of a tile's tables copied into the shadow bank. DEDUCED: log entry 72. -/
def State.copyBank (s : State) (t : Nat) : State :=
  let a := s.get F.RTE_STAT_EPOCH t % 2
  let base := fun b => bankKey b (0x0100000000 + t * 2 ^ 20)
  let inBank := fun (b k : Nat) => decide (base b ≤ k ∧ k < base b + 2 ^ 20)
  let src := s.mem.filter fun c => inBank a c.1
  let rest := s.mem.filter fun c => !inBank (1 - a) c.1
  { s with mem := src.foldl (fun m c => Memory.write m (c.1 - base a + base (1 - a)) c.2) rest }

/-- The shadow fields of a page, each with its array index and sub-index. -/
def shadowFields (cls : Nat) : List (Fld × Nat × Nat) :=
  ((F.ofClass cls).filter (·.acc == .rws)).flatMap fun f =>
    (List.range (max 1 f.cnt)).flatMap fun n => (List.range f.subn).map fun k => (f, n, k)

/-- The values in force copied into the shadow of a page (R596). -/
def State.discardShadow (s : State) (cls i : Nat) : State :=
  s.each (shadowFields cls) fun s x => s.setShadow x.1 (s.get x.1 i x.2.1 x.2.2) i x.2.1 x.2.2

/-- SHADOW_DISCARD (R596, R600, R601): the values in force copied into the shadow, table banks with them. -/
def execShadowDiscard (cls : Fin 31) (i : Fin 1024) (s : State) : Host.Outcome State Fault Refusal :=
  if shadowClass cls && implemented cls i then
    let s := s.discardShadow cls i
    .next (if cls.val = 14 then s.copyBank i else s)
  else .next s

/-- SHADOW_DISARM (R603): the page leaves its slot; a slot that fires in this clock fires first. -/
def execShadowDisarm (cls : Fin 31) (i : Fin 1024) (s : State) : Host.Outcome State Fault Refusal :=
  .next ((s.fireArmed (pageNo cls i)).disarm (pageNo cls i))

/-- HOLD_END (R227): HOLD after the swap, the retired bank leaves its hold. -/
def execHoldEnd (t : Fin 72) (s : State) : Host.Outcome State Fault Refusal :=
  if s.flag F.RTE_STAT_HOLD t && s.over (Tab.get 0 s.rte.holdAt t) (16 * s.get F.RTE_EPOCH_CFG_HOLD t) 16 then
    .next (s.set F.RTE_STAT_HOLD 0 t)
  else .next s

end Sys2Proof.Machine
end

