-- ==== Sys2Proof/Machine/Fabric.lean ====
section
/-!
DEFINITION. Commands of the switch core and of routing that touch ports: fencing middles and whole tiles (R189, R191), fences
and identity (R203, R234), the escape move (R218), gossip (R212, R213), laser-module reads (R737) and SRAM banks (R681 to R684).
-/
namespace Sys2Proof.Machine
open Sys2Proof

/-! ### Fences of the device's own making -/

/-- PORTS bits of a tile set by hardware (R234). A write of the same clock stands, and the bits are set in the next (R10, `hwFences`). -/
def State.hwFenceOn (s : State) (t mask : Nat) : State :=
  let old := Tab.get 0 s.rte.hwFence t
  let add := mask - Nat.land mask (s.get F.RTE_FENCE_PORTS t)
  if s.rf.wrote.contains (F.RTE_FENCE_PORTS.key t 0 0) then s
  else
    let s := { s with rte := { s.rte with hwFence := Tab.insert s.rte.hwFence t (Nat.lor old add) } }
    s.set F.RTE_FENCE_PORTS (Nat.lor (s.get F.RTE_FENCE_PORTS t) mask) t

/-- The bits that hardware set and nothing needs any more cleared; a fence set by software stays (R675). -/
def State.hwFenceOff (s : State) (t mask : Nat) : State :=
  let hw := Tab.get 0 s.rte.hwFence t
  let off := Nat.land hw mask - Nat.land (Nat.land hw mask) (s.hwNeed t)
  let s := { s with rte := { s.rte with hwFence := Tab.insert s.rte.hwFence t (hw - off) } }
  let ports := s.get F.RTE_FENCE_PORTS t
  s.hw F.RTE_FENCE_PORTS (ports - Nat.land ports off) t

/-- The PORTS bits that hardware needs, at the tiles whose RTE_FENCE was written in the clock before (R10, R29). -/
def State.hwFences (s : State) (wrote : List Nat) : State :=
  s.each ((List.range 72).filter fun t => wrote.contains (F.RTE_FENCE_PORTS.key t 0 0)) fun s t => s.hwFenceOn t (s.hwNeed t)

/-- RTE_FENCE_WRITE (R234, R239): RTE_FENCE of a tile written; an engine tile has PORTS bits 0 to 3 alone. A bit that software writes
is software's from then on, and a bit that hardware needs stays set (R29, R632). DEDUCED: log entry 73. -/
def execRteFenceWrite (t : Fin 72) (v : Nat) (s : State) : Host.Outcome State Fault Refusal :=
  let ports := if t.val < 64 then bits v 0 16 else bits v 0 4
  let peer := if t.val < 64 then bits v 16 16 else 0
  let need := s.hwNeed t
  let s := { s with rte := { s.rte with hwFence := Tab.insert s.rte.hwFence t (need - Nat.land need ports) } }
  .next (((s.write F.RTE_FENCE_PORTS (Nat.lor ports need) t).write F.RTE_FENCE_PEER peer t).write F.RTE_FENCE_MGT_PASS (bits v 32 1) t)

/-- DEV_SELF_WRITE (R203): the new identity routes from 100 ns after the write. -/
def execDevSelfWrite (v : Nat) (s : State) : Host.Outcome State Fault Refusal :=
  let new := (bits v 0 11, bits v 16 7, bit v 24)
  let late := s.rte.selfNext.filter fun e => decide (s.now < e.1 + ns 100)
  let s := { s with rte := { s.rte with selfOld := s.devSelf, selfNext := late ++ [(s.now, new)] } }
  .next (((s.write F.DEV_SELF_GROUP new.1).write F.DEV_SELF_DEVICE new.2.1).write F.DEV_SELF_VALID (b2n new.2.2))

/-! ### Middles and whole tiles (R188, R189, R191) -/

/-- One more middle may not be fenced: eight are, and this one is not among them (R188). -/
def State.ninth (s : State) (m : Nat) : Bool := !s.midOut m && decide (8 ≤ s.midsOut.length)

/-- Cells and packets lost to a fence counted (Table 5.6). -/
def State.fenceLoss (s : State) (n : Nat) : State :=
  if n = 0 then s else (s.inc F.CORE_CNT_FENCE_LOSS (d := n)).raise E.CORE_FENCE_LOSS

/-- A middle fenced at once: its bits set, its cells discarded (R189). -/
def State.fenceMid (s : State) (m : Nat) : State :=
  let n := s.midUsed m
  let s := (s.modTile m fun x => { x with mid := [] }).setMidFence m true
  (s.skipMid m).fenceLoss n

/-- The packets that a tile holds in input and output memory, those of its engines' miss buffers too (R295), discarded (R191). -/
def State.dropTile (s : State) (t : Nat) : State :=
  let x := s.tile t
  let engs := if t < 64 then [] else portsOf t
  let missed := (engs.map fun e => (s.eng e).miss.length).sum
  let n := x.fresh.length + x.held.length + x.resv.length + x.tx.length + missed
  let s := s.each x.held fun s h => s.cancelReq t h.id
  let s := s.modTile t fun x => { x with fresh := [], held := [], aborts := [], abortCells := [], resv := [], tx := [] }
  let s := if t < 64 then s.each (portsOf t) (fun s p => (s.modSched p fun _ => Sched.reset).noteIdle p)
    else s.each engs fun s e => (s.modSched (1024 + e) fun _ => Sched.reset).modEng e fun x => { x with miss := [] }
  s.fenceLoss n

/-- TILE_FENCE.FULL changed: by software, or by the device unless software writes it in the same clock (R10). -/
def State.setFull (s : State) (t v : Nat) (sw : Bool) : State := if sw then s.write F.TILE_FENCE_FULL v t else s.hw F.TILE_FENCE_FULL v t

/-- A tile fenced whole: its middle, its ports or engines, and what it holds (R191); REASON 1 commanded, 2 Degrade. -/
def State.fenceTile (s : State) (t reason : Nat) : State :=
  let u := s.setFull t 1 (reason == 1)
  if !u.flag F.TILE_FENCE_FULL t then s
  else
    let s := (u.set F.TILE_FENCE_REASON reason t).fenceMid t
    let s := if t < 64 then s.each (portsOf t) State.portFenced else s.hwFenceOn t 15
    s.dropTile t

/-- TILE_FENCE_FULL (R191): FULL = 1 written; refused whole where it would fence a ninth middle. -/
def execTileFenceFull (t : Fin 72) (s : State) : Host.Outcome State Fault Refusal :=
  if s.flag F.TILE_FENCE_FULL t then .next s
  else if s.ninth t then .next (s.raise E.CORE_FENCE_REJ)
  else .next (s.fenceTile t 1)

/-- A tile released, by software or with its Degrade fence: its ports may start bring-up again; its middle returns under R190 (R191). -/
def State.releaseTile (s : State) (t : Nat) (sw : Bool := true) : State :=
  let u := s.setFull t 0 sw
  if u.flag F.TILE_FENCE_FULL t then s
  else
    let s := u.set F.TILE_FENCE_REASON 0 t
    if t < 64 then s.each (portsOf t) State.portStart else s.hwFenceOff t 15

/-- TILE_FENCE_RELEASE (R191): FULL = 0 written. -/
def execTileFenceRelease (t : Fin 72) (s : State) : Host.Outcome State Fault Refusal :=
  if s.flag F.TILE_FENCE_FULL t then .next (s.releaseTile t) else .next (s.setFull t 0 true)

/-! ### The escape move (R218) -/

/-- A packet has waited ESC_WAIT at the head of its queue, or is held for a downed port. -/
def State.escDue (s : State) (t : Nat) (h : Held) : Bool :=
  let head := match (s.tile t).held.find? (fun g => g.queued && g.sameQueue h) with
    | some g => g.id == h.id
    | none => false
  (head || h.phase == .parked) && h.mc.isEmpty && h.pkt.cls != 2 && !h.pkt.escf
    && s.over h.since (16 * s.get F.RTE_CTL_ESC_WAIT t) 16 && (match h.phase with
      | .granted _ _ => false
      | _ => true)

/-- A packet moved to the escape channel, by what its entry's ESC port allows (R218, R219). -/
def State.escMove (s : State) (t : Nat) (h : Held) (p : Nat) : State :=
  let s := s.removeHeld t h.id
  let s := (s.inc F.RTE_CNT_C_ESC_MOVE t).count 14 t 0x42
  let q := { h.pkt with escf := true }
  let h := { h with pkt := q, phase := .waiting, cands := [] }
  let e : RouteEntry := ⟨[], [], some p, 0, none, none, true⟩
  match s.byEntry t q (entryPort t h.inPort) e with
  | .toPort p vc q => s.enqueue t { h with pkt := q, out := tileOf p, port := p, vc := vc, esc := some p }
  | .park l q => s.enqueue t { h with pkt := q, cands := l, esc := some p, phase := .parked }
  | d => s.countDrop t q.cls d

/-- ESC_MOVE (R218): packet `id` of tile `t` has waited ESC_WAIT without a grant. -/
def execEscMove (t : Fin 72) (id : Nat) (s : State) : Host.Outcome State Fault Refusal :=
  match (s.tile t).byId id with
  | none => .next s
  | some h =>
    if s.escDue t h then
      if h.pkt.rmode = 2 then .next ((s.removeHeld t id).dropNoroute t)
      else match h.esc with
        | some p => .next (s.escMove t h p)
        | none => .next s
    else .next s

/-! ### Gossip (R212, R213) -/

/-- Key of the gossip of the device in `State.marks`. -/
def markGossip : Nat := 5

/-- Sixteen slot levels as a header word (R212). -/
def State.levelWord (s : State) (w : Nat) : Nat := ((List.range 16).map fun k => s.slotLevel (16 * w + k) * 2 ^ (4 * k)).sum

/-- The GOSSIP packet for a port's peer (R212, R225). -/
def State.gossip (s : State) (p : Nat) : Packet :=
  let (g, d, _) := s.devSelf
  { dst := endpoint (s.get F.PORT_PEER_GROUP p) (s.get F.PORT_PEER_DEVICE p) 0, src := endpoint g d 0, cls := 3, sl := 0, rmode := 0,
    ord := false, ep := s.bankOf 64, tu := s.isUnsure, ce := false, nm := false, escf := false, mep := true, birth := s.stamp, len := 0,
    hops := 0, w2 := 1, w3 := 0, w4 := s.levelWord 0, w5 := s.levelWord 1, w6 := s.levelWord 2, w7 := s.levelWord 3, data := [] }

/-- A packet of one cell placed in a port's transmit queue by the device itself. -/
def State.sendDirect (s : State) (p : Nat) (pkt : Packet) : State :=
  let t := tileOf p
  let res := (s.tile t).newRes
  let r : Resv :=
    { res := res, inTile := t, id := s.core.nextId, mc := false, vc := 12, n := 1, cells := [0], since := s.now, rel := s.now, pkt := pkt,
      inPort := 0x3FF, members := [⟨p, 1⟩], stg := false, spare := false, dead := false, relMt := s.mtNs }
  let s := { s with core := { s.core with nextId := s.core.nextId + 1 } }
  (s.modTile t fun x => { x with tx := x.tx ++ [r], nextRes := (res + 1) % 2 ^ 16 }).noteIdle p

/-- GOSSIP_SEND (R212): at each whole microsecond of MT, one packet on every ACTIVE RLP3 port enabled for it. DEDUCED: log entry 71. -/
def execGossipSend (s : State) : Host.Outcome State Fault Refusal :=
  if s.due markGossip 1000 then
    let l := (List.range 1024).filter fun p => s.getBit F.RTE_GOSSIP_PORTS (p % 16) (tileOf p) && s.active p && s.mode p == 1
    .next ((s.mark markGossip 1000).each l fun s p => s.sendDirect p (s.gossip p))
  else .next s

/-- GOSSIP_RX (R212): a GOSSIP packet that a port presented is applied and discarded. -/
def execGossipRx (p : Fin 1024) (pkt : Packet) (s : State) : Host.Outcome State Fault Refusal :=
  if pkt.isGossip then
    let s := s.modTile (tileOf p) fun x => { x with fresh := x.fresh.filter fun f => !(f.pkt == pkt && f.inPort == p.val) }
    .next (s.applyGossip p pkt)
  else .next s

/-- GOSSIP_STALE (R213): a level learned from port `p` has not been refreshed for 8 µs; raised once for the port. -/
def execGossipStale (p : Fin 1024) (s : State) : Host.Outcome State Fault Refusal :=
  if !(s.staleKeys p).isEmpty && !s.rte.stale.contains p.val then
    .next (State.raise { s with rte := { s.rte with stale := s.rte.stale ++ [p.val] } } E.RTE_GOSSIP_STALE (tileOf p))
  else .next s

/-! ### Laser modules (R737, R738) -/

/-- LSRC_BUS_POLL (R737): a module is read 100 ms after its insertion and every 1 s from then; `ok` tells that the read was
acknowledged in time. DEDUCED: log entry 83. -/
def execLsrcBusPoll (e : Fin 16) (ok : Bool) (id : Nat) (ready : Bool) (s : State) : Host.Outcome State Fault Refusal :=
  let last := Tab.get 0 s.marks (markLsrc e)
  let start := (s.optic e).prsntAt + ns 150000000
  let due := if last < start then start else last + ns 1000000000
  if (s.optic e).inserted && decide (due ≤ s.now) then
    let s := { s with marks := s.marks.insert (markLsrc e) s.now }
    if ok then .next (((s.set F.OPT_LSRC_ID id e).setFlag F.OPT_LSRC_READY ready e).set F.OPT_LSRC_VALID 1 e)
    else .next ((s.event F.OPT_LSRC_BUS_ERR 0 e).set F.OPT_LSRC_VALID 0 e)
  else .next s

/-! ### SRAM banks of tiles (R681 to R684) -/

/-- Local banks of a tile that bank bits reach. -/
def bankBits (t : Nat) : List Nat := if t < 64 then List.range 128 else List.range 64 ++ (List.range 16).map (80 + ·)

/-- The rung that a local bank's bits set: 5 off, 4 retention, 0 none (R681). -/
def State.bankRung (s : State) (t l : Nat) : Nat :=
  if s.getBit F.TILE_BANK_OFF_BITS (l % 64) t (l / 64) then 5 else if s.getBit F.TILE_BANK_RET_BITS (l % 64) t (l / 64) then 4 else 0

/-- A write of bank bits leaves middle and output memory room for their minima (R683). -/
def State.bankRoom (s : State) (t : Nat) : Bool :=
  let s := (s.set F.TILE_BANK_PEND_BITS 0 t 0).set F.TILE_BANK_PEND_BITS 0 t 1
  decide (1152 * s.get F.BUF_CTL_MID_MIN t ≤ s.midPool t) && decide (s.outMins t ≤ s.outPool t)

/-- STG_OVERCOMMIT in the page of engine `e`, where the staging quotas of its tile exceed 3,840 cells less what bank bits remove
(R339, R683). -/
def State.checkStaging (s : State) (e : Nat) : State :=
  let t := tileOfEng e
  s.raiseIf (decide (3840 - 256 * s.banksOut t 80 16 < ((portsOf t).map fun e => s.get F.RMA_STG_QUOTA e).sum)) E.RMA_STG_OVERCOMMIT e

/-- The events of R147, R179, R180 and R339 for the capacity that the bank bits leave (R683). DESIGN CHOICE: log entry 59. -/
def State.checkPools (s : State) (t : Nat) : State :=
  let s := (s.checkOvercommit t).checkQuota t
  if t < 64 then s.each ((portsOf t).filter fun p => s.flag F.PORT_CTL_EN p) State.checkCredit else s.each (portsOf t) State.checkStaging

/-- BANK_BIT_WRITE (R682 to R684): word `n` of the RET bits (OFF bits where `off`) written. Banks newly sent down wait in PEND. -/
def execBankBitWrite (t : Fin 72) (off : Bool) (n : Fin 2) (v : Nat) (s : State) : Host.Outcome State Fault Refusal :=
  let f := if off then F.TILE_BANK_OFF_BITS else F.TILE_BANK_RET_BITS
  let free := (List.range 64).filter fun b => (bankBits t).contains (64 * n.val + b) && !s.flt.bankFence.contains (t.val, 64 * n.val + b)
  let u := s.each free fun s b => s.setBit f b (bit v b) t n
  if u.bankRoom t then
    let u := u.each free fun u b =>
      let l := 64 * n.val + b
      if s.bankRung t l = 0 ∧ u.bankRung t l ≠ 0 then u.setBit F.TILE_BANK_PEND_BITS b true t n
      else if u.bankRung t l = 0 then u.setBit F.TILE_BANK_PEND_BITS b false t n
      else u
    .next (u.checkPools t)
  else .next (s.raise E.TILE_BANK_REJ t)

/-- BANK_RUNG_REACHED (R682): a pending bank that holds nothing live is at its rung. -/
def execBankRungReached (t : Fin 72) (l : Fin 128) (s : State) : Host.Outcome State Fault Refusal :=
  if s.getBit F.TILE_BANK_PEND_BITS (l.val % 64) t (l.val / 64) then
    .next ((s.setBit F.TILE_BANK_PEND_BITS (l.val % 64) false t (l.val / 64)).checkPools t)
  else .next s

end Sys2Proof.Machine
end

