-- ==== Sys2Proof/Machine/Pcie.lean ====
section
/-!
DEFINITION. What the engines use of the host ports: the tables of engines, contexts, operations and units, and the requests,
writes, windows and user-page ranges of a function (chapter "PCI Express host ports").
-/
namespace Sys2Proof.Machine
open Sys2Proof

/-! ### Tables -/

def State.cunit (s : State) (u : Nat) : CUnit := Tab.get CUnit.reset s.units u
def State.modUnit (s : State) (u : Nat) (f : CUnit → CUnit) : State := { s with units := Tab.modify CUnit.reset s.units u f }
def State.fn (s : State) (port func : Nat) : FuncSt := Tab.get FuncSt.reset s.funcs (port * 512 + func)
def State.modFn (s : State) (port func : Nat) (f : FuncSt → FuncSt) : State :=
  { s with funcs := Tab.modify FuncSt.reset s.funcs (port * 512 + func) f }
def State.hport (s : State) (h : Nat) : HostPort := Tab.get HostPort.reset s.hports h
def State.modHport (s : State) (h : Nat) (f : HostPort → HostPort) : State := { s with hports := Tab.modify HostPort.reset s.hports h f }

/-- The key of a context in `State.ctxs`. -/
def ctxKey (e c : Nat) : Nat := e * 2 ^ 20 + c

/-- A cached context. -/
def State.ctx (s : State) (e c : Nat) : Option Ctx := (s.ctxs.find? (·.1 == ctxKey e c)).map (·.2)
def State.modCtx (s : State) (e c : Nat) (f : Ctx → Ctx) : State :=
  { s with ctxs := s.ctxs.map fun p => if p.1 = ctxKey e c then (p.1, f p.2) else p }

/-- The cached contexts of an engine. -/
def State.cached (s : State) (e : Nat) : List Ctx := (s.ctxs.filter fun p => p.1 / 2 ^ 20 == e).map (·.2)

/-- An operation in its slot. -/
def State.op (s : State) (e slot : Nat) : Option Op := (s.ops.find? (·.1 == e * 2048 + slot)).map (·.2)
def State.modOp (s : State) (e slot : Nat) (f : Op → Op) : State :=
  { s with ops := s.ops.map fun p => if p.1 = e * 2048 + slot then (p.1, f p.2) else p }

/-- COLL entries that an engine, or one of its contexts, has in progress: each takes one of the engine's operations (R308, R333). DEDUCED: log
entry 103. -/
def State.collOps (s : State) (e : Nat) (c : Option Nat) : Nat :=
  ((s.eng e).colls.filter fun x => c.all (x.ctx == ·)).length
    + ((s.eng e).begun.filter fun b => bits (b.desc.getD 0 0) 0 8 == 12 && c.all (b.ctx == ·)).length

/-- The operations of an engine, with their slots. -/
def State.opsOf (s : State) (e : Nat) : List (Nat × Op) := (s.ops.filter fun p => p.1 / 2048 == e).map fun p => (p.1 % 2048, p.2)

/-- The host I/O die of an engine and of a host-port instance (R24, R26). -/
def dieOfEng (e : Nat) : Nat := e / 8
def dieOfPort (h : Nat) : Nat := h / 16

/-- The unit of an engine (R364, R420). -/
def unitOf (e : Nat) : Nat := e / 4

/-! ### Fields of the context record (Table 8.1) -/

def Ctx.w (c : Ctx) (k : Nat) : Nat := c.words.getD k 0
def Ctx.super (c : Ctx) : Bool := bit (c.w 0) 1
def Ctx.pin (c : Ctx) : Bool := bit (c.w 0) 2 && !c.plain
def Ctx.cls (c : Ctx) : Nat := bits (c.w 0) 4 4
def Ctx.port (c : Ctx) : Nat := bits (c.w 0) 8 6
def Ctx.func (c : Ctx) : Nat := bits (c.w 0) 16 9
def Ctx.opsMax (c : Ctx) : Nat := bits (c.w 0) 48 12
def Ctx.ringLog (c : Ctx) (k : Nat) : Nat := bits (c.w k) 0 5
def Ctx.ringBase (c : Ctx) (k : Nat) : Nat := bits (c.w k) 12 52 * 4096
def Ctx.q (c : Ctx) (q : Nat) : WorkQ := c.qs.getD q WorkQ.reset
def Ctx.qEn (c : Ctx) (q : Nat) : Bool := bit (c.w (16 + 4 * q)) 0
def Ctx.qHot (c : Ctx) (q : Nat) : Bool := bit (c.w (16 + 4 * q)) 1 && !c.plain
def Ctx.qDepth (c : Ctx) (q : Nat) : Nat := max 1 (bits (c.w (16 + 4 * q)) 4 4)
def Ctx.qLog (c : Ctx) (q : Nat) : Nat := bits (c.w (16 + 4 * q)) 8 4
def Ctx.qBase (c : Ctx) (q : Nat) : Nat := bits (c.w (16 + 4 * q)) 12 52 * 4096
def Ctx.qPoll (c : Ctx) (q : Nat) : Nat := bits (c.w (17 + 4 * q)) 0 14 * 64
def Ctx.qCoal (c : Ctx) (q : Nat) : Nat := bits (c.w (17 + 4 * q)) 16 8 * 64
/-- VA of the slot of entry `i` of queue `q`. -/
def Ctx.slotVa (c : Ctx) (q i : Nat) : Nat := c.qBase q + 64 * (i % 2 ^ c.qLog q)

/-- A queue of a context changed. -/
def State.modQ (s : State) (e c q : Nat) (f : WorkQ → WorkQ) : State := s.modCtx e c fun x => { x with qs := x.qs.modify q f }

/-- Fields of a descriptor (Table 8.4). -/
def dw (d : Desc) (k : Nat) : Nat := d.getD k 0
def dOpcode (d : Desc) : Nat := bits (dw d 0) 0 8
def dFlag (d : Desc) (b : Nat) : Bool := bit (dw d 0) b
def dSl (d : Desc) : Nat := bits (dw d 0) 16 3
def dDest (d : Desc) : Nat := bits (dw d 0) 24 24
def dTctx (d : Desc) : Nat := bits (dw d 1) 0 20
def dRegion (d : Desc) : Nat := bits (dw d 1) 20 20
def dLen (d : Desc) : Nat := bits (dw d 4) 0 32
def dImm (d : Desc) : Nat := bits (dw d 4) 32 32
def dCookie (d : Desc) : Nat := bits (dw d 7) 0 63
def dOwn (d : Desc) : Bool := bit (dw d 7) 63

/-- `a` is ahead of `b` modulo `2 ^ w`, by 1 to half less 1. -/
def aheadIn (w a b : Nat) : Bool :=
  let d := (a + 2 ^ w - b % 2 ^ w) % 2 ^ w
  decide (1 ≤ d ∧ d ≤ 2 ^ (w - 1) - 1)

/-! ### What a function may send -/

/-- A host link is DL_Active. -/
def State.linkUp (s : State) (h : Nat) : Bool := s.flag F.HPT_STAT_UP h

/-- A non-posted TLP. -/
def Output.np : Output → Bool
  | .hostRead _ _ _ _ => true
  | .atomicOp _ _ _ _ _ _ _ _ _ => true
  | _ => false

/-- The tag of a non-posted TLP. -/
def Output.tagOf : Output → Option Nat
  | .hostRead t _ _ _ => some t
  | .atomicOp t _ _ _ _ _ _ _ _ => some t
  | _ => none

/-- The TLP of a request is still held. -/
def State.unsentTag (s : State) (tag : Nat) : Bool := s.parked.any fun x => x.2.2.tagOf == some tag

/-- Non-posted request TLPs of a link that are out: HPT_STAT.NP_OUT (R555). -/
def State.npOut (s : State) (h : Nat) : Nat :=
  ((s.reqs.filter fun r => r.port == h && !r.closed && !s.unsentTag r.tag).map (·.tlps)).sum

/-- The share of a link in the 8,192 non-posted requests of its x16 port (R555). -/
def State.npMax (s : State) (h : Nat) : Nat := 512 * (s.hport h).width

/-- What holds a TLP back: Bus Master Enable 0 (R584), the link in L1 or a substate (R581), or the limit of R555. -/
def State.held (s : State) (h func : Nat) (o : Output) : Bool :=
  !(s.fn h func).bme || s.get F.HPT_STAT_PM h != 0 || (o.np && decide (s.npMax h < s.npOut h))

/-- TLPs of a posted write under Max_Payload_Size, and of a read under Max_Read_Request_Size. DEDUCED: log entry 62. -/
def tlps (code len : Nat) : Nat := max 1 (divUp len (128 * 2 ^ min code 5))

/-- The Max_Payload_Size that a function writes with: that of its Device Control, at most the 512 bytes that the link supports (R555). -/
def FuncSt.payload (x : FuncSt) : Nat := min x.mps 2

/-- Non-posted request TLPs of an output (R555). -/
def State.npTlps (s : State) (h func : Nat) : Output → Nat
  | .hostRead _ _ _ l => (l.map fun g => tlps (s.fn h func).mrrs g.2.1).sum
  | .atomicOp _ _ _ _ _ _ _ _ _ => 1
  | _ => 0

/-- A TLP counted in the HPT page (Table 15.10): posted and non-posted TLPs, and 64-byte units of payload. -/
def State.countTlp (s : State) (h func : Nat) (o : Output) : State := match o with
  | .hostWrite _ _ _ d _ _ => (s.count 26 h 0x40 (tlps (s.fn h func).payload d.length)).count 26 h 0x44 (divUp d.length 64)
  | .hostRead _ _ _ _ => s.count 26 h 0x41 (s.npTlps h func o)
  | .atomicOp _ _ _ _ _ _ _ _ _ => (s.count 26 h 0x41).count 26 h 0x44
  | .msix _ _ _ _ => ((s.count 26 h 0x40).count 26 h 0x44).count 28 h 0x40
  | _ => s

/-- A message of a host port sent: a posted TLP without payload (Table 15.10). -/
def State.emitMsg (s : State) (h : Nat) (o : Output) : State := (s.emit o).count 26 h 0x40

/-- Completion data of `n` bytes sent to a party, counted where it is a function of a host port (Table 15.10). -/
def State.emitData (s : State) (m : Master) (n : Nat) (o : Output) : State := match m with
  | .fn h _ => (s.emit o).count 26 h 0x44 (divUp n 64)
  | _ => s.emit o

/-- An uncorrectable error of a function reported through AER: its status bit, and unless it is masked the message that its severity
names, where Device Control allows that (R565, R573). PRESUMED: log entry 173. -/
def State.aer (s : State) (h func b : Nat) : State :=
  let x := s.fn h func
  let fatal := bit x.aerSev b
  let s := s.modFn h func fun x => { x with aerStat := setBits x.aerStat b 1 1 }
  if !bit x.aerMask b && bit x.errEn (if fatal then 2 else 1) && s.linkUp h then s.emitMsg h (.errMsg h func fatal) else s

/-- An Unsupported Request: counted, with UR_SENT, reported through AER, and answered unless the request was posted (R565). -/
def State.unsupported (s : State) (h f : Nat) (posted : Bool) : State :=
  let s := ((s.inc F.HPT_CNT_B_UR h).raise E.HPT_UR_SENT h).aer h f 20
  if posted then s else s.emit (.unsupported h f)

/-- A TLP sent. -/
def State.sendTlp (s : State) (h func : Nat) (o : Output) : State :=
  ((s.emit o).countTlp h func o).modHport h fun x => { x with idleFrom := s.now }

/-- A TLP keeps its place behind held ones of its function: a request behind any, a posted write or message behind posted ones alone, so
that no request that R555 holds lets a later write of another function overtake it (R472). -/
def Output.behind (o p : Output) : Bool := o.np || !p.np

/-- A request, write or message issued for a function, or held (R581, R584). -/
def State.issue (s : State) (h func : Nat) (o : Output) : State :=
  if s.held h func o || s.parked.any (fun x => x.1 == h && x.2.1 == func && o.behind x.2.2) then
    { s with parked := s.parked ++ [(h, func, o)] }
  else s.sendTlp h func o

/-- The time of a held request runs from now (R584). -/
def State.timeFrom (s : State) (o : Output) : State :=
  { s with reqs := updWhere (fun r => o.tagOf == some r.tag) (fun r => { r with since := s.now }) s.reqs }

/-- One held TLP sent, unless it or an earlier one that it stays behind is still held. -/
def State.sendHeld1 (s : State) (kept : List (Nat × Output)) (wait : Bool) (x : Nat × Nat × Output) : State × List (Nat × Output) :=
  let u := { s with parked := s.parked.erase x }
  if u.held x.1 x.2.1 x.2.2 || kept.any (fun k => k.1 == x.2.1 && x.2.2.behind k.2) then (s, (x.2.1, x.2.2) :: kept)
  else ((if wait then u else u.timeFrom x.2.2).sendTlp x.1 x.2.1 x.2.2, kept)

/-- The answers that waited for their writes to be issued are due (R473). -/
def State.wakeUnissued (s : State) (h : Nat) : State :=
  s.each ((List.range 8).map (8 * dieOfPort h + ·)) fun s e =>
    if (s.eng e).unissued.isEmpty then s
    else s.modEng e fun x => { x with unissued := [], jobs := x.jobs ++ x.unissued.filter (!x.jobs.contains ·) }

/-- The held TLPs of a link sent, in their order, as far as nothing holds them any more. A wait in L1 counts in the time of a request, any
other does not (R581, R584). -/
def State.sendHeld (s : State) (h : Nat) (wait : Bool := false) : State :=
  (((s.parked.filter (·.1 == h)).foldl (fun (a : State × List (Nat × Output)) x => a.1.sendHeld1 a.2 wait x) (s, [])).1).wakeUnissued h

/-- A posted write of a function is still held. -/
def State.writesHeld (s : State) (h func : Nat) : Bool := s.parked.any fun x => x.1 == h && x.2.1 == func && !x.2.2.np

/-- The bytes that a function writes, in order (R472). On a link that is not DL_Active nothing is sent (R585). -/
def State.hostWrite (s : State) (h func addr : Nat) (data : List Byte) (ns tph : Bool) : State :=
  if data.isEmpty || !s.linkUp h then s else s.issue h func (.hostWrite h func addr data ns (tph && (s.fn h func).tph))

/-- A Completion Timeout of a function counted, raised and reported through AER (R573, R585). -/
def State.cplTimeout (s : State) (h func : Nat) : State := ((s.inc F.HPT_CNT_B_CTO h).raise E.HPT_CPL_TIMEOUT h).aer h func 14

/-- A non-posted request given its tag and kept until it ends (R573); on a link that is not DL_Active it ends at once (R585). DESIGN CHOICE: log entry 87. -/
def State.request (s : State) (e h func : Nat) (why : Purpose) (o : Nat → Output) : State :=
  let r : HostReq := ⟨s.nextTag, e, h, func, why, s.npTlps h func (o s.nextTag), s.now, false, false⟩
  let u := { s with reqs := s.reqs ++ [r], nextTag := s.nextTag + 1 }
  if s.linkUp h then u.issue h func (o s.nextTag)
  else (u.modEng e fun x => { x with dead := x.dead ++ [s.nextTag] }).cplTimeout h func

/-- The request with a tag. -/
def State.reqOf (s : State) (tag : Nat) : Option HostReq := s.reqs.find? (·.tag == tag)

/-- A request taken off the list. -/
def State.dropReqTag (s : State) (tag : Nat) : State := { s with reqs := s.reqs.filter (·.tag != tag) }

/-! ### Windows (R567, R568) -/

/-- The window of a host port that maps a peer address, and the PCIe address. -/
def State.outWindow (s : State) (h a : Nat) : Option Nat :=
  let hit := fun n =>
    let l := s.get F.WIN_OUT_SRC_LOG2 h n
    let b := s.get F.WIN_OUT_SRC_BASE h n * 65536 / 2 ^ l * 2 ^ l
    s.flag F.WIN_OUT_SRC_EN h n && decide (b ≤ a ∧ a < b + 2 ^ l)
  match (List.range 16).find? hit with
  | some n =>
    let l := s.get F.WIN_OUT_SRC_LOG2 h n
    some ((s.get F.WIN_OUT_TGT_TGT h n * 65536 + (a - s.get F.WIN_OUT_SRC_BASE h n * 65536 / 2 ^ l * 2 ^ l)) % 2 ^ 64)
  | none => none

/-- PFs and VFs of a link in force. -/
def State.funcExists (s : State) (h func : Nat) : Bool :=
  let x := s.hport h
  if func < 8 then bit x.pfs func else decide (func - 8 < x.vfs.sum)

/-- The functions of a link in force. -/
def State.funcsOf (s : State) (h : Nat) : List Nat :=
  (List.range 8).filter (bit (s.hport h).pfs) ++ (List.range (s.hport h).vfs.sum).map (8 + ·)

/-- The PF that VF `v` of a link belongs to, from the VFs of PF 0 to 7 (R561). -/
def pfOfVf : List Nat → Nat → Nat
  | [], _ => 0
  | n :: l, v => if v < n then 0 else pfOfVf l (v - n) + 1

/-- The PF of a function. -/
def State.pfOf (s : State) (h func : Nat) : Nat := if func < 8 then func else pfOfVf (s.hport h).vfs (func - 8)

/-- Log2 of a function's BAR2 pages in force (R563). -/
def State.bar2Log (s : State) (h func : Nat) : Nat := (s.hport h).bar2.getD (min func 8) 0

/-- The context that page `k` of a function's BAR2 reaches (R567). -/
def State.pageCtx (s : State) (h func k : Nat) : Option Nat :=
  let c :=
    if func < 8 then
      if k < s.get F.WIN_IN_PF_COUNT h func ∧ k < 2 ^ s.bar2Log h func then some (s.get F.WIN_IN_PF_CTX_FIRST h func + k) else none
    else if k < s.get F.WIN_IN_VF_COUNT h ∧ k < 2 ^ s.bar2Log h func then
      some (s.get F.WIN_IN_VF_CTX_FIRST h + (func - 8) * s.get F.WIN_IN_VF_COUNT h + k)
    else none
  match c with
  | some c => if c < 2 ^ 20 then some c else none
  | none => none

/-- A context lies within a function's BAR2 range (R567). -/
def State.inRange (s : State) (h func c : Nat) : Bool :=
  let first := if func < 8 then s.get F.WIN_IN_PF_CTX_FIRST h func
    else s.get F.WIN_IN_VF_CTX_FIRST h + (func - 8) * s.get F.WIN_IN_VF_COUNT h
  decide (first ≤ c) && s.pageCtx h func (c - first) == some c

/-! ### MSI-X (R577) -/

/-- The size of a function's MSI-X table in force (R563). DEDUCED: log entry 116. -/
def State.vecCount (s : State) (h func : Nat) : Nat :=
  if func < 8 then (s.hport h).vecs.getD func 1 else (s.hport h).vfVecs.getD (func - 8) 1

/-- Entry `v` of a function's MSI-X table. -/
def State.vec (s : State) (h func v : Nat) : Vector := Tab.get Vector.reset (s.fn h func).vecs v

/-- An MSI-X message may go (R577). -/
def State.vecOpen (s : State) (h func v : Nat) : Bool :=
  let f := s.fn h func
  f.msix && !f.fmask && !(s.vec h func v).mask && f.bme && s.linkUp h

/-- Entry `v` changed. -/
def State.modVec (s : State) (h func v : Nat) (g : Vector → Vector) : State :=
  s.modFn h func fun f => { f with vecs := Tab.modify Vector.reset f.vecs v g }

/-- A message for a function's entry: sent, or its Pending Bit set (R577). -/
def State.message (s : State) (h func v : Nat) : State :=
  if s.vecCount h func ≤ v then s.raise E.FUN_VEC_RANGE h
  else if s.vecOpen h func v then s.issue h func (.msix h func (s.vec h func v).addr (s.vec h func v).data)
  else (s.modVec h func v fun x => { x with pending := true }).count 28 h 0x41

/-- The part of an 8-byte register that an access of 4 or 8 bytes at `off` reads. -/
def halfOf (off len v : Nat) : Nat := if len = 4 then (if off % 8 = 4 then v / 2 ^ 32 % 2 ^ 32 else v % 2 ^ 32) else v % 2 ^ 64

/-! ### Times of connectionless delivery (Table 9.6) -/

/-- D in ns (R359). -/
def State.dNs (s : State) : Nat := 2 * s.get F.MT_ACC_LIMIT + 16

/-- The ageing limits of REQ and RSP in ns. -/
def State.aq (s : State) : Nat := 16 * s.get F.CORE_AGE_LIMIT 0 0
def State.as (s : State) : Nat := 16 * s.get F.CORE_AGE_LIMIT 0 1

/-- The LEGACY bit of a group (R755). -/
def State.legacy (s : State) (g : Nat) : Bool := s.getBit F.DEST_CAP_LEGACY (g % 64) 0 (g / 64)
/-- Some LEGACY bit is set. -/
def State.anyLegacy (s : State) : Bool := (List.range 32).any fun n => s.flag F.DEST_CAP_LEGACY 0 n

/-- TRANSIT in ns (R757). -/
def State.transit (s : State) (e : Nat) : Nat := 64 * s.get F.RMA_LEG_TRANSIT e

/-- The retry timeout of an operation to a destination (R352, R362, R757). -/
def State.tR (s : State) (e dest : Nat) (tu : Bool) : Nat :=
  s.stretch tu (64 * if s.legacy (groupOf dest) then s.get F.RMA_LEG_TIMEOUT e else s.get F.RMA_RTX_TIMEOUT e)

/-- The hole time of a peer (R349, R372, R757). -/
def State.tHole (s : State) (e peer : Nat) (tu : Bool) : Nat :=
  s.stretch tu (64 * if s.legacy (groupOf peer) then s.get F.RMA_LEG_HOLE e else s.get F.RMA_HOLE_HOLE e)

/-- The completion hold A_Q + D (R356, R757). -/
def State.tHold (s : State) (e dest : Nat) (tu : Bool) : Nat :=
  s.stretch tu (s.aq + (if s.legacy (groupOf dest) then s.transit e else 0) + s.dNs)

/-- The lifetime of a duplicate-filter entry of unit `u` (R365, R757). -/
def State.tLife (s : State) (u src : Nat) (tu : Bool) : Nat :=
  s.stretch tu (64 * if s.legacy (groupOf src) then s.get F.DUP_LEG_LIFE u else s.get F.DUP_CTL_LIFE u)

/-- The reuse time of a slot's generation (R357, R757). -/
def State.tGen (s : State) (e : Nat) (tu : Bool) : Nat := s.stretch tu (s.as + (if s.anyLegacy then s.transit e else 0) + s.dNs)

/-- W, the ordered-stream window (R402 to R405, R362). -/
def State.tWindow (s : State) (e : Nat) (tu : Bool) : Nat := s.stretch tu (64 * s.get F.MAT_STREAM_WINDOW e)

/-- Elapsed MT `at_` plus `d` ns has passed: a time that the manual does not tie to a tick. -/
def State.passed (s : State) (at_ d : Nat) : Bool := decide (at_ + ns d ≤ s.now)

end Sys2Proof.Machine
end

