-- ==== Sys2Proof/Machine/Xlate.lean ====
section
/-!
DEFINITION. Address translation (that chapter): the lookup of a context virtual address, the walker with its A/D updates, the
translation and walk caches, and invalidation. Work that needs a translation waits in its walk as a `Job`.
-/
namespace Sys2Proof.Machine
open Sys2Proof

/-! ### Fault kinds (Table 13.5) -/

def kNotPresent : Nat := 1
def kPermission : Nat := 2
def kBus : Nat := 3
def kNotMem : Nat := 4
def kAd : Nat := 5
def kRange : Nat := 6
def kNoWindow : Nat := 7
def kBadEntry : Nat := 8
/-- A host error, where a fault kind is recorded. DEDUCED: log entry 107. -/
def kHost : Nat := 0xFF

/-! ### Rights (R496, R497) -/

/-- The rights an access needs, as R + 2W + 4X. DEDUCED: log entry 90. -/
def Use.needs : Use → Nat
  | .fetch => 4
  | .own => 4
  | .read => 1
  | .write => 2
  | .atomic => 3

/-- The access writes: it needs D (R504). -/
def Use.writes : Use → Bool
  | .own => true
  | .write => true
  | .atomic => true
  | _ => false

/-- XLT_FLT_LOG.ACC. -/
def Use.code : Use → Nat
  | .read => 1
  | .write => 2
  | .own => 2
  | .atomic => 3
  | .fetch => 4

/-- Rights given suffice for a use by a context. -/
def permits (c : Ctx) (rights : Nat) (u : Use) : Bool :=
  holdsMask rights (u.needs + if c.super then 0 else 8)

/-! ### XLT_ROOT (Table 13.1) -/

def Ctx.xltEn (c : Ctx) : Bool := bit (c.w 1) 0
def Ctx.rtype (c : Ctx) : Nat := bits (c.w 1) 1 2
def Ctx.adu (c : Ctx) : Bool := bit (c.w 1) 3
def Ctx.wport (c : Ctx) : Nat := bits (c.w 1) 4 6
def Ctx.root (c : Ctx) : Nat := bits (c.w 1) 12 40 * 4096
/-- The function whose enables govern the walker (R491). -/
def Ctx.wfunc (c : Ctx) : Nat := if c.wport = c.port then c.func else 0

/-! ### The lookup -/

/-- The answer to a lookup. `short` is a hit on an entry that records less than the access needs (R503, R504). -/
inductive Tr where
  | ok (pa mtype : Nat)
  | fault (kind : Nat)
  | miss
  | short
deriving DecidableEq, Repr

/-- The TLB entry for an address of a context. -/
def State.tlbHit (s : State) (e c va : Nat) : Option Tlb := (s.eng e).tlb.find? fun t => t.ctx == c && va / 2 ^ t.log2 == t.vpage

/-- The fault of an address that is found before any lookup (R489, R490, R507). -/
def Ctx.badVa (c : Ctx) (va : Nat) : Option Nat :=
  if 2 ^ 48 ≤ va then some kRange
  else if !c.xltEn then some kNotPresent
  else if c.rtype = 3 ∨ bits (c.w 1) 10 2 ≠ 0 ∨ bits (c.w 1) 52 12 ≠ 0 then some kBadEntry
  else none

/-- The translation of one address (R489 to R498). An access that needs more than the entry records walks for itself (R503, R509). -/
def State.lookup (s : State) (e : Nat) (c : Ctx) (va : Nat) (u : Use) : Tr := match c.badVa va with
  | some k => .fault k
  | none => match s.tlbHit e c.num va with
    | none => .miss
    | some t =>
      if !permits c t.rights u || (c.adu && u.writes && !t.d) then .short
      else
        let a := t.pa + va % 2 ^ t.log2
        if t.mtype = 2 then
          match s.outWindow c.port a with
          | some x => .ok x 2
          | none => .fault kNoWindow
        else .ok a t.mtype

/-- A fault logged, counted and raised (R510). DEDUCED: log entry 91. -/
def State.xltFault (s : State) (e c va kind acc level : Nat) : State :=
  let s := (s.inc F.XLT_CNT_B_FAULTS e).count 23 e 0x46
  let s := if kind = kBus then s.raise E.XLT_WALK_ERR e else s
  if s.flag F.XLT_FLT_LOG_VALID e then s
  else
    let s := (((s.set F.XLT_FLT_LOG_CTX c e).set F.XLT_FLT_LOG_KIND kind e).set F.XLT_FLT_LOG_ACC acc e).set F.XLT_FLT_LOG_LEVEL level e
    ((s.event F.XLT_FLT_LOG_VALID 0 e).set F.XLT_FLT_ADDR_VA va e).raise E.XLT_FAULT e

/-- The accesses of a job that were looked up. -/
def State.looked (s : State) (e : Nat) (j : Job) : Nat := (((s.eng e).looked.find? (·.1 == j)).map (·.2)).getD 0

/-- The accesses of a job that were looked up noted; 0 where the job is done with. -/
def State.setLooked (s : State) (e : Nat) (j : Job) (n : Nat) : State :=
  s.modEng e fun x => { x with looked := (x.looked.filter (·.1 != j)) ++ if n = 0 then [] else [(j, n)] }

/-- A job reported as failed with a fault kind at an address. -/
def State.failJob (s : State) (e : Nat) (j : Job) (kind va : Nat) : State :=
  (s.setLooked e j 0).modEng e fun x => { x with faults := x.faults ++ [(j, kind, va)] }

/-- A job put in line to be run. -/
def State.addJob (s : State) (e : Nat) (j : Job) : State :=
  s.modEng e fun x => if x.jobs.contains j then x else { x with jobs := x.jobs ++ [j] }

/-! ### Walks (R499 to R503) -/

def State.walkOf (s : State) (e c page : Nat) : Option Walk := (s.eng e).walks.find? fun w => w.ctx == c && w.page == page
def State.modWalk (s : State) (e c page : Nat) (f : Walk → Walk) : State :=
  s.modEng e fun x => { x with walks := updWhere (fun w => w.ctx == c && w.page == page) f x.walks }
def State.dropWalk (s : State) (e c page : Nat) : State :=
  s.modEng e fun x => { x with walks := x.walks.filter fun w => !(w.ctx == c && w.page == page) }

/-- Lowest VA bit of a level's index. -/
def levelShift (l : Nat) : Nat := 12 + 9 * (l - 1)

/-- A walk ended: the waiting jobs in `bad` fail with `kind` at `level`, and the walk goes when none is left. -/
def State.failWaits (s : State) (e : Nat) (w : Walk) (bad : List (Job × Use × Nat)) (kind level : Nat) : State :=
  let s := s.each bad fun s j => (s.failJob e j.1 kind j.2.2).xltFault e w.ctx j.2.2 kind j.2.1.code level
  let left := w.waits.filter fun j => !bad.contains j
  if left.isEmpty then s.dropWalk e w.ctx w.page else s.modWalk e w.ctx w.page fun x => { x with waits := left }

/-- Every waiting job of a walk fails. -/
def State.failWalk (s : State) (e : Nat) (w : Walk) (kind level : Nat) : State := s.failWaits e w w.waits kind level

/-- The pointer rule forbids reading through a pointer (R500). -/
def State.badPtr (s : State) (c : Ctx) (ptr mtype : Nat) : Bool := mtype == 2 || (s.outWindow c.wport ptr).isSome

/-- The table at `ptr` read for a walk at `level`, unless the pointer rule forbids it (R500). -/
def State.readTable (s : State) (e : Nat) (c : Ctx) (w : Walk) (level ptr mtype rights : Nat) : State :=
  if s.badPtr c ptr mtype then s.failWalk e w kNotMem (if level = 4 then 0 else level + 1)
  else
    let a := ptr + 8 * bits (w.page * 4096) (levelShift level) 9
    let s := s.modWalk e w.ctx w.page fun x => { x with level := level, addr := a, rights := rights, ns := mtype == 1, running := true, cas := none }
    (s.count 23 e 0x43).request e c.wport c.wfunc (.walk w.ctx w.page) fun tag => .hostRead tag c.wport c.wfunc [(a, 8, mtype == 1)]

/-- The accesses of a walk whose rights `r`, those of its entries so far, lack fail (R503, R508). -/
def State.failShort (s : State) (e : Nat) (c : Ctx) (w : Walk) (r level : Nat) : State :=
  let bad := w.waits.filter fun j => !permits c r j.2.1
  if bad.isEmpty then s else s.failWaits e w bad kPermission level

/-- A walk begun at ROOT or at the deepest cached entry, whose pointer and rights are checked as when it was read (R499, R502, R508). -/
def State.beginWalk (s : State) (e : Nat) (w : Walk) : State :=
  match s.ctx e w.ctx with
  | none => s.failWalk e w kNotPresent 0
  | some c =>
    let s := s.count 23 e 0x42
    let s := s.modWalk e w.ctx w.page fun x => { x with running := true, restart := false, cas := none }
    if dieOfPort c.wport ≠ dieOfEng e then s.failWalk e w kBus 0
    else
      let hit := fun l => (s.eng e).wc.find? fun x => x.ctx == w.ctx && x.level == l && x.tag == w.page * 4096 / 2 ^ levelShift (l + 1)
      match (if s.flag F.XLT_CFG_WC_EN e then hit 1 <|> hit 2 <|> hit 3 else none) with
      | some x =>
        let s := s.count 23 e 0x44
        let s := if s.badPtr c x.ptr x.mtype then s else s.failShort e c w x.rights (x.level + 1)
        match s.walkOf e w.ctx w.page with
        | some w => s.readTable e c w x.level x.ptr x.mtype x.rights
        | none => s
      | none => s.readTable e c w 4 c.root c.rtype 15

/-- Waiting walks begun while fewer than XLT_CFG.WALKS run (R503). -/
def State.kickWalks (s : State) (e : Nat) : State :=
  let idle := (s.eng e).walks.filter fun w => !w.running
  s.each idle fun s w => if ((s.eng e).walks.filter (·.running)).length < s.get F.XLT_CFG_WALKS e then s.beginWalk e w else s

/-- A job waits for a walk of a page, shared with others; one that the entries read so far deny fails (R503, R508). DEDUCED: log entry 88. -/
def State.joinWalk (s : State) (e : Nat) (k : Ctx) (va : Nat) (j : Job) (u : Use) : State :=
  let page := va / 4096
  match s.walkOf e k.num page with
  | some w =>
    if w.waits.contains (j, u, va) then s
    else if w.running && !w.restart && !permits k w.rights u then
      (s.failJob e j kPermission va).xltFault e k.num va kPermission u.code (w.level + 1)
    else s.modWalk e k.num page fun x => { x with waits := x.waits ++ [(j, u, va)] }
  | none =>
    (s.modEng e fun x => { x with walks := x.walks ++ [⟨k.num, page, 4, 0, 15, false, false, none, 0, false, [(j, u, va)]⟩] }).kickWalks e

/-- A table entry is bad at a level (R495). -/
def badEntry (v level : Nat) : Bool :=
  let l := bit v 1
  bits v 11 1 != 0 || bits v 52 4 != 0 || bits v 6 2 == 3 || (l && level == 4) || (!l && level == 1)
    || (if l then bit v 10 && level != 1 else bits v 8 3 != 0)
    || (l && level == 2 && bits v 12 9 != 0) || (l && level == 3 && bits v 12 18 != 0)

/-- R, W, X, U of an entry. -/
def entryRights (v : Nat) : Nat := bits v 2 4

/-- A list with one element added, a random one replaced when `n` stand in it. DESIGN CHOICE: log entry 121. -/
def State.addRandom {α : Type} (s : State) (n : Nat) (l : List α) (a : α) : List α :=
  if l.length < n then l ++ [a] else l.set (s.peek % n) a

/-- The translation of a leaf installed in place of what covered its page, and the waiting jobs run (R503, R511).
DESIGN CHOICE: log entry 89. -/
def State.install (s : State) (e : Nat) (c : Ctx) (w : Walk) (v : Nat) : State :=
  let log2 := if w.level = 1 then (if bit v 10 then 16 else 12) else levelShift w.level
  let va := w.page * 4096
  let t : Tlb := ⟨w.ctx, log2, va / 2 ^ log2, bits v 12 40 * 4096 / 2 ^ log2 * 2 ^ log2, bits v 6 2,
    Nat.land w.rights (entryRights v), !c.adu || bit v 9⟩
  let keep := (s.eng e).tlb.filter fun x => !(x.ctx == w.ctx && (va / 2 ^ x.log2 == x.vpage || (x.log2 == log2 && x.vpage == t.vpage)))
  let full := decide (256 ≤ keep.length)
  let l := s.addRandom 256 keep t
  let s := if full then s.drawn else s
  let s := s.modEng e fun x => { x with tlb := l }
  let s := s.each w.waits fun s j => s.addJob e j.1
  s.dropWalk e w.ctx w.page

/-- An entry checked: `v` is what its read or its CAS returned (R495 to R497, R504, R508). With `again`, a CAS found another value than it
compared: one more is a retry (R505). -/
def State.walkEntry (s : State) (e : Nat) (c : Ctx) (w : Walk) (v : Nat) (again : Bool) : State :=
  let l := w.level
  if !bit v 0 then s.failWalk e w kNotPresent l
  else if badEntry v l then s.failWalk e w kBadEntry l
  else
    let ptr := bits v 12 40 * 4096
    if !bit v 1 && s.badPtr c ptr (bits v 6 2) then s.failWalk e w kNotMem l
    else
      let r := Nat.land w.rights (entryRights v)
      let s := s.failShort e c w r l
      match s.walkOf e w.ctx w.page with
      | none => s
      | some w =>
        if bit v 1 then
          let need := (if !bit v 8 then 256 else 0) + (if !bit v 9 && w.waits.any (·.2.1.writes) then 512 else 0)
          if c.adu && need != 0 then
            if !(s.fn c.wport c.wfunc).atomic || (again && decide (s.get F.XLT_CFG_AD_RETRY e ≤ w.retries)) then s.failWalk e w kAd l
            else
              let s := if again then s.inc F.XLT_CNT_B_AD_RETRIES e else s
              let s := s.modWalk e w.ctx w.page fun x => { x with cas := some (v, v + need), retries := x.retries + b2n again }
              (s.count 23 e 0x45).request e c.wport c.wfunc (.cas w.ctx w.page) fun tag =>
                .atomicOp tag c.wport c.wfunc w.addr 8 true v (v + need) w.ns
          else s.install e c { w with rights := w.rights } v
        else
          let x : WalkC := ⟨w.ctx, l - 1, w.page * 4096 / 2 ^ levelShift l, ptr, bits v 6 2, r⟩
          let keep := (s.eng e).wc.filter fun y => !(y.ctx == x.ctx && y.level == x.level && y.tag == x.tag)
          let full := decide (64 ≤ keep.length)
          let wc := s.addRandom 64 keep x
          let s := if s.flag F.XLT_CFG_WC_EN e then (if full then s.drawn else s).modEng e fun y => { y with wc := wc } else s
          s.readTable e c w (l - 1) ptr (bits v 6 2) r

/-- A table read of a walk has returned (R499, R501). -/
def State.walkReturn (s : State) (e c page : Nat) (ok : Bool) (v : Nat) : State :=
  match s.walkOf e c page, s.ctx e c with
  | some w, some x =>
    if w.restart then ((s.count 23 e 0x49).beginWalk e w).kickWalks e
    else if !ok then ((s.inc F.XLT_CNT_A_WALK_ERR e).failWalk e w kBus w.level).kickWalks e
    else (s.walkEntry e x w v false).kickWalks e
  | some w, none => s.failWalk e w kNotPresent 0
  | none, _ => s

/-- An A/D CAS of a walk has returned (R505, R516): where it found what it compared, the entry is what it wrote, which the accesses that joined
meanwhile meet too; else the value returned is a fresh read of the entry. -/
def State.casReturn (s : State) (e c page : Nat) (ok : Bool) (v : Nat) : State :=
  match s.walkOf e c page, s.ctx e c with
  | some w, some x =>
    if w.restart then ((s.count 23 e 0x49).beginWalk e w).kickWalks e
    else if !ok then ((s.raise E.XLT_WALK_ERR e).failWalk e w kAd w.level).kickWalks e
    else match w.cas with
      | some (old, new) =>
        ((s.modWalk e c page fun x => { x with cas := none }).walkEntry e x { w with cas := none } (if v = old then new else v)
          (decide (v ≠ old))).kickWalks e
      | none => s
  | some w, none => s.failWalk e w kNotPresent 0
  | none, _ => s

/-! ### Running a list of accesses -/

/-- The pages of a range, each with the first address of the range in it; an empty range has none. -/
def pagesOf (va len : Nat) : List Nat :=
  (List.range (if len = 0 then 0 else (va % 4096 + len + 4095) / 4096)).map fun i => if i = 0 then va else (va / 4096 + i) * 4096

/-- What the accesses of a job come to: the first that does not translate decides. `found` tells of an entry that records too little. -/
inductive Mapped where
  | ok
  | fault (va kind : Nat) (u : Use)
  | miss (va : Nat) (u : Use) (found : Bool)
deriving DecidableEq, Repr

/-- The accesses looked up one page after another, `n` of them before these; and how many were looked up in the TLB. -/
def State.mapped (s : State) (e : Nat) (c : Ctx) (n : Nat) : List (Nat × Use) → Nat × Mapped
  | [] => (n, .ok)
  | (va, u) :: l => match s.lookup e c va u with
    | .ok _ _ => s.mapped e c (n + 1) l
    | .fault k => (n + b2n (c.badVa va).isNone, .fault va k u)
    | .miss => (n + 1, .miss va u false)
    | .short => (n + 1, .miss va u true)

/-- A job that waits for a walk, `n` of its accesses looked up, the last of them without use: each is counted once, and one that has lost the
translation it had is counted, and misses, again (R519, R521). -/
def State.mustWalk (s : State) (e : Nat) (k : Ctx) (j : Job) (n va : Nat) (u : Use) (found : Bool) : State :=
  let seen := s.looked e j
  let s := s.count 23 e 0x40 (if n ≤ seen && !found then 1 else n - seen)
  let s := if found then s else (s.inc F.XLT_CNT_A_MISSES e).count 23 e 0x41
  (s.setLooked e j (max n seen)).joinWalk e k va j u

/-- The host segments of a range whose pages all translate: PCIe address, bytes, No Snoop. -/
def State.segments (s : State) (e : Nat) (c : Ctx) (va len : Nat) (u : Use) : List (Nat × Nat × Bool) :=
  (pagesOf va len).map fun p =>
    let n := min (4096 - p % 4096) (va + len - p)
    match s.lookup e c p u with
    | .ok pa t => (pa, n, t != 0)
    | _ => (0, 0, false)

/-- An address translates through an outbound window (R498, R568). -/
def State.devPage (s : State) (e : Nat) (c : Ctx) (va : Nat) (u : Use) : Bool := match s.lookup e c va u with
  | .ok _ t => t == 2
  | _ => false

/-- TLPs of a range, of at most the size that `code` names, that windows map (Table 15.10). -/
def State.windowed (s : State) (e : Nat) (c : Ctx) (va len code : Nat) (u : Use) : Nat :=
  ((pagesOf va len).map fun p =>
    if s.devPage e c p u then tlps code (min (4096 - p % 4096) (va + len - p)) else 0).sum

/-- TLPs mapped by a window counted in the WIN page. -/
def State.winCount (s : State) (c : Ctx) (n : Nat) : State := if n = 0 then s else s.count 27 c.port 0x40 n

/-- Bytes written to a range whose pages all translate, in ascending order (R472). -/
def State.writeVa (s : State) (e : Nat) (c : Ctx) (va : Nat) (data : List Byte) (tph : Bool := false) (u : Use := .write) : State :=
  let put := fun (a : State × List Byte) (g : Nat × Nat × Bool) =>
    (a.1.hostWrite c.port c.func g.1 (a.2.take g.2.1) g.2.2 tph, a.2.drop g.2.1)
  let t := ((s.segments e c va data.length u).foldl put (s, data)).1
  t.winCount c (s.windowed e c va data.length (s.fn c.port c.func).payload u)

/-- A range read for a purpose. -/
def State.readVa (s : State) (e : Nat) (c : Ctx) (va len : Nat) (why : Purpose) (u : Use := .read) : State :=
  let l := s.segments e c va len u
  let t := s.request e c.port c.func why fun tag => .hostRead tag c.port c.func l
  t.winCount c (s.windowed e c va len (s.fn c.port c.func).mrrs u)

/-! ### Invalidation (R512 to R516) -/

/-- An address range overlaps a page. -/
def overlaps (va len vpage log2 : Nat) : Bool := decide (vpage * 2 ^ log2 < va + len ∧ va < (vpage + 1) * 2 ^ log2)

/-- Translations of the contexts that meet `p` discarded at an engine: of a range where one is given (R513). Walks in flight of
the scope start again. -/
def State.xltDrop (s : State) (e : Nat) (p : Nat → Bool) (range : Option (Nat × Nat)) : State :=
  let inR := fun vp l => match range with
    | some (va, len) => overlaps va len vp l
    | none => true
  s.modEng e fun x => { x with
    tlb := x.tlb.filter fun t => !(p t.ctx && inR t.vpage t.log2), wc := x.wc.filter fun w => !p w.ctx,
    walks := updWhere (fun w => p w.ctx && w.running) (fun w => { w with restart := true }) x.walks }

/-- The walks of a scope that run at an engine. -/
def State.walksIn (s : State) (e : Nat) (p : Nat → Bool) : List (Nat × Nat × Nat) :=
  ((s.eng e).walks.filter fun w => p w.ctx && w.running).map fun w => (e, w.ctx, w.page)

end Sys2Proof.Machine
end

