-- ==== Sys2Proof/Machine/Queue.lean ====
section
/-!
DEFINITION. Engines, contexts and work queues (that chapter): packets injected and answered, event, error and completion
records, the ending of entries, context faults, loads and evictions.
-/
namespace Sys2Proof.Machine
open Sys2Proof

/-! ### Packets of an engine -/

/-- The endpoint of an engine of this device. -/
def State.selfEp (s : State) (e : Nat) : Nat := endpoint s.devSelf.1 s.devSelf.2.1 e

/-- A packet formed by an engine now (R60, R183, R206, R225). -/
def State.form (s : State) (e dst cls sl rmode : Nat) (ord : Bool) (w : List Nat) (data : List Byte) : Packet :=
  { dst := dst, src := s.selfEp e, cls := cls, sl := sl, rmode := rmode, ord := ord, ep := s.bankOf (tileOfEng e), tu := s.isUnsure,
    ce := false, nm := false, escf := false, mep := false, birth := s.stamp, len := data.length, hops := 0, w2 := w.getD 0 0,
    w3 := w.getD 1 0, w4 := w.getD 2 0, w5 := w.getD 3 0, w6 := w.getD 4 0, w7 := w.getD 5 0, data := data }

/-- A packet presented to the input side of the engine's tile, with the context class whose shaper it meets there (R256) and what its
injection starts. -/
def State.inject (s : State) (e : Nat) (pkt : Packet) (ctx : Option Nat := none) (shp : Option Nat := none) (start : Start := .nothing) : State :=
  let f : Fresh := ⟨s.core.nextId, pkt, e, vcOf pkt.cls 0, pkt.ncells, shp, start⟩
  let s := { s with core := { s.core with nextId := s.core.nextId + 1 } }
  (s.modTile (tileOfEng e) fun x => { x with fresh := x.fresh ++ [f] }).count 18 e 0x42 1 ctx

/-- Fields of words 2 to 4 of an RMA packet (Table 9.1). -/
def pTctx (p : Packet) : Nat := bits p.w2 0 20
def pRegion (p : Packet) : Nat := bits p.w2 20 20
def pKind (p : Packet) : Nat := bits p.w2 40 8
def pAttempt (p : Packet) : Nat := bits p.w2 48 4
def pDurable (p : Packet) : Bool := bit p.w2 52
def pWide (p : Packet) : Bool := bit p.w2 53
def pFlag (p : Packet) : Bool := bit p.w2 54
def pOpid (p : Packet) : Nat := bits p.w3 0 32
def pTotal (p : Packet) : Nat := bits p.w3 32 32
def pRoff (p : Packet) : Nat := bits p.w4 0 44
def pSctx (p : Packet) : Nat := bits p.w4 44 20
def pPoff (p : Packet) : Nat := bits p.w5 0 32
def pAux (p : Packet) : Nat := bits p.w5 32 32

/-- Word 2 of an RMA packet (Table 9.1). -/
def word2 (tctx region kind attempt flags : Nat) : Nat :=
  field tctx 0 20 + field region 20 20 + field kind 40 8 + field attempt 48 4 + field flags 52 3

/-- A lock request of a lock unit (Table 14.2): it meets no context at the responder, and its word 5 is no POFF. -/
def lockKind (q : Packet) : Bool := 0x28 ≤ pKind q && pKind q ≤ 0x2A

/-- The context that answers a request: none for a lock request (R276). -/
def answerCtx (q : Packet) : Option Nat := if lockKind q then none else some (pTctx q)

/-- The class of the context that answers a request, whose shaper holds and is charged for the answer (R256); none where no context does. -/
def State.answerShp (s : State) (e : Nat) (q : Packet) : Option Nat := match answerCtx q with
  | some c => (s.ctx e c).map Ctx.cls
  | none => none

/-- A response to a request (Table 9.1): the initiator's context, ATTEMPT and word 3 echoed. It travels adaptively on the SL of
the request. DEDUCED: log entry 92. -/
def State.answer (s : State) (e : Nat) (q : Packet) (kind w5 w6 w7 : Nat) (data : List Byte := []) (start : Start := .nothing) : State :=
  s.inject e (s.form e q.src 1 q.sl 0 false
    [word2 (pSctx q) 0 kind (pAttempt q) 0, q.w3, field (pTctx q) 44 20, w5, w6, w7] data) (answerCtx q) (s.answerShp e q) start

/-- Word 5 of a NACK: CODE, and the POFF of the refused packet, 0 for a lock request (Tables 9.1, 14.2). -/
def nackWord (q : Packet) (code : Nat) : Nat := field code 0 8 + field (if lockKind q then 0 else pPoff q) 32 32

/-- NACK_BUSY with a code (Table 9.5). -/
def State.nackBusy (s : State) (e : Nat) (q : Packet) (code : Nat) : State := s.answer e q 0x42 (nackWord q code) 0 0

/-- NACK_ACCESS with a code (Table 9.4). -/
def State.nackAccess (s : State) (e : Nat) (q : Packet) (code : Nat) : State := (s.answer e q 0x43 (nackWord q code) 0 0).count 21 e 0x45

/-- A refusal under check 1: no record (R344). -/
def State.refuse1 (s : State) (e : Nat) (q : Packet) : State :=
  ((s.nackAccess e q 1).inc F.RMA_CNT_B_REFUSED e).raise E.RMA_ACCESS_REFUSED e

/-- ACK with the packets counted, their marks and a result (Table 9.1). -/
def State.ack (s : State) (e : Nat) (q : Packet) (pkts marks v0 v1 : Nat) : State :=
  (s.answer e q 0x40 (field pkts 0 32 + field marks 32 32) v0 v1).count 21 e 0x43

/-- A late response discarded (R483). -/
def State.late (s : State) (e : Nat) : State := (s.inc F.ENG_CNT_C_LATE_RSP e).count 18 e 0x4B

/-! ### Records (R319 to R326) -/

/-- An event record, OWN aside (Table 8.7). -/
def evWords (type status q idx info w2 cookie : Nat) : List Nat :=
  [field type 0 8 + field status 8 8 + field q 16 3 + field idx 32 32, info % 2 ^ 64, w2 % 2 ^ 64, field cookie 0 63]

/-- An error record, OWN aside (Table 8.8). -/
def State.errWords (s : State) (source status q idx cookie peer pctx addr opid detail : Nat) : List Nat :=
  [field source 0 8 + field status 8 8 + field q 16 3 + field idx 32 32, field cookie 0 63, field peer 0 24 + field pctx 24 20,
   addr % 2 ^ 64, field opid 0 32 + field detail 32 32, s.mtNs, 0, 0]

/-- Records in a ring, and those on their way to it. -/
def Ctx.evUsed (c : Ctx) : Nat := (c.evqWr + 2 ^ 32 - c.evqRd % 2 ^ 32) % 2 ^ 32
def Ctx.errUsed (c : Ctx) : Nat := (c.errqWr + 2 ^ 32 - c.errqRd % 2 ^ 32) % 2 ^ 32

/-- The event ring has no room for one more event (R320). -/
def Ctx.evFull (c : Ctx) : Bool := decide (2 ^ c.ringLog 3 ≤ c.evUsed + c.events.length)

/-- A status that counts as a failure (R324). -/
def fails (status : Nat) : Bool := status != 0 && status != 0x0B

/-- The lowest unfinished index, START when every started entry has finished (R316). -/
def WorkQ.doneIdx (w : WorkQ) : Nat := w.live.headD w.start

/-- The results of a context are reported: it has not faulted (R300). DEDUCED: log entry 132. -/
def State.reports (s : State) (e c : Nat) : Bool := (s.ctx e c).all fun k => !k.faulted

/-- An entry finishes: it is counted, DONE advances past it when every earlier one has finished (R316, R318, R478). A faulted context
writes no completion record (R300). -/
def State.finish (s : State) (e c : Nat) (f : Fin1) : State :=
  let tell := s.reports e c
  let s := s.modQ e c f.q fun w =>
    let w := { w with live := w.live.filter (· != f.idx) }
    let d := w.doneIdx
    let sigs := if f.sig then w.sigs ++ [f.idx] else w.sigs
    let bad := if fails f.status && !f.fence then match w.bad with
      | some b => if aheadIn 32 b f.idx then some f.idx else some b
      | none => some f.idx
      else w.bad
    { w with errs := (w.errs + b2n (fails f.status)) % 2 ^ 32, bad := bad, done := d, sigs := sigs.filter fun i => !aheadIn 32 d i,
             compNow := w.compNow || (tell && sigs.any fun i => aheadIn 32 d i),
             compFrom := if d = w.done ∨ tell = false then w.compFrom else w.compFrom <|> some s.now }
  if fails f.status then s.count 18 e 0x41 1 (some c) else s

/-- An event record put in line. -/
def State.pushEvent (s : State) (e c : Nat) (words : List Nat) (fin : Option Fin1) : State :=
  s.modCtx e c fun x => { x with events := x.events ++ [⟨words, fin, none⟩] }

/-- An entry ends: its error record, its COMPLETION event where it has SIGNAL, then its count (R316, R317). The results of a
faulted context are not reported (R300). -/
def State.endEntry (s : State) (e c q idx : Nat) (d : Desc) (x : Ending) : State :=
  match s.ctx e c with
  | none => s
  | some k =>
    let sig := dFlag d 9
    let fin : Fin1 := ⟨q, idx, x.status, sig, dOpcode d == 8⟩
    let ev := evWords 1 x.status q idx x.info (field x.peer 0 24) (dCookie d)
    if k.faulted then s.finish e c fin
    else if fails x.status then
      let r := s.errWords 1 x.status q idx (dCookie d) x.peer x.pctx x.addr x.opid x.detail
      s.modCtx e c fun y => { y with errors := y.errors ++ [⟨r, some fin, if sig then some ev else none⟩] }
    else if sig then s.pushEvent e c ev (some fin)
    else s.finish e c fin

/-- An error record of a refused access at this target, or of a ring (SOURCE 2 and 3). -/
def State.pushError (s : State) (e c : Nat) (r : List Nat) : State :=
  match s.ctx e c with
  | some k => if k.faulted then s else s.modCtx e c fun y => { y with errors := y.errors ++ [⟨r, none, none⟩] }
  | none => s

/-- The MSI-X message of a context whose EVQ_ARM is set (R326). -/
def State.armed (s : State) (e c : Nat) : State :=
  match s.ctx e c with
  | some k =>
    if k.armed && bit (k.w 0) 43 then
      (s.modCtx e c fun x => { x with armed := false }).message k.port k.func (bits (k.w 0) 32 11)
    else s
  | none => s

/-- A record written: all words but the last, then the last with OWN (R319). -/
def State.putRecord (s : State) (e : Nat) (k : Ctx) (va : Nat) (words : List Nat) : State :=
  let n := words.length - 1
  let s := s.writeVa e k va (bytesOfWords (words.take n)) true
  s.writeVa e k (va + 8 * n) (bytesOfWords [words.getD n 0 % 2 ^ 63 + 2 ^ 63]) true

/-- The first waiting event written (R319, R326). -/
def State.writeEvent (s : State) (e c : Nat) : State :=
  match s.ctx e c with
  | none => s
  | some k => match k.events with
    | [] => s
    | r :: l =>
      let s := s.putRecord e k (k.ringBase 3 + 32 * (k.evqWr % 2 ^ k.ringLog 3)) r.words
      let s := (s.modCtx e c fun x => { x with events := l, evqWr := (x.evqWr + 1) % 2 ^ 32 }).count 18 e 0x48 1 (some c)
      let s := s.armed e c
      match r.fin with
      | some f => s.finish e c f
      | none => s

/-- The first waiting error record leaves: what it held back goes on. -/
def State.errorDone (s : State) (e c : Nat) (r : Rec) : State :=
  let s := s.modCtx e c fun x => { x with errors := x.errors.drop 1 }
  match r.next, r.fin with
  | some ev, f => s.pushEvent e c ev f
  | none, some f => s.finish e c f
  | none, none => s

/-- The first waiting error record written (R319, R326). -/
def State.writeError (s : State) (e c : Nat) : State :=
  match s.ctx e c with
  | none => s
  | some k => match k.errors with
    | [] => s
    | r :: _ =>
      let s := s.putRecord e k (k.ringBase 4 + 64 * (k.errqWr % 2 ^ k.ringLog 4)) r.words
      let s := (s.modCtx e c fun x => { x with errqWr := (x.errqWr + 1) % 2 ^ 32 }).count 18 e 0x49 1 (some c)
      (s.armed e c).errorDone e c r

/-- The key under which a set of EVQ_FULL (0) or ERRQ_FULL (1) of a context's CTX_STAT is kept for the clock, beyond those of registers. -/
def ctxFired (e c b : Nat) : Nat := 2 ^ 64 + 2 * ctxKey e c + b

/-- EVQ_FULL or ERRQ_FULL of a context set: a write of the same clock does not clear it (R11). -/
def State.ctxEvent (s : State) (e c b : Nat) : State :=
  let s := s.modCtx e c fun x => if b = 0 then { x with evqFull := true } else { x with errqFull := true }
  { s with rf := { s.rf with fired := ctxFired e c b :: s.rf.fired } }

/-- The first waiting error record lost (R321). -/
def State.loseError (s : State) (e c : Nat) : State :=
  match s.ctx e c with
  | none => s
  | some k => match k.errors with
    | [] => s
    | r :: _ =>
      let s := ((s.modCtx e c fun x => { x with lost := satAdd x.lost 1 32 }).ctxEvent e c 1).count 18 e 0x4A 1 (some c)
      s.errorDone e c r

/-- The completion record of a queue written (R315). -/
def State.writeComp (s : State) (e c q : Nat) : State :=
  match s.ctx e c with
  | none => s
  | some k =>
    let w := k.q q
    let va := bits (k.w 5) 7 57 * 128 + 16 * q
    let s := s.writeVa e k va (bytesOfWords [w.done % 2 ^ 32 + w.errs % 2 ^ 32 * 2 ^ 32, s.mtNs]) true
    s.modQ e c q fun w => { w with compFrom := none, compNow := false }

/-- The context faults (R300): CAUSE 1 completion record, 2 event ring, 3 error ring. What waits to be reported is not. -/
def State.ctxFault (s : State) (e c cause kind : Nat) : State :=
  match s.ctx e c with
  | none => s
  | some k =>
    if k.faulted then s
    else
      let fins := (k.events ++ k.errors).filterMap (·.fin)
      let s := s.modCtx e c fun x => { x with faulted := true, events := [], errors := [],
                                              qs := x.qs.map fun w => { w with compFrom := none, compNow := false } }
      let s := s.each fins fun s f => s.finish e c f
      let s := s.inc F.ENG_CNT_B_CTX_FAULTS e
      let s := if s.flag F.CTX_FAULT_LOG_VALID e then s
        else (((s.set F.CTX_FAULT_LOG_CTX c e).set F.CTX_FAULT_LOG_CAUSE cause e).set F.CTX_FAULT_LOG_KIND kind e).event F.CTX_FAULT_LOG_VALID 0 e
      s.raise E.ENG_CTX_FAULT e

/-- A queue enters ERROR (Table 8.2): its completion record is written at once. -/
def State.queueError (s : State) (e c q : Nat) : State :=
  let tell := s.reports e c
  (s.modQ e c q fun w =>
    if tell then { w with st := 2, compNow := true, compFrom := w.compFrom <|> some s.now } else { w with st := 2 }).raise E.WQ_QUEUE_ERROR e

/-- A ring read has failed (R309, R325). -/
def State.ringFault (s : State) (e c q idx kind : Nat) : State :=
  match s.ctx e c with
  | none => s
  | some k =>
    if (k.q q).st = 1 then
      let r := s.errWords 3 0x0D q idx 0 0 0 (k.slotVa q idx) 0 kind
      (s.pushError e c r).queueError e c q
    else s

/-! ### Contexts of an engine (R284 to R287) -/

/-- A context lies in range `n` of an engine. -/
def State.inRangeN (s : State) (e n c : Nat) : Bool :=
  decide (s.get F.CTX_RANGE_FIRST e n ≤ c ∧ c < s.get F.CTX_RANGE_FIRST e n + s.get F.CTX_RANGE_COUNT e n)

/-- The range of an engine that serves a context. -/
def State.rangeOf (s : State) (e c : Nat) : Option Nat := [0, 1].find? fun n => s.flag F.CTX_RANGE_EN e n && s.inRangeN e n c

/-- A range with EN = 0 and HOLD = 1 names the context (R286). -/
def State.onHold (s : State) (e c : Nat) : Bool :=
  [0, 1].any fun n => !s.flag F.CTX_RANGE_EN e n && s.flag F.CTX_RANGE_HOLD e n && s.inRangeN e n c

/-- The PCIe address of the record of a context of range `n` (R284). -/
def State.recordAt (s : State) (e n c : Nat) : Nat := s.get F.CTX_BASE_ADDR e n * 4096 + 512 * (c - s.get F.CTX_RANGE_FIRST e n)

/-- The entry of ENG_STAT.HOT: hot queues polled. -/
def State.hotQueues (s : State) (e : Nat) : Nat := ((s.cached e).map fun k => (k.qs.filter (·.hot)).length).sum

/-- Contexts that count against PIN_MAX (R293). -/
def State.pinCount (s : State) (e : Nat) : Nat :=
  ((s.cached e).filter fun k => k.pin || (List.range 8).any fun q => k.qHot q && k.qEn q).length

/-- Descriptors in the descriptor cache: WQ_STAT.DC_USED. -/
def State.dcUsed (s : State) (e : Nat) : Nat := ((s.cached e).map fun k => (k.qs.map fun w => w.cache.length).sum).sum

/-- Work of a context that a `Purpose` names. -/
def Purpose.ctx : Purpose → Option Nat
  | .poll c _ _ _ => some c
  | .walk c _ => some c
  | .cas c _ => some c
  | .getTgt p => some (pTctx p)
  | .region c _ => some c
  | .line c _ _ _ => some c
  | .atomicOp p => some (pTctx p)
  | .flush (.ack p) => some (pTctx p)
  | .flush (.flag p _) => some (pTctx p)
  | .coll c _ _ _ => some c
  | .pool m _ _ => some m.ctx
  | .rdv p => some (pTctx p)
  | .payload _ _ _ => none
  | .word0 _ => none
  | .record _ => none

/-- The context a job works for. -/
def State.jobCtx (s : State) (e : Nat) : Job → Option Nat
  | .poll c _ => some c
  | .own c _ _ _ => some c
  | .comp c _ => some c
  | .event c => some c
  | .error c => some c
  | .src slot _ => (s.op e slot).map (·.ctx)
  | .result slot _ _ _ => (s.op e slot).map (·.ctx)
  | .getData slot _ _ => (s.op e slot).map (·.ctx)
  | .req p => some (pTctx p)
  | .flag p _ => some (pTctx p)
  | .done p => some (pTctx p)
  | .whole p => some (pTctx p)
  | .collSrc c _ _ _ => some c
  | .collRes c _ _ _ => some c
  | .msg p => some (pTctx p)
  | .pool m _ _ => some m.ctx
  | .place m _ _ => some m.ctx
  | .rdv p => some (pTctx p)

/-- A queue lets its context go: nothing of it runs or waits to be reported, and it does not drain (R309). The cached descriptors of
a faulted context are discarded (R300). -/
def Ctx.queueIdle (k : Ctx) (w : WorkQ) : Bool :=
  w.live.isEmpty && (w.cache.isEmpty || k.faulted) && !w.out.isSome && w.fence.isNone && w.compFrom.isNone && !w.compNow && w.st != 3

/-- A cached context may be dropped (R292); PIN and HOT are ignored by CTX_CMD. DEDUCED: log entry 115. -/
def State.evictable (s : State) (e : Nat) (k : Ctx) (cmd : Bool) : Bool :=
  let x := s.eng e
  (cmd || (!k.pin && !(List.range 8).any k.qHot))
    && k.qs.all k.queueIdle && !x.jobs.any (fun j => s.jobCtx e j == some k.num) && !x.faults.any (fun j => s.jobCtx e j.1 == some k.num)
    && !x.unissued.any (fun j => s.jobCtx e j == some k.num)
    && !x.known.any (fun m => m.msg.ctx == k.num && (m.st == 4 || m.st == 6)) && k.events.isEmpty && k.errors.isEmpty && !(s.opsOf e).any (fun o => o.2.ctx == k.num)
    && !x.colls.any (·.ctx == k.num) && !x.begun.any (·.ctx == k.num) && !x.ready.any (fun p => pTctx p == k.num)
    && !x.trackers.any (·.ctx == k.num) && !x.walks.any (·.ctx == k.num) && !x.regWait.any (·.1 == k.num)
    && !s.reqs.any (fun r => r.eng == e && r.why.ctx == some k.num)

/-- A context leaves the cache: its translations and region entries go with it (R342, R512). -/
def State.dropCtx (s : State) (e c : Nat) : State :=
  let s := { s with ctxs := s.ctxs.filter (·.1 != ctxKey e c) }
  (s.xltDrop e (· == c) none).modEng e fun x => { x with regions := x.regions.filter (·.ctx != c) }

/-- Words 18 + 4q and 19 + 4q as written back (Table 8.2). -/
def WorkQ.words (w : WorkQ) : List Nat := [w.start % 2 ^ 32 + w.done % 2 ^ 32 * 2 ^ 32, w.errs % 2 ^ 32 + w.st * 2 ^ 32]

/-- Word 0 of a context record without its reserved bits (R18, Table 8.1). -/
def recordWord0 (w : Nat) : Nat := Nat.land w 0x0FFF0FFF01FF3FFF

/-- The device-owned fields posted to the record, and VALID = 0 at CLOSE (R292, R299, R413). A port of another die takes no write of
this engine (R26). -/
def State.writeBack (s : State) (e : Nat) (k : Ctx) (close : Bool) : State :=
  let a := s.recordAt e k.rng k.num
  let h := s.get F.CTX_CFG_PORT e
  if dieOfPort h ≠ dieOfEng e then s else
  let put := fun (s : State) (n : Nat) (l : List Nat) => s.hostWrite h 0 (a + 8 * n) (bytesOfWords l) false false
  let s := put s 7 [setBits (k.w 7) 31 33 (b2n k.ovf + 2 * (k.uxpWr % 2 ^ 32)),
    k.evqWr % 2 ^ 32 + k.errqWr % 2 ^ 32 * 2 ^ 32, k.evqRd % 2 ^ 32 + k.errqRd % 2 ^ 32 * 2 ^ 32]
  let s := s.each (List.range 8) fun s q => put s (18 + 4 * q) (k.q q).words
  if close || k.faulted then put s 0 [setBits (setBits (recordWord0 (k.w 0)) 3 1 (b2n k.faulted)) 0 1 (b2n !close)] else s

/-- A context written back and dropped. -/
def State.evict (s : State) (e : Nat) (k : Ctx) (close : Bool) : State :=
  ((s.writeBack e k close).dropCtx e k.num).count 19 e 0x41

/-- Key of a load already known. -/
def State.loading (s : State) (e c : Nat) : Bool := (s.eng e).loads.any (·.ctx == c)

/-- A load asked for (R294). -/
def State.wantLoad (s : State) (e c : Nat) : State :=
  if s.loading e c then s else s.modEng e fun x => { x with loads := x.loads ++ [⟨c, 0, 0, 0⟩] }

/-- A context's function is gone: FLR, D3hot, PERST_N or link down (R485, R578, R579, R585). -/
def State.fnGone (s : State) (h func : Nat) : Bool :=
  (s.fn h func).gone || (s.fn h func).d3 || (s.fn h func).flrAt.isSome || (s.hport h).perst

/-- R287 accepts word 0 of a record. -/
def State.binds (s : State) (e c w0 : Nat) : Bool :=
  let h := bits w0 8 6
  let f := bits w0 16 9
  bit w0 0 && dieOfPort h == dieOfEng e && s.funcExists h f && s.inRange h f c && !s.fnGone h f

/-- A load has failed: held packets are answered NACK_ACCESS CODE 1 (R298). -/
def State.loadFailed (s : State) (e c : Nat) : State :=
  let l := (s.eng e).miss.filter fun p => pTctx p == c
  let s := s.modEng e fun x =>
    { x with miss := x.miss.filter (fun p => pTctx p != c), loads := x.loads.filter (·.ctx != c) }
  (s.each l fun s p => s.refuse1 e p).count 19 e 0x42

/-- A queue as a load leaves it (R289, Table 8.2). -/
def State.loadQ (s : State) (w : List Nat) (hot : Bool) (q : Nat) : WorkQ :=
  let a := w.getD (18 + 4 * q) 0
  let b := w.getD (19 + 4 * q) 0
  let st := bits b 32 2
  let en := bit (w.getD (16 + 4 * q) 0) 0
  { WorkQ.reset with
      start := bits a 0 32, done := bits a 32 32, errs := bits b 0 32,
      st := if en && st == 0 then 1 else if en then st else 0, pollAt := s.now, hot := hot && en }

/-- A context loaded (R293, R294, R304): its words 0 to 63. -/
def State.loaded (s : State) (e c : Nat) (w : List Nat) : State :=
  let rng := (((s.eng e).loads.find? (·.ctx == c)).map (·.rng)).getD 0
  let k : Ctx := ⟨c, rng, w, bit (w.getD 0 0) 3, false, false, bits (w.getD 8 0) 0 32, bits (w.getD 8 0) 32 32, bits (w.getD 9 0) 0 32,
    bits (w.getD 9 0) 32 32, [], bit (w.getD 7 0) 31, bits (w.getD 7 0) 32 32, 0, false, false, false, s.now, [], []⟩
  let wants := k.pin || (List.range 8).any fun q => k.qHot q && k.qEn q
  let plain := wants && decide (s.get F.CTX_CFG_PIN_MAX e ≤ s.pinCount e)
  let k := { k with plain := plain }
  let room := 64 - s.hotQueues e
  let hots := ((List.range 8).filter fun q => k.qHot q && k.qEn q)
  let k := { k with qs := (List.range 8).map fun q => s.loadQ w ((hots.take room).contains q) q }
  let s := { s with ctxs := s.ctxs.insert (ctxKey e c) k }
  let s := s.raiseIf (plain || decide (room < hots.length)) E.ENG_PIN_EXCESS e
  let l := (s.eng e).miss.filter fun p => pTctx p == c
  let s := s.modEng e fun x =>
    { x with miss := x.miss.filter (fun p => pTctx p != c), loads := x.loads.filter (·.ctx != c), ready := x.ready ++ l }
  s.count 19 e 0x40

end Sys2Proof.Machine
end

