-- ==== Sys2Proof/Machine/Rma.lean ====
section
/-!
DEFINITION. Remote memory access and connectionless reliability (that chapter): operation slots, packets and resends at the
initiator, the duplicate filter, regions, trackers and the target's answers, the atomic cache, and congestion control.
-/
namespace Sys2Proof.Machine
open Sys2Proof

/-! ### Operation slots (R333, R357) -/

/-- How often a slot was taken since the last draw; when it was last freed, and whether that operation had received TU = 1 (R362). -/
def State.slotTakes (s : State) (e slot : Nat) : Nat × Nat × Bool := Tab.get (0, 0, false) s.gens (e * 2048 + slot)

/-- The generation of a slot taken `n` times: a random start, then up by 1 (R333, R485). -/
def State.genAt (s : State) (e slot n : Nat) : Nat := (Config.free (Tab.get (e * 2048) s.genBase e + slot) + n) % 2 ^ 21

/-- A slot that may be taken (R357). DEDUCED: log entry 93. -/
def State.slotFree (s : State) (e slot : Nat) : Bool :=
  let (n, at_, tu) := s.slotTakes e slot
  (s.op e slot).isNone && ((n + 1) % 2 ^ 21 != 0 || s.past at_ (s.tGen e tu))

/-- The lowest slot that may be taken, while fewer than 2,048 operations are in flight. -/
def State.freeOpSlot (s : State) (e : Nat) : Option Nat :=
  if (s.opsOf e).length + s.collOps e none < 2048 then (List.range 2048).find? (s.slotFree e) else none

/-- A slot taken by an operation; the operation gets the slot's next generation. -/
def State.takeOpSlot (s : State) (e slot : Nat) (o : Op) : State :=
  let (n, at_) := s.slotTakes e slot
  { s with gens := s.gens.insert (e * 2048 + slot) (n + 1, at_),
           ops := s.ops.insert (e * 2048 + slot) { o with gen := s.genAt e slot (n + 1) } }

/-- A slot freed. -/
def State.freeOp (s : State) (e slot : Nat) : State :=
  let (n, _) := s.slotTakes e slot
  { s with ops := s.ops.erase (e * 2048 + slot), gens := s.gens.insert (e * 2048 + slot) (n, s.now, (s.op e slot).any (·.tu)) }

/-- The operation ID (R333). -/
def opidOf (slot gen : Nat) : Nat := slot + 2048 * (gen % 2 ^ 21)

/-- An operation with nothing sent. -/
def Op.new (kind ctx q idx : Nat) (d : Desc) (dest tctx sl total now : Nat) : Op :=
  { gen := 0, kind := kind, ctx := ctx, q := q, idx := idx, desc := d, dest := dest, tctx := tctx, sl := sl, rmode := 0,
    ord := false, total := total, begun := false, attempt := 0, tries := 0, busyN := 0, unsent := [], buf := none, rd := false,
    sentAny := false, twice := false, lastSent := 0, timer := none, holeAt := none, backoff := [], asked := [], tu := false, segs := [],
    rdv := false, probe := false, stream := none, wrote := 0, held := none, pull := none, since := now }

/-! ### Congestion control (R376 to R380) -/

/-- What an engine has gathered for a destination (R378). -/
def State.gathered (s : State) (e dest : Nat) : Gather := Tab.get ⟨0, 0, none⟩ (s.eng e).gath dest

/-- The rate of a destination after a decrease from what was gathered for it (R378). -/
def State.cutRate (s : State) (e dest : Nat) (g : Gather) : Nat :=
  max (s.get F.RMA_CC_RATE_MIN e) (s.rateTo e dest * (32 * g.pkts - s.get F.RMA_CC_ALPHA e * g.marks) / (32 * g.pkts))

/-- A mark has been gathered for a destination, and DEC_GAP has passed since its last decrease (R378). -/
def State.decOpen (s : State) (e : Nat) (g : Gather) : Bool :=
  s.flag F.RMA_CC_EN e && g.marks != 0 && match g.decAt with
    | some t => s.past t (64 * s.get F.RMA_CC_DEC_GAP e)
    | none => true

/-- The rate of a destination lowered, and its counts cleared; an entry is made for it, in place of a random one when 4,096 are in use
(R377, R378). -/
def State.decrease (s : State) (e dest : Nat) (g : Gather) : State :=
  let r := s.cutRate e dest g
  let s := (s.modEng e fun z => { z with gath := z.gath.insert dest ⟨0, 0, some s.now⟩ }).count 21 e 0x47
  if (s.eng e).cc.any (·.dest == dest) then s.modEng e fun z => { z with cc := updWhere (·.dest == dest) (fun _ => ⟨dest, r, true⟩) z.cc }
  else
    let full := decide (4096 ≤ (s.eng e).cc.length)
    let l := s.addRandom 4096 (s.eng e).cc ⟨dest, r, true⟩
    let s := if full then (s.drawn).count 21 e 0x48 else s
    s.modEng e fun z => { z with cc := l }

/-- Packets and marks gathered for a destination (R376 to R378). -/
def State.gather (s : State) (e dest pkts marks : Nat) : State :=
  if !s.flag F.RMA_CC_EN e then s
  else
    let o := s.gathered e dest
    let g := { o with marks := o.marks + marks, pkts := o.pkts + pkts }
    if s.decOpen e g then s.decrease e dest g else s.modEng e fun z => { z with gath := z.gath.insert dest g }

/-! ### Staging (R337 to R340) -/

/-- Packets of a GET segment still awaited. -/
def GetSeg.open_ (g : GetSeg) : Nat := divUp g.len 4096 - g.got.length

/-- Data cells that a GET segment holds: those of its packets not yet written to host memory, and those of its re-requests (R340, R372). -/
def GetSeg.cells (g : GetSeg) : Nat := 17 * (divUp g.len 4096 - g.placed + g.again.length)

/-- RMA_STAT.STG_USED: data cells reserved by an engine. DEDUCED: log entry 95. -/
def State.stgUsed (s : State) (e : Nat) : Nat :=
  ((s.opsOf e).map fun o => (o.2.segs.map GetSeg.cells).sum).sum

/-- A GET_DATA packet written to host memory: its cells are freed (R340). -/
def Op.place (o : Op) (p : Packet) : Op :=
  { o with wrote := o.wrote + p.len,
           segs := updWhere (fun g => decide (g.poff ≤ pPoff p ∧ pPoff p < g.poff + g.len)) (fun g => { g with placed := g.placed + 1, again := g.again.filter (· != pPoff p) }) o.segs }

/-- Bytes of a GET segment (RMA_STG.GET_SEG). -/
def State.segSize (s : State) (e : Nat) : Nat := 4096 * 2 ^ s.get F.RMA_STG_GET_SEG e

/-! ### Packets of an operation (R334, Tables 9.1, 10.2, 14.2) -/

/-- The pieces of a range of an operation: at most 4,096 bytes each. -/
def pieces (from_ total why : Nat) : List Seg :=
  (List.range (divUp total 4096)).map fun k => ⟨from_ + 4096 * k, min 4096 (total - 4096 * k), why⟩

/-- Every packet of an operation, for its first copy or a new attempt (R334, R352). -/
def Op.all (o : Op) (why : Nat) : List Seg :=
  if o.kind = 3 ∨ o.kind = 0x109 then (o.segs.filter fun g => 0 < g.open_).map fun g => ⟨g.poff, g.len, why⟩
  else if o.kind = 1 ∨ o.kind = 2 ∨ (o.kind = 4 ∧ !o.rdv) then (if o.total = 0 then [⟨0, 0, why⟩] else pieces 0 o.total why)
  else [⟨0, 0, why⟩]

/-- INLINE payload (R312). -/
def inlineData (d : Desc) : List Byte := (leBytes 8 (dw d 5) ++ if dOpcode d = 4 then [] else leBytes 8 (dw d 6)).take (dLen d)

/-- A piece needs payload from host memory. -/
def Op.fromHost (o : Op) (g : Seg) : Bool :=
  !dFlag o.desc 13 && (((o.kind == 1 || o.kind == 2 || (o.kind == 4 && !o.rdv)) && g.len != 0)
    || (o.kind == 7 && dFlag o.desc 12))

/-- The lowest SSEQ in flight of the stream of an operation (R402). -/
def State.lwm (s : State) (e : Nat) (o : Op) (sid sseq : Nat) : Nat :=
  match (s.eng e).tx.find? (fun t => t.ctx == o.ctx && t.q == o.q && t.dest == o.dest && t.tctx == o.tctx && t.sid == sid) with
  | some t => t.inflight.foldl (fun a b => if aheadIn 16 a b then b else a) sseq
  | none => sseq

/-- The words 2 to 7 of one packet of an operation. -/
def State.opWords (s : State) (e slot : Nat) (o : Op) (g : Seg) : List Nat :=
  let d := o.desc
  let id := field (opidOf slot o.gen) 0 32 + field o.total 32 32
  let sctx := field o.ctx 44 20
  let flags := b2n (dFlag d 11 && (o.kind == 1 || o.kind == 2)) + 2 * b2n (dFlag d 12 && o.kind == 7)
    + 4 * b2n (o.kind == 2 && g.poff + g.len == o.total)
  let w2 := fun kind => word2 o.tctx (if o.kind ≤ 7 && o.kind != 4 then dRegion d else 0) kind o.attempt flags
  if o.kind = 4 then
    let st := match o.stream with
      | some (sid, n) => field n 0 16 + field o.q 16 3 + field 1 19 1 + field sid 20 16
      | none => 0
    let lwm := match o.stream with
      | some (sid, n) => s.lwm e o sid n
      | none => 0
    [w2 (if o.rdv then 8 else 4), id, sctx + st, field g.poff 0 32, dw d 6, field lwm 0 16]
  else if o.kind = 0x109 then
    match o.pull with
    | some (m, _) => [w2 9, id, sctx, field g.poff 0 32 + field g.len 32 32, m.opid, 0]
    | none => [w2 9, id, sctx, field g.poff 0 32 + field g.len 32 32, 0, 0]
  else if o.kind = 0x20 then [w2 0x20, id, sctx, 0, 0, 0]
  else if 9 ≤ o.kind ∧ o.kind ≤ 11 then
    let opa := if o.kind = 9 then field (dw d 5) 0 26 + field (bits (dw d 5) 32 5) 32 5 else if o.kind = 11 then field (dw d 5) 0 26 else 0
    [w2 (o.kind + 0x1F), id, sctx + field (dw d 1) 0 13, opa, if o.kind = 9 then 0 else field (dw d 6) 0 32, 0]
  else
    let w5 := field g.poff 0 32 + (if o.kind = 2 then field (dImm d) 32 32 else if o.kind = 3 then field g.len 32 32 else 0)
    let v0 := if o.kind = 2 ∧ bit flags 2 then dw d 6 else if o.kind = 5 ∨ o.kind = 6 ∨ (o.kind = 7 ∧ !dFlag d 12) then dw d 5 else 0
    let v1 := if o.kind = 7 ∧ !dFlag d 12 then dw d 6 else 0
    [w2 o.kind, id, sctx + field (dw d 2) 0 44, w5, v0, v1]

/-- The identity of R202, the class shaper, the pacing of R380 and the pause of R485 let an engine send to a destination for a context
class. DEDUCED: log entry 94. -/
def State.maySend (s : State) (e cls dest : Nat) : Bool :=
  s.devSelf.2.2 && decide ((s.eng e).pauseTo ≤ s.now) && s.shaperOk (tileOfEng e) (16 * (e % 4) + cls)
    && decide (Tab.get 0 (s.eng e).pace dest ≤ s.now)

/-- The class of a cached context. -/
def State.clsOf (s : State) (e c : Nat) : Nat := match s.ctx e c with
  | some k => k.cls
  | none => 0

/-- A packet of an ordered SEND is sent: the time of its stream's last send (R402). -/
def State.streamSent (s : State) (e : Nat) (o : Op) : State := match o.stream with
  | some (sid, _) => s.modEng e fun y => { y with
      tx := updWhere (fun t => t.ctx == o.ctx && t.q == o.q && t.dest == o.dest && t.tctx == o.tctx && t.sid == sid)
        (fun t => { t with last := s.now }) y.tx }
  | none => s

/-- The first unsent packet of an operation formed, with its payload; its timers start as it is injected. -/
def State.sendSeg (s : State) (e slot : Nat) (o : Op) (g : Seg) (data : List Byte) : State :=
  let p := s.form e o.dest 0 o.sl (if o.ord then 1 else o.rmode) o.ord (s.opWords e slot o g) data
  let bytes := if o.kind = 3 ∨ o.kind = 0x109 then g.len else 272 * p.ncells
  let s := ((s.inject e p (some o.ctx) (some (s.clsOf e o.ctx)) (.op slot o.gen (g.why == 2))).space e o.dest bytes).streamSent e o
  let s := if g.why = 1 then (s.inc F.RMA_CNT_A_RTX_TIMER e).count 21 e 0x40
    else if g.why = 2 then (s.inc F.RMA_CNT_A_RTX_HOLE e).count 21 e 0x41 else s
  s.modOp e slot fun o => { o with unsent := o.unsent.drop 1, buf := none, sentAny := true, twice := o.twice || g.why != 0,
                                   asked := if o.kind = 3 ∨ o.kind = 0x109 then (g.poff, g.len) :: o.asked.filter (·.1 != g.poff) else [] }

/-- One step of an operation's sending: a payload read, or a packet. -/
def State.pump1 (s : State) (e slot : Nat) : State := match s.op e slot with
  | none => s
  | some o => match o.unsent with
    | [] => s
    | g :: _ =>
      if !o.begun || o.held.isSome then s
      else if o.fromHost g && o.buf.isNone then (if o.rd then s else s.addJob e (.src slot o.gen))
      else if s.maySend e (s.clsOf e o.ctx) o.dest then
        s.sendSeg e slot o g (match o.buf with
          | some b => b
          | none => if dFlag o.desc 13 && (o.kind == 1 || (o.kind == 4 && !o.rdv)) then inlineData o.desc else [])
      else s

/-- An operation sends what it can. DESIGN CHOICE: log entry 14. -/
def State.pump (s : State) (e slot : Nat) : State := match s.op e slot with
  | some o => s.each (List.range (o.unsent.length + 1)) fun s _ => s.pump1 e slot
  | none => s

/-- A packet of the current attempt of an operation, formed and not injected yet, covers an offset. -/
def State.toInject (s : State) (e slot : Nat) (o : Op) (poff : Nat) : Bool :=
  (s.tile (tileOfEng e)).fresh.any fun f => match f.start with
    | .op n gen _ => n == slot && gen == o.gen && pAttempt f.pkt == o.attempt && decide (pPoff f.pkt ≤ poff
        ∧ poff < pPoff f.pkt + max 1 (if o.kind = 3 ∨ o.kind = 0x109 then pAux f.pkt else f.pkt.len))
    | _ => false

/-- The pieces of an operation that no packet still to be sent covers: one to be formed, one to be injected, or one that waits after NACK_BUSY
(R361). -/
def State.unasked (s : State) (e slot : Nat) (o : Op) (l : List Seg) : List Seg :=
  l.filter fun g => !o.unsent.any (fun u => decide (u.poff ≤ g.poff ∧ g.poff < u.poff + max 1 u.len))
    && !o.backoff.any (·.1 == g.poff) && !s.toInject e slot o g.poff

/-- Packets added to what an operation has to send. -/
def State.queueSegs (s : State) (e slot : Nat) (l : List Seg) : State :=
  s.modOp e slot fun o => { o with unsent := o.unsent ++ l }

/-- The next GET segment issued when its reservation fits (R340). -/
def State.issueSegment (s : State) (e slot : Nat) : State := match s.op e slot with
  | some o =>
    let off := match o.segs.getLast? with
      | some g => g.poff + g.len
      | none => 0
    let len := min (s.segSize e) (o.total - off)
    let cells := 17 * divUp len 4096
    if (o.kind = 3 ∨ o.kind = 0x109) ∧ o.begun ∧ 0 < len ∧ s.stgUsed e + cells ≤ s.get F.RMA_STG_QUOTA e then
      let s := s.modOp e slot fun o => { o with segs := o.segs ++ [⟨off, len, [], s.now, 0, []⟩] }
      (s.queueSegs e slot [⟨off, len, 0⟩]).pump e slot
    else s
  | none => s

/-! ### The duplicate filter (R363 to R366) -/

def State.dupFind (s : State) (u src opid : Nat) : Option Dup := (s.cunit u).dup.find? fun d => d.src == src && d.opid == opid
def State.modDup (s : State) (u src opid : Nat) (f : Dup → Dup) : State :=
  s.modUnit u fun x => { x with dup := updWhere (fun d => d.src == src && d.opid == opid) f x.dup }

/-- A free entry exists. -/
def State.dupRoom (s : State) (u : Nat) : Bool := decide ((s.cunit u).dup.length < 16384)

/-- The expiry of an entry used now. -/
def State.dupExpiry (s : State) (u src : Nat) (tu : Bool) : Nat := s.tickAfter (s.tLife u src tu)

/-- An answer sent is an ACK or a NACK_ACCESS: it is counted (Table 9.11). -/
def State.countAnswer (s : State) (e kind : Nat) : State :=
  if kind = 0x40 then s.count 21 e 0x43 else if kind = 0x43 then s.count 21 e 0x45 else s

/-- An entry inserted; DUP_STAT.PEAK follows (Table 9.9). -/
def State.dupInsert (s : State) (u : Nat) (d : Dup) : State :=
  let s := s.modUnit u fun x => { x with dup := x.dup ++ [d] }
  s.raisePeak F.DUP_STAT_PEAK (s.cunit u).dup.length u

/-- An answer stored in the entry of a request, which becomes DONE (R365). -/
def State.dupDone (s : State) (u src opid kind w5 w6 w7 : Nat) : State :=
  s.modDup u src opid fun d => { d with done := true, kind := kind, w5 := w5, w6 := w6, w7 := w7 }

/-- What the lookup of R365 says of a request: answered or discarded here, refused for want of an entry, or new. -/
inductive Lookup where
  | handled
  | full
  | new
deriving DecidableEq, Repr

/-- The lookup of R365, without the insertion: a hit is answered from the entry. -/
def State.dupLookup (s : State) (e : Nat) (q : Packet) : State × Lookup :=
  let u := unitOf e
  let s := s.count 25 u 0x40
  match s.dupFind u q.src (pOpid q) with
  | some d =>
    let tu := d.tu || q.tu
    let at_ := s.dupExpiry u q.src tu
    let s := (s.modDup u q.src (pOpid q) fun d =>
      { d with expiry := if d.done then at_ else min at_ (d.till.getD at_), tu := tu }).count 25 u 0x41
    if d.done then (((s.inc F.DUP_CNT_HITS u).answer e q d.kind d.w5 d.w6 d.w7).countAnswer e d.kind, .handled)
    else (s.inc F.DUP_CNT_B_PENDING_DISC u, .handled)
  | none =>
    if s.dupRoom u then (s, .new)
    else (((s.inc F.DUP_CNT_FULL_NACK u).raise E.DUP_FULL u).count 25 u 0x42 |>.nackBusy e q 3, .full)

/-- A request inserted as PENDING (R365). -/
def State.dupPend (s : State) (e : Nat) (q : Packet) : State :=
  s.dupInsert (unitOf e) ⟨q.src, pOpid q, false, 0, 0, 0, 0, s.dupExpiry (unitOf e) q.src q.tu, q.tu, none⟩

/-- The tracker of a SEND has closed with its message unfinished: its PENDING entry ends within LIFE (R401). -/
def State.dupClose (s : State) (e src opid : Nat) : State :=
  let u := unitOf e
  s.modDup u src opid fun d =>
    if d.done then d else { d with till := some (s.dupExpiry u src d.tu), expiry := min d.expiry (s.dupExpiry u src d.tu) }

/-- PKINDs that the filter guards (R363). -/
def nonIdempotent (kind : Nat) : Bool := kind == 4 || kind == 8 || (5 ≤ kind && kind ≤ 7) || (0x28 ≤ kind && kind ≤ 0x2A)

/-! ### Refusal and answers at the target (R343, R344) -/

/-- A refusal: the answer, the record, the count; stored in the filter for an atomic (R344, R366). DEDUCED: log entry 109. -/
def State.refuse (s : State) (e : Nat) (q : Packet) (code detail : Nat) : State :=
  let s := if 5 ≤ pKind q ∧ pKind q ≤ 7 then
    s.dupDone (unitOf e) q.src (pOpid q) 0x43 (field code 0 8 + field (pPoff q) 32 32) 0 0 else s
  let s := (s.nackAccess e q code).inc F.RMA_CNT_B_REFUSED e
  let r := s.errWords 2 1 0 0 0 q.src (pSctx q) (pRoff q + pPoff q) (pOpid q) detail
  (s.pushError e (pTctx q) r).raise E.RMA_ACCESS_REFUSED e

/-! ### Regions (Table 9.3) -/

/-- A cached region entry. -/
def State.region (s : State) (e c r : Nat) : Option (List Nat) :=
  ((s.eng e).regions.find? fun x => x.ctx == c && x.reg == r).map (·.words)

def regW (w : List Nat) (k : Nat) : Nat := w.getD k 0

/-- The size of an atomic's operand (R334). -/
def atomicSize (q : Packet) : Nat := if pKind q = 7 then (if pWide q then 16 else 8) else pTotal q

/-- The virtual address of a request's bytes. -/
def reqVa (w : List Nat) (q : Packet) : Nat := regW w 0 / 8 * 8 + pRoff q + pPoff q
/-- The virtual address of the flag of a PUT_FLAG (R367). -/
def flagVa (w : List Nat) (q : Packet) : Nat := regW w 0 / 8 * 8 + pRoff q + pAux q

/-- Bytes a request touches. -/
def reqLen (q : Packet) : Nat :=
  if pKind q = 3 then pAux q else if 5 ≤ pKind q ∧ pKind q ≤ 7 then atomicSize q else q.len

/-- The code of the first of checks 2 to 5 that fails (R343); 0 when none does. -/
def regionCheck (w : List Nat) (q : Packet) : Nat :=
  let k := pKind q
  let right := if k = 3 then 1 else if k = 1 ∨ k = 2 then 2 else 3
  let len := bits (regW w 1) 0 44
  if !bit (regW w 2) 0 then 2
  else if len < pRoff q + pTotal q ∨ (k = 2 ∧ len < pRoff q + pAux q + 8) then 3
  else if !bit (regW w 2) right ∨ (bit (regW w 2) 5 ∧ bits (regW w 2) 6 24 ≠ q.src) then 4
  else if (5 ≤ k ∧ k ≤ 7 ∧ reqVa w q % atomicSize q ≠ 0) ∨ (k = 2 ∧ flagVa w q % 8 ≠ 0) then 5
  else 0

/-- The translated accesses of a request (Table 13.4). -/
def reqUses (w : List Nat) (q : Packet) : List (Nat × Use) :=
  let u := if pKind q = 3 then Use.read else if 5 ≤ pKind q ∧ pKind q ≤ 7 then .atomic else .write
  (pagesOf (reqVa w q) (reqLen q)).map (·, u) ++ if pFlag q then (pagesOf (flagVa w q) 8).map (·, Use.write) else []

/-- A region entry read from host memory, with a job that waits for it (R342). -/
def State.readRegion (s : State) (e : Nat) (k : Ctx) (r : Nat) (j : Job) : State :=
  let out := (s.eng e).regWait.any fun x => x.1 == k.num && x.2.1 == r
  let s := s.modEng e fun x => { x with regWait := x.regWait ++ [(k.num, r, j)] }
  if out then s
  else s.request e k.port k.func (.region k.num r) fun tag =>
    .hostRead tag k.port k.func [((bits (k.w 2) 12 52 * 4096 + 32 * r) % 2 ^ 64, 32, false)]

/-- The jobs that wait for a region entry or a line. -/
def State.takeWait (s : State) (e c r : Nat) : List Job × State :=
  (((s.eng e).regWait.filter fun x => x.1 == c && x.2.1 == r).map (·.2.2),
   s.modEng e fun x => { x with regWait := x.regWait.filter fun y => !(y.1 == c && y.2.1 == r) })

/-- A region entry has come (R342): cached, a random one replaced when 1,024 are. -/
def State.regionCame (s : State) (e c r : Nat) (w : List Nat) : State :=
  let full := decide (1024 ≤ (s.eng e).regions.length)
  let l := s.addRandom 1024 (s.eng e).regions ⟨c, r, w⟩
  let s := if full then s.drawn else s
  let s := s.modEng e fun x => { x with regions := l }
  let (js, s) := s.takeWait e c r
  s.each js fun s j => s.addJob e j

/-! ### Flushing reads (R475, R476) -/

/-- A zero-length read to the first byte of a write. DESIGN CHOICE: log entry 96. -/
def State.flushRead (s : State) (e : Nat) (k : Ctx) (pa : Nat) (ns : Bool) (f : FlushFor) : State :=
  (s.count 18 e 0x4D).request e k.port k.func (.flush f) fun tag => .hostRead tag k.port k.func [(pa, 0, ns)]

/-- The first byte of the last write of a range that was written, in its last page (R475). -/
def lastPage (va len : Nat) : Nat := (pagesOf va len).getLastD va

/-- A flushing read to the last write of a range, with the attributes of its page (R475, R498). -/
def State.flushAt (s : State) (e : Nat) (k : Ctx) (va len : Nat) (f : FlushFor) : State := match s.lookup e k (lastPage va len) .write with
  | .ok pa t => (s.flushRead e k pa (t != 0) f).winCount k (b2n (t == 2))
  | _ => s.flushRead e k 0 false f

/-! ### Trackers (R347 to R351) -/

def State.tracker (s : State) (e src opid : Nat) : Option Tracker := (s.eng e).trackers.find? fun t => t.src == src && t.opid == opid
def State.modTracker (s : State) (e src opid : Nat) (f : Tracker → Tracker) : State :=
  s.modEng e fun x => { x with trackers := updWhere (fun t => t.src == src && t.opid == opid) f x.trackers }
def State.dropTracker (s : State) (e src opid : Nat) : State :=
  s.modEng e fun x => { x with trackers := x.trackers.filter fun t => !(t.src == src && t.opid == opid) }

/-- Bytes counted. -/
def Tracker.bytes (t : Tracker) : Nat := (t.parts.map (·.2)).sum

/-- An empty tracker for a packet. DEDUCED: log entry 97. -/
def State.freshTracker (s : State) (q : Packet) : Tracker :=
  ⟨q.src, pOpid q, pTctx q, pKind q == 4, pAttempt q, [], 0, 0, none, s.now, false, q.tu, q, false⟩

/-- What the tracker table says of a packet of a multi-packet operation. -/
inductive Track where
  | stale
  | full
  | go
deriving DecidableEq, Repr

/-- A packet meets its tracker: a lower attempt is stale, a higher one resets it, the first packet opens one (R347 to R350). A packet with
TU = 1 marks the operation whatever its attempt (R61, R362). -/
def State.track (s : State) (e : Nat) (q : Packet) : State × Track := match s.tracker e q.src (pOpid q) with
  | some t =>
    let s := s.modTracker e q.src (pOpid q) fun t => { t with tu := t.tu || q.tu }
    if pAttempt q = t.attempt then (s, .go)
    else if pAttempt q < t.attempt then ((s.inc F.RMA_CNT_C_STALE e).count 21 e 0x4A, .stale)
    else (s.modTracker e q.src (pOpid q) fun _ => { s.freshTracker q with tu := t.tu || q.tu }, .go)
  | none =>
    if 4096 ≤ (s.eng e).trackers.length then
      (((s.inc F.RMA_CNT_C_NO_TRACKER e).raise E.RMA_NO_TRACKER e).nackBusy e q 2, .full)
    else (s.modEng e fun x => { x with trackers := x.trackers ++ [s.freshTracker q] }, .go)

/-- A packet counted in its tracker (R347, R368). -/
def State.countPart (s : State) (e : Nat) (q : Packet) : State :=
  s.modTracker e q.src (pOpid q) fun t =>
    { t with parts := t.parts ++ [(pPoff q, q.len)], high := max t.high (pPoff q + q.len), marks := t.marks + b2n q.ce,
             flag := if pFlag q then some q else t.flag, timer := s.now, ran := false, tu := t.tu || q.tu, last := q }

/-- The ACK of a multi-packet operation, and the end of its tracker (R347). -/
def State.ackTracker (s : State) (e : Nat) (t : Tracker) : State :=
  (s.dropTracker e t.src t.opid).ack e t.last t.parts.length t.marks 0 0

/-- The missing ranges below HIGH, lowest first (R349). -/
def Tracker.holes (t : Tracker) : List (Nat × Nat) :=
  let l := t.parts.map fun p => p.1 / 4096
  let miss := (List.range (divUp t.high 4096)).filter fun k => !l.contains k
  miss.foldr (fun k acc => match acc with
    | (a, n) :: r => if a = 4096 * (k + 1) then (4096 * k, n + 4096) :: r else (4096 * k, 4096) :: (a, n) :: r
    | [] => [(4096 * k, 4096)]) []

/-- A SACK for a tracker (R349, Table 9.2). -/
def State.sack (s : State) (e : Nat) (t : Tracker) : State :=
  let h := t.holes
  let w := (List.range 8).map fun i => match h[i]? with
    | some (a, n) => field a 0 32 + field n 32 32
    | none => 0
  (s.answer e t.last 0x41 (field t.parts.length 0 32 + field t.marks 32 32) (b2n (8 < h.length)) 0 (bytesOfWords w)).count 21 e 0x42

/-! ### The target performs a request -/

/-- The attempt of a packet is still the one that its operation's tracker counts, all of it counted; an operation of one packet has no
tracker (R346, R348). -/
def State.current (s : State) (e : Nat) (q : Packet) : Bool :=
  decide (pTotal q ≤ 4096) || (s.tracker e q.src (pOpid q)).any fun t => t.attempt == pAttempt q && t.closing

/-- The packet that a flushing read is for. -/
def FlushFor.pkt : FlushFor → Packet
  | .ack p => p
  | .flag p _ => p

/-- The answer of a PUT or PUT_FLAG that has reached completion: its ACK, through its tracker where it has one. -/
def State.putAck (s : State) (e : Nat) (q : Packet) : State :=
  if pTotal q ≤ 4096 then s.ack e q 1 (b2n q.ce) 0 0
  else match s.tracker e q.src (pOpid q) with
    | some t => s.ackTracker e t
    | none => s

/-- The answer of a PUT or PUT_FLAG: once its writes have been issued (R473). -/
def State.answerPut (s : State) (e : Nat) (k : Ctx) (q : Packet) : State :=
  if s.writesHeld k.port k.func then s.modEng e fun x => { x with unissued := x.unissued ++ [.done q] } else s.putAck e q

/-- Lines of the atomic cache that meet `p` written back and dropped (R375). -/
def State.writeBackLines (s : State) (e : Nat) (p : Line → Bool) : State :=
  let l := (s.eng e).lines.filter p
  let s := s.each l fun s x => if x.dirty then s.hostWrite x.port x.func x.pa x.data x.ns false else s
  s.modEng e fun x => { x with lines := x.lines.filter fun y => !p y }

/-- A line of the atomic cache holds bytes of a range (R375). -/
def State.inLine (s : State) (e : Nat) (k : Ctx) (x : Line) (u : Use) (va len : Nat) : Bool :=
  x.port == k.port && x.func == k.func && (s.segments e k va len u).any fun g => decide (0 < g.2.1 ∧ g.1 < x.pa + 64 ∧ x.pa < g.1 + g.2.1)

/-- The cached lines of a request's region that a range overlaps leave the atomic cache before the range is read or written (R375). -/
def State.touchLines (s : State) (e : Nat) (k : Ctx) (q : Packet) (u : Use) (va len : Nat) : State :=
  s.writeBackLines e fun x => x.users.contains (k.num, pRegion q) && s.inLine e k x u va len

/-- The flag written, then the second flushing read or the ACK (R368, R375, R475). -/
def State.writeFlag (s : State) (e : Nat) (k : Ctx) (q : Packet) (va : Nat) : State :=
  let s := s.touchLines e k q .write va 8
  let s := s.writeVa e k va (leBytes 8 q.w6)
  if pDurable q then s.flushAt e k va 8 (.ack q) else s.answerPut e k q

/-- All data of a PUT or PUT_FLAG are in place (R347, R368, R475). `f` is the packet with the flag. -/
def State.putPlaced (s : State) (e : Nat) (k : Ctx) (w : List Nat) (q : Packet) (f : Option Packet) : State := match f with
  | some f =>
    if pDurable f then s.flushAt e k (reqVa w q) q.data.length (.flag f (flagVa w f))
    else s.addJob e (.flag f (flagVa w f))
  | none => if pDurable q then s.flushAt e k (reqVa w q) q.data.length (.ack q) else s.answerPut e k q

/-- A PUT or PUT_FLAG packet performed and counted. -/
def State.doPut (s : State) (e : Nat) (k : Ctx) (w : List Nat) (q : Packet) : State :=
  let (s, t) := if pTotal q ≤ 4096 then (s, Track.go) else s.track e q
  if t ≠ .go then s
  else
    let s := (s.touchLines e k q .write (reqVa w q) (reqLen q)).writeVa e k (reqVa w q) q.data
    if pTotal q ≤ 4096 then s.putPlaced e k w q (if pFlag q then some q else none)
    else
      let s := s.countPart e q
      match s.tracker e q.src (pOpid q) with
      | some t =>
        if pTotal q ≤ t.bytes ∧ !t.closing then
          (s.modTracker e q.src (pOpid q) fun t => { t with closing := true }).putPlaced e k w q t.flag
        else s
      | none => s

/-- GET data read for a GET_REQ (R370). -/
def State.doGet (s : State) (e : Nat) (k : Ctx) (w : List Nat) (q : Packet) : State :=
  (s.touchLines e k q .read (reqVa w q) (reqLen q)).readVa e k (reqVa w q) (pAux q) (.getTgt q)

/-- GET_DATA packets of bytes read, in ascending POFF (R370, R399). -/
def State.sendGetData (s : State) (e : Nat) (q : Packet) (data : List Byte) : State :=
  s.each (pieces 0 data.length 0) fun s g =>
    s.answer e q 0x44 (field (pPoff q + g.poff) 0 32) 0 0 ((data.drop g.poff).take g.len)

/-- An atomic answered with the value before it; the filter keeps the answer (R365, R373). -/
def State.atomicDone (s : State) (e : Nat) (q : Packet) (old : Nat) : State :=
  let v0 := if pKind q = 5 then 0 else old % 2 ^ 64
  let v1 := if pKind q = 7 ∧ pWide q then old / 2 ^ 64 % 2 ^ 64 else 0
  let w5 := field 1 0 32 + field (b2n q.ce) 32 32
  (s.dupDone (unitOf e) q.src (pOpid q) 0x40 w5 v0 v1).ack e q 1 (b2n q.ce) v0 v1

/-- Compare and swap values of a CAS. -/
def casOperands (q : Packet) : Nat × Nat :=
  if pWide q then (ofLeBytes (q.data.take 16), ofLeBytes ((q.data.drop 16).take 16)) else (q.w6, q.w7)

/-- The value an atomic leaves (R373). -/
def atomicNew (q : Packet) (old : Nat) : Nat :=
  if pKind q = 7 then (if old = (casOperands q).1 then (casOperands q).2 else old) else (old + q.w6) % 2 ^ (8 * atomicSize q)

/-- The line of an address behind a function of a host port. -/
def Line.at_ (x : Line) (port func pa : Nat) : Bool := x.port == port && x.func == func && x.pa == pa / 64 * 64

/-- An atomic performed in a line of the atomic cache (R375). -/
def State.atomicInLine (s : State) (e : Nat) (q : Packet) (x : Line) (pa : Nat) : State :=
  let n := atomicSize q
  let o := pa % 64
  let old := ofLeBytes ((x.data.drop o).take n)
  let data := x.data.take o ++ leBytes n (atomicNew q old) ++ x.data.drop (o + n)
  let user := (pTctx q, pRegion q)
  let put := fun (l : Line) =>
    { l with data := data, dirty := true, used := s.now, users := if l.users.contains user then l.users else l.users ++ [user] }
  (s.modEng e fun y => { y with lines := updWhere (fun l => l.at_ x.port x.func x.pa) put y.lines }).atomicDone e q old

/-- An atomic performed: by a PCIe AtomicOp, or in the atomic cache (R374, R375, R572). -/
def State.doAtomic (s : State) (e : Nat) (k : Ctx) (w : List Nat) (q : Packet) : State :=
  let n := atomicSize q
  match s.lookup e k (reqVa w q) .atomic with
  | .ok pa t =>
    if !bit (regW w 2) 4 then
      if !(s.fn k.port k.func).atomic then s.refuse e q 7 7
      else (s.winCount k (b2n (t == 2))).request e k.port k.func (.atomicOp q) fun tag => .atomicOp tag k.port k.func pa n (pKind q == 7)
        (if pKind q = 7 then (casOperands q).1 else q.w6 % 2 ^ (8 * n)) (if pKind q = 7 then (casOperands q).2 else 0) (t != 0)
    else match (s.eng e).lines.find? (·.at_ k.port k.func pa) with
      | some x => s.atomicInLine e q x pa
      | none =>
        let key := 2 ^ 20 + pa / 64
        let out := (s.eng e).regWait.any fun x => x.1 == k.num && x.2.1 == key
        let s := s.modEng e fun x => { x with regWait := x.regWait ++ [(k.num, key, .req q)] }
        if out then s else (s.winCount k (b2n (t == 2))).request e k.port k.func (.line k.num (pRegion q) (pa / 64 * 64) (t != 0)) fun tag =>
          .hostRead tag k.port k.func [(pa / 64 * 64, 64, t != 0)]
  | _ => s

/-- A line has come from host memory (R375): the line least recently used leaves when 512 are held. -/
def State.lineCame (s : State) (e : Nat) (k : Ctx) (r pa : Nat) (nosnoop : Bool) (data : List Byte) : State :=
  let there := (s.eng e).lines.any (·.at_ k.port k.func pa)
  let s := if !there && decide (512 ≤ (s.eng e).lines.length) then
    match argMin Line.used (s.eng e).lines with
    | some v => s.writeBackLines e (· == v)
    | none => s
    else s
  let s := if there then s
    else s.modEng e fun x => { x with lines := x.lines ++ [⟨[(k.num, r)], pa, k.port, k.func, nosnoop, data.take 64, false, s.now⟩] }
  let (js, s) := s.takeWait e k.num (2 ^ 20 + pa / 64)
  s.each js fun s j => s.addJob e j

/-- A request whose checks pass performed (R343 to R346). -/
def State.doReq (s : State) (e : Nat) (k : Ctx) (w : List Nat) (q : Packet) : State :=
  let kd := pKind q
  if kd = 1 ∨ kd = 2 then s.doPut e k w q
  else if kd = 3 then s.doGet e k w q
  else s.doAtomic e k w q

/-! ### The end of an operation (R316, R356) -/

/-- RECV_DONE of a receive (Table 10.3). -/
def State.recvDone (s : State) (e : Nat) (m : Msg) (b : Buf) (status placed : Nat) : State :=
  s.pushEvent e m.ctx (evWords 2 status b.q b.idx m.bits
    (field m.src 0 24 + field (b2n (b.len < m.total)) 24 1 + field (b2n m.rdv) 25 1 + field (b2n m.skip) 26 1 + field placed 32 32)
    b.cookie) none

/-- The entry of a message in the matching lists: its context, source and OPID. -/
def Known.is (k : Known) (m : Msg) : Bool := k.msg.ctx == m.ctx && k.msg.src == m.src && k.msg.opid == m.opid

/-- Word 5 of the ACK of a rendezvous: its RTS packet counted, with its CE (R376). -/
def Known.ackWord (k : Known) : Nat := field 1 0 32 + field (b2n k.ce) 32 32

/-- An answer to a message whose packet is no longer at hand: the ATTEMPT of its last packet (Table 9.1). -/
def State.answerMsg (s : State) (e : Nat) (k : Known) (kind w5 : Nat) : State :=
  let m := k.msg
  s.inject e (s.form e m.src 1 m.sl 0 false
    [word2 m.sctx 0 kind k.attempt 0, field m.opid 0 32 + field m.total 32 32, field m.ctx 44 20, w5, 0, 0] []) (some m.ctx)

/-- A message forgotten by the matching lists. -/
def State.forgetMsg (s : State) (e : Nat) (m : Msg) : State := s.modEng e fun x => { x with known := x.known.filter fun k => !k.is m }

/-- The placement of a message starts: the RECV_POST that took it finishes (R388). -/
def State.placing (s : State) (e : Nat) (m : Msg) : State := match (s.eng e).known.find? (·.is m) with
  | some k => match k.recv, k.owes with
    | some b, some d =>
      (s.modEng e fun x => { x with known := updWhere (·.is m) (fun k => { k with owes := none }) x.known }).endEntry e m.ctx b.q b.idx d
        { status := 0 }
    | _, _ => s
  | none => s

/-- The DONE filter entry and the ACK of a message that was pulled; while the filter is full it waits, in state 5 (R398). -/
def State.pullAck (s : State) (e : Nat) (m : Msg) : State :=
  let u := unitOf e
  match (s.eng e).known.find? (·.is m) with
  | none => s
  | some k =>
    if s.dupRoom u then
      let s := s.dupInsert u ⟨m.src, m.opid, true, 0x40, k.ackWord, 0, 0, s.dupExpiry u m.src k.tu, k.tu, none⟩
      ((s.answerMsg e k 0x40 k.ackWord).count 21 e 0x43).forgetMsg e m
    else s.modEng e fun x => { x with known := updWhere (·.is m) (fun k => { k with st := 5 }) x.known }

/-- A pull has ended (R398): RECV_DONE, a DONE filter entry, the ACK; on failure RECV_DONE alone, with the bytes placed
before. -/
def State.pullEnd (s : State) (e : Nat) (m : Msg) (b : Buf) (x : Ending) (placed : Nat) : State :=
  let s := s.recvDone e m b x.status (if x.status = 0 then min m.total b.len else placed)
  if x.status = 0 then s.pullAck e m else s.forgetMsg e m

/-- The address and bytes that a returned value takes (R373, R525); none when it is not written. -/
def Op.resultAt (o : Op) (v : Nat) : Option (Nat × List Byte) :=
  let l := dw o.desc 3
  if o.kind = 7 ∧ dFlag o.desc 12 then some (l + 32, leBytes 16 v)
  else if l = 0 then none
  else if o.kind = 6 then some (l, leBytes o.total v)
  else if o.kind = 7 ∨ o.kind = 9 ∨ o.kind = 11 then some (l, leBytes 8 v)
  else none

/-- A FENCE ends (R478): with the status of its FLUSH, or PREDECESSOR_FAILED when an entry before it failed; the queue then enters
ERROR. DEDUCED: log entry 114. -/
def State.fenceEnd (s : State) (e c q idx : Nat) (d : Desc) (x : Ending) : State := match s.ctx e c with
  | none => s
  | some k =>
    let bad := (k.q q).bad
    let s := s.modQ e c q fun w => { w with fence := none, bad := none }
    match bad with
    | some b => ((s.count 18 e 0x4C 1 (some c)).endEntry e c q idx d { x with status := 3, detail := b }).queueError e c q
    | none => s.endEntry e c q idx d x

/-- The operation leaves its slot, and its entry ends (R316). -/
def State.retire (s : State) (e slot : Nat) (o : Op) (x : Ending) : State :=
  let s := s.freeOp e slot
  let s := match o.stream with
    | some (sid, n) =>
      let mine := fun (t : TxStream) => t.ctx == o.ctx && t.q == o.q && t.dest == o.dest && t.tctx == o.tctx && t.sid == sid
      s.modEng e fun y => { y with tx := updWhere mine (fun t => { t with inflight := t.inflight.filter (· != n), last := s.now }) y.tx }
    | none => s
  match o.pull with
  | some (m, b) => s.pullEnd e m b x o.wrote
  | none =>
    let x := { x with opid := opidOf slot o.gen }
    if o.kind = 0x20 then s.fenceEnd e o.ctx o.q o.idx o.desc x else s.endEntry e o.ctx o.q o.idx o.desc x

/-- A status that comes with a returned value (R324, R525). -/
def hasValue (status : Nat) : Bool := status == 0 || status == 0x0A || status == 0x0B

/-- The completion hold is over (R356): the returned value is written, then the operation leaves. -/
def State.conclude (s : State) (e slot : Nat) (o : Op) (x : Ending) : State :=
  if hasValue x.status && (o.resultAt x.info).isSome then
    (s.modOp e slot fun o => { o with held := some x }).addJob e (.result slot o.gen x.status x.info)
  else s.retire e slot o x

/-- A packet of an operation is formed and not injected yet. -/
def State.anyToInject (s : State) (e slot : Nat) (o : Op) : Bool :=
  (s.tile (tileOfEng e)).fresh.any fun f => match f.start with
    | .op n gen _ => n == slot && gen == o.gen
    | _ => false

/-- The hold of R356 is over for an operation: A_Q + D after its last packet, none still to be injected. -/
def State.holdOver (s : State) (e slot : Nat) (o : Op) : Bool :=
  !o.twice || (s.past o.lastSent (s.tHold e o.dest o.tu) && !s.anyToInject e slot o)

/-- An operation ends with an outcome, at once or after its completion hold (R356). The first outcome stands (R358). -/
def State.endOp (s : State) (e slot : Nat) (x : Ending) : State := match s.op e slot with
  | none => s
  | some o =>
    if o.held.isSome then s
    else
      let x := { x with peer := o.dest, pctx := o.tctx }
      let s := s.modOp e slot fun o => { o with held := some x, timer := none, unsent := [], backoff := [] }
      if s.holdOver e slot o then s.conclude e slot { o with unsent := [] } x else s

/-- An operation ends with RETRY_EXHAUSTED (R355). -/
def State.exhaust (s : State) (e slot : Nat) : State :=
  (((s.inc F.RMA_CNT_B_EXHAUSTED e).raise E.RMA_RETRY_EXHAUST e)).endOp e slot { status := 2 }

/-- The operation that a response names, unless it is late (R357, R483). -/
def State.respOp (s : State) (e : Nat) (q : Packet) : Option (Nat × Op) :=
  let slot := pOpid q % 2048
  match s.op e slot with
  | some o => if o.gen = pOpid q / 2048 ∧ o.ctx = pTctx q ∧ (s.ctx e o.ctx).isSome then some (slot, o) else none
  | none => none

/-- A response with TU = 1 marks its operation (R362). -/
def State.markTu (s : State) (e slot : Nat) (q : Packet) : State :=
  if q.tu then s.modOp e slot fun o => { o with tu := true } else s

/-- A new attempt begun (R352). -/
def State.newAttempt (s : State) (e slot : Nat) : State :=
  (s.modOp e slot fun o =>
    let o := { o with attempt := (o.attempt + 1) % 16, tries := o.tries + 1, buf := none, backoff := [], timer := some s.now }
    { o with unsent := o.all 1, segs := o.segs.map fun g => { g with again := [] } }).pump e slot

/-- All of a GET's or a pull's data are in place (R371). -/
def State.getDone (s : State) (e slot : Nat) : State := match s.op e slot with
  | some o => if o.total ≤ o.wrote then s.endOp e slot { status := 0 } else s
  | none => s

/-- The missing packets of a segment below its highest arrival (R372). -/
def GetSeg.holes (g : GetSeg) : List Seg :=
  let high := g.got.foldl max 0
  ((pieces g.poff g.len 2).filter fun p => p.poff < high && !g.got.contains p.poff)

/-! ### Bounds of Table 9.6 (R360, R417, R534, R758) -/

/-- Requirements of this device's values that fail in an RMA, DUP, MAT or LCK page. -/
def State.rmaBad (s : State) (e : Nat) : Bool :=
  let tr := 64 * s.get F.RMA_RTX_TIMEOUT e
  decide (tr ≤ s.aq + s.as + s.dNs) || decide (64 * s.get F.RMA_HOLE_HOLE e < max s.aq s.as + s.dNs)
def State.dupBad (s : State) (u : Nat) : Bool :=
  (List.range 4).any fun i => decide (64 * s.get F.DUP_CTL_LIFE u < 64 * s.get F.RMA_RTX_TIMEOUT (4 * u + i) + s.aq + s.dNs)
/-- The requirements of Table 21.5 on this device's values that fail, whether or not a group is marked legacy. -/
def State.rmaLegBad (s : State) (e : Nat) : Bool :=
  let g := s.transit e
  decide (64 * s.get F.RMA_LEG_TIMEOUT e ≤ s.aq + s.as + 2 * g + s.dNs) || decide (64 * s.get F.RMA_LEG_HOLE e < max s.aq s.as + g + s.dNs)
def State.dupLegBad (s : State) (u : Nat) : Bool :=
  (List.range 4).any fun i =>
    let e := 4 * u + i
    decide (64 * s.get F.DUP_LEG_LIFE u < 64 * s.get F.RMA_LEG_TIMEOUT e + s.aq + s.transit e + s.dNs)
def State.matBad (s : State) (e : Nat) : Bool :=
  decide (64 * s.get F.MAT_STREAM_WINDOW e < 64 * s.get F.RMA_RTX_TIMEOUT e + s.aq + s.dNs)
/-- A request of any engine of the device may wait at a lock unit (R523), so that T_R of each counts (R534). -/
def State.lckBad (s : State) (u : Nat) : Bool :=
  (List.range 32).any fun e => decide (64 * s.get F.LCK_TIME_WAIT_LIFE u < 64 * s.get F.RMA_RTX_TIMEOUT e + s.aq + s.dNs)

/-- BOUND_VIOL after a write that touches engines `es` and the filters of units `us`, and with them every lock unit (R360, R417, R534). -/
def State.checkBounds (s : State) (es us : List Nat) : State :=
  let s := s.each es fun s e => (s.raiseIf (s.rmaBad e) E.RMA_BOUND_VIOL e).raiseIf (s.matBad e) E.MAT_BOUND_VIOL e
  let s := s.each us fun s u => s.raiseIf (s.dupBad u) E.DUP_BOUND_VIOL u
  s.each (List.range 8) fun s u => s.raiseIf (s.lckBad u) E.LCK_BOUND_VIOL u

/-- BOUND_VIOL of the timers towards legacy groups (R758). -/
def State.checkLegacy (s : State) (es us : List Nat) : State :=
  let s := s.each es fun s e => s.raiseIf (s.rmaLegBad e) E.RMA_BOUND_VIOL e
  s.each us fun s u => s.raiseIf (s.dupLegBad u) E.DUP_BOUND_VIOL u

end Sys2Proof.Machine
end

