-- ==== Sys2Proof/Machine/Match.lean ====
section
/-!
DEFINITION. Message matching (that chapter): the matching rule, the posted and unexpected lists, the unexpected pool, pulls,
ordered streams and overflow to the host.
-/
namespace Sys2Proof.Machine
open Sys2Proof

/-- The matching rule (R390). -/
def Posted.takes (p : Posted) (m : Msg) : Bool :=
  p.ctx == m.ctx && Nat.land (Nat.xor m.bits p.bits) (2 ^ 64 - 1 - p.ignore % 2 ^ 64) == 0 && (p.filter == 0xFFFFFF || p.filter == m.src)

/-- The message that a SEND or RTS packet opens (Table 10.2). -/
def msgOf (q : Packet) : Msg := ⟨pTctx q, q.src, pSctx q, pOpid q, q.w6, pTotal q, q.sl, pKind q == 8, false⟩

/-- The entry of a message. -/
def State.known (s : State) (e : Nat) (q : Packet) : Option Known :=
  (s.eng e).known.find? fun k => k.msg.ctx == pTctx q && k.msg.src == q.src && k.msg.opid == pOpid q
def State.modKnown (s : State) (e : Nat) (m : Msg) (f : Known → Known) : State :=
  s.modEng e fun x => { x with known := updWhere (·.is m) f x.known }

/-- Posted entries, and unexpected and held entries, of a context or of the engine. -/
def Eng.postedIn (x : Eng) (c : Option Nat) : Nat := (x.posted.filter fun p => c.all (p.ctx == ·)).length
def Eng.unexpIn (x : Eng) (c : Option Nat) : Nat := (x.known.filter fun k => (k.st == 1 || k.st == 2 || k.st == 7) && c.all (k.msg.ctx == ·)).length

/-! ### The unexpected pool (R396) -/

def Ctx.poolLog (c : Ctx) : Nat := bits (c.w 6) 0 5
def Ctx.slotSize (c : Ctx) : Nat := 2 ^ (bits (c.w 6) 5 4 + 9)
def Ctx.poolBase (c : Ctx) : Nat := bits (c.w 6) 12 52 * 4096
/-- VA of pool slot `n`. -/
def Ctx.poolVa (c : Ctx) (n : Nat) : Nat := c.poolBase + n % 2 ^ c.poolLog * c.slotSize

/-- Slots between the oldest held one and UXP_WR. -/
def State.slotsUsed (s : State) (e : Nat) (k : Ctx) : Nat :=
  ((s.eng e).known.map fun x => match x.place with
    | some (.slot n) => if x.msg.ctx = k.num then (k.uxpWr + 2 ^ 32 - n % 2 ^ 32) % 2 ^ 32 else 0
    | _ => 0).foldl max 0

/-- A slot for a message of a size, unless the pool is full or absent or the message too long (R397). -/
def State.poolSlot (s : State) (e : Nat) (k : Ctx) (total : Nat) : Option Nat :=
  if k.poolBase = 0 ∨ k.slotSize < total ∨ 2 ^ k.poolLog ≤ s.slotsUsed e k then none else some k.uxpWr

/-- A slot taken. -/
def State.takePool (s : State) (e c : Nat) : State := s.modCtx e c fun x => { x with uxpWr := (x.uxpWr + 1) % 2 ^ 32 }

/-! ### Pulls and copies (R398, R410) -/

/-- A pull begun for a message and a buffer, or held until a slot is free. -/
def State.startPull (s : State) (e : Nat) (m : Msg) (b : Buf) : State :=
  let n := min m.total b.len
  if n = 0 then (s.placing e m).pullEnd e m b { status := 0 } 0
  else match s.freeOpSlot e with
    | some slot =>
      let o : Op := { Op.new 0x109 m.ctx b.q b.idx [0, 0, 0, b.addr, n, 0, 0, 0] m.src m.sctx m.sl n s.now with
        begun := true, pull := some (m, b) }
      let s := (s.modKnown e m fun k => { k with st := 4, recv := some b }).placing e m
      (((s.takeOpSlot e slot o).count 22 e 0x43).issueSegment e slot)
    | none => s.modKnown e m fun k => { k with st := 6, recv := some b }

/-- Pulls that waited for a slot begun. -/
def State.kickPulls (s : State) (e : Nat) : State :=
  s.each ((s.eng e).known.filter fun k => k.st == 6) fun s k => match k.recv with
    | some b => if (s.freeOpSlot e).isSome then s.startPull e k.msg b else s
    | none => s

/-- A message taken by a receive: pulled, or copied from its slot once it is whole (R392, R398). `owes` is the RECV_POST that finishes
when the placement starts (R388). -/
def State.bind (s : State) (e : Nat) (k : Known) (b : Buf) (owes : Option Desc := none) : State :=
  let s := s.modKnown e k.msg fun x => { x with recv := some b, owes := owes }
  if k.msg.rdv then s.startPull e k.msg b
  else
    let s := s.modKnown e k.msg fun x => { x with st := 4 }
    match k.place with
    | some (.slot n) => if k.whole then (s.placing e k.msg).addJob e (.pool k.msg b n) else s
    | _ => s

/-! ### Overflow (R406, R407) -/

/-- A context enters overflow for a cause. -/
def State.overflow (s : State) (e c cause : Nat) : State :=
  let s := s.modCtx e c fun x => { x with ovf := true }
  (((s.pushEvent e c (evWords 5 0 0 0 cause 0 0) none).inc F.MAT_CNT_B_OVERFLOWS e).raise E.MAT_OVERFLOW e)

/-- Why one more unexpected or held entry does not fit (R393, R406); none where it does. `own` of those counted is the entry itself. -/
def State.unexpFull (s : State) (e : Nat) (k : Ctx) (own : Nat) : Option Nat :=
  let cap := bits (k.w 7) 16 15
  if cap ≠ 0 ∧ cap + own ≤ (s.eng e).unexpIn (some k.num) then some 3
  else if 16384 + own ≤ (s.eng e).unexpIn none then some 2 else none

/-- Why one more posted entry does not fit. -/
def State.postedFull (s : State) (e : Nat) (k : Ctx) : Option Nat :=
  let cap := bits (k.w 7) 0 16
  if cap ≠ 0 ∧ cap ≤ (s.eng e).postedIn (some k.num) then some 3
  else if 32768 ≤ (s.eng e).postedIn none then some 1 else none

/-- UX_ARRIVAL of a message (Table 10.3). DEDUCED: log entry 104. -/
def State.uxArrival (s : State) (e : Nat) (k : Known) : State :=
  let handle := if k.msg.rdv then field 1 62 1 + field k.msg.sctx 32 20 + field k.msg.opid 0 32
    else match k.place with
      | some (.slot n) => field n 0 32
      | _ => 0
  s.pushEvent e k.msg.ctx (evWords 3 0 0 0 k.msg.bits (field k.msg.src 0 24 + field (b2n k.msg.rdv) 25 1 + field k.msg.total 32 32) handle) none

/-- RDV_ACCEPT for a SEND or RTS packet (Table 10.2). -/
def State.rdvAccept (s : State) (e : Nat) (q : Packet) : State := s.answer e q 0x45 0 0 0

/-- An eager message that finds no slot is demoted (R397): no payload, no filter entry, RDV_ACCEPT. -/
def State.demote (s : State) (e : Nat) (k : Known) (st : Nat) : State :=
  let s := s.modKnown e k.msg fun x => { x with msg := { x.msg with rdv := true }, place := none, st := st, whole := false }
  let s := s.modUnit (unitOf e) fun x => { x with dup := x.dup.filter fun d => !(d.src == k.msg.src && d.opid == k.msg.opid && !d.done) }
  (((s.dropTracker e k.msg.src k.msg.opid).inc F.MAT_CNT_B_DEMOTED e).count 22 e 0x44).answerMsg e k 0x45 0

/-- An unmatched message given its place in a list: 1 unexpected, 2 held, 3 handed over. -/
def State.shelve (s : State) (e : Nat) (c : Ctx) (k : Known) (st : Nat) : State :=
  let s := if st = 1 then s.count 22 e 0x42 else if st = 2 then s.count 22 e 0x45 else s
  if k.msg.rdv || k.place.isSome then s.modKnown e k.msg fun x => { x with st := st }
  else match s.poolSlot e c k.msg.total with
    | some n => (s.takePool e c.num).modKnown e k.msg fun x => { x with place := some (.slot n), st := st }
    | none => s.demote e k st

/-- A message matched (R391): against the posted list, else unexpected or handed to software. One released while its context is not cached
is matched at the load (R404, R414). -/
def State.matchMsg (s : State) (e : Nat) (k : Known) : State := match s.ctx e k.msg.ctx with
  | none => s.modKnown e k.msg fun x => { x with st := 7 }
  | some c =>
    match (s.eng e).posted.find? (·.takes k.msg) with
    | some p =>
      let s := s.modEng e fun x => { x with posted := x.posted.erase p }
      let s := (s.inc F.MAT_CNT_A_ARR_MATCH e).count 22 e 0x40
      if k.msg.rdv || k.place.isSome then s.bind e k p.buf
      else s.modKnown e k.msg fun x => { x with place := some (.buf p.buf), st := 0 }
    | none =>
      let s := if c.ovf then s else match s.unexpFull e c 1 with
        | some why => s.overflow e c.num why
        | none => s
      match s.ctx e c.num with
      | none => s
      | some c =>
        if c.ovf then
          let s := s.shelve e c k 3
          match (s.eng e).known.find? (·.is k.msg) with
          | some x => if x.msg.rdv || x.whole then s.uxArrival e x else s
          | none => s
        else s.shelve e c k 1

/-- The messages released while their context was not cached matched, in the order of release, now that it is loaded (R404, R414). -/
def State.rematch (s : State) (e c : Nat) : State :=
  s.each ((s.eng e).known.filter fun k => k.st == 7 && k.msg.ctx == c) fun s k =>
    (s.modKnown e k.msg fun x => { x with st := 1 }).matchMsg e { k with st := 1 }

/-! ### Ordered streams (R402 to R405) -/

def RxStream.is (t : RxStream) (m : Msg) (sq : Nat) : Bool := t.src == m.src && t.sctx == m.sctx && t.squeue == sq && t.tctx == m.ctx

/-- The held messages of a stream, lowest SSEQ first from a start. -/
def State.heldOf (s : State) (e : Nat) (m : Msg) (sq : Nat) : List Known :=
  (s.eng e).known.filter fun k => k.st == 2 && k.msg.src == m.src && k.msg.sctx == m.sctx && k.squeue == sq && k.msg.ctx == m.ctx

/-- The held message with the lowest SSEQ, counted from `base`. -/
def lowestFrom (base : Nat) (l : List Known) : Option Known := argMin (fun k => (k.sseq + 2 ^ 16 - base % 2 ^ 16 + 2 ^ 15) % 2 ^ 16) l

/-- A stream may count as absent: nothing held, and no arrival for WINDOW (R403). -/
def State.rxIdle (s : State) (e : Nat) (t : RxStream) : Bool :=
  s.past t.last (s.tWindow e t.tu) && !(s.eng e).known.any fun k =>
    k.st == 2 && k.msg.src == t.src && k.msg.sctx == t.sctx && k.squeue == t.squeue && k.msg.ctx == t.tctx

/-- A stream entry is there or can be made (R405). -/
def State.rxRoom (s : State) (e : Nat) (m : Msg) (sq : Nat) : Bool :=
  (s.eng e).rx.any (fun t => t.is m sq) || decide ((s.eng e).rx.length + (s.eng e).tx.length < 16384) || (s.eng e).rx.any (s.rxIdle e)

/-- Room made for a stream entry: an idle one leaves. -/
def State.rxMake (s : State) (e : Nat) (t : RxStream) : State :=
  let x := s.eng e
  let l := if x.rx.length + x.tx.length < 16384 then x.rx else match x.rx.find? (s.rxIdle e) with
    | some y => x.rx.erase y
    | none => x.rx
  s.modEng e fun x => { x with rx := l ++ [t] }

def State.modRx (s : State) (e : Nat) (m : Msg) (sq : Nat) (f : RxStream → RxStream) : State :=
  s.modEng e fun x => { x with rx := updWhere (fun t => t.is m sq) f x.rx }

/-- A held message released: it matches as if it had just arrived (R391, R403), the newest of the messages known. DEDUCED: log entry 133. -/
def State.releaseOne (s : State) (e : Nat) (k : Known) (skip : Bool) : State :=
  let m := { k.msg with skip := k.msg.skip || skip }
  let s := s.forgetMsg e k.msg
  let s := s.modEng e fun x => { x with known := x.known ++ [{ k with msg := m, st := 1, at_ := s.now }] }
  s.matchMsg e { k with msg := m }

/-- Held messages released while the next is held, or behind EXPECT (R403). -/
def State.releaseRun (s : State) (e : Nat) (m : Msg) (sq : Nat) (skip : Bool) : Nat → State
  | 0 => s
  | n + 1 => match (s.eng e).rx.find? (fun t => t.is m sq) with
    | none => s
    | some t => match lowestFrom t.expect (s.heldOf e m sq) with
      | none => s
      | some k =>
        if aheadIn 16 k.sseq t.expect then s
        else
          let s := if k.sseq = t.expect then s.modRx e m sq fun t => { t with expect := (t.expect + 1) % 2 ^ 16 } else s
          (s.releaseOne e k skip).releaseRun e m sq skip n

/-- A message put behind those known. -/
def State.know (s : State) (e : Nat) (k : Known) : State := s.modEng e fun x => { x with known := x.known ++ [k] }

/-- A new message with SV = 1 (R403): matched, held or matched late. One that no entry can hold puts its context into overflow and is
matched at once, with ORD_SKIP (R406). It joins the messages known behind those that it releases. DESIGN CHOICE: log entry 153. -/
def State.stream (s : State) (e : Nat) (q : Packet) (k : Known) : State :=
  let sq := bits q.w4 16 3
  let sseq := bits q.w4 0 16
  let sid := bits q.w4 20 16
  let lwm := bits q.w7 0 16
  let m := k.msg
  let n := (s.heldOf e m sq).length
  let s := match (s.eng e).rx.find? (fun t => t.is m sq) with
    | some t =>
      if t.sid = sid ∧ !s.rxIdle e t then s
      else
        let s := (List.range n).foldl (fun (s : State) _ => match lowestFrom t.expect (s.heldOf e m sq) with
          | some k => s.releaseOne e k false
          | none => s) s
        s.modRx e m sq fun _ => ⟨m.src, m.sctx, sq, m.ctx, sid, lwm, s.now, q.tu⟩
    | none => s.rxMake e ⟨m.src, m.sctx, sq, m.ctx, sid, lwm, s.now, q.tu⟩
  let s := s.modRx e m sq fun t =>
    { t with expect := if aheadIn 16 lwm t.expect then lwm else t.expect, last := s.now, tu := t.tu || q.tu }
  let s := s.releaseRun e m sq false (n + 1)
  match (s.eng e).rx.find? (fun t => t.is m sq) with
  | none => s
  | some t =>
    let s := s.know e k
    if sseq = t.expect then
      let s := s.matchMsg e k
      (s.modRx e m sq fun t => { t with expect := (t.expect + 1) % 2 ^ 16 }).releaseRun e m sq false (n + 1)
    else if aheadIn 16 sseq t.expect then
      match s.ctx e m.ctx with
      | some c => match s.unexpFull e c 1 with
        | none => s.shelve e c { k with sseq := sseq, squeue := sq } 2
        | some why =>
          let m := { m with skip := true }
          let s := s.modKnown e k.msg fun x => { x with msg := m }
          (if c.ovf then s else s.overflow e c.num why).matchMsg e { k with msg := m }
      | none => s
    else
      let m := { m with skip := true }
      let s := s.modKnown e k.msg fun x => { x with msg := m }
      ((s.inc F.MAT_CNT_C_ORD_LATE e).raise E.MAT_ORD_LATE e).matchMsg e { k with msg := m }

/-! ### Arrival of a message (R395, R401) -/

/-- Handling a new message would write an event now and the ring is full (R320). -/
def State.wouldOverrun (s : State) (e : Nat) (c : Ctx) (m : Msg) : Bool :=
  c.evFull && ((s.eng e).posted.any (·.takes m) || c.ovf || (s.unexpFull e c 0).isSome)

/-- A new message: its entry, then its stream or its match. -/
def State.newMsg (s : State) (e : Nat) (q : Packet) : State :=
  let m := msgOf q
  let k : Known := ⟨m, none, 1, bits q.w4 0 16, bits q.w4 16 3, s.now, false, none, none, pAttempt q, q.ce, q.tu⟩
  let s := s.forgetMsg e m
  if bit q.w4 19 then s.stream e q k else (s.know e k).matchMsg e k

/-- A request refused because the event ring is full (R320). -/
def State.evRefuse (s : State) (e : Nat) (c : Ctx) (q : Packet) : State :=
  ((s.ctxEvent e c.num 0).count 18 e 0x45 1 (some c.num)).nackBusy e q 4

/-- The filter, then a new message. -/
def State.filterMsg (s : State) (e : Nat) (c : Ctx) (q : Packet) (rts : Bool) : State :=
  match s.dupLookup e q with
  | (s, .handled) => s
  | (s, .full) => s
  | (s, .new) =>
    let m := msgOf q
    if s.wouldOverrun e c m then s.evRefuse e c q
    else if bit q.w4 19 && !s.rxRoom e m (bits q.w4 16 3) then
      (((s.inc F.MAT_CNT_C_STREAM_NACK e).raise E.MAT_STREAM_FULL e).count 22 e 0x49).nackBusy e q 6
    else if rts then s.newMsg e q
    else if pTotal q ≤ 4096 then ((s.dupPend e q).newMsg e q).addJob e (.msg q)
    else match s.track e q with
      | (s, .go) => ((s.dupPend e q).newMsg e q).addJob e (.msg q)
      | (s, _) => s

/-- An eager message of one packet whose packet was lost while it waited is still to be placed (R345): another copy takes its place.
DESIGN CHOICE: log entry 86. -/
def State.resumes (s : State) (e : Nat) (k : Known) (q : Packet) : Bool :=
  !k.msg.rdv && k.place.isSome && !k.whole && decide (pTotal q ≤ 4096) && (s.dupFind (unitOf e) q.src (pOpid q)).isNone

/-- A SEND or RTS packet (R401). A handed-over RTS is recorded no more; later SEND packets of a demoted message are discarded (R397). -/
def State.sendRx (s : State) (e : Nat) (c : Ctx) (q : Packet) : State :=
  let rts := pKind q == 8
  let s := s.modKnown e (msgOf q) fun k => { k with attempt := pAttempt q, ce := q.ce, tu := k.tu || q.tu }
  if (s.tracker e q.src (pOpid q)).isSome then
    match s.track e q with
    | (s, .go) => s.addJob e (.msg q)
    | (s, _) => s
  else match s.known e q with
    | some k =>
      if s.resumes e k q && s.dupRoom (unitOf e) then (s.dupPend e q).addJob e (.msg q)
      else if (k.msg.rdv && (k.st != 3 || !rts)) || k.st == 2 then (if rts then s.rdvAccept e q else s)
      else s.filterMsg e c q rts
    | none => s.filterMsg e c q rts

/-- The address and bytes that a SEND packet's payload takes (R395); none where nothing is to be written. -/
def State.msgRange (s : State) (e : Nat) (c : Ctx) (q : Packet) : Option (Nat × Nat) := match s.known e q with
  | some k => match k.place with
    | some (.buf b) => some (b.addr + pPoff q, min q.len (b.len - pPoff q))
    | some (.slot n) => some (c.poolVa n + pPoff q, q.len)
    | none => none
  | none => none

/-- A whole eager message (R395): RECV_DONE when it matched, the filter entry, the ACK. -/
def State.msgWhole (s : State) (e : Nat) (q : Packet) (k : Known) (pkts marks : Nat) : State :=
  let s := match k.place with
    | some (.buf b) => (s.recvDone e k.msg b 0 (min k.msg.total b.len)).forgetMsg e k.msg
    | some (.slot n) =>
      let s := s.modKnown e k.msg fun x => { x with whole := true }
      if k.st = 3 then s.uxArrival e { k with whole := true }
      else match k.st, k.recv with
        | 4, some b => (s.placing e k.msg).addJob e (.pool k.msg b n)
        | _, _ => s
    | none => s
  let w5 := field pkts 0 32 + field marks 32 32
  let s := s.dupDone (unitOf e) q.src (pOpid q) 0x40 w5 0 0
  s.ack e q pkts marks 0 0

/-- The tracker of a multi-packet SEND still counts the attempt of a packet (R348). -/
def State.counts (s : State) (e : Nat) (q : Packet) : Bool :=
  decide (pTotal q ≤ 4096) || (s.tracker e q.src (pOpid q)).any fun t => t.attempt == pAttempt q

/-- A message whose bytes are all written ends (R395). -/
def State.msgDone (s : State) (e : Nat) (q : Packet) : State := match s.known e q with
  | none => s
  | some k =>
    if pTotal q ≤ 4096 then s.msgWhole e q k 1 (b2n q.ce)
    else match s.tracker e q.src (pOpid q) with
      | some t => if t.closing then (s.dropTracker e q.src (pOpid q)).msgWhole e t.last k t.parts.length t.marks else s
      | none => s

/-- The same, once its writes have been issued (R473). -/
def State.msgReady (s : State) (e : Nat) (c : Ctx) (q : Packet) : State :=
  if s.writesHeld c.port c.func then s.modEng e fun x => { x with unissued := x.unissued ++ [.whole q] } else s.msgDone e q

/-- A packet of a multi-packet SEND would complete its message with an event, and the event ring is full (R320). -/
def State.lastOverruns (s : State) (e : Nat) (c : Ctx) (k : Known) (q : Packet) : Bool :=
  c.evFull && decide (4096 < pTotal q) && (s.tracker e q.src (pOpid q)).any (fun t => decide (pTotal q ≤ t.bytes + q.len))
    && (k.st == 3 || match k.place with
      | some (.buf _) => true
      | _ => false)

/-- A SEND packet's payload placed and counted; a demoted message's later packets are discarded, and so is a packet of an attempt that a
later one has reset (R348, R395, R397). -/
def State.doMsg (s : State) (e : Nat) (c : Ctx) (q : Packet) : State := match s.known e q with
  | none => s
  | some k =>
    if k.msg.rdv then s
    else if !s.counts e q then (if (s.tracker e q.src (pOpid q)).isSome then (s.inc F.RMA_CNT_C_STALE e).count 21 e 0x4A else s)
    else if s.lastOverruns e c k q then s.evRefuse e c q
    else
      let s := match s.msgRange e c q with
        | some (va, n) => s.writeVa e c va (q.data.take n)
        | none => s
      if pTotal q ≤ 4096 then s.msgReady e c q
      else
        let s := s.countPart e q
        if (s.tracker e q.src (pOpid q)).any fun t => decide (pTotal q ≤ t.bytes) && !t.closing then
          (s.modTracker e q.src (pOpid q) fun t => { t with closing := true }).msgReady e c q
        else s

/-- The bytes of an eager message that its buffer has taken so far (R395). -/
def State.placedOf (s : State) (e : Nat) (q : Packet) (b : Buf) : Nat := match s.tracker e q.src (pOpid q) with
  | some t => (t.parts.map fun p => min p.2 (b.len - p.1)).sum
  | none => 0

/-- A fault on the place of a SEND packet: CODE 6 or 7, and RECV_DONE where a receive is used up (R395). -/
def State.msgFault (s : State) (e : Nat) (q : Packet) (kind : Nat) : State :=
  let code := if kind = kHost then 7 else 6
  let s := match s.known e q with
    | some k =>
      let s := s.placing e k.msg
      let s := match k.place, k.recv with
        | some (.buf b), _ => s.recvDone e k.msg b (if kind = kHost then 5 else 4) (s.placedOf e q b)
        | _, some b => s.recvDone e k.msg b (if kind = kHost then 5 else 4) 0
        | _, _ => s
      s.forgetMsg e k.msg
    | none => s
  let s := (s.dropTracker e q.src (pOpid q)).dupDone (unitOf e) q.src (pOpid q) 0x43 (field code 0 8 + field (pPoff q) 32 32) 0 0
  s.refuse e q code (if kind = kHost then 7 else kind)

/-- A pool slot copied to its buffer: the read has returned, `w` tells that the buffer takes the bytes (R396, R410). -/
def State.poolCopied (s : State) (e : Nat) (m : Msg) (b : Buf) (status : Nat) : State :=
  (s.recvDone e m b status (if status = 0 then min m.total b.len else 0)).forgetMsg e m

/-! ### RECV_POST (R387 to R392, R407 to R411) -/

/-- The buffer that a RECV_POST names. -/
def bufOf (q idx : Nat) (d : Desc) : Buf := ⟨q, idx, dw d 3, dLen d, dCookie d⟩

/-- POST_DEFERRED (Table 10.3). -/
def State.deferPost (s : State) (e c : Nat) (b : Buf) : State := s.pushEvent e c (evWords 4 0 b.q b.idx 0 0 b.cookie) none

/-- A MODE 0 post applied: its entry finishes when it joins the list, when the placement of a message starts, or when it is handed to
software (R388, R392, R406, R407). -/
def State.post0 (s : State) (e : Nat) (c : Ctx) (q idx : Nat) (d : Desc) : State :=
  let b := bufOf q idx d
  let ended := s.endEntry e c.num q idx d { status := 0 }
  let p : Posted := ⟨c.num, dw d 6, dw d 2, dDest d, b⟩
  match (s.eng e).known.find? (fun k => k.st == 1 && p.takes k.msg) with
  | some k => ((s.inc F.MAT_CNT_A_POST_MATCH e).count 22 e 0x41).bind e k b (some d)
  | none =>
    if c.ovf then ended.deferPost e c.num b
    else match s.postedFull e c with
      | some why => (ended.overflow e c.num why).deferPost e c.num b
      | none => ended.modEng e fun x => { x with posted := x.posted ++ [p] }

/-- A MODE 1 claim applied (R410). -/
def State.claim1 (s : State) (e : Nat) (c : Ctx) (q idx : Nat) (d : Desc) : State :=
  let b := bufOf q idx d
  let h := dw d 6
  let named := fun (k : Known) => k.st == 3 && k.msg.ctx == c.num && k.msg.src == dDest d && k.msg.rdv == bit h 62 &&
    (if bit h 62 then k.msg.sctx == bits h 32 20 && k.msg.opid == bits h 0 32 else k.place == some (.slot (bits h 0 32)))
  match (s.eng e).known.find? named with
  | some k => s.bind e k b
  | none => s.recvDone e ⟨c.num, dDest d, 0, 0, 0, 0, 0, false, false⟩ b 1 0

end Sys2Proof.Machine
end

