-- ==== Sys2Proof/Machine/Coll.lean ====
section
/-!
DEFINITION. Constellations (that chapter): the entries, the COLL of an engine, the chunks and sequences of a collective unit,
fenced members, reissue and time-out.
-/
namespace Sys2Proof.Machine
open Sys2Proof

/-! ### The tables (Table 11.1, R426, R427) -/

def colgAt (g : Nat) : Nat := 0x0200000000 + 32 * g
def childAt (i : Nat) : Nat := 0x0200100000 + 8 * i
def memberAt (i : Nat) : Nat := 0x0200200000 + 8 * i

/-- Word `k` of the entry of a group. -/
def State.colg (s : State) (g k : Nat) : Nat := s.word (colgAt g + 8 * k)
def State.setColg (s : State) (g k lo w v : Nat) : State := s.setWord (colgAt g + 8 * k) (setBits (s.colg g k) lo w v)

def State.gValid (s : State) (g : Nat) : Bool := bit (s.colg g 0) 0
def State.gUnit (s : State) (g : Nat) : Nat := bits (s.colg g 0) 1 3
def State.gRoot (s : State) (g : Nat) : Bool := bit (s.colg g 0) 4
def State.gParent (s : State) (g : Nat) : Nat := bits (s.colg g 0) 5 10
def State.gParentEp (s : State) (g : Nat) : Nat := bits (s.colg g 0) 16 24
def State.gOp (s : State) (g : Nat) : Nat := bits (s.colg g 0) 40 4
def State.gType (s : State) (g : Nat) : Nat := bits (s.colg g 0) 44 4
def State.gExact (s : State) (g : Nat) : Bool := bit (s.colg g 0) 48
def State.gChunks (s : State) (g : Nat) : Nat := bits (s.colg g 0) 49 7
def State.gMemb (s : State) (g : Nat) : Nat := bits (s.colg g 1) 0 14
def State.gLocal (s : State) (g : Nat) : Nat := bits (s.colg g 1) 14 7
def State.gNext (s : State) (g : Nat) : Nat := bits (s.colg g 1) 32 16
def State.gChildFirst (s : State) (g : Nat) : Nat := bits (s.colg g 3) 0 14
def State.gChild (s : State) (g : Nat) : Nat := bits (s.colg g 3) 14 11
def State.gFenced (s : State) (g : Nat) : Nat := s.colg g 2

/-- Child entry `i` and member slot `i` of a group. -/
def State.child (s : State) (g i : Nat) : Nat := s.word (childAt (s.gChildFirst g + i))
def State.member (s : State) (g i : Nat) : Nat := s.word (memberAt (s.gMemb g + i))

/-- The order-dependent groups (R430). -/
def State.ordered (s : State) (g : Nat) : Bool := s.gOp g == 1 && decide (s.gType g ≤ 4) && !s.gExact g

/-- Slots that a group reserves (R430). -/
def State.reserve (s : State) (g : Nat) : Nat := if s.ordered g then s.gChunks g * (s.gLocal g + s.gChild g) else s.gChunks g

/-- COL_STAT.SLOTS_FREE of a unit (R429). -/
def State.slotsFree (s : State) (u : Nat) : Nat :=
  512 - 16 * ((List.range 32).filter fun k => s.flt.bankFence.contains (72 + u, 8 + k)).length - ((s.cunit u).groups.map s.reserve).sum

/-- Elements of a chunk (R438), and bytes of an element on the way up. -/
def State.perChunk (s : State) (g : Nat) : Nat := if s.gExact g then 102 else 4096 / elemSize (s.gType g)

/-- Chunks of a vector (R438). -/
def State.chunkCount (s : State) (g total : Nat) : Nat := max 1 (divUp total (s.perChunk g))

/-! ### Packets (Tables 11.3, 11.4) -/

def cGroup (q : Packet) : Nat := bits q.w2 0 12
def cEnd (q : Packet) : Bool := bit q.w2 49
def cSeq (q : Packet) : Nat := bits q.w3 0 16
def cChunk (q : Packet) : Nat := bits q.w3 16 24
def cSlot (q : Packet) : Nat := bits q.w3 40 6
def cLocal (q : Packet) : Bool := bit q.w3 46
def cStatus (q : Packet) : Nat := bits q.w3 48 8
def cTotal (q : Packet) : Nat := bits q.w4 0 32

/-- A group packet of class COL. DESIGN CHOICE: log entry 99. -/
def State.colPacket (s : State) (e dst sl g kind : Nat) (exact fin : Bool) (seq chunk slot : Nat) (loc : Bool)
    (status total fbits prune : Nat) (data : List Byte) : Packet :=
  s.form e dst 2 sl 0 false
    [field g 0 12 + field kind 40 8 + field (b2n exact) 48 1 + field (b2n fin) 49 1,
     field seq 0 16 + field chunk 16 24 + field slot 40 6 + field (b2n loc) 46 1 + field status 48 8,
     field total 0 32, fbits, prune, 0] data

/-- A packet of a unit sent up, queued for port PARENT without a lookup (R421). -/
def State.sendUp (s : State) (u g : Nat) (p : Packet) : State :=
  let t := 64 + u
  let out := s.gParent g
  let h : Held := ⟨s.core.nextId, p, 4 * u, 8, p.ncells, tileOf out, out, 8, s.now, [], none, .waiting, []⟩
  ({ s with core := { s.core with nextId := s.core.nextId + 1 } }).enqueue t h

/-- A packet sent down through multicast entry g, with an IN_PORT that names no member (R421). -/
def State.sendDown (s : State) (u : Nat) (p : Packet) : State :=
  let f : Fresh := ⟨s.core.nextId, p, 0x3FF, 8, p.ncells, none, .nothing⟩
  let s := { s with core := { s.core with nextId := s.core.nextId + 1 } }
  s.modTile (64 + u) fun x => { x with fresh := x.fresh ++ [f] }

/-- The group address (R419). -/
def colAddr (g : Nat) : Nat := 0x800000 + g

/-! ### Sequences and chunks (R439 to R444) -/

def State.seqOf (s : State) (u g : Nat) : Option Sequence := (s.cunit u).seqs.find? (·.g == g)
def State.modSeq (s : State) (u g : Nat) (f : Sequence → Sequence) : State :=
  s.modUnit u fun x => { x with seqs := updWhere (·.g == g) f x.seqs }
def State.chunkOf (s : State) (u g i : Nat) : Option Chunk := (s.cunit u).chunks.find? fun c => c.g == g && c.idx == i
def State.modChunk (s : State) (u g i : Nat) (f : Chunk → Chunk) : State :=
  s.modUnit u fun x => { x with chunks := updWhere (fun c => c.g == g && c.idx == i) f x.chunks }
def State.freeChunk (s : State) (u g i : Nat) : State :=
  s.modUnit u fun x => { x with chunks := x.chunks.filter fun c => !(c.g == g && c.idx == i) }

/-- The branch of a sender: a local slot below 64, or 64 plus a child entry. -/
def State.branchOf (s : State) (g n : Nat) : Nat := if n < 64 then bits (s.member g n) 25 6 else bits (s.child g (n - 64)) 10 6

/-- The senders awaited for a chunk (R440). -/
def State.awaited (s : State) (u g : Nat) : List Nat :=
  (List.range (s.gLocal g) ++ (List.range (s.gChild g)).map (64 + ·)).filter fun n =>
    !bit (Tab.get 0 (s.cunit u).marks g) (s.branchOf g n)

/-- A chunk is complete (R440). -/
def State.chunkDone (s : State) (u : Nat) (c : Chunk) : Bool := (s.awaited u c.g).all fun n => c.ins.any (·.1 == n)

/-- The folded value of a chunk over its inputs in the fixed order (R448, R451). -/
def State.foldChunk (s : State) (c : Chunk) : List Nat :=
  let ty := s.gType c.g
  let order := (List.range (64 + s.gChild c.g)).filterMap fun n => c.ins.find? (·.1 == n)
  let vals := order.map fun p => if s.gExact c.g && p.1 < 64 then p.2.map (toAcc ty) else p.2
  match vals with
  | [] => []
  | v :: l => l.foldl (zipFold (if s.gExact c.g then addAcc else combine (s.gOp c.g) ty)) v

/-- The sequence closed (R443): its chunks go, NEXT advances. DEDUCED: log entry 100. -/
def State.closeSeq (s : State) (u g : Nat) : State :=
  let s := s.modUnit u fun x => { x with
    seqs := x.seqs.filter (·.g != g), chunks := x.chunks.filter (·.g != g), warned := x.warned.filter (· != g) }
  (s.setColg g 1 48 2 0).setColg g 1 32 16 ((s.gNext g + 1) % 2 ^ 16)

/-- A chunk with its RESULT seen or injected (R443). -/
def State.chunkFinished (s : State) (u g i : Nat) : State :=
  let s := (s.freeChunk u g i).modSeq u g fun x => { x with done := if x.done.contains i then x.done else x.done ++ [i] }
  match s.seqOf u g with
  | some x => if s.chunkCount g x.total ≤ x.done.length then s.closeSeq u g else s
  | none => s

/-- A complete chunk sent up, or again (R441). -/
def State.chunkUp (s : State) (u : Nat) (c : Chunk) (total : Nat) : State :=
  let g := c.g
  let v := s.foldChunk c
  let data := v.flatMap fun x => leBytes (if s.gExact g then 40 else elemSize (s.gType g)) x
  let fb := Nat.lor (s.gFenced g) c.fbits
  let pr := let own := Tab.get 0 (s.cunit u).prune g; if bit own 63 then own else c.prune
  (s.sendUp u g (s.colPacket (4 * u) (s.gParentEp g) 0 g 0x10 (s.gExact g) false (s.gNext g) c.idx 0 false 0 total fb pr data)).modChunk u g c.idx
    fun c => { c with sent := true }

/-- The root finishes a complete chunk (R442). -/
def State.chunkRoot (s : State) (u : Nat) (c : Chunk) (total : Nat) : State :=
  let g := c.g
  let ty := s.gType g
  let v := s.foldChunk c
  let data := (if s.gExact g then v.map (roundAcc ty) else v).flatMap (leBytes (elemSize ty))
  let fb := Nat.lor (s.gFenced g) c.fbits
  let pr := let own := Tab.get 0 (s.cunit u).prune g; if bit own 63 then own else c.prune
  let p := s.colPacket (4 * u) (colAddr g) 0 g 0x11 (s.gExact g) false (s.gNext g) c.idx 0 false (if fb = 0 then 0 else 8) total fb pr data
  let s := ((s.sendDown u p).count 17 u 0x42).modSeq u g fun x => { x with timer := s.now }
  s.chunkFinished u g c.idx

/-- A chunk examined: when it is complete and not yet sent it goes up, or is finished at the root (R441, R442). The inputs of an
order-dependent group are combined here (R448, Table 11.9). -/
def State.examine (s : State) (u g i : Nat) : State := match s.chunkOf u g i, s.seqOf u g with
  | some c, some x =>
    if c.sent || !s.chunkDone u c then s
    else
      let s := s.count 17 u 0x41
      let s := if s.ordered g then s.count 17 u 0x44 (c.ins.map fun p => p.2.length).sum else s
      if s.gRoot g then s.chunkRoot u c x.total else s.chunkUp u c x.total
  | _, _ => s

/-- Every chunk of a group examined. -/
def State.examineAll (s : State) (u g : Nat) : State :=
  s.each (((s.cunit u).chunks.filter (·.g == g)).map (·.idx)) fun s i => s.examine u g i

/-- A drop outside the window; the event once a sequence: the one open, or the one that NEXT awaits (R439). -/
def State.windowDrop (s : State) (u g : Nat) : State :=
  let first := !(s.cunit u).warned.contains g
  let s := ((s.inc F.COL_CNT_A_WINDOW_DROP u).count 17 u 0x4A).raiseIf first E.COL_WINDOW_DROP u
  s.modUnit u fun x => { x with warned := if first then x.warned ++ [g] else x.warned }

/-- The sender of a CONTRIB (R440). -/
def State.sender (s : State) (g inPort : Nat) (q : Packet) : Option Nat :=
  if cLocal q then (if cSlot q < s.gLocal g then some (cSlot q) else none)
  else ((List.range (s.gChild g)).find? fun i => bits (s.child g i) 0 10 == inPort).map (64 + ·)

/-- The lowest chunk without a RESULT. -/
def Sequence.lowest (x : Sequence) : Nat := ((List.range (x.done.length + 1)).find? fun i => !x.done.contains i).getD 0

/-- The sequence of a group begun by its first CONTRIB (R439). -/
def State.openSeq (s : State) (u g total : Nat) : State := match s.seqOf u g with
  | some _ => s
  | none => (s.modUnit u fun x => { x with seqs := x.seqs ++ [Sequence.mk g total s.now 0 []] }).setColg g 1 48 2 1

/-- A CONTRIB at its unit (R439 to R442). -/
def State.contrib (s : State) (u inPort : Nat) (q : Packet) : State :=
  let g := cGroup q
  if !s.gValid g || s.gUnit g != u || cSeq q != s.gNext g then s.windowDrop u g
  else
    let s := s.openSeq u g (cTotal q)
    match s.seqOf u g with
    | none => s
    | some x =>
      let i := cChunk q
      if s.chunkCount g x.total ≤ i || x.done.contains i || x.lowest + s.gChunks g ≤ i then s.windowDrop u g
      else if cTotal q ≠ x.total then s.inc F.COL_CNT_B_LEN_DROP u
      else match s.sender g inPort q with
        | none => s.windowDrop u g
        | some n =>
          let s := if (s.chunkOf u g i).isSome then s else s.modUnit u fun y => { y with chunks := y.chunks ++ [Chunk.mk g i [] 0 0 false] }
          if (s.chunkOf u g i).any fun (c : Chunk) => c.ins.any (·.1 == n) then (s.inc F.COL_CNT_A_DUP_DISC u).count 17 u 0x49
          else
            let size := if s.gExact g && !cLocal q then 40 else elemSize (s.gType g)
            let k := min (s.perChunk g) (x.total - i * s.perChunk g)
            let s := s.count 17 u 0x40
            let s := if s.ordered g then s else s.count 17 u 0x44 k
            let s := if s.gExact g && cLocal q then s.count 17 u 0x45 k else s
            let s := s.modChunk u g i fun c =>
              { c with ins := c.ins ++ [(n, elemsOf size k q.data)], fbits := Nat.lor c.fbits q.w5, prune := if bit c.prune 63 then c.prune else q.w6 }
            s.examine u g i

/-! ### Commands of the unit (R431, R432) -/

/-- Why a SETUP fails; 0 where it does not. DEDUCED: log entry 102. -/
def State.setupErr (s : State) (u g : Nat) : Nat :=
  let kids := (List.range (s.gChild g)).map fun i => bits (s.child g i) 0 10
  if s.gUnit g ≠ u then 3
  else if s.gValid g then 4
  else if !colAllowed (s.gOp g) (s.gType g) (s.gExact g) then 2
  else if 16384 < s.gChildFirst g + s.gChild g ∨ 16384 < s.gMemb g + s.gLocal g
    ∨ (kids.zip (kids.drop 1)).any (fun p => decide (p.2 ≤ p.1)) then 5
  else if s.gLocal g + s.gChild g = 0 then 6
  else if s.slotsFree u < s.reserve g then 1
  else 0

/-- A command has failed or ended. -/
def State.colErr (s : State) (u code : Nat) : State :=
  let s := s.set F.COL_CMD_STAT_ERR code u
  if code = 0 then s.raise E.COL_CMD_DONE u else s.raise E.COL_CMD_ERR u

/-- An entry set up: its fields cleared, then VALID (R431). -/
def State.setupGroup (s : State) (u g seq : Nat) : State :=
  let s := ((s.setColg g 2 0 64 0).setColg g 1 32 16 seq).setColg g 1 48 2 0
  let s := s.modUnit u fun x => { x with groups := x.groups ++ [g], prune := x.prune.erase g, marks := x.marks.erase g, warned := x.warned.filter (· != g) }
  s.setColg g 0 0 1 1

/-- An entry released: every chunk goes, then VALID is cleared. -/
def State.releaseGroup (s : State) (u g : Nat) : State :=
  let s := s.modUnit u fun x => { x with
    groups := x.groups.filter (· != g), chunks := x.chunks.filter (·.g != g), seqs := x.seqs.filter (·.g != g) }
  s.setColg g 0 0 1 0

/-! ### The COLL of an engine (R434, R444, R445) -/

/-- The COLLs of a queue in progress. -/
def State.collsOf (s : State) (e c q : Nat) : List Coll := (s.eng e).colls.filter fun x => x.ctx == c && x.q == q

/-- A COLL of a context by its queue and index. -/
def State.coll (s : State) (e c q idx : Nat) : Option Coll := (s.eng e).colls.find? fun x => x.ctx == c && x.q == q && x.idx == idx
def State.modColl (s : State) (e c q idx : Nat) (f : Coll → Coll) : State :=
  s.modEng e fun x => { x with colls := updWhere (fun y => y.ctx == c && y.q == q && y.idx == idx) f x.colls }

/-- The first check of R434 that fails, or none. -/
def State.collRefused (s : State) (e c : Nat) (d : Desc) : Bool :=
  let g := bits (dDest d) 0 12
  let slot := bits (dw d 1) 0 6
  let m := s.member g slot
  !s.gValid g || decide (s.gLocal g ≤ slot) || bits m 20 5 != e || bits m 0 20 != c || dFlag d 10 != s.gExact g

/-- The next chunk that a COLL may send (R444). -/
def State.collNext (s : State) (x : Coll) : Option Nat := match x.resend with
  | i :: _ => some i
  | [] =>
    let w := s.gChunks x.g
    if x.next < x.chunks && (x.next < w || x.seen.contains (x.next - w)) then some x.next else none

/-- A contribution sent to the unit (R421, R437). -/
def State.sendContrib (s : State) (e : Nat) (x : Coll) (i : Nat) (data : List Byte) : State :=
  let u := s.gUnit x.g
  let p := s.colPacket e (s.selfEp (4 * u)) (dSl x.desc) x.g 0x10 (dFlag x.desc 10) false x.seq i x.slot true 0 x.elems 0 0 data
  let s := s.inject e p (some x.ctx) (some (s.clsOf e x.ctx))
  s.modColl e x.ctx x.q x.idx fun y => { y with rd := none, next := if i = y.next then i + 1 else y.next, resend := y.resend.filter (· != i) }

/-- An earlier COLL of the same member is still in progress (R444). -/
def State.collBehind (s : State) (e : Nat) (x : Coll) : Bool :=
  ((s.eng e).colls.takeWhile (· != x)).any fun y => y.g == x.g && y.slot == x.slot

/-- A COLL sends what it may: a chunk's source is read, or the empty chunk of a barrier goes out. -/
def State.collPump (s : State) (e c q idx : Nat) : State := match s.coll e c q idx with
  | some x =>
    if !x.begun || x.rd.isSome || s.collBehind e x then s
    else match s.collNext x with
      | some i => if x.elems = 0 then s.sendContrib e x i [] else s.addJob e (.collSrc c q idx i)
      | none => s
  | none => s

/-- The source range of a chunk of a COLL. -/
def State.collRange (s : State) (x : Coll) (i : Nat) : Nat × Nat :=
  let z := elemSize (s.gType x.g)
  (dw x.desc 3 + i * x.per * z, min x.per (x.elems - i * x.per) * z)

/-- A COLL ends, with the prune point in its error record (R445, R455). -/
def State.collEnd (s : State) (e : Nat) (x : Coll) (status detail addr : Nat) : State :=
  let s := s.modEng e fun y => { y with colls := y.colls.filter fun z => !(z.ctx == x.ctx && z.q == x.q && z.idx == x.idx) }
  let p := x.prune
  let fenced := status == 8
  s.endEntry e x.ctx x.q x.idx x.desc
    { status := status, peer := if fenced then endpoint (bits p 0 11) (bits p 16 7) 0 else 0,
      pctx := if fenced then (if bit p 47 then 0x400 + bits p 42 5 else bits p 32 10) else 0,
      addr := if fenced then x.fbits else addr, detail := detail }

/-- A RESULT chunk written (R445). -/
def State.collPlaced (s : State) (e : Nat) (k : Ctx) (x : Coll) (q : Packet) : State :=
  let z := elemSize (s.gType x.g)
  let i := cChunk q
  let s := s.writeVa e k (dw x.desc 2 + i * x.per * z) (q.data.take (min x.per (x.elems - i * x.per) * z))
  let s := s.modColl e x.ctx x.q x.idx fun y => { y with got := y.got ++ [i] }
  match s.coll e x.ctx x.q x.idx with
  | some y => if y.chunks ≤ y.got.length then s.collEnd e y y.status 0 0 else s.collPump e x.ctx x.q x.idx
  | none => s

/-- A RESULT at an engine's own COLLs (R445). DEDUCED: log entry 113. -/
def State.resultAtEngine (s : State) (e : Nat) (q : Packet) : State :=
  let g := cGroup q
  let mine := (s.eng e).colls.filter fun x => x.g == g && x.seq == cSeq q
  if mine.isEmpty then s.inc F.COL_CNT_C_STRAY (s.gUnit g)
  else s.each mine fun s x =>
    let s := s.modColl e x.ctx x.q x.idx fun y => { y with last := s.now }
    if cEnd q then s.collEnd e x 2 0 0
    else if x.seen.contains (cChunk q) then s
    else
      ((s.modColl e x.ctx x.q x.idx fun y =>
        { y with seen := y.seen ++ [cChunk q], status := cStatus q, fbits := Nat.lor y.fbits q.w5,
                 prune := if bit y.prune 63 then y.prune else q.w6 }).addJob e (.collRes x.ctx x.q x.idx q)).collPump e x.ctx x.q x.idx

/-- A RESULT at the group's unit (R443). -/
def State.resultAtUnit (s : State) (u : Nat) (q : Packet) : State :=
  let g := cGroup q
  if !s.gValid g || s.gUnit g != u || s.gRoot g || cSeq q != s.gNext g then s
  else if cEnd q then s.closeSeq u g
  else s.chunkFinished u g (cChunk q)

/-- A REISSUE at the group's unit (R459). -/
def State.reissueAtUnit (s : State) (u : Nat) (q : Packet) : State :=
  let g := cGroup q
  let s := s.count 17 u 0x47
  match s.seqOf u g with
  | some x =>
    if !s.gValid g || cSeq q != s.gNext g then s.inc F.COL_CNT_C_STRAY u
    else
      let l := (s.cunit u).chunks.filter fun c => c.g == g && c.sent && decide (cChunk q ≤ c.idx)
      s.each l fun s c => (s.chunkUp u c x.total).count 17 u 0x48
  | none => s.inc F.COL_CNT_C_STRAY u

/-- A REISSUE at an engine's own COLLs (R459). -/
def State.reissueAtEngine (s : State) (e : Nat) (q : Packet) : State :=
  s.each ((s.eng e).colls.filter fun x => x.g == cGroup q && x.seq == cSeq q) fun s x =>
    let l := (List.range x.next).filter fun i => cChunk q ≤ i && !x.seen.contains i
    (s.modColl e x.ctx x.q x.idx fun y => { y with resend := l }).collPump e x.ctx x.q x.idx

/-! ### Fenced members (R453, R454) -/

/-- A FENCED packet sent up by a non-root unit (R454). -/
def State.fencedUp (s : State) (u g : Nat) : State :=
  if s.gRoot g then s
  else s.sendUp u g (s.colPacket (4 * u) (s.gParentEp g) 0 g 0x13 (s.gExact g) false (s.gNext g) 0 0 false 0 0 (s.gFenced g)
    (Tab.get 0 (s.cunit u).prune g) [])

/-- A prune point recorded where none is. DEDUCED: log entry 101. -/
def State.notePrune (s : State) (u g p : Nat) : State :=
  if bit (Tab.get 0 (s.cunit u).prune g) 63 then s else s.modUnit u fun x => { x with prune := Tab.insert x.prune g p }

/-- A prune notice of a member of group `g` at an output tile (R453). -/
def State.pruned (s : State) (u g member out : Nat) : State :=
  if !s.gValid g || s.gUnit g != u then s
  else
    let who := if out < 64 then ((List.range (s.gChild g)).filter fun i => bits (s.child g i) 0 10 == member).map (64 + ·)
      else (List.range (s.gLocal g)).filter fun i => bits (s.member g i) 20 5 == member
    let m := (who.map (s.branchOf g)).foldl (fun a b => setBits a b 1 1) 0
    if m = 0 then s
    else
      let s := s.inc F.COL_CNT_B_PRUNES u
      let old := Tab.get 0 (s.cunit u).marks g
      let pp := field s.devSelf.1 0 11 + field s.devSelf.2.1 16 7 + (if out < 64 then field member 32 10 else field member 42 5 + field 1 47 1) + field 1 63 1
      let s := (s.modUnit u fun x => { x with marks := Tab.insert x.marks g (Nat.lor old m) }).notePrune u g pp
      let s := (s.setColg g 2 0 64 (Nat.lor (s.gFenced g) m)).raise E.COL_MEMBER_FENCED u
      let s := if Nat.lor old m = old then s else s.fencedUp u g
      s.examineAll u g

/-- A FENCED packet at its unit (R454). -/
def State.fencedRx (s : State) (u : Nat) (q : Packet) : State :=
  let g := cGroup q
  if !s.gValid g || s.gUnit g != u then s
  else
    let s := (s.inc F.COL_CNT_C_FENCED_RX u).setColg g 2 0 64 (Nat.lor (s.gFenced g) q.w5)
    let s := if bit q.w6 63 then s.notePrune u g q.w6 else s
    s.fencedUp u g

/-- The sequence timer of the root has run out (R458, R460). -/
def State.seqTimeout (s : State) (u g : Nat) (x : Sequence) : State :=
  if x.reissues < s.get F.COL_CTL_RETRY u then
    let p := s.colPacket (4 * u) (colAddr g) 0 g 0x12 (s.gExact g) false (s.gNext g) x.lowest 0 false 0 x.total (s.gFenced g) 0 []
    let s := (s.sendDown u p).modSeq u g fun y => { y with reissues := y.reissues + 1, timer := s.now }
    (s.inc F.COL_CNT_B_REISSUES u).raise E.COL_REISSUE u
  else
    let p := s.colPacket (4 * u) (colAddr g) 0 g 0x11 (s.gExact g) true (s.gNext g) 0 0 false 2 x.total (s.gFenced g) 0 []
    let s := ((s.sendDown u p).count 17 u 0x42).closeSeq u g
    (s.inc F.COL_CNT_B_EXHAUSTED u).raise E.COL_EXHAUSTED u

end Sys2Proof.Machine
end

