-- ==== Sys2Proof/Machine/Lock.lean ====
section
/-!
DEFINITION. Queued locks (that chapter): the lock entries, grants, waiters, leases, quotas and priority inheritance.
-/
namespace Sys2Proof.Machine
open Sys2Proof

/-! ### The lock entry (Table 14.3) -/

def lockAt (u l : Nat) : Nat := 0x0300000000 + u * 2 ^ 18 + 32 * l
def State.lockW (s : State) (u l k : Nat) : Nat := s.word (lockAt u l + 8 * k)
def State.setLock (s : State) (u l k lo w v : Nat) : State := s.setWord (lockAt u l + 8 * k) (setBits (s.lockW u l k) lo w v)

def State.lToken (s : State) (u l : Nat) : Nat := bits (s.lockW u l 0) 0 32
def State.lExpiry (s : State) (u l : Nat) : Nat := bits (s.lockW u l 0) 32 32
def State.lHolder (s : State) (u l : Nat) : Nat := bits (s.lockW u l 1) 0 24
def State.lPrio (s : State) (u l : Nat) : Nat := bits (s.lockW u l 1) 24 4
def State.lBoost (s : State) (u l : Nat) : Nat := bits (s.lockW u l 1) 28 4
def State.lHeld (s : State) (u l : Nat) : Bool := bit (s.lockW u l 1) 32
def State.lBoosted (s : State) (u l : Nat) : Bool := bit (s.lockW u l 1) 33
def State.lQuota (s : State) (u l : Nat) : Nat :=
  let q := bits (s.lockW u l 1) 49 14
  if q = 0 then s.get F.LCK_CTL_DEF_QUOTA u else q
def State.lCtx (s : State) (u l : Nat) : Nat := bits (s.lockW u l 2) 0 20

/-- The waiters for a lock, first to be granted first. -/
def State.waitersOf (s : State) (u l : Nat) : List Waiter := (s.cunit u).waiters.filter (·.lock == l)

/-- The waiters changed; WAITERS of the entry and LCK_STAT.PEAK follow. -/
def State.setWaiters (s : State) (u l : Nat) (ws : List Waiter) : State :=
  let s := s.modUnit u fun x => { x with waiters := ws }
  let s := s.setLock u l 1 34 15 (s.waitersOf u l).length
  s.raisePeak F.LCK_STAT_PEAK ws.length u

/-- A waiter placed behind every waiter of its lock with PRIO at or above its own (R529). -/
def placeWaiter (w : Waiter) : List Waiter → List Waiter
  | [] => [w]
  | x :: l => if x.lock = w.lock ∧ x.prio < w.prio then w :: x :: l else x :: placeWaiter w l

/-! ### Answers -/

/-- A LOCK_RSP to a request at hand (Table 14.2). -/
def State.lockRsp (s : State) (u : Nat) (q : Packet) (stat v : Nat) (start : Start := .nothing) : State := s.answer (4 * u) q 0x46 stat v 0 [] start

/-- A LOCK_RSP to a requester, with the ATTEMPT of its last packet (Table 9.1). -/
def State.lockRspTo (s : State) (u : Nat) (w : Waiter) (stat v : Nat) (start : Start := .nothing) : State :=
  s.inject (4 * u) (s.form (4 * u) w.src 1 w.sl 0 false [word2 w.ctx 0 0x46 w.attempt 0, field w.opid 0 32, 0, stat, v, 0] []) none none start

/-- The value of a grant: TOKEN and EXPIRY (R525). -/
def State.lockValue (s : State) (u l : Nat) : Nat := s.lToken u l + s.lExpiry u l * 2 ^ 32

/-- The lease of a lock that starts as its first LOCK_RSP, formed with the present value, is injected (R531). -/
def State.leaseDue (s : State) (u l : Nat) : Option Start :=
  ((s.tile (64 + u)).fresh.find? fun f => f.pkt.w6 == s.lockValue u l && match f.start with
    | .lease k _ => k == l
    | _ => false).map (·.start)

/-- The first LOCK_RSP of a grant or renewal is injected: EXPIRY is its birth stamp plus 4 × LEASE, in the lock entry, in the answer, in its copies
that wait and in the filter (R531, R535). Until then the entry shows the time of its forming. DEDUCED: log entry 98. -/
def State.leaseFrom (s : State) (u l len : Nat) (q : Packet) : State × Packet :=
  let v := q.w6
  if s.lHeld u l && s.lockValue u l == v then
    let s := s.setLock u l 0 32 32 ((s.stamp + 4 * len) % 2 ^ 32)
    let v' := s.lockValue u l
    let copy := fun (f : Fresh) => f.pkt.cls == 1 && pKind f.pkt == 0x46 && f.pkt.dst == q.dst && f.pkt.w6 == v
    let s := s.modTile (64 + u) fun x => { x with fresh := updWhere copy (fun f => { f with pkt := { f.pkt with w6 := v' }, start := .nothing }) x.fresh }
    let s := s.modDup u q.dst (pOpid q) fun d => if d.kind = 0x46 ∧ d.w6 = v then { d with w6 := v' } else d
    (s, { q with w6 := v' })
  else (s, q)

/-! ### Priority inheritance (R545) -/

/-- A BOOST packet for the holder of a lock. -/
def State.sendBoost (s : State) (u l level : Nat) (on : Bool) : State :=
  let p := s.form (4 * u) (s.lHolder u l) 0 0 0 false
    [word2 (s.lCtx u l) 0 0x2B 0 0, 0, field l 0 13 + field u 13 3, field level 0 4 + field (b2n on) 4 1, 0, 0] []
  (s.inject (4 * u) p).count 24 u 0x46

/-- The boost of a lock withdrawn. -/
def State.boostOff (s : State) (u l : Nat) : State :=
  if s.lBoosted u l then ((s.sendBoost u l 0 false).setLock u l 1 33 1 0).setLock u l 1 28 4 0 else s

/-- The boost of a held lock brought up to date: begun, changed or withdrawn (R545). -/
def State.boost (s : State) (u l : Nat) : State :=
  let p := ((s.waitersOf u l).map (·.prio)).foldl max 0
  if s.lHeld u l && decide (s.lPrio u l < p) then
    if s.lBoosted u l && s.lBoost u l == p then s
    else
      let s := ((s.setLock u l 1 33 1 1).setLock u l 1 28 4 p).sendBoost u l p true
      s.modUnit u fun x => { x with holders := Tab.modify ⟨0, 0, 0, false⟩ x.holders l fun h => { h with boostAt := s.now } }
  else s.boostOff u l

/-! ### Grants (R531, R532, R536) -/

/-- A lock granted to a requester: TOKEN advances, and EXPIRY follows from the birth stamp of the answer sent now (R531). -/
def State.grantLock (s : State) (u l : Nat) (w : Waiter) (stat : Nat) : State :=
  let t := (s.lToken u l + 1) % 2 ^ 32
  let x := (s.stamp + 4 * w.lease) % 2 ^ 32
  let s := (s.setLock u l 0 0 32 t).setLock u l 0 32 32 x
  let s := ((s.setLock u l 1 0 24 w.src).setLock u l 1 24 4 w.prio).setLock u l 1 32 1 1
  let s := s.setLock u l 2 0 20 w.ctx
  let s := s.modUnit u fun x => { x with holders := Tab.insert x.holders l ⟨w.opid, stat, 0, w.tu⟩ }
  let s := (s.inc F.LCK_CNT_A_GRANTS u).count 24 u 0x40
  (s.lockRspTo u w stat (s.lockValue u l) (.lease l w.lease)).boost u l

/-- A grant has ended: the old holder's answer goes to the filter, and the first waiter is granted with the cause (R532, R536). -/
def State.pass (s : State) (u l stat : Nat) : State :=
  let h := Tab.get ⟨0, 0, 0, false⟩ (s.cunit u).holders l
  let src := s.lHolder u l
  let s := s.boostOff u l
  let s := if (s.dupFind u src h.opid).isNone && s.dupRoom u then
    s.dupInsert u ⟨src, h.opid, true, 0x46, h.stat, s.lockValue u l, 0, s.dupExpiry u src h.tu, h.tu, none⟩ else s
  let s := (s.setLock u l 1 32 1 0).modUnit u fun x => { x with holders := x.holders.erase l }
  match s.waitersOf u l with
  | w :: _ => (s.setWaiters u l ((s.cunit u).waiters.erase w)).grantLock u l w stat
  | [] => s

/-! ### Requests (R529, R535) -/

def qLock (q : Packet) : Nat := bits q.w4 0 13

/-- A request refused by the unit: no record (R535). -/
def State.lockNack (s : State) (u : Nat) (q : Packet) (code : Nat) : State := s.nackAccess (4 * u) q code

/-- The waiter that a LOCK_ACQ asks to be. -/
def State.waiterOf (s : State) (q : Packet) : Waiter :=
  ⟨qLock q, q.src, pOpid q, pSctx q, bits q.w5 32 4, bits q.w5 0 26, s.now, q.tu, q.sl, pAttempt q⟩

/-- A LOCK_ACQ at an enabled unit (R529). DEDUCED: log entry 98. -/
def State.lockAcq (s : State) (u : Nat) (q : Packet) : State :=
  let l := qLock q
  let h := Tab.get ⟨0, 0, 0, false⟩ (s.cunit u).holders l
  if s.lHeld u l && s.lHolder u l == q.src && h.opid == pOpid q then
    let s := s.modUnit u fun x => { x with holders := Tab.modify ⟨0, 0, 0, false⟩ x.holders l fun h => { h with tu := h.tu || q.tu } }
    s.lockRsp u q h.stat (s.lockValue u l) ((s.leaseDue u l).getD .nothing)
  else if (s.waitersOf u l).any (fun w => w.src == q.src && w.opid == pOpid q) then
    let mine := fun (w : Waiter) => w.lock == l && w.src == q.src && w.opid == pOpid q
    let s := s.modUnit u fun x => { x with waiters := updWhere mine (fun w => { w with seen := s.now, tu := w.tu || q.tu, attempt := pAttempt q }) x.waiters }
    (s.lockRsp u q 3 0).count 24 u 0x44
  else if (s.dupFind u q.src (pOpid q)).isSome then (s.dupLookup (4 * u) q).1
  else
    let s := s.count 25 u 0x40
    if !s.lHeld u l && (s.waitersOf u l).isEmpty then s.grantLock u l (s.waiterOf q) 0
    else if bit q.w5 36 || decide (s.lQuota u l ≤ (s.waitersOf u l).length) then (s.inc F.LCK_CNT_B_BUSY u).lockRsp u q 4 0
    else if 16384 ≤ (s.cunit u).waiters.length then
      ((s.inc F.LCK_CNT_B_SLOTS_NACK u).raise E.LCK_WAITERS_FULL u).nackBusy (4 * u) q 7
    else ((s.setWaiters u l (placeWaiter (s.waiterOf q) (s.cunit u).waiters)).lockRsp u q 3 0).boost u l

/-- A request with a token that is not current: the refusal is kept in the filter (R535). -/
def State.staleToken (s : State) (u : Nat) (q : Packet) : State :=
  ((s.inc F.LCK_CNT_C_STALE u).dupDone u q.src (pOpid q) 0x43 10 0 0).lockNack u q 10

/-- The lock is held under the token of a request. -/
def State.tokenOk (s : State) (u : Nat) (q : Packet) : Bool := s.lHeld u (qLock q) && bits q.w6 0 32 == s.lToken u (qLock q)

/-- A LOCK_REL at an enabled unit (R535). -/
def State.lockRel (s : State) (u : Nat) (q : Packet) : State := match s.dupLookup (4 * u) q with
  | (s, .new) =>
    let s := s.dupPend (4 * u) q
    if s.tokenOk u q then
      let s := ((s.dupDone u q.src (pOpid q) 0x46 5 0 0).lockRsp u q 5 0).count 24 u 0x41
      s.pass u (qLock q) 0
    else s.staleToken u q
  | (s, _) => s

/-- A LOCK_RENEW at an enabled unit (R535). -/
def State.lockRenew (s : State) (u : Nat) (q : Packet) : State := match s.dupLookup (4 * u) q with
  | (s, .new) =>
    let s := s.dupPend (4 * u) q
    if s.tokenOk u q then
      let s := s.setLock u (qLock q) 0 32 32 ((s.stamp + 4 * bits q.w5 0 26) % 2 ^ 32)
      (s.dupDone u q.src (pOpid q) 0x46 6 (s.lockValue u (qLock q)) 0).lockRsp u q 6 (s.lockValue u (qLock q))
        (.lease (qLock q) (bits q.w5 0 26))
    else s.staleToken u q
  | (s, _) => s

/-! ### Leases, waiters and reset (R538, R541) -/

/-- The lease of a held lock has ended (R538); one whose LOCK_RSP is not injected yet has not begun (R531). -/
def State.leaseOver (s : State) (u l : Nat) : Bool :=
  s.lHeld u l && (s.leaseDue u l).isNone && decide ((s.stamp + 2 ^ 32 - s.lExpiry u l) % 2 ^ 32 < 2 ^ 31)

/-- WAIT_LIFE of a waiter has passed (R534). -/
def State.waiterGone (s : State) (u : Nat) (w : Waiter) : Bool :=
  s.past w.seen (s.stretch w.tu (64 * s.get F.LCK_TIME_WAIT_LIFE u))

/-- An endpoint is on this device. -/
def State.isLocal (s : State) (a : Nat) : Bool := groupOf a == s.devSelf.1 && deviceOf a == s.devSelf.2.1

/-- Every lock that a local context holds passes, and its local waiters go without an answer (R541). -/
def State.abandon (s : State) (c : Nat) : State :=
  s.each (List.range 8) fun s u =>
    let gone := (s.cunit u).waiters.filter fun w => w.ctx == c && s.isLocal w.src
    let s := s.each gone fun s w => (s.setWaiters u w.lock ((s.cunit u).waiters.erase w)).boost u w.lock
    let held := ((s.cunit u).holders.map (·.1)).filter fun l => s.lCtx u l == c && s.isLocal (s.lHolder u l)
    s.each held fun s l => (((s.pass u l 2).inc F.LCK_CNT_B_ABANDONS u).raise E.LCK_ABANDON u).count 24 u 0x43

/-- QUOTA or DEF_QUOTA written below WAITERS of a lock (R544). -/
def State.quotaWritten (s : State) (u : Nat) (ls : List Nat) : State :=
  s.raiseIf (ls.any fun l => decide (s.lQuota u l < (s.waitersOf u l).length)) E.LCK_OVER_QUOTA u

/-- DEF_QUOTA written, which stands for the locks without a QUOTA of their own (R544). -/
def State.defQuotaWritten (s : State) (u : Nat) : State :=
  s.quotaWritten u (((s.cunit u).waiters.map (·.lock)).eraseDups.filter fun l => bits (s.lockW u l 1) 49 14 == 0)

/-! ### The boost table of an engine (R546, R547) -/

/-- A BOOST applied. -/
def State.boostRx (s : State) (e : Nat) (q : Packet) : State :=
  let dev := q.src / 32
  let unit := bits q.w4 13 3
  let lock := bits q.w4 0 13
  let mine := fun (b : Boost) => b.dev == dev && b.unit == unit && b.lock == lock
  let exp := s.now + ns (4 * 64 * s.get F.LCK_TIME_BOOST_REFRESH (unitOf e))
  let b : Boost := ⟨dev, unit, lock, pTctx q, bits q.w5 0 4, exp⟩
  if !bit q.w5 4 then s.modEng e fun x => { x with boosts := x.boosts.filter fun y => !mine y }
  else if (s.eng e).boosts.any mine then s.modEng e fun x => { x with boosts := updWhere mine (fun _ => b) x.boosts }
  else if 64 ≤ (s.eng e).boosts.length then s.inc F.ENG_BOOST_IGNORED e
  else s.modEng e fun x => { x with boosts := x.boosts ++ [b] }

/-- The boost of a context: the highest level among its entries; 0 for none, level + 1 otherwise (R547). -/
def State.boostOf (s : State) (e c : Nat) : Nat := (((s.eng e).boosts.filter (·.ctx == c)).map fun b => b.level + 1).foldl max 0

end Sys2Proof.Machine
end

