-- ==== Sys2Proof/Machine/Settle.lean ====
section
/-!
DEFINITION. The work of an engine brought to rest: what each `Job` accesses, does and fails with (Table 13.4), what each host
request's return does (R481, R482), and the loop that runs jobs until none is ready.
-/
namespace Sys2Proof.Machine
open Sys2Proof

/-! ### Polls (R303) -/

/-- Entries that the polls in flight of an engine may bring to its descriptor cache. -/
def State.dcAsked (s : State) (e : Nat) : Nat :=
  (s.reqs.map fun r => match r.why with
    | .poll _ _ _ n => if r.eng = e ∧ !r.ended ∧ !r.closed then n else 0
    | _ => 0).sum

/-- First index and number of entries that a poll reads: no more than the descriptor cache has room for (R303). -/
def State.pollSpan (s : State) (e : Nat) (k : Ctx) (q : Nat) : Nat × Nat :=
  let w := k.q q
  ((w.start + w.cache.length) % 2 ^ 32, min (k.qDepth q - w.cache.length) (1024 - s.dcUsed e - s.dcAsked e))

/-- The index of the entry that a poll could not read: that of the slot at the faulting address (R325). -/
def State.pollBad (s : State) (e : Nat) (k : Ctx) (q va : Nat) : Nat :=
  let first := (s.pollSpan e k q).1
  let n := 2 ^ k.qLog q
  (first + ((va - k.qBase q) / 64 + n - first % n) % n) % 2 ^ 32

/-- The slots at which a poll reads on in another page: its first, and those at the start of a page. -/
def State.pollPages (s : State) (e : Nat) (k : Ctx) (q : Nat) : List Nat :=
  let (first, n) := s.pollSpan e k q
  ((List.range n).filter fun i => i == 0 || k.slotVa q (first + i) % 4096 == 0).map fun i => k.slotVa q (first + i)

/-- A queue may be polled: not while the engine drains for a rung, nor without an identity (R202, R485, R673). -/
def State.pollable (s : State) (e : Nat) (k : Ctx) (q : Nat) : Bool :=
  let w := k.q q
  w.st == 1 && s.devSelf.2.2 && s.get F.TILE_PWR_RUNG (tileOfEng e) == 0 && s.get F.TILE_PWR_CUR (tileOfEng e) == 0 && s.ladder.goal.isNone
    && w.out.isNone && !k.stop && !k.faulted && (s.fn k.port k.func).bme && decide (0 < (s.pollSpan e k q).2)

/-- A poll read has returned (R303, R307, R482). DEDUCED: log entry 106. -/
def State.pollReturn (s : State) (e c q first n : Nat) (ok : Bool) (data : List Byte) : State := match s.ctx e c with
  | none => s
  | some k =>
    let w := k.q q
    let s := s.modQ e c q fun w => { w with out := none, drop := false, again := false, pollAt := s.now }
    if w.drop || w.st != 1 then s
    else if !ok then s.ringFault e c q first kHost
    else
      let l := (List.range n).map fun i => wordsOfBytes 8 (data.drop (64 * i))
      let good := if (w.start + w.cache.length) % 2 ^ 32 = first then l.takeWhile dOwn else []
      let all := good.length == n
      let s := (s.inc F.WQ_CNT_A_FETCHED e 0 0 good.length).count 20 e 0x42 good.length
      let s := if all then s else (s.inc F.WQ_CNT_B_EMPTY e).count 20 e 0x41
      let next := if all || w.again || w.hot then s.now else s.tickAfter (k.qPoll q)
      s.modQ e c q fun w => { w with cache := w.cache ++ good, pollAt := next }

/-! ### What a job accesses -/

/-- An operation with a generation. -/
def State.opGen (s : State) (e slot gen : Nat) : Option Op := match s.op e slot with
  | some o => if o.gen = gen then some o else none
  | none => none

/-- The source range of the first unsent packet. -/
def Op.srcRange (o : Op) : Option (Nat × Nat) := match o.unsent with
  | g :: _ =>
    if o.held.isSome || o.rd || o.buf.isSome || !o.fromHost g then none
    else if o.kind = 7 then some (dw o.desc 3, 32) else some (dw o.desc 3 + g.poff, g.len)
  | [] => none

/-- The SEND that an RDV_GET names (R399). -/
def State.rdvOp (s : State) (e : Nat) (q : Packet) : Option (Nat × Op) :=
  let slot := bits q.w6 0 32 % 2048
  match s.opGen e slot (bits q.w6 0 32 / 2048) with
  | some o =>
    if o.kind = 4 && o.rdv && o.held.isNone && o.ctx == pTctx q && o.dest == q.src && decide (pPoff q + pAux q ≤ o.total)
    then some (slot, o) else none
  | none => none

/-- The accesses of a job: none where it has nothing left to do. -/
def State.jobUses (s : State) (e : Nat) (k : Ctx) : Job → Option (List (Nat × Use))
  | .poll _ q => if s.pollable e k q then
      some ((s.pollPages e k q).map (·, .fetch)) else none
  | .own _ q idx _ => some [(k.slotVa q idx, .own)]
  | .comp _ q => if (k.q q).compFrom.isSome || (k.q q).compNow then some [(bits (k.w 5) 7 57 * 128 + 16 * q, .write)] else none
  | .event _ => if k.events.isEmpty || decide (2 ^ k.ringLog 3 ≤ k.evUsed) then none else some [(k.ringBase 3 + 32 * (k.evqWr % 2 ^ k.ringLog 3), .write)]
  | .error _ => if k.errors.isEmpty || decide (2 ^ k.ringLog 4 ≤ k.errUsed) then none else some [(k.ringBase 4 + 64 * (k.errqWr % 2 ^ k.ringLog 4), .write)]
  | .src slot gen => match s.opGen e slot gen with
    | some o => o.srcRange.map fun r => (pagesOf r.1 r.2).map (·, .read)
    | none => none
  | .result slot gen _ v => match s.opGen e slot gen with
    | some o => (o.resultAt v).map fun r => (pagesOf r.1 r.2.length).map (·, .write)
    | none => none
  | .getData slot gen p => match s.opGen e slot gen with
    | some o => if o.held.isSome then none else some ((pagesOf (dw o.desc 3 + pPoff p) p.len).map (·, .write))
    | none => none
  | .req p => match s.region e k.num (pRegion p) with
    | some w => some (reqUses w p)
    | none => none
  | .flag p va => if s.current e p then some ((pagesOf va 8).map (·, .write)) else none
  | .done p => if s.current e p then some [] else none
  | .whole p => if (s.known e p).isSome then some [] else none
  | .collSrc c q j i => match s.coll e c q j with
    | some x => if x.rd.isSome then none else some ((pagesOf (s.collRange x i).1 (s.collRange x i).2).map (·, .read))
    | none => none
  | .collRes c q j p => match s.coll e c q j with
    | some x => if x.got.contains (cChunk p) then none
      else some ((pagesOf (dw x.desc 2 + cChunk p * x.per * elemSize (s.gType x.g)) (s.collRange x (cChunk p)).2).map (·, .write))
    | none => none
  | .msg p => match s.msgRange e k p with
    | some (va, n) => some ((pagesOf va n).map (·, .write))
    | none => some []
  | .pool m b n => some ((pagesOf (k.poolVa n) (min m.total b.len)).map (·, .read))
  | .place _ b d => some ((pagesOf b.addr d.length).map (·, .write))
  | .rdv p => match s.rdvOp e p with
    | some (_, o) => some (if dFlag o.desc 13 then [] else (pagesOf (dw o.desc 3 + pPoff p) (pAux p)).map (·, .read))
    | none => some []

/-! ### What a job does -/

/-- A job whose accesses all translate. -/
def State.perform (s : State) (e : Nat) (k : Ctx) : Job → State
  | .poll c q =>
    let (first, n) := s.pollSpan e k q
    let l := (List.range n).flatMap fun i => s.segments e k (k.slotVa q (first + i)) 64 .fetch
    let s := s.modQ e c q fun w => { w with out := some s.nextTag }
    let wins := ((List.range n).filter fun i => s.devPage e k (k.slotVa q (first + i)) .fetch).length
    ((s.count 20 e 0x40).request e k.port k.func (.poll c q first n) fun tag => .hostRead tag k.port k.func l).winCount k wins
  | .own _ q idx cookie => s.writeVa e k (k.slotVa q idx + 56) (leBytes 8 cookie) false .own
  | .comp c q => s.writeComp e c q
  | .event c => s.writeEvent e c
  | .error c => s.writeError e c
  | .src slot gen => match s.opGen e slot gen with
    | some o => match o.srcRange, o.unsent with
      | some (va, n), g :: _ => (s.modOp e slot fun o => { o with rd := true }).readVa e k va n (.payload slot gen g.poff)
      | _, _ => s
    | none => s
  | .result slot gen status v => match s.opGen e slot gen with
    | some o => match o.resultAt v with
      | some (va, d) => (s.writeVa e k va d).retire e slot o { (o.held.getD { status := status }) with status := status, info := v }
      | none => s
    | none => s
  | .getData slot gen p => match s.opGen e slot gen with
    | some o => ((s.writeVa e k (dw o.desc 3 + pPoff p) p.data).modOp e slot fun o => o.place p).getDone e slot
    | none => s
  | .req p => match s.region e k.num (pRegion p) with
    | some w => s.doReq e k w p
    | none => s
  | .flag p va => s.writeFlag e k p va
  | .done p => s.answerPut e k p
  | .whole p => s.msgReady e k p
  | .collSrc c q j i => match s.coll e c q j with
    | some x =>
      let (va, n) := s.collRange x i
      (s.modColl e c q j fun y => { y with rd := some i }).readVa e k va n (.coll c q j i)
    | none => s
  | .collRes c q j p => match s.coll e c q j with
    | some x => s.collPlaced e k x p
    | none => s
  | .msg p => s.doMsg e k p
  | .pool m b n =>
    if min m.total b.len = 0 then s.poolCopied e m b 0 else s.readVa e k (k.poolVa n) (min m.total b.len) (.pool m b n)
  | .place m b d => (s.writeVa e k b.addr d).poolCopied e m b 0
  | .rdv p => match s.rdvOp e p with
    | some (_, o) => if dFlag o.desc 13 then s.sendGetData e p ((inlineData o.desc).drop (pPoff p) |>.take (pAux p))
      else s.readVa e k (dw o.desc 3 + pPoff p) (pAux p) (.rdv p)
    | none => s.refuse e p 8 8

/-- The status of a local access that failed (Table 8.9). -/
def localStatus (kind : Nat) : Nat := if kind = kHost then 5 else 4
/-- How an entry ends whose local access at `addr` failed (Table 13.4). -/
def localEnd (kind addr : Nat) : Ending := { status := localStatus kind, detail := if kind = kHost then 0 else kind, addr := addr }
/-- CODE and DETAIL of a target access that failed (R343, R344). -/
def targetCode (kind : Nat) : Nat := if kind = kHost then 7 else 6
def targetDetail (kind : Nat) : Nat := if kind = kHost then 7 else kind

/-- The outcome of a receive whose copy from the pool failed: for a translation fault NACK_ACCESS (Table 13.4), with no packet left that could
carry it. DEDUCED: log entry 172. -/
def poolStatus (kind : Nat) : Nat := if kind = kHost then 5 else 1

/-- A job that failed with a fault kind at an address, reported where Table 13.4 says. -/
def State.jobFailed (s : State) (e : Nat) (j : Job) (kind va : Nat) : State := match j with
  | .poll c q => match s.ctx e c with
    | some k => s.ringFault e c q (s.pollBad e k q va) kind
    | none => s
  | .own c q idx _ => s.ringFault e c q idx kind
  | .comp c _ => s.ctxFault e c 1 kind
  | .event c => s.ctxFault e c 2 kind
  | .error c => s.ctxFault e c 3 kind
  | .src slot gen => match s.opGen e slot gen with
    | some _ => s.endOp e slot (localEnd kind va)
    | none => s
  | .result slot gen _ _ => match s.opGen e slot gen with
    | some o => s.retire e slot o { localEnd kind va with peer := o.dest, pctx := o.tctx }
    | none => s
  | .getData slot gen _ => match s.opGen e slot gen with
    | some _ => s.endOp e slot (localEnd kind va)
    | none => s
  | .req p => s.refuse e p (targetCode kind) (targetDetail kind)
  | .flag p _ => if s.current e p then (s.dropTracker e p.src (pOpid p)).refuse e p (targetCode kind) (targetDetail kind) else s
  | .done _ => s
  | .whole _ => s
  | .collSrc c q j _ => match s.coll e c q j with
    | some x => s.collEnd e x (localStatus kind) (if kind = kHost then 0 else kind) va
    | none => s
  | .collRes c q j _ => match s.coll e c q j with
    | some x => s.collEnd e x (localStatus kind) (if kind = kHost then 0 else kind) va
    | none => s
  | .msg p => s.msgFault e p kind
  | .pool m b _ => s.poolCopied e m b (poolStatus kind)
  | .place m b _ => s.poolCopied e m b (poolStatus kind)
  | .rdv p =>
    let s := s.refuse e p (targetCode kind) (targetDetail kind)
    match s.rdvOp e p with
    | some (slot, _) => s.endOp e slot (localEnd kind va)
    | none => s

/-- A job asks the host for data: its access is a non-posted request. -/
def Job.reads : Job → Bool
  | .poll _ _ => true
  | .src _ _ => true
  | .req p => pKind p != 1 && pKind p != 2
  | .collSrc _ _ _ _ => true
  | .pool _ _ _ => true
  | .rdv _ => true
  | _ => false

/-- The accesses of a job looked up, and the job done, failed or left to wait. -/
def State.access (s : State) (e : Nat) (k : Ctx) (j : Job) : State := match s.jobUses e k j with
  | none => s.setLooked e j 0
  | some l =>
    if !s.linkUp k.port then (if j.reads then s.cplTimeout k.port k.func else s).jobFailed e j kHost ((l.head?.map (·.1)).getD 0)
    else match s.mapped e k 0 l with
      | (n, .ok) => ((s.count 23 e 0x40 (n - s.looked e j)).setLooked e j 0).perform e k j
      | (n, .fault va kind u) =>
        (((s.count 23 e 0x40 (n - s.looked e j)).setLooked e j 0).xltFault e k.num va kind u.code 0).jobFailed e j kind va
      | (n, .miss va u found) => s.mustWalk e k j n va u found

/-- A request that has become too old while it waited is discarded without an answer; the filter forgets it where it was the whole
operation (R345). -/
def State.expireReq (s : State) (e : Nat) (p : Packet) : State :=
  let alone := pKind p != 4 || decide (pTotal p ≤ 4096)
  (s.modUnit (unitOf e) fun x => { x with dup := x.dup.filter fun d => !(alone && d.src == p.src && d.opid == pOpid p && !d.done) }).dropAge
    (tileOfEng e) p.cls

/-- A job run; a request at its target first meets its age and checks 2 to 5 (R343, R345). DESIGN CHOICE: log entry 86. -/
def State.runJob (s : State) (e : Nat) (j : Job) : State := match s.jobCtx e j with
  | none => s
  | some c => match s.ctx e c with
    | none => s
    | some k => match j with
      | .req p =>
        if s.tooOld p then s.expireReq e p
        else if 2 ^ k.ringLog 2 ≤ pRegion p then s.refuse e p 2 2
        else match s.region e c (pRegion p) with
          | none => s.readRegion e k (pRegion p) j
          | some w => if regionCheck w p = 0 then s.access e k j else s.refuse e p (regionCheck w p) (regionCheck w p)
      | .msg p => if s.tooOld p then s.expireReq e p else s.access e k j
      | .rdv p => if s.tooOld p then s.dropAge (tileOfEng e) p.cls else s.access e k j
      | j => s.access e k j

/-! ### The return of a host request -/

/-- An access to the user page of a context that cannot be applied: a write is ignored, CTX_STAT reads with GONE = 1, every other register
as 0 (R328, R566). -/
def State.pageGone (s : State) (a : PageAcc) : State := match a.val with
  | some _ => s
  | none => s.emitData a.m a.len (.regData a.m (halfOf a.off a.len (if a.off / 8 * 8 = 0x118 then 2 ^ 35 else 0)))

/-- The loads of a context have failed: what waits for it ends (R298, R328). -/
def State.loadEnds (s : State) (e c : Nat) (host : Bool) : State :=
  let l := (s.eng e).pages.filter (·.1 == c)
  let s := (s.loadFailed e c).modEng e fun x => { x with pages := x.pages.filter (·.1 != c) }
  let s := s.each l fun s a => s.pageGone a.2
  s.raiseIf host E.CTX_FETCH_ERR e

/-- A flushing read has ended (R475, R476); one of an attempt that a later one has reset does nothing more (R348). -/
def State.flushed (s : State) (e : Nat) (f : FlushFor) (ok : Bool) : State := if !s.current e f.pkt then s else match f with
  | .ack p => if ok then s.putAck e p else (s.dropTracker e p.src (pOpid p)).refuse e p 7 7
  | .flag p va => if ok then s.addJob e (.flag p va) else (s.dropTracker e p.src (pOpid p)).refuse e p 7 7

/-- The jobs that waited for a region entry or line whose read failed are refused (CODE 7). -/
def State.waitFailed (s : State) (e c r : Nat) : State :=
  let (js, s) := s.takeWait e c r
  s.each js fun s j => s.jobFailed e j kHost 0

/-- A host request has ended: with its data, or as a failure (R481, R482, R501, R505, R573). -/
def State.hostReturn (s : State) (r : HostReq) (ok : Bool) (data : List Byte) : State :=
  let e := r.eng
  match r.why with
  | .word0 c => if ok then s else s.loadEnds e c true
  | .record c => if ok then s else s.loadEnds e c true
  | .poll c q first n => s.pollReturn e c q first n ok data
  | .walk c page => s.walkReturn e c page ok (ofLeBytes (data.take 8))
  | .cas c page => s.casReturn e c page ok (ofLeBytes (data.take 8))
  | .payload slot gen poff => match s.opGen e slot gen with
    | some o =>
      let s := s.modOp e slot fun o => { o with rd := false }
      if !ok then s.endOp e slot { status := 5, addr := dw o.desc 3 + poff }
      else match o.unsent with
        | g :: _ => if g.poff = poff then (s.modOp e slot fun o => { o with buf := some data }).pump e slot else s.pump e slot
        | [] => s
    | none => s
  | .getTgt p => if ok then s.sendGetData e p data else s.refuse e p 7 7
  | .region c n => if ok then s.regionCame e c n (wordsOfBytes 4 data) else s.waitFailed e c n
  | .line c n pa t => match ok, s.ctx e c with
    | true, some k => s.lineCame e k n pa t data
    | _, _ => s.waitFailed e c (2 ^ 20 + pa / 64)
  | .atomicOp p => if ok then s.atomicDone e p (ofLeBytes data) else s.refuse e p 7 7
  | .flush f => s.flushed e f ok
  | .coll c q j i => match s.coll e c q j with
    | some x => if ok then (s.sendContrib e x i data).collPump e c q j
      else s.collEnd e x 5 0 (s.collRange x i).1
    | none => s
  | .pool m b _ => if ok then s.addJob e (.place m b data) else s.poolCopied e m b 5
  | .rdv p =>
    if ok then s.sendGetData e p data
    else
      let s := s.refuse e p 7 7
      match s.rdvOp e p with
      | some (slot, o) => s.endOp e slot { status := 5, addr := dw o.desc 3 + pPoff p }
      | none => s

/-! ### The loop -/

/-- One step of an engine's inner work: a failed job, a request that ended at once, or the next job; none when all is done. -/
def State.settle1 (s : State) (e : Nat) : Option State := match (s.eng e).faults, (s.eng e).dead, (s.eng e).jobs with
  | (j, kind, va) :: _, _, _ => some ((s.modEng e fun x => { x with faults := x.faults.drop 1 }).jobFailed e j kind va)
  | [], tag :: _, _ =>
    let s := s.modEng e fun x => { x with dead := x.dead.drop 1 }
    match s.reqOf tag with
    | some r => some ((s.dropReqTag tag).hostReturn r false [])
    | none => some s
  | [], [], j :: _ => some ((s.modEng e fun x => { x with jobs := x.jobs.drop 1 }).runJob e j)
  | [], [], [] => none

/-- An engine's inner work run on, at most `n` steps; what is left goes on with the engine's next command. -/
def State.settleN (s : State) (e : Nat) : Nat → State
  | 0 => s
  | n + 1 => match s.settle1 e with
    | some t => t.settleN e n
    | none => s

/-- An engine brought to rest. -/
def State.rest (s : State) (e : Nat) : State := (s.kickPulls e).settleN e 256

/-- The engines brought to rest that have inner work. -/
def State.settleAll (s : State) : State :=
  s.each (s.engs.map (·.1)) fun s e => s.rest e

/-- A host request ended by its tag: its data, or a failure (R573, R585). -/
def State.endReq (s : State) (r : HostReq) (ok : Bool) (data : List Byte) : State :=
  ((s.dropReqTag r.tag).hostReturn r ok data).rest r.eng

end Sys2Proof.Machine
end

