-- ==== Sys2Proof/Machine/EngCmd.lean ====
section
/-!
DEFINITION. Commands of the engines, their contexts and work queues (chapter "Network engines, contexts and work queues"):
arrivals and the miss buffer, loads and evictions, polls, the user page, the starting of entries, and the records.
-/
namespace Sys2Proof.Machine
open Sys2Proof

/-! ### Injection (R38, R166, R176, R184) -/

/-- What the injection of an engine's packet starts: the retry timer, the spacing of hole-driven resends and the completion hold of its
operation (R352, R353, R356), or the lease that its grant or renewal gives (R531); and the packet as it leaves. -/
def State.started (s : State) (e : Nat) (f : Fresh) : State × Packet := match f.start with
  | .nothing => (s, f.pkt)
  | .op slot gen hole =>
    if (s.opGen e slot gen).isNone then (s, f.pkt)
    else (s.modOp e slot fun o => { o with lastSent := s.now, timer := if o.held.isSome then none else some s.now,
                                           holeAt := if hole then some s.now else o.holeAt }, f.pkt)
  | .lease l n => s.leaseFrom (unitOf e) l n f.pkt

/-- PACKET_ARRIVAL (R38, R166, R176, R184): the packet with this SOP at tile `t`, from a port or engine. An engine that finds no room, or that
R202, R256 or R380 holds back, stalls, and the packet waits. DEDUCED: log entry 76. -/
def execPacketArrival (t : Fin 72) (inPort : Fin 1024) (pkt : Packet) (s : State) : Host.Outcome State Fault Refusal :=
  let x := s.presented t inPort pkt
  if t.val < 64 then .next (x.2.arrive t x.1)
  else if s.engMute x.1 || !s.asBefore.engRoom t inPort (vcOf pkt.cls 0) pkt.ncells then .next s
  else
    let y := (x.2.engCharge x.1).started inPort x.1
    .next (y.1.arrive t { x.1 with pkt := y.2 })

/-! ### Context ranges (R284, R285) -/

/-- Two ranges of context numbers overlap: some number lies in both. -/
def rangesMeet (a n b m : Nat) : Bool := decide (0 < n ∧ 0 < m ∧ a < b + m ∧ b < a + n)

/-- A range of engine `e` would overlap another enabled range of the device. -/
def State.rangeOverlap (s : State) (e n first count : Nat) : Bool :=
  (List.range 32).any fun d => [0, 1].any fun k =>
    !(d == e && k == n) && s.flag F.CTX_RANGE_EN d k && rangesMeet first count (s.get F.CTX_RANGE_FIRST d k) (s.get F.CTX_RANGE_COUNT d k)

/-- CTX_RANGE_WRITE (R285): CTX_RANGE `n` of engine `e` written; a write that enables an overlapping range is ignored. -/
def execCtxRangeWrite (e : Fin 32) (n : Fin 2) (v : Nat) (s : State) : Host.Outcome State Fault Refusal :=
  if bit v 48 && s.rangeOverlap e n (bits v 0 20) (bits v 20 21) then .next (s.raise E.CTX_RANGE_OVERLAP e)
  else .next ((((s.set F.CTX_RANGE_FIRST (bits v 0 20) e n).set F.CTX_RANGE_COUNT (bits v 20 21) e n).set F.CTX_RANGE_EN (bits v 48 1) e n).set
    F.CTX_RANGE_HOLD (bits v 49 1) e n)

/-! ### Arrivals (R286, R295 to R297, R300, R345, R485, R584) -/

/-- A packet released to an engine, the first in release order where several are equal. -/
def State.handRec (s : State) (e : Nat) (q : Packet) : Option Resv := (s.txq (engUnit e)).find? (·.pkt == q)

/-- A packet is the head of its transmit queue, of its VC and SL, for an engine (R243). -/
def State.handHead (s : State) (e : Nat) (q : Packet) : Bool :=
  (s.handRec e q).any fun r => ((s.txq (engUnit e)).find? fun x => x.vc == r.vc && (isMgtVc r.vc || x.pkt.sl == r.pkt.sl)).any (·.res == r.res)

/-- The head may not be handed over: expired (R184), or the engine fenced (R238). -/
def State.handDead (s : State) (e : Nat) (q : Packet) : Bool := s.tooOld q || s.engDenied e q

/-- The packet that the scheduler of an engine tile hands to an engine next is this one (R243 to R250). DESIGN CHOICE: log entry 36. -/
def State.handed (s : State) (e : Nat) (q : Packet) : Bool := (s.chooseCell (engUnit e)).1.any (·.pkt == q)

/-- The dead head of a transmit queue of an engine dropped, by its cause (R184, R186, R195, R238). -/
def State.dropHead (s : State) (e : Nat) (q : Packet) : State := match s.handRec e q with
  | some r => s.dropDead (engUnit e) r
  | none => s

/-- The context that a packet received by an engine is attributed to (R276): TCTX, but for class COL, whose word 2 names a group: there the
context of the COLL that a RESULT is for; none for a lock request, which meets no context. -/
def State.rxCtx (s : State) (e : Nat) (q : Packet) : Option Nat :=
  if q.cls = 2 then
    (if pKind q = 0x11 then ((s.eng e).colls.find? fun x => x.g == cGroup q && x.seq == cSeq q).map (·.ctx) else none)
  else if q.cls = 3 ∨ (q.cls = 0 ∧ 0x28 ≤ pKind q ∧ pKind q ≤ 0x2A) then none
  else some (pTctx q)

/-- The packet that the scheduler hands to an engine taken from its tile, and counted (R243, R259, Table 8.14). -/
def State.unhand (s : State) (e : Nat) (q : Packet) : State :=
  match s.chooseCell (engUnit e) with
  | (some r, u) => if r.pkt == q then (u.takeWhole (engUnit e) r).count 18 e 0x43 1 (s.rxCtx e q) else s
  | (none, _) => s

/-- A packet that meets no context and that another command takes at engine `e`: RESULT and REISSUE, CONTRIB and FENCED at the engine of a
unit, lock requests and BOOST (R421, R522, R546). -/
def ownCommand (e : Nat) (q : Packet) : Bool :=
  if q.cls = 2 then pKind q == 0x11 || pKind q == 0x12 || (e % 4 == 0 && (pKind q == 0x10 || pKind q == 0x13))
  else q.cls == 0 && 0x28 ≤ pKind q && pKind q ≤ 0x2B

/-- Request kinds that a context answers (Tables 9.2, 10.2, 12.4). -/
def requestKind (k : Nat) : Bool := (1 ≤ k && k ≤ 9) || k == 0x20

/-- Response kinds (Tables 9.2, 10.2, 14.1). -/
def responseKind (k : Nat) : Bool := 0x40 ≤ k && k ≤ 0x46

/-- A packet put with those that may be handled. -/
def State.makeReady (s : State) (e : Nat) (q : Packet) : State := s.modEng e fun x => { x with ready := x.ready ++ [q] }

/-- A request for a context that is not cached: into the miss buffer, or refused when it is full (R295, R296). -/
def State.missed (s : State) (e : Nat) (q : Packet) : State :=
  let c := pTctx q
  if 256 ≤ (s.eng e).miss.length then
    ((((s.inc F.ENG_CNT_A_BUSY_NACK e).raise E.ENG_MISS_FULL e).count 18 e 0x45 1 (some c)).nackBusy e q 1)
  else
    let s := if s.loading e c then s else ((s.inc F.ENG_CNT_A_MISSES e).count 18 e 0x44 1 (some c)).wantLoad e c
    s.modEng e fun x => { x with miss := x.miss ++ [q] }

/-- An arrival at its engine: ready, held in the miss buffer, refused or dropped. An MGT packet is consumed without condition (R220). DEDUCED: log entry 131. -/
def State.letIn (s : State) (e : Nat) (q : Packet) : State :=
  let c := pTctx q
  if q.cls = 1 then (if !responseKind (pKind q) then s else if (s.ctx e c).isSome then s.makeReady e q else s.late e)
  else if q.cls ≠ 0 then s
  else if s.tooOld q then s.dropAge (tileOfEng e) q.cls
  else if !requestKind (pKind q) then s
  else if nonIdempotent (pKind q) && decide (s.now < (s.eng e).refuseTo) then s.refuse1 e q
  else if (s.rangeOf e c).isNone then (if s.onHold e c then s.nackBusy e q 5 else s.refuse1 e q)
  else if (s.ctx e c).isSome then s.makeReady e q
  else s.missed e q

/-- A ready packet taken for its handling: dropped for its age, refused by a faulted context, or refused while Bus Master Enable
of the function is 0; otherwise it is to be performed. -/
def State.takeReady (s : State) (e : Nat) (q : Packet) : State × Bool :=
  let s := s.modEng e fun x => { x with ready := x.ready.erase q }
  match s.ctx e (pTctx q) with
  | none => if q.cls = 1 then (s.late e, false) else (s.refuse1 e q, false)
  | some k =>
    let s := s.modCtx e k.num fun x => { x with used := s.now }
    if q.cls = 1 then (s, true)
    else if s.tooOld q then (s.dropAge (tileOfEng e) q.cls, false)
    else if k.faulted then (s.refuse1 e q, false)
    else if !(s.fn k.port k.func).bme then (s.nackBusy e q 5, false)
    else (s, true)

/-- A packet stands first among those ready of its class and context: the order in which held packets are handled (R295). -/
def State.readyFirst (s : State) (e : Nat) (q : Packet) : Bool :=
  (s.eng e).ready.find? (fun p => p.cls == q.cls && pTctx p == pTctx q) == some q

/-- A packet of a class and kinds comes to be handled: taken from those ready, or admitted first when it was just handed over. It
waits for those of its context that were ready before it. -/
def State.arrived (s : State) (e : Nat) (q : Packet) (cls : Nat) (kinds : List Nat) : State × Bool :=
  if q.cls ≠ cls ∨ !kinds.contains (pKind q) then (s, false)
  else if s.readyFirst e q then s.takeReady e q
  else if (s.eng e).ready.contains q then (s, false)
  else if s.handed e q then
    let s := (s.unhand e q).letIn e q
    if s.readyFirst e q then s.takeReady e q else (s, false)
  else (s, false)

/-- ENGINE_PACKET_RX (R286): a packet handed to engine `e` meets the context look-up; one that may not be handed over is dropped (R184,
R238). -/
def execEnginePacketRx (e : Fin 32) (q : Packet) (s : State) : Host.Outcome State Fault Refusal :=
  if s.handHead e q && s.handDead e q then .next (s.dropHead e q)
  else if s.handed e q && !ownCommand e q then .next (((s.unhand e q).letIn e q).rest e) else .next s

/-! ### Loads (R291 to R298) -/

/-- A host request of an engine with a purpose, not yet ended. -/
def State.reqFor (s : State) (e : Nat) (why : Purpose) : Option HostReq :=
  s.reqs.find? fun r => r.eng == e && r.why == why && !r.ended && !r.closed && !s.unsentTag r.tag

/-- The victim that makes room for a load: the evictable context least recently used (R292). -/
def State.victim (s : State) (e : Nat) : Option Ctx := argMin Ctx.used ((s.cached e).filter fun k => s.evictable e k false)

/-- Loads that run at an engine. -/
def State.loadsRun (s : State) (e : Nat) : Nat := ((s.eng e).loads.filter fun l => l.phase != 0).length

/-- A load that waited finds its context in no enabled range any more: nothing is loaded, and the packets held meet the look-up of R286
again. -/
def State.loadOff (s : State) (e c : Nat) : State :=
  let l := (s.eng e).miss.filter fun p => pTctx p == c
  let g := (s.eng e).pages.filter (·.1 == c)
  let s := s.modEng e fun x => { x with
    miss := x.miss.filter (fun p => pTctx p != c), loads := x.loads.filter (·.ctx != c), pages := x.pages.filter (·.1 != c) }
  let s := s.each l fun s p => if s.onHold e c then s.nackBusy e p 5 else s.refuse1 e p
  s.each g fun s a => s.pageGone a.2

/-- A wake event for each request that waits for a context whose function sleeps (R580): PM_PME in D3hot, WAKE_N in D3cold. -/
def State.wakeFor (s : State) (e c h f : Nat) : State :=
  let pf := s.pfOf h f
  let l := (s.eng e).miss.filter fun p => pTctx p == c && p.cls == 0
  if !l.isEmpty && s.flag F.FUN_PF_WAKE h pf && (s.fn h pf).pme then
    if (s.hport h).perst then s.each l fun s _ => (s.modHport (h / 4 * 4) fun x => { x with wake := true }).raise E.FUN_PME_SENT h
    else if (s.fn h f).d3 then s.each l fun s _ => (s.emitMsg h (.pme h f)).raise E.FUN_PME_SENT h
    else s
  else s

/-- The function of port `h` whose user-page range holds a context (R567). -/
def State.fnByRange (s : State) (h c : Nat) : Option Nat :=
  (List.range 264).find? fun f => s.funcExists h f && s.inRange h f c

/-- Word 0 of a record read for a load. A record behind a port in D3cold cannot be read: the context's function is then told by the
user-page ranges of that port (R580). DEDUCED: log entry 105. DEDUCED: log entry 174. -/
def State.beginLoad (s : State) (e c : Nat) : State :=
  let h := s.get F.CTX_CFG_PORT e
  match s.rangeOf e c with
  | none => s.loadOff e c
  | some n =>
    if dieOfPort h ≠ dieOfEng e then s.loadEnds e c true
    else
      let s := match (s.hport h).perst, s.fnByRange h c with
        | true, some f => s.wakeFor e c h f
        | _, _ => s
      let s := s.modEng e fun x => { x with loads := updWhere (·.ctx == c) (fun l => { l with phase := 1, rng := n }) x.loads }
      s.request e h 0 (.word0 c) fun tag => .hostRead tag h 0 [(s.recordAt e n c, 8, false)]

/-- CTX_LOAD_START (R294): the oldest waiting load of engine `e` begins when a fetch slot and a cache slot are free; the evictable
context least recently used makes room (R292). -/
def execCtxLoadStart (e : Fin 32) (s : State) : Host.Outcome State Fault Refusal :=
  match (s.eng e).loads.find? (·.phase == 0) with
  | none => .next s
  | some l =>
    if s.get F.CTX_CFG_FETCH_MAX e ≤ s.loadsRun e then .next s
    else if (s.cached e).length + s.loadsRun e < 512 then .next ((s.beginLoad e l.ctx).rest e)
    else match s.victim e with
      | some v => .next (((s.evict e v false).beginLoad e l.ctx).rest e)
      | none => .next s

/-- The wake events of a context by word 0 of its record (R580). -/
def State.wakeEvents (s : State) (e c w0 : Nat) : State :=
  if bit w0 0 then s.wakeFor e c (bits w0 8 6) (bits w0 16 9) else s

/-- The record that a load reads is in the range that it began with. -/
def State.loadRecord (s : State) (e c : Nat) : Nat :=
  s.recordAt e ((((s.eng e).loads.find? (·.ctx == c)).map (·.rng)).getD 0) c

/-- The completion of a request received: its TLP and its data counted (Table 15.10); the link is not idle (R581). -/
def State.cplRx (s : State) (h n : Nat) : State :=
  ((s.count 26 h 0x42).count 26 h 0x45 (divUp n 64)).modHport h fun x => { x with idleFrom := s.now }

/-- A completion of a read that has ended already: discarded and counted (R575). -/
def State.lateFor (s : State) (e : Nat) (p : Purpose → Bool) (n : Nat) : State :=
  match s.reqs.find? fun r => r.eng == e && p r.why && (r.ended || r.closed) && !s.unsentTag r.tag with
  | some r => (((s.cplRx r.port n).dropReqTag r.tag).inc F.HPT_CNT_C_LATE_CPL r.port).sendHeld r.port
  | none => s

/-- CTX_WORD0_RETURN (R291): word 0 of a record has returned; words 1 to 63 are read when R287 accepts it. -/
def execCtxWord0Return (e : Fin 32) (c w0 : Nat) (s : State) : Host.Outcome State Fault Refusal :=
  match s.reqFor e (.word0 c) with
  | none => .next (s.lateFor e (· == .word0 c) 8)
  | some r =>
    let s := ((s.cplRx r.port 8).dropReqTag r.tag).sendHeld r.port
    if s.binds e c w0 then
      let s := s.modEng e fun x => { x with loads := updWhere (·.ctx == c) (fun l => { l with phase := 2, w0 := w0 % 2 ^ 64 }) x.loads }
      .next ((s.request e r.port 0 (.record c) fun tag => .hostRead tag r.port 0 [(s.loadRecord e c + 8, 504, false)]).rest e)
    else .next ((((s.wakeEvents e c w0).raise E.CTX_BIND_ERR e).loadEnds e c false).rest e)

/-! ### The user page (R305, R307, R309, R319, R326, R327) -/

/-- A queue's started entries that have sent nothing end with QUEUE_RESET (R484). -/
def State.resetEntries (s : State) (e c q : Nat) : State × Nat :=
  let ops := (s.opsOf e).filter fun o => o.2.ctx == c && o.2.q == q && !o.2.sentAny && o.2.held.isNone && o.2.pull.isNone
  let s' := s.each ops fun s o => s.retire e o.1 o.2 { status := 0x0C, peer := o.2.dest, pctx := o.2.tctx }
  let bg := (s'.eng e).begun.filter fun b => b.ctx == c && b.q == q
  let s' := s'.modEng e fun x => { x with begun := x.begun.filter fun b => !(b.ctx == c && b.q == q) }
  let s' := s'.each bg fun s b => s.endEntry e c q b.idx b.desc { status := 0x0C }
  let cl := (s'.eng e).colls.filter fun x => x.ctx == c && x.q == q && x.next == 0
  let s' := s'.each cl fun s x => s.collEnd e x 0x0C 0 0
  let mine := fun (i : Inval) => i.entry.any fun x => x.1 == c && x.2.1 == q
  let iv := (s'.eng e).invals.filter mine
  let s' := s'.modEng e fun x => { x with invals := x.invals.filter fun i => !mine i }
  let s' := s'.each (iv.filterMap (·.entry)) fun s x => s.endEntry e c q x.2.2.1 x.2.2.2 { status := 0x0C }
  let n := ops.length + bg.length + cl.length + iv.length
  match s'.ctx e c with
  | some k => match (k.q q).fence with
    | some (i, d) =>
      if (s'.opsOf e).any fun o => o.2.kind == 0x20 && o.2.ctx == c && o.2.q == q then (s', n)
      else ((s'.modQ e c q fun w => { w with fence := none }).endEntry e c q i d { status := 0x0C }, n + 1)
    | none => (s', n)
  | none => (s', n)

/-- WQ_CTL with RESET = 1 (R309, R484): in RUN or ERROR the queue stops, what has not begun is discarded, and it drains. -/
def State.queueReset (s : State) (e c q : Nat) : State := match s.ctx e c with
  | none => s
  | some k =>
    let w := k.q q
    if w.st = 1 ∨ w.st = 2 then
      let s := s.modQ e c q fun w => { w with st := 3, cache := [], drop := w.out.isSome, again := false, bad := none }
      let (s, n) := s.resetEntries e c q
      s.inc F.ENG_CNT_C_DISCARDED e 0 0 (n + w.cache.length)
    else s

/-- A write of INDEX to WQ_INVAL (R307): cached entries from the index on go, and polling resumes there at once. -/
def State.queueInval (s : State) (e c q i : Nat) : State := match s.ctx e c with
  | none => s
  | some k =>
    let w := k.q q
    if w.st ≠ 1 then s
    else
      let keep := ((List.range w.cache.length).filter fun j => aheadIn 32 i ((w.start + j) % 2 ^ 32)).length
      let n := w.cache.length - keep
      let s := (s.inc F.WQ_CNT_B_INVAL e 0 0 n).count 20 e 0x43 n
      s.modQ e c q fun w => { w with cache := w.cache.take keep, drop := w.out.isSome, pollAt := s.now }

/-- A write to NUDGE (R305). -/
def State.nudge (s : State) (e c q : Nat) : State := match s.ctx e c with
  | none => s
  | some k =>
    let s := s.count 20 e 0x44
    if (k.q q).st ≠ 1 then s
    else if (k.q q).out.isSome then s.modQ e c q fun w => { w with again := true }
    else (s.modQ e c q fun w => { w with pollAt := s.now }).addJob e (.poll c q)

/-- A write to EVQ_ARM (R326). -/
def State.arm (s : State) (e c : Nat) : State := match s.ctx e c with
  | none => s
  | some k =>
    let s := s.modCtx e c fun x => { x with armed := true }
    if k.evqWr ≠ k.evqRd ∨ k.errqWr ≠ k.errqRd then s.armed e c else s

/-- The value of an access placed in its 8-byte register: low and high half, each where written. -/
def halves (off len v : Nat) : Option Nat × Option Nat :=
  if len = 4 then (if off % 8 = 4 then (none, some (v % 2 ^ 32)) else (some (v % 2 ^ 32), none))
  else (some (v % 2 ^ 32), some (v / 2 ^ 32 % 2 ^ 32))

/-- A write to the user page of a cached context (Table 8.10). -/
def State.pageWrite (s : State) (e c off len v : Nat) : State :=
  let r := off / 8
  let q := r % 8
  let (lo, hi) := halves off len v
  if r < 8 then s.nudge e c q
  else if r < 16 then (match lo with
    | some i => s.queueInval e c q i
    | none => s)
  else if 24 ≤ r ∧ r < 32 then
    let s := match lo with
      | some i => s.modQ e c q fun w => { w with ctl := i }
      | none => s
    (match hi with
    | some h => if bit h 0 then s.queueReset e c q else s
    | none => s)
  else if r = 32 then (match lo with
    | some i => s.modCtx e c fun x => { x with evqRd := i }
    | none => s)
  else if r = 33 then (match lo with
    | some i => s.modCtx e c fun x => { x with errqRd := i }
    | none => s)
  else if r = 34 then s.arm e c
  else if r = 35 then (match hi with
    | some h => s.modCtx e c fun x => { x with
        evqFull := x.evqFull && (!bit h 0 || s.rf.fired.contains (ctxFired e c 0)),
        errqFull := x.errqFull && (!bit h 1 || s.rf.fired.contains (ctxFired e c 1)) }
    | none => s)
  else s

/-- Counter `n` of an ENG page is mirrored to a context (R276). -/
def State.mirrored (s : State) (e c n : Nat) : Bool :=
  let ev := s.get (F.PMC_SEL_EV.of 18) e 0 n
  s.getBit (F.PMC_CTL_FILT_EN.of 18) n e && s.get F.PMC_FILT_FILT_CTX e == c && s.getBit F.PMN_USER_MASK_MASK (ev % 64) 0 (ev / 64)

/-- The register at an 8-byte offset of the user page of a cached context (Table 8.10, R276). -/
def State.pageRead (s : State) (e : Nat) (k : Ctx) (off : Nat) : Nat :=
  let r := off / 8
  let w := k.q (r % 8)
  if 16 ≤ r ∧ r < 24 then field w.start 0 32 + field w.done 32 31
  else if 24 ≤ r ∧ r < 32 then field w.ctl 0 32 + field w.st 48 2
  else if r = 32 then k.evqRd % 2 ^ 32
  else if r = 33 then k.errqRd % 2 ^ 32
  else if r = 35 then field k.lost 0 32 + field (b2n k.evqFull) 32 1 + field (b2n k.errqFull) 33 1 + field (b2n k.faulted) 34 1
  else if r = 0x1E0 then (if (List.range 8).any (s.mirrored e k.num) then s.clk.cyc % 2 ^ 64 else 0)
  else if 0x1E1 ≤ r ∧ r ≤ 0x1E8 then
    let n := r - 0x1E1
    if s.mirrored e k.num n then field (s.get (F.PMC_COUNT.of 18) e n) 0 48 + field (s.get (F.PMC_SAT.of 18) e n) 63 1 else 0
  else 0

/-- The function that a context's record names (R566). -/
def Ctx.owner (k : Ctx) : Master := .fn k.port k.func

/-- An access to the user page of a cached context: applied when it came through the function that the record names (R566). -/
def State.pageApply (s : State) (e : Nat) (k : Ctx) (a : PageAcc) : State :=
  let s := s.modCtx e k.num fun x => { x with used := s.now }
  if a.m ≠ k.owner then s.pageGone a
  else match a.val with
    | some v => s.pageWrite e k.num a.off a.len v
    | none => s.emitData a.m a.len (.regData a.m (halfOf a.off a.len (s.pageRead e k a.off)))

/-- The function that an access comes through undergoes an FLR (R582, R583). -/
def State.inFlr (s : State) (a : PageAcc) : Option (Nat × Nat) := match a.m with
  | .fn h f => if (s.fn h f).flrAt.isSome then some (h, f) else none
  | _ => none

/-- An access to the user page of a context: at once where it is cached, else after a load (R328); not in safe state (R641), nor during an
FLR of the function (R582, R583). -/
def State.pageAccess (s : State) (e c : Nat) (a : PageAcc) : State := match s.inFlr a with
  | some (h, f) => s.unsupported h f a.val.isSome
  | none => if s.safe then s.pageGone a else match s.ctx e c with
  | some k => s.pageApply e k a
  | none => (s.modEng e fun x => { x with pages := x.pages ++ [(c, a)] }).wantLoad e c

/-- User-page accesses that waited for a load applied in their order (R328). -/
def State.pagesDue (s : State) (e c : Nat) : State :=
  let l := (s.eng e).pages.filter (·.1 == c)
  let s := s.modEng e fun x => { x with pages := x.pages.filter (·.1 != c) }
  s.each l fun s a => match s.ctx e c with
    | some k => s.pageApply e k a.2
    | none => s

/-- CTX_LOAD_DONE (R294): words 1 to 63 of a record have returned; the context is cached, each enabled queue is polled at once, and
what waited for it proceeds. -/
def execCtxLoadDone (e : Fin 32) (c : Nat) (ws : List Nat) (s : State) : Host.Outcome State Fault Refusal :=
  match s.reqFor e (.record c), (s.eng e).loads.find? (·.ctx == c) with
  | some r, some l =>
    let s := (((s.cplRx r.port 504).dropReqTag r.tag).sendHeld r.port).loaded e c (l.w0 :: ws.map (· % 2 ^ 64))
    let s := s.each (List.range 8) fun s q => s.addJob e (.poll c q)
    .next (((s.rematch e c).pagesDue e c).rest e)
  | _, _ => .next (s.lateFor e (· == .record c) 504)

/-- CTX_LOAD_FAIL (R298): a read of a record has ended in a host error. -/
def execCtxLoadFail (e : Fin 32) (c : Nat) (s : State) : Host.Outcome State Fault Refusal :=
  match (s.reqFor e (.word0 c) <|> s.reqFor e (.record c)) with
  | some r => .next (((((s.cplRx r.port 0).dropReqTag r.tag).sendHeld r.port).loadEnds e c true).rest e)
  | none => .next (s.lateFor e (fun w => w == .word0 c || w == .record c) 0)

/-- USER_PAGE_ACCESS (R328): a function reads (no value) or writes the user page of context `c`, which engine `e` serves. -/
def execUserPageAccess (e : Fin 32) (c : Nat) (port : Fin 64) (func off len : Nat) (val : Option Nat) (s : State) :
    Host.Outcome State Fault Refusal :=
  let a : PageAcc := ⟨off % 4096, len, val, .fn port func⟩
  if (s.rangeOf e c).isSome then .next ((s.pageAccess e c a).rest e) else .next (s.pageGone a)

/-- NUDGE (R305): a write to NUDGE `q` in the user page of context `c`. -/
def execNudge (e : Fin 32) (c : Nat) (q : Fin 8) (port : Fin 64) (func : Nat) (s : State) : Host.Outcome State Fault Refusal :=
  .next ((s.pageAccess e c ⟨8 * q.val, 8, some 0, .fn port func⟩).rest e)

/-- WQ_INVAL (R307): a write of INDEX to WQ_INVAL `q`. -/
def execWqInval (e : Fin 32) (c : Nat) (q : Fin 8) (index : Nat) (port : Fin 64) (func : Nat) (s : State) : Host.Outcome State Fault Refusal :=
  .next ((s.pageAccess e c ⟨0x40 + 8 * q.val, 8, some (index % 2 ^ 32), .fn port func⟩).rest e)

/-- WQ_CTL_RESET (R309): a write to WQ_CTL `q` with RESET = 1 and an INDEX. -/
def execWqCtlReset (e : Fin 32) (c : Nat) (q : Fin 8) (index : Nat) (port : Fin 64) (func : Nat) (s : State) :
    Host.Outcome State Fault Refusal :=
  .next ((s.pageAccess e c ⟨0xC0 + 8 * q.val, 8, some (index % 2 ^ 32 + 2 ^ 32), .fn port func⟩).rest e)

/-- EVQ_ARM (R326): a write to EVQ_ARM. -/
def execEvqArm (e : Fin 32) (c : Nat) (port : Fin 64) (func : Nat) (s : State) : Host.Outcome State Fault Refusal :=
  .next ((s.pageAccess e c ⟨0x110, 8, some 0, .fn port func⟩).rest e)

/-- QUEUE_DRAIN_DONE (R309): the last operation of a draining queue has ended. -/
def execQueueDrainDone (e : Fin 32) (c : Nat) (q : Fin 8) (s : State) : Host.Outcome State Fault Refusal :=
  match s.ctx e c with
  | some k =>
    if (k.q q).st = 3 ∧ (k.q q).live.isEmpty then
      let s := s.modQ e c q fun w =>
        { w with st := 1, start := w.ctl, done := w.ctl, compNow := !k.faulted, pollAt := s.now, drop := w.out.isSome,
                 bad := none }
      .next (s.rest e)
    else .next s
  | none => .next s

/-! ### CTX_CMD (R299) -/

/-- A CTX_CMD ends. -/
def State.cmdDone (s : State) (e : Nat) : State :=
  ((s.modEng e fun x => { x with cmd := none }).raise E.CTX_CMD_DONE e).count 19 e 0x43

/-- The pulls of a context abandoned, with their messages (R414). -/
def State.dropPulls (s : State) (e c : Nat) : State :=
  let pulls := (s.opsOf e).filter fun o => o.2.ctx == c && o.2.pull.isSome
  let s := s.each pulls fun s o => s.freeOp e o.1
  let gone := (s.eng e).known.filter fun k => k.msg.ctx == c && k.msg.rdv && (k.st == 4 || k.st == 6)
  s.each gone fun s k => (s.placing e k.msg).forgetMsg e k.msg

/-- The matching and stream entries of a context discarded (R414). -/
def State.dropMatching (s : State) (e c : Nat) : State :=
  (s.dropPulls e c).modEng e fun x => { x with
    posted := x.posted.filter (·.ctx != c), known := x.known.filter (·.msg.ctx != c), tx := x.tx.filter (·.ctx != c),
    rx := x.rx.filter (·.tctx != c) }

/-- A CTX_CMD begun on contexts: those cached stop fetching; for the others it ends at once, and they are loaded (R294, R299). DEDUCED:
log entry 105. -/
def State.ctxCmd (s : State) (e op : Nat) (cs : List Nat) : State :=
  let l := cs.filter fun c => (s.ctx e c).isSome
  let s := s.each (cs.filter fun c => (s.ctx e c).isNone) fun s c => s.wantLoad e c
  let s := s.each l fun s c => s.modCtx e c fun k => { k with stop := true }
  if l.isEmpty then s.cmdDone e else s.modEng e fun x => { x with cmd := some (op, l) }

/-- The fields of CTX_CMD written. -/
def State.setCtxCmd (s : State) (e op range c : Nat) : State :=
  ((s.set F.CTX_CMD_OP op e).set F.CTX_CMD_RANGE range e).set F.CTX_CMD_CTX c e

/-- EVICT (R299): CTX_CMD EVICT for context `c`. -/
def execEvict (e : Fin 32) (c : Nat) (s : State) : Host.Outcome State Fault Refusal :=
  if (s.eng e).cmd.isSome then .next s else .next ((s.setCtxCmd e 1 (s.get F.CTX_CMD_RANGE e) c).ctxCmd e 1 [c % 2 ^ 20])

/-- CLOSE (R299, R414, R541): CTX_CMD CLOSE for context `c`. -/
def execClose (e : Fin 32) (c : Nat) (s : State) : Host.Outcome State Fault Refusal :=
  if (s.eng e).cmd.isSome then .next s
  else
    let c := c % 2 ^ 20
    let s := s.setCtxCmd e 2 (s.get F.CTX_CMD_RANGE e) c
    let s := if (s.ctx e c).isSome then s.dropPulls e c else (s.dropMatching e c).abandon c
    .next ((s.ctxCmd e 2 [c]).rest e)

/-- EVICT_RANGE (R299): CTX_CMD EVICT_RANGE for range `n`. -/
def execEvictRange (e : Fin 32) (n : Fin 2) (s : State) : Host.Outcome State Fault Refusal :=
  if (s.eng e).cmd.isSome then .next s
  else .next ((s.setCtxCmd e 3 n (s.get F.CTX_CMD_CTX e)).ctxCmd e 3 (((s.cached e).filter (·.rng == n.val)).map (·.num)))

/-- One context of a running command dropped when it is evictable. -/
def State.cmdDrop (s : State) (e op c : Nat) : State := match s.ctx e c with
  | some k =>
    if s.evictable e k true then
      let s := s.evict e k (op == 2)
      if op = 2 then (s.dropMatching e c).abandon c else s
    else s
  | none => s

/-- CTX_CMD_END (R299): contexts of the running command that have become evictable are written back and dropped; when none is left
the command ends. -/
def execCtxCmdEnd (e : Fin 32) (s : State) : Host.Outcome State Fault Refusal :=
  match (s.eng e).cmd with
  | none => .next s
  | some (op, l) =>
    let s := s.each l fun s c => s.cmdDrop e op c
    let left := l.filter fun c => (s.ctx e c).isSome
    if left.isEmpty then .next ((s.cmdDone e).rest e) else .next ((s.modEng e fun x => { x with cmd := some (op, left) }).rest e)

/-! ### Polls (R303) -/

/-- QUEUE_POLL (R303, R304): a queue whose interval has expired is polled. -/
def execQueuePoll (e : Fin 32) (c : Nat) (q : Fin 8) (s : State) : Host.Outcome State Fault Refusal :=
  match s.ctx e c with
  | some k => if s.pollable e k q && decide ((k.q q).pollAt ≤ s.now) then .next ((s.addJob e (.poll c q)).rest e) else .next s
  | none => .next s

/-- A completion with a tag for a purpose: used, or late (R481, R575). -/
def State.completion (s : State) (e tag : Nat) (p : Purpose → Bool) (ok : Bool) (data : List Byte) : State := match s.reqOf tag with
  | some r =>
    if r.eng != e || !p r.why || s.unsentTag tag then s
    else
      let s := s.cplRx r.port data.length
      if r.ended || r.closed then ((s.dropReqTag tag).inc F.HPT_CNT_C_LATE_CPL r.port).sendHeld r.port
      else (s.endReq r ok data).sendHeld r.port
  | none => s

/-- POLL_READ_RETURN (R303): a poll read has returned with its data, or failed. -/
def execPollReadReturn (e : Fin 32) (tag : Nat) (ok : Bool) (data : List Byte) (s : State) : Host.Outcome State Fault Refusal :=
  .next (s.completion e tag (fun w => match w with
    | .poll _ _ _ _ => true
    | _ => false) ok data)

/-! ### Starting entries (R308 to R313, R547, R756) -/

/-- Opcodes whose entries take an operation slot and send to DEST. DEDUCED: log entry 103. -/
def takesSlot (op : Nat) : Bool := (1 ≤ op && op ≤ 7) || (9 ≤ op && op ≤ 11)

/-- A reserved opcode (Table 8.5). -/
def badOpcode (op : Nat) : Bool := op == 0 || op == 0x0F || decide (0x11 ≤ op)

/-- An entry that R756 forbids towards a legacy group. DEDUCED: log entry 112. -/
def notLegacy (d : Desc) : Bool :=
  let op := dOpcode d
  ((op == 1 || op == 2) && dFlag d 11) || (op == 4 && dFlag d 8) || (op == 7 && dFlag d 12) || (op == 8 && dFlag d 11)
    || (9 ≤ op && op ≤ 11)

/-- The entry sends to DEST, which lies in a legacy group, and R756 forbids it. -/
def State.legacyBad (s : State) (d : Desc) : Bool := s.legacy (groupOf (dDest d)) && notLegacy d

/-- An ordered SEND has or can get its stream entry (R402). -/
def State.txRoom (s : State) (e c q : Nat) (d : Desc) : Bool :=
  let x := s.eng e
  x.tx.any (fun t => t.ctx == c && t.q == q && t.dest == dDest d && t.tctx == dTctx d)
    || decide (x.rx.length + x.tx.length < 16384) || x.rx.any (s.rxIdle e)

/-- A SIGNAL entry of a queue waits for room in the event ring, which the events before it fill: the queue waits (R320). -/
def Ctx.evWaits (k : Ctx) (q : Nat) : Bool :=
  (k.events.drop (2 ^ k.ringLog 3 - k.evUsed)).any fun r => r.fin.any fun f => f.q == q

/-- A FENCE of a queue has ended and not finished yet: its records wait (R477). -/
def Ctx.fenceEnds (k : Ctx) (q : Nat) : Bool := (k.events ++ k.errors).any fun r => r.fin.any fun f => f.q == q && f.fence

/-- Operations in flight of a context, those of class COL among them. -/
def State.opsOfCtx (s : State) (e c : Nat) : Nat := ((s.opsOf e).filter fun o => o.2.ctx == c).length + s.collOps e (some c)

/-- Where a COLL sends its contributions: the unit of its group (R421). -/
def State.collDest (s : State) (d : Desc) : Nat := s.selfEp (4 * s.gUnit (bits (dDest d) 0 12))

/-- The next entry of a queue can start (R308): a slot, room under OPS_MAX, the shaper and the rate of its destination allow it. -/
def State.startable (s : State) (e : Nat) (k : Ctx) (q : Nat) : Bool := match (k.q q).cache with
  | [] => false
  | d :: _ =>
    let op := dOpcode d
    (k.q q).st == 1 && !k.faulted && (k.q q).fence.isNone && !(s.eng e).begun.any (fun b => b.ctx == k.num && b.q == q)
      && !k.evWaits q && !k.fenceEnds q && s.get F.TILE_PWR_CUR (tileOfEng e) == 0
      && (!(takesSlot op || op == 12) || (takesSlot op && s.legacyBad d) ||
        ((s.freeOpSlot e).isSome && (k.opsMax == 0 || decide (s.opsOfCtx e k.num < k.opsMax))
          && s.maySend e k.cls (if op = 12 then s.collDest d else dDest d) && (op != 4 || !dFlag d 8 || s.txRoom e k.num q d)))

/-- The queues that can start an entry, by rising context and queue. -/
def State.startQueues (s : State) (e : Nat) : List (Nat × Nat) :=
  (s.cached e).flatMap fun k => ((List.range 8).filter (s.startable e k)).map (k.num, ·)

/-- The queue that starts next: of the highest boost, the first after the one served last (R308, R547). -/
def State.nextQueue (s : State) (e : Nat) : Option (Nat × Nat) :=
  let l := s.startQueues e
  let top := (l.map fun p => s.boostOf e p.1).foldl max 0
  let l := l.filter fun p => s.boostOf e p.1 == top
  let r := (s.eng e).rr
  match l.find? fun p => decide (r.1 * 8 + r.2 < p.1 * 8 + p.2) with
  | some p => some p
  | none => l.head?

/-- The stream entry of an ordered SEND, made where there is none, with the SEND's SSEQ (R402). -/
def State.takeStream (s : State) (e c q : Nat) (d : Desc) : State × (Nat × Nat) :=
  let mine := fun (t : TxStream) => t.ctx == c && t.q == q && t.dest == dDest d && t.tctx == dTctx d
  let s := if (s.eng e).tx.any mine then s
    else
      let x := s.eng e
      let rx := if x.rx.length + x.tx.length < 16384 then x.rx else match x.rx.find? (s.rxIdle e) with
        | some y => x.rx.erase y
        | none => x.rx
      s.modEng e fun x => { x with rx := rx, tx := x.tx ++ [⟨c, q, dDest d, dTctx d, bits s.mtNs 12 16, 0, [], s.now⟩] }
  match (s.eng e).tx.find? mine with
  | some t =>
    (s.modEng e fun x => { x with tx := updWhere mine (fun t =>
      { t with next := (t.next + 1) % 2 ^ 16, inflight := t.inflight ++ [t.next], last := s.now }) x.tx }, (t.sid, t.next))
  | none => (s, (0, 0))

/-- TOTAL of an operation's packets. DEDUCED: log entry 111. -/
def opTotal (d : Desc) : Nat :=
  let op := dOpcode d
  if op = 7 then (if dFlag d 12 then 16 else 8) else if 9 ≤ op ∧ op ≤ 11 then 0 else dLen d

/-- An entry takes an operation slot (R308, R333). -/
def State.startOp (s : State) (e : Nat) (k : Ctx) (q idx : Nat) (d : Desc) : State :=
  let op := dOpcode d
  let ord := dFlag d 8 && (op == 1 || op == 2 || op == 4)
  let o : Op := { Op.new op k.num q idx d (dDest d) (dTctx d) (dSl d) (opTotal d) s.now with
    rmode := if bits (dw d 0) 19 2 = 1 then 1 else 0, ord := ord,
    rdv := op == 4 && !dFlag d 13 && decide (256 * s.get F.MAT_CTL_EAGER_MAX e < dLen d) }
  let (s, o) := if op = 4 ∧ ord then
    let (s, st) := s.takeStream e k.num q d
    (s, { o with stream := some st })
    else (s, o)
  match s.freeOpSlot e with
  | some slot => s.takeOpSlot e slot o
  | none => s

/-- An entry that ends before it does anything (R313, R756). -/
def State.badEntry (s : State) (e : Nat) (k : Ctx) (q idx : Nat) (d : Desc) (status : Nat) : State :=
  ((s.inc F.ENG_CNT_B_BAD_DESC e).endEntry e k.num q idx d { status := status })

/-- The next entry of a queue taken from the descriptor cache: OWN cleared, its checks made, its operation or command begun. DEDUCED: log entry 124. -/
def State.startEntry (s : State) (e : Nat) (k : Ctx) (q : Nat) (d : Desc) : State :=
  let idx := (k.q q).start
  let op := dOpcode d
  let s := s.modQ e k.num q fun w =>
    { w with start := (w.start + 1) % 2 ^ 32, cache := w.cache.drop 1, live := w.live ++ [idx] }
  let s := (s.modCtx e k.num fun x => { x with used := s.now }).modEng e fun x => { x with rr := (k.num, q) }
  let s := (s.count 18 e 0x40 1 (some k.num)).addJob e (.own k.num q idx (dCookie d))
  if badOpcode op then s.badEntry e k q idx d 6
  else if op = 0x10 ∧ !k.super then s.badEntry e k q idx d 7
  else if (takesSlot op ∨ (op = 8 ∧ dFlag d 11)) ∧ s.legacyBad d then
    s.endEntry e k.num q idx d { status := 1, detail := 11, peer := dDest d, pctx := dTctx d }
  else if takesSlot op then s.startOp e k q idx d
  else s.modEng e fun x => { x with begun := x.begun ++ [⟨k.num, q, idx, d⟩] }

/-- ENTRY_START (R308): engine `e` starts the next entry, of the queue whose turn it is. -/
def execEntryStart (e : Fin 32) (s : State) : Host.Outcome State Fault Refusal :=
  match s.nextQueue e with
  | none => .next s
  | some (c, q) => match s.ctx e c with
    | some k => match (k.q q).cache with
      | d :: _ => .next ((s.startEntry e k q d).rest e)
      | [] => .next s
    | none => .next s

/-- The begun entry of a queue with an opcode. -/
def State.begunEntry (s : State) (e c q op : Nat) : Option Begun :=
  (s.eng e).begun.find? fun b => b.ctx == c && b.q == q && dOpcode b.desc == op

/-- A begun entry taken. -/
def State.dropBegun (s : State) (e : Nat) (b : Begun) : State := s.modEng e fun x => { x with begun := x.begun.erase b }

/-- NOP (R311): a started NOP completes at once with SUCCESS. -/
def execNop (e : Fin 32) (c : Nat) (q : Fin 8) (s : State) : Host.Outcome State Fault Refusal :=
  match s.begunEntry e c q 0x0E with
  | some b => .next (((s.dropBegun e b).endEntry e c q b.idx b.desc { status := 0 }).rest e)
  | none => .next s

/-! ### Records (R315 to R321) -/

/-- COMPLETION_RECORD_WRITE (R318): a queue's completion record is due, at the end of the time that R318 bounds. DESIGN CHOICE: log entry 165. -/
def execCompletionRecordWrite (e : Fin 32) (c : Nat) (q : Fin 8) (s : State) : Host.Outcome State Fault Refusal :=
  match s.ctx e c with
  | some k =>
    let w := k.q q
    let due := w.compNow || (match w.compFrom with
      | some t => s.passed t (k.qCoal q)
      | none => false)
    if due then .next ((s.addJob e (.comp c q)).rest e) else .next s
  | none => .next s

/-- EVENT_RECORD_WRITE (R319): the oldest waiting event is written once the ring has room. -/
def execEventRecordWrite (e : Fin 32) (c : Nat) (s : State) : Host.Outcome State Fault Refusal :=
  match s.ctx e c with
  | some k => if k.evUsed < 2 ^ k.ringLog 3 then .next ((s.addJob e (.event c)).rest e) else .next s
  | none => .next s

/-- ERROR_RECORD_WRITE (R321): the oldest waiting error record is written, or is lost when the ring is full. -/
def execErrorRecordWrite (e : Fin 32) (c : Nat) (s : State) : Host.Outcome State Fault Refusal :=
  match s.ctx e c with
  | some k => if k.errUsed < 2 ^ k.ringLog 4 then .next ((s.addJob e (.error c)).rest e) else .next ((s.loseError e c).rest e)
  | none => .next s

end Sys2Proof.Machine
end

