-- ==== Sys2Proof/Machine/RmaCmd.lean ====
section
/-!
DEFINITION. Commands of remote memory access and of ordering (those chapters): the launch of operations, requests at the target,
responses and timers at the initiator, trackers, the duplicate filter, the caches, congestion control, and FENCE.
-/
namespace Sys2Proof.Machine
open Sys2Proof

/-! ### Launching operations (R334, R340, R367, R373, R394, R524) -/

/-- A started operation of a kind sends its packets: all of them as their allowances come, a GET its first segment. -/
def State.launch (s : State) (e slot kind : Nat) : State := match s.op e slot with
  | some o =>
    if o.kind = kind ∧ !o.begun ∧ o.held.isNone then
      let s := s.modOp e slot fun o => { o with begun := true, unsent := o.all 0 }
      if kind = 3 then s.issueSegment e slot else s.pump e slot
    else s.pump e slot
  | none => s

/-- PUT (R334): the operation in a slot issues its packets in ascending POFF; given again, it goes on with those that waited. -/
def execPut (e : Fin 32) (slot : Fin 2048) (s : State) : Host.Outcome State Fault Refusal := .next ((s.launch e slot 1).rest e)

/-- PUT_FLAG (R367): as PUT, the flag in the packet of the highest POFF. -/
def execPutFlag (e : Fin 32) (slot : Fin 2048) (s : State) : Host.Outcome State Fault Refusal := .next ((s.launch e slot 2).rest e)

/-- GET (R340): the operation starts and issues its first segment. -/
def execGet (e : Fin 32) (slot : Fin 2048) (s : State) : Host.Outcome State Fault Refusal := .next ((s.launch e slot 3).rest e)

/-- SEND (R394): SEND packets, or one RTS. -/
def execSend (e : Fin 32) (slot : Fin 2048) (s : State) : Host.Outcome State Fault Refusal := .next ((s.launch e slot 4).rest e)

/-- ATOMIC_ADD (R373). -/
def execAtomicAdd (e : Fin 32) (slot : Fin 2048) (s : State) : Host.Outcome State Fault Refusal := .next ((s.launch e slot 5).rest e)

/-- ATOMIC_FADD (R373). -/
def execAtomicFadd (e : Fin 32) (slot : Fin 2048) (s : State) : Host.Outcome State Fault Refusal := .next ((s.launch e slot 6).rest e)

/-- ATOMIC_CAS (R373): 64 bits, or 128 with WIDE. -/
def execAtomicCas (e : Fin 32) (slot : Fin 2048) (s : State) : Host.Outcome State Fault Refusal := .next ((s.launch e slot 7).rest e)

/-- LOCK_ACQ (R524): the request of a LOCK_ACQ entry. -/
def execLockAcq (e : Fin 32) (slot : Fin 2048) (s : State) : Host.Outcome State Fault Refusal := .next ((s.launch e slot 9).rest e)

/-- LOCK_REL (R524). -/
def execLockRel (e : Fin 32) (slot : Fin 2048) (s : State) : Host.Outcome State Fault Refusal := .next ((s.launch e slot 10).rest e)

/-- LOCK_RENEW (R524). -/
def execLockRenew (e : Fin 32) (slot : Fin 2048) (s : State) : Host.Outcome State Fault Refusal := .next ((s.launch e slot 11).rest e)

/-- GET_SEGMENT_ISSUE (R340): the next segment of a GET or of a pull, once its reservation fits within QUOTA. -/
def execGetSegmentIssue (e : Fin 32) (slot : Fin 2048) (s : State) : Host.Outcome State Fault Refusal :=
  .next (((s.issueSegment e slot).pump e slot).rest e)

/-! ### FENCE (R477 to R480) -/

/-- FENCE (R477): a started FENCE begins to wait for every earlier entry of its queue. -/
def execFence (e : Fin 32) (c : Nat) (q : Fin 8) (s : State) : Host.Outcome State Fault Refusal :=
  match s.begunEntry e c q 8 with
  | some b => .next ((s.dropBegun e b).modQ e c q fun w => { w with fence := some (b.idx, b.desc) })
  | none => .next s

/-- The FLUSH of a DURABLE FENCE is out. -/
def State.flushOut (s : State) (e c q : Nat) : Bool := (s.opsOf e).any fun o => o.2.kind == 0x20 && o.2.ctx == c && o.2.q == q

/-- FENCE_FINISH (R478, R479): every earlier entry has finished. A DURABLE FENCE sends its FLUSH once a slot is free; another ends. -/
def execFenceFinish (e : Fin 32) (c : Nat) (q : Fin 8) (s : State) : Host.Outcome State Fault Refusal :=
  match s.ctx e c with
  | some k => match (k.q q).fence with
    | some (idx, d) =>
      if (k.q q).live.head? ≠ some idx then .next s
      else if dFlag d 11 then
        if s.flushOut e c q then .next s
        else match s.freeOpSlot e with
          | some slot =>
            let o := Op.new 0x20 c q idx d (dDest d) (dTctx d) (dSl d) 0 s.now
            .next (((s.takeOpSlot e slot o).launch e slot 0x20).rest e)
          | none => .next s
      else .next ((s.fenceEnd e c q idx d { status := 0 }).rest e)
    | none => .next s
  | none => .next s

/-! ### Requests at the target (R343 to R347, R365, R370, R479) -/

/-- PUT_PACKET_RX (R347): a PUT or PUT_FLAG packet checked, performed, counted and acknowledged. -/
def execPutPacketRx (e : Fin 32) (q : Packet) (s : State) : Host.Outcome State Fault Refusal :=
  match s.arrived e q 0 [1, 2] with
  | (s, true) => .next ((s.addJob e (.req q)).rest e)
  | (s, false) => .next (s.rest e)

/-- GET_REQ_RX (R370): host memory is read and returned as GET_DATA. -/
def execGetReqRx (e : Fin 32) (q : Packet) (s : State) : Host.Outcome State Fault Refusal :=
  match s.arrived e q 0 [3] with
  | (s, true) => .next ((s.addJob e (.req q)).rest e)
  | (s, false) => .next (s.rest e)

/-- ATOMIC_REQUEST_RX (R365): an atomic meets the duplicate filter; a new one is performed or refused. -/
def execAtomicRequestRx (e : Fin 32) (q : Packet) (s : State) : Host.Outcome State Fault Refusal :=
  match s.arrived e q 0 [5, 6, 7] with
  | (s, true) => match s.dupLookup e q with
    | (s, .new) => .next (((s.dupPend e q).addJob e (.req q)).rest e)
    | (s, _) => .next (s.rest e)
  | (s, false) => .next (s.rest e)

/-- FLUSH_RX (R479): a FLUSH issues a flushing read on the port of its context. -/
def execFlushRx (e : Fin 32) (q : Packet) (s : State) : Host.Outcome State Fault Refusal :=
  match s.arrived e q 0 [0x20] with
  | (s, true) => match s.ctx e (pTctx q) with
    | some k => .next ((s.flushRead e k 0 false (.ack q)).rest e)
    | none => .next s
  | (s, false) => .next (s.rest e)

/-! ### Completions of host requests -/

/-- FLUSH_READ_COMPLETE (R475): the ACK or the flag follows, or a refusal. -/
def execFlushReadComplete (e : Fin 32) (tag : Nat) (ok : Bool) (s : State) : Host.Outcome State Fault Refusal :=
  .next (s.completion e tag (fun w => match w with
    | .flush _ => true
    | _ => false) ok [])

/-- ATOMICOP_COMPLETION (R374): a PCIe AtomicOp has returned the value before it. -/
def execAtomicopCompletion (e : Fin 32) (tag : Nat) (ok : Bool) (data : List Byte) (s : State) : Host.Outcome State Fault Refusal :=
  .next (s.completion e tag (fun w => match w with
    | .atomicOp _ => true
    | _ => false) ok data)

/-- HOST_READ_COMPLETION (R481): the read of payload, GET data, a region entry, a line, a source vector or a pool slot returns. -/
def execHostReadCompletion (e : Fin 32) (tag : Nat) (ok : Bool) (data : List Byte) (s : State) : Host.Outcome State Fault Refusal :=
  .next (s.completion e tag (fun w => match w with
    | .payload _ _ _ => true
    | .getTgt _ => true
    | .region _ _ => true
    | .line _ _ _ _ => true
    | .coll _ _ _ _ => true
    | .pool _ _ _ => true
    | .rdv _ => true
    | _ => false) ok data)

/-! ### Responses at the initiator (R344, R353, R354, R358, R371, R376) -/

/-- A response taken, with the operation it names, marked by TU = 1 (R362); a late one is discarded (R483). -/
def State.response (s : State) (e : Nat) (q : Packet) (kind : Nat) : State × Option (Nat × Op) :=
  match s.arrived e q 1 [kind] with
  | (s, true) => match s.respOp e q with
    | some (slot, o) => (s.markTu e slot q, some (slot, { o with tu := o.tu || q.tu }))
    | none => (s.late e, none)
  | (s, false) => (s, none)

/-- PKTS and MARKS of an ACK or SACK. -/
def pPkts (q : Packet) : Nat := bits q.w5 0 32
def pMarks (q : Packet) : Nat := bits q.w5 32 32
/-- CODE, and POFF of the refused packet, of a NACK. -/
def pCode (q : Packet) : Nat := bits q.w5 0 8
def pNackPoff (q : Packet) : Nat := bits q.w5 32 32

/-- Kinds of operation that an ACK completes. -/
def ackEnds (kind : Nat) : Bool := kind == 1 || kind == 2 || (4 ≤ kind && kind ≤ 7) || kind == 0x20

/-- ACK_RX (R358): an ACK of any attempt ends its operation, subject to the completion hold. DEDUCED: log entry 110. -/
def execAckRx (e : Fin 32) (q : Packet) (s : State) : Host.Outcome State Fault Refusal :=
  match s.response e q 0x40 with
  | (s, some (slot, o)) =>
    if o.held.isSome || !ackEnds o.kind then .next (s.rest e)
    else
      let v := if o.kind = 6 then q.w6 % 2 ^ 64 else if o.kind = 7 then q.w6 % 2 ^ 64 + q.w7 % 2 ^ 64 * 2 ^ 64 else 0
      .next (((s.gather e o.dest (pPkts q) (pMarks q)).endOp e slot { status := 0, info := v }).rest e)
  | (s, none) => .next (s.rest e)

/-- The ranges that a SACK names. -/
def sackRanges (q : Packet) : List (Nat × Nat) :=
  ((wordsOfBytes 8 q.data).map fun w => (bits w 0 32, bits w 32 32)).filter (·.2 != 0)

/-- A hole-driven resend may leave: none has within the last TIMEOUT (R353). -/
def State.holeOpen (s : State) (e : Nat) (o : Op) : Bool := match o.holeAt with
  | some t => s.past t (s.tR e o.dest o.tu)
  | none => true

/-- SACK_RX (R353): the ranges named are sent again in the same attempt. -/
def execSackRx (e : Fin 32) (q : Packet) (s : State) : Host.Outcome State Fault Refusal :=
  match s.response e q 0x41 with
  | (s, some (slot, o)) =>
    if o.held.isSome || pAttempt q != o.attempt || !(o.kind == 1 || o.kind == 2 || (o.kind == 4 && !o.rdv)) then .next (s.rest e)
    else
      let s := s.gather e o.dest (pPkts q) (pMarks q)
      if !s.holeOpen e o then .next (s.rest e)
      else
        let l := (pieces 0 o.total 2).filter fun g => (sackRanges q).any fun r => decide (r.1 ≤ g.poff ∧ g.poff < r.1 + r.2)
        let l := s.unasked e slot o l
        let s := s.modOp e slot fun o => { o with timer := some s.now }
        .next (((s.queueSegs e slot l).pump e slot).rest e)
  | (s, none) => .next (s.rest e)

/-- The wait after the `n`-th NACK_BUSY: random in [b, 2b), at most TIMEOUT (R354); in time units. -/
def State.busyWait (s : State) (e n : Nat) (o : Op) : Nat :=
  let b := ns (64 * s.get F.RMA_BUSY_BASE e * 2 ^ (n - 1))
  min (b + s.peek % max 1 b) (ns (s.tR e o.dest o.tu))

/-- NACK_BUSY_RX (R354, R355): the refused packet waits and is sent again; too many answers end the operation. -/
def execNackBusyRx (e : Fin 32) (q : Packet) (s : State) : Host.Outcome State Fault Refusal :=
  match s.response e q 0x42 with
  | (s, some (slot, o)) =>
    let s := s.count 21 e 0x44
    if o.held.isSome || pAttempt q != o.attempt then .next (s.rest e)
    else
      let n := o.busyN + 1
      let s := s.modOp e slot fun o => { o with busyN := n }
      if s.get F.RMA_BUSY_MAX_TRIES e ≤ n then .next ((s.exhaust e slot).rest e)
      else
        let t := s.now + s.busyWait e n o
        .next ((s.drawn.modOp e slot fun o => { o with backoff := o.backoff ++ [(pNackPoff q, t)] }).rest e)
  | (s, none) => .next (s.rest e)

/-- The packet of an operation at a payload offset, to be sent again: of a GET, the request last sent from there (R354). -/
def Op.pieceAt (o : Op) (poff : Nat) : List Seg :=
  if o.kind = 3 ∨ o.kind = 0x109 then (o.asked.filter (·.1 == poff)).map fun r => ⟨r.1, r.2, 3⟩
  else (o.all 3).filter (·.poff == poff)

/-- BUSY_BACKOFF_EXPIRY (R354): the wait of the packet at an offset is over; it is sent again in the same attempt. -/
def execBusyBackoffExpiry (e : Fin 32) (slot : Fin 2048) (poff : Nat) (s : State) : Host.Outcome State Fault Refusal :=
  match s.op e slot with
  | some o =>
    if o.backoff.any fun b => b.1 == poff && decide (b.2 ≤ s.now) then
      let s := s.modOp e slot fun o => { o with backoff := o.backoff.filter fun b => !(b.1 == poff && decide (b.2 ≤ s.now)) }
      let o := (s.op e slot).getD o
      .next (((s.queueSegs e slot (s.unasked e slot o (o.pieceAt poff))).pump e slot).rest e)
    else .next s
  | none => .next s

/-- NACK_ACCESS_RX (R344): the first of the current attempt ends the operation. -/
def execNackAccessRx (e : Fin 32) (q : Packet) (s : State) : Host.Outcome State Fault Refusal :=
  match s.response e q 0x43 with
  | (s, some (slot, o)) =>
    if o.held.isSome || pAttempt q != o.attempt then .next (s.rest e)
    else
      .next ((s.endOp e slot { status := 1, detail := pCode q, addr := dw o.desc 2 + pNackPoff q }).rest e)
  | (s, none) => .next (s.rest e)

/-- A packet discarded as stale at the initiator (R371). -/
def State.stale (s : State) (e : Nat) : State := (s.inc F.RMA_CNT_C_STALE e).count 21 e 0x4A

/-- GET_DATA_RX (R371): data of the current attempt, not yet arrived, are placed; others are discarded. -/
def execGetDataRx (e : Fin 32) (q : Packet) (s : State) : Host.Outcome State Fault Refusal :=
  match s.response e q 0x44 with
  | (s, some (slot, o)) =>
    let mine := fun (g : GetSeg) => decide (g.poff ≤ pPoff q ∧ pPoff q < g.poff + g.len)
    if o.held.isSome || !(o.kind == 3 || o.kind == 0x109) then .next (s.rest e)
    else if pAttempt q != o.attempt || !o.segs.any (fun g => mine g && !g.got.contains (pPoff q)) then .next ((s.stale e).rest e)
    else
      let s := (s.gather e o.dest 1 (b2n q.ce)).modOp e slot fun o => { o with
        segs := updWhere mine (fun g => { g with got := g.got ++ [pPoff q], last := s.now }) o.segs, timer := some s.now }
      .next ((s.addJob e (.getData slot o.gen q)).rest e)
  | (s, none) => .next (s.rest e)

/-! ### Timers (R349, R352, R355, R356, R365, R372) -/

/-- The hole timer of a tracker has run out: a SACK where bytes below HIGH are missing; a second time in a row, the tracker goes. -/
def State.trackerTimeout (s : State) (e : Nat) (t : Tracker) : State :=
  if !s.past t.timer (s.tHole e t.src t.tu) then s
  else if t.closing then s
  else if t.ran then (s.dropTracker e t.src t.opid).dupClose e t.src t.opid
  else
    let s := s.modTracker e t.src t.opid fun t => { t with ran := true, timer := s.now }
    if t.holes.isEmpty then s else s.sack e t

/-- The hole time of a GET's segments: missing packets below the highest arrival are asked for again (R372), once 17 cells for each fit within
QUOTA (R340). DEDUCED: log entry 95. -/
def State.getTimeout (s : State) (e slot : Nat) (o : Op) : State :=
  let due := fun (g : GetSeg) => !g.got.isEmpty && decide (0 < g.open_) && s.past g.last (s.tHole e o.dest o.tu)
  let l := s.unasked e slot o ((o.segs.filter due).flatMap GetSeg.holes)
  if o.held.isSome || l.isEmpty || !s.holeOpen e o || decide (s.get F.RMA_STG_QUOTA e < s.stgUsed e + 17 * l.length) then s
  else
    let s := s.modOp e slot fun o => { o with segs := updWhere due (fun g =>
      { g with last := s.now, again := g.again ++ (l.filter fun x => decide (g.poff ≤ x.poff ∧ x.poff < g.poff + g.len)).map Seg.poff }) o.segs }
    (s.queueSegs e slot l).pump e slot

/-- HOLE_TIMEOUT (R349, R372): the hole timer of the tracker of (SRC, OPID), or, for a GET, of the operation with this OPID. -/
def execHoleTimeout (e : Fin 32) (get : Bool) (src opid : Nat) (s : State) : Host.Outcome State Fault Refusal :=
  if get then
    match s.opGen e (opid % 2048) (opid / 2048) with
    | some o => if o.kind = 3 ∨ o.kind = 0x109 then .next ((s.getTimeout e (opid % 2048) o).rest e) else .next s
    | none => .next s
  else match s.tracker e src opid with
    | some t => .next ((s.trackerTimeout e t).rest e)
    | none => .next s

/-- RETRY_TIMEOUT (R352, R355, R400): the retry timer has run for TIMEOUT: a new attempt, or the end. -/
def execRetryTimeout (e : Fin 32) (slot : Fin 2048) (s : State) : Host.Outcome State Fault Refusal :=
  match s.op e slot with
  | some o => match o.timer with
    | some t =>
      if o.held.isSome || !s.past t (s.tR e o.dest o.tu) then .next s
      else if s.get F.RMA_RTX_MAX_RETRY e + b2n o.probe ≤ o.tries then .next ((s.exhaust e slot).rest e)
      else .next ((s.newAttempt e slot).rest e)
    | none => .next s
  | none => .next s

/-- COMPLETION_HOLD_END (R356): A_Q + D have passed since the last send of an operation that has its outcome. -/
def execCompletionHoldEnd (e : Fin 32) (slot : Fin 2048) (s : State) : Host.Outcome State Fault Refusal :=
  match s.op e slot with
  | some o => match o.held with
    | some x => if s.holdOver e slot o then .next ((s.conclude e slot o x).rest e) else .next s
    | none => .next s
  | none => .next s

/-- The message of a SEND whose PENDING entry has expired is forgotten while its data are not whole. -/
def State.forgetPending (s : State) (e src opid : Nat) : State :=
  let gone := (s.eng e).known.filter fun k => k.msg.src == src && k.msg.opid == opid && !k.msg.rdv && !k.whole
  s.each gone fun s k => (s.placing e k.msg).forgetMsg e k.msg

/-- Pulls that waited for a filter entry answer (R398). -/
def State.pullsWaiting (s : State) (e : Nat) : State :=
  s.each ((s.eng e).known.filter (·.st == 5)) fun s k => if s.dupRoom (unitOf e) then s.pullAck e k.msg else s

/-- DUP_EXPIRY (R365, R401): an entry has reached its expiry and is freed; a PENDING entry stays while its tracker is open. -/
def execDupExpiry (u : Fin 8) (src opid : Nat) (s : State) : Host.Outcome State Fault Refusal :=
  match s.dupFind u src opid with
  | some d =>
    let es := (List.range 4).map (4 * u.val + ·)
    if d.expiry ≤ s.now ∧ (d.done ∨ !es.any fun e => (s.tracker e src opid).isSome) then
      let s := s.modUnit u fun x => { x with dup := x.dup.erase d }
      let s := if d.done then s else s.each es fun s e => s.forgetPending e src opid
      .next (s.each es fun s e => (s.pullsWaiting e).rest e)
    else .next s
  | none => .next s

/-! ### The caches (R342, R375) -/

/-- A region entry on its way is read anew. -/
def State.rereadRegions (s : State) (e : Nat) (p : Nat → Nat → Bool) : State :=
  s.each s.reqs fun s r => match r.why with
    | .region c n =>
      if r.eng = e ∧ p c n ∧ !r.ended then match s.ctx e c with
        | some k => (s.dropReqTag r.tag).request e k.port k.func (.region c n) fun tag =>
            .hostRead tag k.port k.func [((bits (k.w 2) 12 52 * 4096 + 32 * n) % 2 ^ 64, 32, false)]
        | none => s
      else s
    | _ => s

/-- REG_INVAL (R342): a write to RMA_REG_INVAL; with GO the named region, context or all entries leave the region cache. -/
def execRegInval (e : Fin 32) (v : Nat) (s : State) : Host.Outcome State Fault Refusal :=
  let c := bits v 0 20
  let r := bits v 20 20
  let scope := bits v 40 2
  let s := ((s.set F.RMA_REG_INVAL_CTX c e).set F.RMA_REG_INVAL_REGION r e).set F.RMA_REG_INVAL_SCOPE scope e
  let hit := fun (a b : Nat) => if scope = 0 then a == c && b == r else if scope = 1 then a == c else scope == 2
  if bit v 48 then
    .next (((s.modEng e fun x => { x with regions := x.regions.filter fun y => !hit y.ctx y.reg }).rereadRegions e hit).rest e)
  else .next s

/-- ACACHE_FLUSH (R375): a write to RMA_ACACHE; with FLUSH the lines of a context, or all, are written back and invalidated. -/
def execAcacheFlush (e : Fin 32) (v : Nat) (s : State) : Host.Outcome State Fault Refusal :=
  let s := (s.set F.RMA_ACACHE_CTX (bits v 0 20) e).set F.RMA_ACACHE_ALL (bits v 20 1) e
  if bit v 48 then .next (s.writeBackLines e fun l => bit v 20 || l.users.any (·.1 == bits v 0 20)) else .next s

/-! ### Congestion control (R378, R379) -/

/-- Key of the rate increase of an engine in `State.marks`. -/
def markRate (e : Nat) : Nat := 8000 + e

/-- RATE_INCREASE (R379): every INC_PERIOD, a duration on elapsed MT, each entry without a decrease in it rises by STEP; at LINE it is
freed (R377). -/
def execRateIncrease (e : Fin 32) (s : State) : Host.Outcome State Fault Refusal :=
  if s.past (Tab.get s.clk.base s.marks (markRate e)) (64 * s.get F.RMA_CC_INC_PERIOD e) then
    let line := s.get F.RMA_CC_RATE_LINE e
    let up := fun (x : CC) => if x.dec then { x with dec := false } else { x with rate := min line (x.rate + s.get F.RMA_CC_RATE_STEP e) }
    let t := s.clk.base + (s.now - s.clk.base) / ns 64 * ns 64
    .next (State.modEng { s with marks := s.marks.insert (markRate e) t } e fun y => { y with cc := (y.cc.map up).filter fun x => x.rate < line })
  else .next s

/-- DEC_GAP_EXPIRY (R378): DEC_GAP after the last decrease, with marks gathered, the rate of a destination is lowered. -/
def execDecGapExpiry (e : Fin 32) (dest : Nat) (s : State) : Host.Outcome State Fault Refusal :=
  if s.decOpen e (s.gathered e dest) then .next (s.decrease e dest (s.gathered e dest)) else .next s

end Sys2Proof.Machine
end

