-- ==== Sys2Proof/Machine/MatchCmd.lean ====
section
/-!
DEFINITION. Commands of message matching (that chapter): receives, SEND and RTS arrivals, the rendezvous, and the expiry of
stream entries.
-/
namespace Sys2Proof.Machine
open Sys2Proof

/-! ### RECV_POST (R387, R388, R392, R407, R410, R411) -/

/-- The begun RECV_POST of a queue with a MODE. -/
def State.recvEntry (s : State) (e c q mode : Nat) : Option Begun := match s.begunEntry e c q 0x0D with
  | some b => if dImm b.desc = mode then some b else none
  | none => none

/-- A MODE 0 post would hand itself over and the event ring is full (R407). -/
def State.postWaits (s : State) (e : Nat) (k : Ctx) (d : Desc) : Bool :=
  let p : Posted := ⟨k.num, dw d 6, dw d 2, dDest d, bufOf 0 0 d⟩
  k.evFull && (k.ovf || (s.postedFull e k).isSome) && !(s.eng e).known.any (fun x => x.st == 1 && p.takes x.msg)

/-- RECV_POST (R392): a MODE 0 entry takes the first matching unexpected entry or joins the posted list; in overflow it is handed to
software, once the event ring has room. -/
def execRecvPost (e : Fin 32) (c : Nat) (q : Fin 8) (s : State) : Host.Outcome State Fault Refusal :=
  match s.recvEntry e c q 0, s.ctx e c with
  | some b, some k =>
    if s.postWaits e k b.desc then .next s
    else
      .next (((s.dropBegun e b).post0 e k q b.idx b.desc).rest e)
  | _, _ => .next s

/-- RECV_CLAIM (R410): a MODE 1 entry binds a handed-over message to its buffer. -/
def execRecvClaim (e : Fin 32) (c : Nat) (q : Fin 8) (s : State) : Host.Outcome State Fault Refusal :=
  match s.recvEntry e c q 1, s.ctx e c with
  | some b, some k =>
    let s := (s.dropBegun e b).endEntry e c q b.idx b.desc { status := 0 }
    .next ((s.claim1 e k q b.idx b.desc).rest e)
  | _, _ => .next s

/-- RECV_RESUME (R411): a MODE 2 entry clears OVF. -/
def execRecvResume (e : Fin 32) (c : Nat) (q : Fin 8) (s : State) : Host.Outcome State Fault Refusal :=
  match s.recvEntry e c q 2 with
  | some b =>
    let s := (s.dropBegun e b).endEntry e c q b.idx b.desc { status := 0 }
    .next ((s.modCtx e c fun k => { k with ovf := false }).rest e)
  | none => .next s

/-! ### Arrivals (R395, R399 to R401) -/

/-- SEND_PACKET_RX (R401). -/
def execSendPacketRx (e : Fin 32) (q : Packet) (s : State) : Host.Outcome State Fault Refusal :=
  match s.arrived e q 0 [4] with
  | (s, true) => match s.ctx e (pTctx q) with
    | some k => .next ((s.sendRx e k q).rest e)
    | none => .next s
  | (s, false) => .next (s.rest e)

/-- RTS_RX (R401). -/
def execRtsRx (e : Fin 32) (q : Packet) (s : State) : Host.Outcome State Fault Refusal :=
  match s.arrived e q 0 [8] with
  | (s, true) => match s.ctx e (pTctx q) with
    | some k => .next ((s.sendRx e k q).rest e)
    | none => .next s
  | (s, false) => .next (s.rest e)

/-- RDV_GET_RX (R399): the data of a live rendezvous SEND return as GET_DATA; another is refused with CODE 8. -/
def execRdvGetRx (e : Fin 32) (q : Packet) (s : State) : Host.Outcome State Fault Refusal :=
  match s.arrived e q 0 [9] with
  | (s, true) => .next ((s.addJob e (.rdv q)).rest e)
  | (s, false) => .next (s.rest e)

/-- RDV_ACCEPT_RX (R397, R400): the SEND goes on as a rendezvous, and its attempts are probes. -/
def execRdvAcceptRx (e : Fin 32) (q : Packet) (s : State) : Host.Outcome State Fault Refusal :=
  match s.response e q 0x45 with
  | (s, some (slot, o)) =>
    if o.held.isSome || o.kind != 4 then .next (s.rest e)
    else
      .next ((s.modOp e slot fun o =>
        { o with rdv := true, probe := true, tries := 0, unsent := [], buf := none, backoff := [] }).rest e)
  | (s, none) => .next (s.rest e)

/-! ### Streams (R402 to R404) -/

/-- GAP_WINDOW_EXPIRY (R404): a held message of the stream (SRC, SCTX, SQUEUE, TCTX) has waited WINDOW: EXPECT moves to the lowest
held SSEQ, and the run from there is released with ORD_SKIP. -/
def execGapWindowExpiry (e : Fin 32) (src sctx sq tctx : Nat) (s : State) : Host.Outcome State Fault Refusal :=
  let m : Msg := ⟨tctx, src, sctx, 0, 0, 0, 0, false, false⟩
  match (s.eng e).rx.find? (fun t => t.is m sq) with
  | none => .next s
  | some t =>
    let l := s.heldOf e m sq
    if l.any (fun k => s.past k.at_ (s.tWindow e t.tu)) then
      match lowestFrom t.expect l with
      | some k =>
        let s := ((s.inc F.MAT_CNT_C_GAP_SKIP e).raise E.MAT_GAP_SKIP e).count 22 e 0x46
        let s := s.modRx e m sq fun t => { t with expect := k.sseq }
        .next ((s.releaseRun e m sq true (l.length + 1)).rest e)
      | none => .next s
    else .next s

/-- STREAM_ENTRY_EXPIRY (R402): a send-side entry without an operation in flight for WINDOW since its last send is freed. -/
def execStreamEntryExpiry (e : Fin 32) (c : Nat) (q : Fin 8) (dest tctx : Nat) (s : State) : Host.Outcome State Fault Refusal :=
  let gone := fun (t : TxStream) => t.ctx == c && t.q == q.val && t.dest == dest && t.tctx == tctx && t.inflight.isEmpty
    && s.past t.last (s.tWindow e false)
  .next (s.modEng e fun x => { x with tx := x.tx.filter fun t => !gone t })

end Sys2Proof.Machine
end

