-- ==== Sys2Proof/Machine/CollCmd.lean ====
section
/-!
DEFINITION. Commands of the Constellations (that chapter): the commands of a collective unit, the COLL entry, group packets,
prune notices and time-outs.
-/
namespace Sys2Proof.Machine
open Sys2Proof

/-! ### COL_CMD (R431, R432) -/

/-- The fields of COL_CMD written; a command of R431 disturbs a COMMIT (R700). -/
def State.setColCmd (s : State) (u op g seq : Nat) : State :=
  (((s.almTouch).set F.COL_CMD_OP op u).set F.COL_CMD_GROUP g u).set F.COL_CMD_SEQ seq u

/-- Why RELEASE or RESET fails; 0 where it does not. -/
def State.releaseErr (s : State) (u g : Nat) : Nat := if s.gUnit g ≠ u then 3 else if !s.gValid g then 4 else 0

/-- SETUP (R431): entry `g` checked, its slots reserved, VALID set. -/
def execSetup (u : Fin 8) (g : Fin 4096) (seq : Nat) (s : State) : Host.Outcome State Fault Refusal :=
  let s := s.setColCmd u 1 g seq
  let c := s.setupErr u g
  if c = 0 then .next ((s.setupGroup u g (seq % 2 ^ 16)).colErr u 0) else .next (s.colErr u c)

/-- RELEASE (R431): chunks discarded, the reservation freed, VALID cleared. -/
def execRelease (u : Fin 8) (g : Fin 4096) (s : State) : Host.Outcome State Fault Refusal :=
  let s := s.setColCmd u 2 g (s.get F.COL_CMD_SEQ u)
  let c := s.releaseErr u g
  if c = 0 then .next ((s.releaseGroup u g).colErr u 0) else .next (s.colErr u c)

/-- RESET (R431): RELEASE, then SETUP, with the same reservation. -/
def execReset (u : Fin 8) (g : Fin 4096) (seq : Nat) (s : State) : Host.Outcome State Fault Refusal :=
  let s := s.setColCmd u 3 g seq
  let c := s.releaseErr u g
  if c = 0 then .next (((s.releaseGroup u g).setupGroup u g (seq % 2 ^ 16)).colErr u 0) else .next (s.colErr u c)

/-! ### The COLL entry (R433, R434, R438, R444) -/

/-- A COLL in progress from its descriptor. -/
def State.newColl (s : State) (b : Begun) : Coll :=
  let d := b.desc
  let g := bits (dDest d) 0 12
  let elems := if s.gOp g = 0 then 0 else dLen d / elemSize (s.gType g)
  { ctx := b.ctx, q := b.q, idx := b.idx, desc := d, g := g, slot := bits (dw d 1) 0 6, seq := bits (dw d 4) 32 16, elems := elems,
    per := s.perChunk g, chunks := s.chunkCount g elems, next := 0, resend := [], rd := none, seen := [], got := [], status := 0, fbits := 0,
    prune := 0, last := s.now, begun := true }

/-- COLL (R434): a started COLL is checked, and sends the chunks that its window allows. Given again for a COLL in progress, it sends
what waited. -/
def execColl (e : Fin 32) (c : Nat) (q : Fin 8) (s : State) : Host.Outcome State Fault Refusal :=
  match s.begunEntry e c q 0x0C with
  | some b =>
    let s := s.dropBegun e b
    if s.collRefused e c b.desc then
      .next ((s.endEntry e c q b.idx b.desc { status := 1, peer := dDest b.desc }).rest e)
    else .next (((s.modEng e fun x => { x with colls := x.colls ++ [s.newColl b] }).collPump e c q b.idx).rest e)
  | none => .next ((s.each ((s.collsOf e c q).map (·.idx)) fun s i => s.collPump e c q i).rest e)

/-! ### Group packets (R423, R424, R439 to R445, R454, R459) -/

/-- IN_PORT of a packet handed to an engine. -/
def State.handedPort (s : State) (e : Nat) (q : Packet) : Nat :=
  match s.handRec e q with
  | some r => r.inPort
  | none => 0x3FF

/-- A COL packet of a kind has been handed to an engine. -/
def State.colHanded (s : State) (e : Nat) (q : Packet) (kind : Nat) : Bool := s.handed e q && q.cls == 2 && pKind q == kind

/-- The domain of a unit is fenced: it handles no packet (R456). -/
def State.unitOut (s : State) (u : Nat) : Bool := s.flt.hioFence.contains (u / 2)

/-- CONTRIB_RX (R439): a CONTRIB handed to the delivery engine of unit `u`. -/
def execContribRx (u : Fin 8) (q : Packet) (s : State) : Host.Outcome State Fault Refusal :=
  if s.colHanded (4 * u.val) q 0x10 then
    let p := s.handedPort (4 * u.val) q
    let s := s.unhand (4 * u.val) q
    if s.unitOut u then .next s else .next (s.contrib u p q)
  else .next s

/-- RESULT_RX (R443, R445): a RESULT handed to engine `e`; a delivery engine gives its unit a copy. -/
def execResultRx (e : Fin 32) (q : Packet) (s : State) : Host.Outcome State Fault Refusal :=
  if s.colHanded e q 0x11 then
    let s := s.unhand e q
    let u := unitOf e
    let s := if e.val % 4 = 0 ∧ !s.unitOut u then (s.count 17 u 0x43).resultAtUnit u q else s
    .next ((s.resultAtEngine e q).rest e)
  else .next s

/-- REISSUE_RX (R423, R459): a REISSUE handed to engine `e`; a delivery engine gives its unit a copy. -/
def execReissueRx (e : Fin 32) (q : Packet) (s : State) : Host.Outcome State Fault Refusal :=
  if s.colHanded e q 0x12 then
    let s := s.unhand e q
    let u := unitOf e
    let s := if e.val % 4 = 0 ∧ !s.unitOut u then s.reissueAtUnit u q else s
    .next ((s.reissueAtEngine e q).rest e)
  else .next s

/-- FENCED_RX (R454): a FENCED packet handed to the delivery engine of unit `u`. -/
def execFencedRx (u : Fin 8) (q : Packet) (s : State) : Host.Outcome State Fault Refusal :=
  if s.colHanded (4 * u.val) q 0x13 then
    let s := s.unhand (4 * u.val) q
    if s.unitOut u then .next s else .next (s.fencedRx u q)
  else .next s

/-- PRUNE_NOTICE (R453): the oldest prune notice on its way to unit `u` is applied. -/
def execPruneNotice (u : Fin 8) (s : State) : Host.Outcome State Fault Refusal :=
  match takeFirst (fun n => n.1 == u.val) s.core.prunes with
  | some ((_, g, m, out), rest) =>
    let s := { s with core := { s.core with prunes := rest } }
    if s.unitOut u then .next s else .next (s.pruned u g m out)
  | none => .next s

/-! ### Time-outs (R458, R460, R461) -/

/-- COL_TIMEOUT (R458, R460): the sequence timer of the root of group `g` has run for TIMEOUT. -/
def execColTimeout (u : Fin 8) (g : Fin 4096) (s : State) : Host.Outcome State Fault Refusal :=
  match s.seqOf u g with
  | some x =>
    if !s.unitOut u && s.gRoot g && s.past x.timer (64 * s.get F.COL_CTL_TIMEOUT u) then .next (s.seqTimeout u g x) else .next s
  | none => .next s

/-- COLL_WAIT_TIMEOUT (R461): the first COLL of a queue that has received no RESULT for TIMEOUT × (RETRY + 2). -/
def execCollWaitTimeout (e : Fin 32) (c : Nat) (q : Fin 8) (s : State) : Host.Outcome State Fault Refusal :=
  let late := fun (x : Coll) => s.past x.last (64 * s.get F.COL_CTL_TIMEOUT (s.gUnit x.g) * (s.get F.COL_CTL_RETRY (s.gUnit x.g) + 2))
  match (s.collsOf e c q).find? late with
  | some x => .next ((s.collEnd e x 2 0 0).rest e)
  | none => .next s

end Sys2Proof.Machine
end

