-- ==== Sys2Proof/Machine/XltCmd.lean ====
section
/-!
DEFINITION. Commands of address translation (that chapter): the returns of table reads and of A/D updates, and invalidation.
-/
namespace Sys2Proof.Machine
open Sys2Proof

/-- WALK_READ_RETURN (R499): a table entry read has returned, or failed (R501). -/
def execWalkReadReturn (e : Fin 32) (tag : Nat) (ok : Bool) (entry : Nat) (s : State) : Host.Outcome State Fault Refusal :=
  .next (s.completion e tag (fun w => match w with
    | .walk _ _ => true
    | _ => false) ok (leBytes 8 entry))

/-- AD_CAS_RETURN (R505): the CAS of an A/D update has returned the entry before it, or failed. -/
def execAdCasReturn (e : Fin 32) (tag : Nat) (ok : Bool) (entry : Nat) (s : State) : Host.Outcome State Fault Refusal :=
  .next (s.completion e tag (fun w => match w with
    | .cas _ _ => true
    | _ => false) ok (leBytes 8 entry))

/-! ### Invalidation (R513 to R516) -/

/-- The scope of an invalidation at one engine: translations go, with the lines that the atomic cache holds by them, walks start again, and
with REG the region entries go too. DEDUCED: log entry 108. -/
def State.invalidate (s : State) (e : Nat) (p : Nat → Bool) (range : Option (Nat × Nat)) (reg : Bool) : State :=
  let s := (s.writeBackLines e fun l => l.users.any fun x => p x.1).xltDrop e p range
  if reg then (s.modEng e fun x => { x with regions := x.regions.filter fun y => !p y.ctx }).rereadRegions e (fun c _ => p c) else s

/-- The TLPs held of the functions whose contexts at engine `e` meet `p`. -/
def State.heldIn (s : State) (e : Nat) (p : Nat → Bool) : List (Nat × Nat × Output) :=
  s.parked.filter fun x => (s.cached e).any fun c => p c.num && c.port == x.1 && c.func == x.2.1

/-- The range of SCOPE 0; LENGTH 0 stands for one page of 4 KiB. -/
def invalRange (scope va len : Nat) : Option (Nat × Nat) :=
  if scope = 0 then some (va / 4096 * 4096, if len = 0 then 4096 else len) else none

/-- XLT_INVAL (R513): a supervisor's entry, performed on the 8 engines of its host I/O die for the contexts of its own function;
it finishes once the walks in flight have ended or been started again. -/
def execXltInval (e : Fin 32) (c : Nat) (q : Fin 8) (s : State) : Host.Outcome State Fault Refusal :=
  match s.begunEntry e c q 0x10, s.ctx e c with
  | some b, some k =>
    let d := b.desc
    let scope := bits (dw d 1) 20 2
    let es := (List.range 8).map (8 * dieOfEng e + ·)
    let mine := fun (f x : Nat) => (match s.ctx f x with
      | some y => y.port == k.port && y.func == k.func
      | none => false) && (scope == 2 || (scope != 3 && x == bits (dw d 1) 0 20))
    let ws := es.flatMap fun f => s.walksIn f (mine f)
    let s := s.dropBegun e b
    let s := s.each es fun s f => s.invalidate f (mine f) (invalRange scope (dw d 3) (dLen d)) (bit (dw d 1) 22)
    let hs := es.flatMap fun f => s.heldIn f (mine f)
    .next ((s.modEng e fun x => { x with invals := x.invals ++ [⟨some (c, q, b.idx, d), ws, hs⟩] }).rest e)
  | _, _ => .next s

/-- XLT_INVAL of the page is under way: BUSY. -/
def State.invalBusy (s : State) (e : Nat) : Bool := (s.eng e).invals.any (·.entry.isNone)

/-- XLT_INVAL_CMD (R514): a write to XLT_INVAL of engine `e`; with GO the scope, in that engine alone, is invalidated. -/
def execXltInvalCmd (e : Fin 32) (v : Nat) (s : State) : Host.Outcome State Fault Refusal :=
  if s.invalBusy e then .next s
  else
    let scope := bits v 20 2
    let s := ((s.set F.XLT_INVAL_CTX (bits v 0 20) e).set F.XLT_INVAL_SCOPE scope e).set F.XLT_INVAL_REG (bits v 22 1) e
    if bit v 48 then
      let p := fun (x : Nat) => scope == 2 || (scope != 3 && x == bits v 0 20)
      let ws := s.walksIn e p
      let s := s.invalidate e p (invalRange scope (s.get F.XLT_INVAL_ADDR_VA e * 4096) (s.get F.XLT_INVAL_LEN_LEN e)) (bit v 22)
      .next ((s.modEng e fun x => { x with invals := x.invals ++ [⟨none, ws, s.heldIn e p⟩] }).rest e)
    else .next s

/-- Every walk that was in flight when an invalidation began has ended or been started again, and every access made with what it
discarded has been issued (R515). -/
def State.invalOver (s : State) (i : Inval) : Bool :=
  !(i.walks.any fun w => (s.walkOf w.1 w.2.1 w.2.2).any (·.restart)) && !i.held.any s.parked.contains

/-- INVAL_COMPLETE (R515): the oldest invalidation of engine `e` that is over completes. -/
def execInvalComplete (e : Fin 32) (s : State) : Host.Outcome State Fault Refusal :=
  match takeFirst s.invalOver (s.eng e).invals with
  | some (i, rest) =>
    let s := (s.modEng e fun x => { x with invals := rest }).count 23 e 0x47
    match i.entry with
    | none => .next (s.raise E.XLT_INVAL_DONE e)
    | some (c, q, idx, d) => .next ((s.endEntry e c q idx d { status := 0 }).rest e)
  | none => .next s

end Sys2Proof.Machine
end

