-- ==== Sys2Proof/Machine/LockCmd.lean ====
section
/-!
DEFINITION. Commands of the queued locks (that chapter): requests at the unit, answers at the initiator, leases, waiters and
boosts.
-/
namespace Sys2Proof.Machine
open Sys2Proof

/-- A lock request handed to engine `e` is admitted to the unit: age, enable and the refusal period stand before it (R345, R485,
R522, R523). -/
def State.lockArrived (s : State) (e : Nat) (q : Packet) (kind : Nat) : State × Bool :=
  if s.handed e q && q.cls == 0 && pKind q == kind then
    let s := s.unhand e q
    if s.tooOld q then (s.dropAge (tileOfEng e) 0, false)
    else if e % 4 ≠ 0 then (s.nackAccess e q 9, false)
    else if s.now < (s.eng e).refuseTo then (s.refuse1 e q, false)
    else if s.unitOut (unitOf e) then (s, false)
    else if !s.flag F.LCK_CTL_EN (unitOf e) then (s.nackAccess e q 9, false)
    else (s, true)
  else (s, false)

/-- LOCK_ACQ_RX (R529): a LOCK_ACQ handed to engine `e` is granted, queued or refused. -/
def execLockAcqRx (e : Fin 32) (q : Packet) (s : State) : Host.Outcome State Fault Refusal :=
  match s.lockArrived e q 0x28 with
  | (s, true) => .next (s.lockAcq (unitOf e) q)
  | (s, false) => .next s

/-- LOCK_REL_RX (R535): the current token releases the lock, which passes. -/
def execLockRelRx (e : Fin 32) (q : Packet) (s : State) : Host.Outcome State Fault Refusal :=
  match s.lockArrived e q 0x29 with
  | (s, true) => .next (s.lockRel (unitOf e) q)
  | (s, false) => .next s

/-- LOCK_RENEW_RX (R535): the current token extends EXPIRY. -/
def execLockRenewRx (e : Fin 32) (q : Packet) (s : State) : Host.Outcome State Fault Refusal :=
  match s.lockArrived e q 0x2A with
  | (s, true) => .next (s.lockRenew (unitOf e) q)
  | (s, false) => .next s

/-- The status that an LSTAT ends its entry with (R525, R529, Table 14.2). -/
def lstatStatus (lstat : Nat) : Nat := if lstat = 1 then 0x0B else if lstat = 2 then 0x0A else if lstat = 4 then 9 else 0

/-- LOCK_RSP_RX (R533): a LOCK_RSP of any attempt: queued keeps the entry waiting as a probe, another LSTAT ends it. -/
def execLockRspRx (e : Fin 32) (q : Packet) (s : State) : Host.Outcome State Fault Refusal :=
  match s.response e q 0x46 with
  | (s, some (slot, o)) =>
    let l := bits q.w5 0 8
    if o.held.isSome || !(9 ≤ o.kind && o.kind ≤ 11) then .next (s.rest e)
    else if l = 3 then .next ((s.modOp e slot fun o => { o with probe := true, tries := 0 }).rest e)
    else .next ((s.endOp e slot { status := lstatStatus l, info := if l ≤ 2 ∨ l = 6 then q.w6 % 2 ^ 64 else 0 }).rest e)
  | (s, none) => .next (s.rest e)

/-- A LOCK_REL or LOCK_RENEW with the current TOKEN reaches the unit in the clock in which the lease ends: it is the packet that its delivery
engine takes next, and EXPIRY is now (R540). -/
def State.savedInTime (s : State) (u l : Nat) : Bool :=
  s.stamp == s.lExpiry u l && (s.chooseCell (engUnit (4 * u))).1.any fun r =>
    r.pkt.cls == 0 && (pKind r.pkt == 0x29 || pKind r.pkt == 0x2A) && qLock r.pkt == l && s.tokenOk u r.pkt

/-- LEASE_EXPIRY (R538, R540): the unit's MT reaches EXPIRY: the grant lapses and the lock passes, unless its holder's request reaches the unit
in that clock, which is then applied first. -/
def execLeaseExpiry (u : Fin 8) (l : Fin 8192) (s : State) : Host.Outcome State Fault Refusal :=
  if s.leaseOver u l && !s.savedInTime u l then
    .next ((((s.inc F.LCK_CNT_A_LAPSES u).raise E.LCK_LAPSE u).count 24 u 0x42).pass u l 1)
  else .next s

/-- WAITER_EXPIRY (R534): a waiter not seen for WAIT_LIFE is removed. -/
def execWaiterExpiry (u : Fin 8) (src opid : Nat) (s : State) : Host.Outcome State Fault Refusal :=
  match (s.cunit u).waiters.find? fun w => w.src == src && w.opid == opid with
  | some w =>
    if s.waiterGone u w then
      let s := (((s.inc F.LCK_CNT_C_DROPPED u).raise E.LCK_WAITER_DROP u).count 24 u 0x45)
      .next ((s.setWaiters u w.lock ((s.cunit u).waiters.erase w)).boost u w.lock)
    else .next s
  | none => .next s

/-- BOOST_REFRESH (R545): BOOST_REFRESH after the last BOOST of a standing boost it is sent again. -/
def execBoostRefresh (u : Fin 8) (l : Fin 8192) (s : State) : Host.Outcome State Fault Refusal :=
  let h := Tab.get ⟨0, 0, 0, false⟩ (s.cunit u).holders l
  if s.lBoosted u l && s.past h.boostAt (64 * s.get F.LCK_TIME_BOOST_REFRESH u) then
    let s := s.modUnit u fun x => { x with holders := Tab.modify ⟨0, 0, 0, false⟩ x.holders l fun h => { h with boostAt := s.now } }
    .next (s.sendBoost u l (s.lBoost u l) true)
  else .next s

/-- BOOST_RX (R546): a BOOST handed to engine `e` creates, refreshes or removes a boost-table entry. -/
def execBoostRx (e : Fin 32) (q : Packet) (s : State) : Host.Outcome State Fault Refusal :=
  if s.handed e q && q.cls == 0 && pKind q == 0x2B then
    let s := s.unhand e q
    if s.tooOld q then .next (s.dropAge (tileOfEng e) 0) else .next (s.boostRx e q)
  else .next s

/-- BOOST_EXPIRY (R546): entries whose expiry has come are removed. -/
def execBoostExpiry (e : Fin 32) (s : State) : Host.Outcome State Fault Refusal :=
  .next (s.modEng e fun x => { x with boosts := x.boosts.filter fun b => s.now < b.expiry })

end Sys2Proof.Machine
end

