-- ==== Sys2Proof/Machine/HostFn.lean ====
section
/-!
DEFINITION. Functions and links of the host ports (chapter "PCI Express host ports"): what an FLR, D3hot, PERST_N and a link down
discard (Table 12.2), the forming of links and the resources of their functions, time-outs, L1, MSI-X and the window commit.
-/
namespace Sys2Proof.Machine
open Sys2Proof

/-! ### The FLR row of Table 12.2 -/

/-- The cached contexts of a function: engine and number. -/
def State.ctxsOf (s : State) (h f : Nat) : List (Nat × Nat) :=
  ((List.range 8).map (8 * dieOfPort h + ·)).flatMap fun e =>
    ((s.cached e).filter fun k => k.port == h && k.func == f).map fun k => (e, k.num)

/-- A host request works for a context. -/
def State.reqOfCtx (s : State) (e c : Nat) (r : HostReq) : Bool :=
  r.eng == e && (r.why.ctx == some c || (match r.why with
    | .payload slot _ _ => (s.op e slot).any (·.ctx == c)
    | .record d => d == c
    | .word0 d => d == c
    | _ => false))

/-- The host requests that meet `p` end without a result; those not sent yet go, and completions of the others will be late (R575). DEDUCED: log entry 63. -/
def State.endReqs (s : State) (p : HostReq → Bool) : State :=
  { s with reqs := (s.reqs.filter fun r => !(p r && s.unsentTag r.tag)).map fun r => if p r then { r with ended := true } else r,
           parked := s.parked.filter fun x => !(s.reqs.any fun r => p r && x.2.2.tagOf == some r.tag) }

/-- The packets that wait for a context: requests are refused, responses are late. -/
def State.dropReady (s : State) (e c : Nat) : State :=
  let l := (s.eng e).ready.filter fun p => pTctx p == c
  let s := s.modEng e fun x => { x with ready := x.ready.filter fun p => pTctx p != c }
  s.each l fun s p => if p.cls = 1 then s.late e else s.refuse1 e p

/-- A cached context and all its work discarded, without write-back or record (Table 12.2). -/
def State.discardCtx (s : State) (e c : Nat) : State := match s.ctx e c with
  | none => s
  | some k =>
    let n := (k.qs.map fun w => w.live.length + w.cache.length).sum
    let s := (s.inc F.ENG_CNT_C_DISCARDED e 0 0 n).endReqs (s.reqOfCtx e c)
    let mine := fun j => s.jobCtx e j == some c
    let s := s.modEng e fun x => { x with
      jobs := x.jobs.filter fun j => !mine j, faults := x.faults.filter fun j => !mine j.1,
      looked := x.looked.filter fun j => !mine j.1,
      unissued := x.unissued.filter fun j => !mine j,
      begun := x.begun.filter (·.ctx != c), colls := x.colls.filter (·.ctx != c), trackers := x.trackers.filter (·.ctx != c),
      regWait := x.regWait.filter (·.1 != c), lines := (x.lines.map fun l => { l with users := l.users.filter (·.1 != c) }).filter (!·.users.isEmpty),
      invals := x.invals.filter fun i => !(i.entry.any (·.1 == c)) }
    let s := s.each ((s.opsOf e).filter fun o => o.2.ctx == c) fun s o => s.freeOp e o.1
    let s := (s.dropMatching e c).dropCtx e c
    (s.modEng e fun x => { x with walks := x.walks.filter (·.ctx != c) }).dropReady e c

/-- Loads of a function's contexts end, since their function is gone. -/
def State.dropLoads (s : State) (e h f : Nat) : State :=
  let l := (s.eng e).loads.filter fun x => x.phase == 2 && bits x.w0 8 6 == h && bits x.w0 16 9 == f
  s.each l fun s x => (s.endReqs (s.reqOfCtx e x.ctx)).loadEnds e x.ctx false

/-- The contexts of lock holders and waiters that a function owns (R541): by its record where it is cached, else by range. -/
def State.lockCtxsOf (s : State) (h f : Nat) : List Nat :=
  let all := (List.range 8).flatMap fun u =>
    (s.cunit u).waiters.map (·.ctx) ++ (s.cunit u).holders.map fun x => s.lCtx u x.1
  let mine := s.ctxsOf h f
  all.eraseDups.filter fun c =>
    mine.any (·.2 == c) || ((List.range 32).all (fun e => (s.ctx e c).isNone) && s.inRange h f c)

/-- The effects of an FLR on the work of a function (Table 12.2, R541). -/
def State.dropWork (s : State) (h f : Nat) : State :=
  let locks := s.lockCtxsOf h f
  let s := s.each (s.ctxsOf h f) fun s p => s.discardCtx p.1 p.2
  let s := s.each ((List.range 8).map (8 * dieOfPort h + ·)) fun s e => s.dropLoads e h f
  let s := { s with parked := s.parked.filter fun x => !(x.1 == h && x.2.1 == f) }
  s.each locks State.abandon

/-- Configuration space at its reset values, but for sticky fields (PME_En, AER); the contexts of the function are gone (R485, R582). DEDUCED: log entry 117. -/
def FuncSt.cleared (x : FuncSt) : FuncSt :=
  { FuncSt.reset with pme := x.pme, aerStat := x.aerStat, aerMask := x.aerMask, aerSev := x.aerSev }

/-- A function's work discarded and its configuration space reset. -/
def State.clearFn (s : State) (h f : Nat) : State := (s.dropWork h f).modFn h f FuncSt.cleared

/-- VFs of a PF, as FUNC. -/
def State.vfsOf (s : State) (h pf : Nat) : List Nat := (s.funcsOf h).filter fun f => decide (8 ≤ f) && s.pfOf h f == pf

/-- FLR (R582): an FLR of a function of an active link. -/
def execFlr (h : Fin 64) (f : Fin 264) (s : State) : Host.Outcome State Fault Refusal :=
  if s.linkUp h && s.funcExists h f then
    let s := (s.clearFn h f).modFn h f fun x => { x with flrAt := some s.now }
    let s := if f.val < 8 then s.each (s.vfsOf h f) fun s v => s.clearFn h v else s
    .next (((s.raise E.FUN_FLR h).count 28 h 0x42).settleAll)
  else .next s

/-- FLR_COMPLETE (R582): within 1 ms. DESIGN CHOICE: log entry 11. -/
def execFlrComplete (h : Fin 64) (f : Fin 264) (s : State) : Host.Outcome State Fault Refusal :=
  .next (s.modFn h f fun x => { x with flrAt := none })

/-- D3HOT_ENTRY (R578): PowerState written with D3hot. -/
def execD3hotEntry (h : Fin 64) (f : Fin 264) (s : State) : Host.Outcome State Fault Refusal :=
  if s.linkUp h && s.funcExists h f && !(s.fn h f).d3 then
    .next (((s.dropWork h f).modFn h f fun x => { x with d3 := true, gone := true }).settleAll)
  else .next s

/-- A function's work discarded and its configuration space reset, and those of its VFs with a PF, whose VF Enable is cleared (R582). -/
def State.clearAll (s : State) (h f : Nat) : State :=
  let s := s.clearFn h f
  if f < 8 then s.each (s.vfsOf h f) fun s v => s.clearFn h v else s

/-- D0_RETURN (R578): PowerState written with D0; configuration space is reset as at FLR. -/
def execD0Return (h : Fin 64) (f : Fin 264) (s : State) : Host.Outcome State Fault Refusal :=
  if (s.fn h f).d3 then .next (s.clearAll h f).settleAll else .next s

/-! ### Links (R552 to R554, R557, R561 to R563) -/

/-- First quarters and widths of the links of an x16 port (Table 15.1). -/
def splitOf (n : Nat) : List (Nat × Nat) :=
  if n = 1 then [(0, 8), (2, 8)] else if n = 2 then [(0, 4), (1, 4), (2, 4), (3, 4)]
  else if n = 3 then [(0, 8), (2, 4), (3, 4)] else if n = 4 then [(0, 4), (1, 4), (2, 8)] else [(0, 16)]

/-- What a list of wishes gets of `r`, in order; at least `least` each. -/
def share (least : Nat) : Nat → List Nat → List Nat
  | _, [] => []
  | r, n :: l => max least (min n r) :: share least (r - max least (min n r)) l

/-- PF `i` of a link exists (R557). -/
def State.pfEn (s : State) (h i : Nat) : Bool := i == 0 || s.flag F.FUN_PF_EN h i

/-- VFs in force at the other links, and MSI-X vectors in force at the other links of the die. DESIGN CHOICE: log entry 61. -/
def State.vfsElse (s : State) (h : Nat) : Nat := ((List.range 64).map fun g => if g = h then 0 else (s.hport g).vfs.sum).sum
def State.vecsElse (s : State) (h : Nat) : Nat :=
  ((List.range 16).map fun j =>
    let g := 16 * dieOfPort h + j
    if g = h then 0 else (s.hport g).vecs.sum + (s.hport g).vfVecs.sum).sum

/-- A link's width, functions, BAR sizes and MSI-X tables put in force (R552, R557, R561 to R563); width 0 for an instance that is
not a link. -/
def State.formLink (s : State) (h width : Nat) : State :=
  if width = 0 then
    s.modHport h fun x => { HostPort.reset with perst := x.perst, wake := x.wake, fenced := x.fenced }
  else
    let pfs := (List.range 8).filter (s.pfEn h)
    let want := (List.range 8).map fun i => if pfs.contains i then s.get F.FUN_PF_TOTAL_VFS h i else 0
    let vfs := share 0 (min 256 (4096 - s.vfsElse h)) want
    let vec := fun n => if n = 0 then 1 else n
    let wantV := (List.range 8).map fun i => if pfs.contains i then vec (s.get F.FUN_PF_VECTORS h i) else 0
    let all := wantV ++ List.replicate vfs.sum (vec (s.get F.FUN_VF_VECTORS h))
    let got := share 0 (32768 - s.vecsElse h) all
    let got := (all.zip got).map fun p => if p.1 = 0 then 0 else max 1 p.2
    let s := s.modHport h fun x => { x with
      formed := true, width := width, pfs := (pfs.map fun i => 2 ^ i).sum,
      mgmt := (pfs.map fun i => if i = 0 || s.flag F.FUN_PF_MGMT h i then 2 ^ i else 0).sum,
      bar2 := (List.range 8).map (fun i => s.get F.FUN_PF_BAR2_LOG2 h i) ++ [s.get F.FUN_VF_BAR2_LOG2 h],
      vecs := got.take 8, vfs := vfs, vfVecs := got.drop 8 }
    let s := (s.setFlag F.FUN_STAT_VF_CUT (vfs != want) h).setFlag F.FUN_STAT_VEC_CUT (got != all) h
    (s.raiseIf (vfs != want) E.FUN_VF_OVERCOMMIT h).raiseIf (got != all) E.FUN_VEC_OVERCOMMIT h

/-- The functions of a host-port instance, which are about to be formed anew, take up no VFs and vectors any more. -/
def State.unform (s : State) (h : Nat) : State := s.modHport h fun x => { x with vecs := [], vfs := [], vfVecs := [] }

/-- SPLIT and the FUN fields of an x16 port put in force (R553, R563). -/
def State.formPort (s : State) (p : Nat) : State :=
  let l := splitOf (s.get F.HPT_CTL_SPLIT (4 * p))
  (s.each ((List.range 4).map (4 * p + ·)) State.unform).each (List.range 4) fun s q => s.formLink (4 * p + q) (((l.find? (·.1 == q)).map (·.2)).getD 0)

/-- Every request of a link that is out ends as a Completion Timeout (R585). -/
def State.timeOutAll (s : State) (h : Nat) : State :=
  let l := s.reqs.filter fun r => r.port == h && !r.closed
  s.each l fun s r =>
    let s := { s with parked := s.parked.filter fun x => x.2.2.tagOf != some r.tag }
    let s := { s with reqs := updWhere (·.tag == r.tag) (fun r => { r with closed := true }) s.reqs }
    if r.ended then s.cplTimeout h r.func else ((s.cplTimeout h r.func).hostReturn r false []).rest r.eng

/-- A link leaves DL_Active: its requests end, then its functions suffer the effects of an FLR and are reset (R585). -/
def State.hostLinkDown (s : State) (h : Nat) : State :=
  if s.linkUp h then
    let s := (((s.set F.HPT_STAT_UP 0 h).set F.HPT_STAT_GEN 0 h).set F.HPT_STAT_WIDTH 0 h).set F.HPT_STAT_PM 0 h
    let s := s.timeOutAll h
    let s := s.each (s.funcsOf h) fun s f => s.clearFn h f
    (s.raise E.HPT_LINK_DOWN h).settleAll
  else s

/-- HOST_LINK_DOWN (R585): a host link goes to DL_Down. -/
def execHostLinkDown (h : Fin 64) (s : State) : Host.Outcome State Fault Refusal := .next (s.hostLinkDown h)

/-- A link returns to L0, through Recovery, and the requests that waited go. -/
def State.exitL1 (s : State) (h : Nat) : State :=
  ((((s.set F.HPT_STAT_PM 0 h).inc F.HPT_CNT_A_RECOVERY h).modHport h fun x => { x with idleFrom := s.now }).sendHeld h true).settleAll

/-- L1_EXIT (R581). -/
def execL1Exit (h : Fin 64) (s : State) : Host.Outcome State Fault Refusal :=
  if s.get F.HPT_STAT_PM h = 0 then .next s else .next (s.exitL1 h)

/-- CLKREQ_N of an x16 port is released: each of its links is in L1.1 or L1.2 (R581). -/
def State.clkreqOff (s : State) (p : Nat) : Bool :=
  let l := ((List.range 4).map (4 * p + ·)).filter fun h => (s.hport h).formed
  !l.isEmpty && l.all fun h => decide (2 ≤ s.get F.HPT_STAT_PM h)

/-- HOST_LINK_UP (R554, R697): a formed link whose PERST_N is deasserted reaches DL_Active after phase 1 of the restore, at a rate
(coded as MAX_GEN) and a width; or a link that is up changes them, through Recovery. DESIGN CHOICE: log entry 28. -/
def execHostLinkUp (h : Fin 64) (gen width : Nat) (s : State) : Host.Outcome State Fault Refusal :=
  let x := s.hport h
  if x.formed && !x.perst && !x.fenced && decide (2 ≤ s.boot.stage) && s.get F.PWR_STAT_RUNG == 0 then
    let top := s.get F.HPT_CTL_MAX_GEN h
    let gen := min (max 1 gen) top
    let width := 2 ^ Nat.log2 (min width x.width)
    let up := s.linkUp h
    let same := up && s.get F.HPT_STAT_GEN h == gen && s.get F.HPT_STAT_WIDTH h == width
    if same then .next s
    else
      let s := if !up then s.set F.HPT_STAT_PM 0 h else if s.get F.HPT_STAT_PM h = 0 then s.inc F.HPT_CNT_A_RECOVERY h else s.exitL1 h
      let s := ((s.set F.HPT_STAT_UP 1 h).set F.HPT_STAT_GEN gen h).set F.HPT_STAT_WIDTH width h
      let s := s.modHport h fun x => { x with idleFrom := s.now }
      .next ((s.raiseIf (!up) E.HPT_LINK_UP h).raiseIf (decide (gen < top ∨ width < x.width)) E.HPT_DEGRADED h)
  else .next s

/-- PERST_ASSERT (R579): PERST_N of an x16 port goes low; its links drop and their functions behave as at FLR. -/
def execPerstAssert (p : Fin 16) (s : State) : Host.Outcome State Fault Refusal :=
  .next (s.each ((List.range 4).map (4 * p.val + ·)) fun s h =>
    if (s.hport h).perst then s
    else
      let s := s.hostLinkDown h
      let s := s.each (s.funcsOf h) fun s f => s.clearFn h f
      let s := s.modHport h fun x => { x with perst := true }
      if (s.hport h).formed then s.raise E.HPT_PERST h else s)

/-- PERST_DEASSERT (R553, R563, R580): PERST_N of an x16 port goes high: the settings come into force, and WAKE_N is released. Before
the restore has set them the forming waits for it (R697, R768). DESIGN CHOICE: log entry 64. -/
def execPerstDeassert (p : Fin 16) (s : State) : Host.Outcome State Fault Refusal :=
  if (s.hport (4 * p)).perst then
    let s := s.each ((List.range 4).map (4 * p.val + ·)) fun s h => s.modHport h fun x => { x with perst := false, wake := false }
    if 2 ≤ s.boot.stage then .next (s.formPort p) else .next s
  else .next s

/-! ### The end of a request (R573, R574) -/

/-- The Completion Timeout in µs (Table 15.6). -/
def ctoMicros (v : Nat) : Nat :=
  if v = 1 then 90 else if v = 2 then 9000 else if v = 5 then 50000 else if v = 6 then 200000 else if v = 9 then 850000
  else if v = 10 then 3200000 else if v = 13 then 12000000 else if v = 14 then 60000000 else 40000

/-- A request waits for Bus Master Enable of its function: its time does not run (R584). -/
def State.waitsBme (s : State) (r : HostReq) : Bool := s.unsentTag r.tag && !(s.fn r.port r.func).bme

/-- COMPLETION_TIMEOUT (R573): a request has been out for the time of its function. -/
def execCompletionTimeout (tag : Nat) (s : State) : Host.Outcome State Fault Refusal :=
  match s.reqOf tag with
  | some r =>
    if !r.closed && !s.waitsBme r && s.passed r.since (1000 * ctoMicros (s.fn r.port r.func).cto) then
      let s := { s with parked := s.parked.filter fun x => x.2.2.tagOf != some tag }
      let s := State.cplTimeout { s with reqs := updWhere (·.tag == tag) (fun r => { r with closed := true }) s.reqs } r.port r.func
      let s := if r.ended then s else (s.hostReturn r false []).rest r.eng
      .next (s.sendHeld r.port)
    else .next s
  | none => .next s

/-- A host access made for a request from the fabric (R574). -/
def Purpose.fabric : Purpose → Bool
  | .region _ _ => true
  | .flush _ => true
  | .getTgt _ => true
  | .rdv _ => true
  | .atomicOp _ => true
  | .line _ _ _ _ => true
  | _ => false

/-- FAB_TIMEOUT (R574): a host access for a request from the fabric has been out for FAB_TO; it ends as a host failure, and its TLP
stays outstanding. FAB_TO counts where it is the shorter time. -/
def execFabTimeout (tag : Nat) (s : State) : Host.Outcome State Fault Refusal :=
  match s.reqOf tag with
  | some r =>
    if r.why.fabric && !r.ended && !r.closed && !s.waitsBme r
        && decide (64 * s.get F.HPT_CTL_FAB_TO r.port < 1000 * ctoMicros (s.fn r.port r.func).cto) && s.over r.since (64 * s.get F.HPT_CTL_FAB_TO r.port) 64 then
      let s := { s with reqs := updWhere (·.tag == tag) (fun r => { r with ended := true }) s.reqs }
      let s := (s.inc F.HPT_CNT_C_FAB_TO r.port).raise E.HPT_FAB_TIMEOUT r.port
      .next ((s.hostReturn r false []).rest r.eng)
    else .next s
  | none => .next s

/-! ### Enables, L1 and interrupts (R577, R581, R584) -/

/-- BME_WRITE (R584, R585): Bus Master Enable of a function written; once it is set on an active link the function's contexts are no
longer gone, and what it held back goes. -/
def execBmeWrite (h : Fin 64) (f : Fin 264) (on : Bool) (s : State) : Host.Outcome State Fault Refusal :=
  if s.funcExists h f then
    let up := s.linkUp h
    .next ((s.modFn h f fun x => { x with bme := on, gone := x.gone && !(on && up) }).sendHeld h).settleAll
  else .next s

/-- L1_ENTRY (R581): a link idle for L1_IDLE enters L1, or the deepest substate enabled; before L1.2 it reports LTR_NS. -/
def execL1Entry (h : Fin 64) (s : State) : Host.Outcome State Fault Refusal :=
  let l1 := (s.fn h 0).l1
  if s.linkUp h && bit l1 0 && s.get F.HPT_STAT_PM h == 0 && !s.parked.any (·.1 == h.val) && s.npOut h == 0
      && s.over (s.hport h).idleFrom (1000 * s.get F.HPT_CTL_L1_IDLE h) 1000 then
    if bit l1 2 then .next ((s.emitMsg h (.ltr h (s.get F.HPT_CTL_LTR_NS h))).set F.HPT_STAT_PM 3 h)
    else .next (s.set F.HPT_STAT_PM (if bit l1 1 then 2 else 1) h)
  else .next s


/-- MSIX_PENDING_SEND (R577): a pending message that nothing forbids any more. -/
def execMsixPendingSend (h : Fin 64) (f : Fin 264) (v : Fin 2048) (s : State) : Host.Outcome State Fault Refusal :=
  if (s.vec h f v).pending && s.vecOpen h f v then
    .next ((s.modVec h f v fun x => { x with pending := false }).issue h f (.msix h f (s.vec h f v).addr (s.vec h f v).data))
  else .next s

/-! ### The window commit (R569) -/

/-- WIN_COMMIT (R569): GO = 1 captures the shadow of the WIN page, and takes the page from its alarm slot (R603); ignored while a
capture is pending. -/
def execWinCommit (h : Fin 64) (s : State) : Host.Outcome State Fault Refusal :=
  let page := pageNo 27 h
  if s.capturePending page then .next (s.raise E.WIN_COMMIT_IGNORED h) else .next ((s.disarm page).capture page)

/-- WIN_COMMIT_IN_FORCE (R569): the captured values come into force, within 100 ns. -/
def execWinCommitInForce (h : Fin 64) (s : State) : Host.Outcome State Fault Refusal :=
  let page := pageNo 27 h
  if s.capturePending page then
    let s := s.applyCapture page
    let s := s.set F.WIN_COMMIT_COUNT ((s.get F.WIN_COMMIT_COUNT h + 1) % 2 ^ 16) h
    .next ((s.raise E.WIN_COMMIT_DONE h).count 27 h 0x42)
  else .next s

end Sys2Proof.Machine
end

