-- ==== Sys2Proof/Machine/Reset.lean ====
section
/-!
DEFINITION. What a fault, a reset and a restore do to the units: the fences of Degrade (Table 17.4), safe state (R641), the pins of
the collector (R644, R645), the resets (R13, R698, R746) and the restore from the Almanac (R690 to R698, R703).
-/
namespace Sys2Proof.Machine
open Sys2Proof

/-! ### Pins (R639, R644, R645) -/

/-- The half period of the heartbeat in which MT stands is a high one (R645). -/
def State.hbHigh (s : State) : Bool := ((s.mtNs : Int) - s.flt.hbAlign) / 500000 % 2 == 0

/-- The level of FAULT_N (R644, R645). DEDUCED: log entry 49. -/
def State.faultLevel (s : State) : Bool :=
  if s.flag F.FLT_PIN_CTL_ASSERT then false
  else if s.pins.faultMode then s.flag F.FLT_STAT_HB_RUN && !s.safe && s.hbHigh
  else s.flt.pulseEnd.isNone

/-- A pending slot reaches the alert severity (R639). -/
def State.alertPend (s : State) : Bool :=
  (List.range 31).any fun c =>
    (setBitsOf (s.get F.FLT_PEND_PEND 0 c) 64).any fun b => s.get F.FLT_CTL_ALERT_SEV ≤ s.severity (64 * c + b)

/-- The pins of the collector at their levels. -/
def State.refreshPins (s : State) : State :=
  { s with pins := { s.pins with faultN := s.faultLevel, alert := s.safe || s.alertPend } }

/-! ### Discarding the work of engines and units (Table 12.2, R528) -/

/-- Everything that an engine holds discarded without a record. -/
def State.discardEng (s : State) (e : Nat) : State :=
  let s := s.endReqs fun r => r.eng == e
  let s := { s with
    ctxs := s.ctxs.filter fun k => k.1 / 2 ^ 20 != e, ops := s.ops.filter fun k => k.1 / 2048 != e }
  let s := s.each (s.txq (engUnit e)) fun s r => s.takeWhole (engUnit e) r
  s.modEng e fun x => { Eng.reset with pauseTo := x.pauseTo, refuseTo := x.refuseTo }

/-- The lock entries of a unit return to 0 and its waiters go (R528). -/
def State.clearLocks (s : State) (u : Nat) : State :=
  let s := { s with mem := s.mem.filter fun c => !(decide (lockAt u 0 ≤ c.1) && decide (c.1 < lockAt u 8192)) }
  s.modUnit u fun x => { x with waiters := [], holders := [] }

/-- The duplicate filter, the locks and the chunks of a unit discarded. -/
def State.discardUnit (s : State) (u : Nat) : State :=
  (s.clearLocks u).modUnit u fun x => { x with dup := [], chunks := [], seqs := [] }

/-- A unit left with no Constellation (R715, R718). -/
def State.emptyUnit (s : State) (u : Nat) : State :=
  let s := s.each (s.cunit u).groups fun s g => s.setColg g 0 0 1 0
  s.modUnit u fun _ => CUnit.reset

/-- A random starting generation for every slot of an engine (R485). -/
def State.newGens (s : State) (e : Nat) : State :=
  { s with gens := s.gens.filter (fun g => g.1 / 2048 != e), genBase := Tab.insert s.genBase e s.free, free := s.free + 2048 }

/-- DUP_CTL.LIFE of an engine's unit, or the larger of it and DUP_LEG.LIFE while any LEGACY bit is set (R485, R715). -/
def State.refuseNs (s : State) (e : Nat) : Nat :=
  let u := unitOf e
  64 * if s.anyLegacy then max (s.get F.DUP_CTL_LIFE u) (s.get F.DUP_LEG_LIFE u) else s.get F.DUP_CTL_LIFE u

/-- A_S + D, or A_S + TRANSIT + D while any LEGACY bit is set (R485, R715). -/
def State.pauseNs (s : State) (e : Nat) : Nat := s.as + (if s.anyLegacy then s.transit e else 0) + s.dNs

/-- The Afterwards column of the warm-reset row of Table 12.2 for one engine, counted from `at_`. DEDUCED: log entry 45. -/
def State.afterwards (s : State) (e at_ : Nat) : State :=
  (s.newGens e).modEng e fun x => { x with pauseTo := at_ + ns (s.pauseNs e), refuseTo := at_ + ns (s.refuseNs e) }

/-! ### Degrade fences (Table 17.4) -/

/-- An engine fenced: its RTE_FENCE bit, and everything it holds discarded. DEDUCED: log entry 58. -/
def State.fenceEng (s : State) (e : Nat) : State :=
  let s := { s with flt := { s.flt with engFence := if s.flt.engFence.contains e then s.flt.engFence else s.flt.engFence ++ [e] } }
  (s.hwFenceOn (tileOfEng e) (2 ^ (e % 4))).discardEng e

/-- A unit fenced with its four engines. -/
def State.fenceUnit (s : State) (u : Nat) : State :=
  let s := { s with flt := { s.flt with unitFence := if s.flt.unitFence.contains u then s.flt.unitFence else s.flt.unitFence ++ [u] } }
  let s := s.hwFenceOn (64 + u) 15
  ((s.each ((List.range 4).map (4 * u + ·)) State.discardEng).discardUnit u).emptyUnit u

/-- A host link held out of L0. -/
def State.fenceLink (s : State) (h : Nat) : State := (s.hostLinkDown h).modHport h fun x => { x with fenced := true }

/-- A host I/O domain fenced (R29): its engines are fenced endpoints, its units stop, its links go down. -/
def State.fenceHio (s : State) (k : Nat) : State :=
  let s := { s with flt := { s.flt with hioFence := if s.flt.hioFence.contains k then s.flt.hioFence else s.flt.hioFence ++ [k] } }
  let s := (s.hwFenceOn (64 + 2 * k) 15).hwFenceOn (65 + 2 * k) 15
  let s := s.each ((List.range 16).map (16 * k + ·)) State.fenceLink
  let s := s.each ((List.range 8).map (8 * k + ·)) State.discardEng
  s.each [2 * k, 2 * k + 1] fun s u => (s.discardUnit u).emptyUnit u

/-- A lane failed as under R99. -/
def State.fenceLane (s : State) (l : Nat) : State :=
  let s := s.modLane l fun x => { x with fenced := true }
  match s.owner l with
  | some p => if s.active p && !s.flag F.LANE_STAT_FAILED l then s.failLane p l else s.set F.LANE_STAT_FAILED 1 l
  | none => s.set F.LANE_STAT_FAILED 1 l

/-- An optical engine taken out: 64 transmitters off, its ports down. -/
def State.fenceOpt (s : State) (e : Nat) : State := (s.modOpt e fun x => { x with fenced := true }).darken (lanesOfOpt e)

/-- A port held in DISABLED, with its PORTS bit set. -/
def State.fencePort (s : State) (p : Nat) : State :=
  ((s.modPort p fun x => { x with fenced := true }).portFenced p).hwFenceOn (tileOf p) (2 ^ (p % 16))

/-- A tile fenced whole by Degrade; none when that would take a ninth middle. -/
def State.fenceWhole (s : State) (t : Nat) : Option State :=
  if s.flag F.TILE_FENCE_FULL t then some s else if s.ninth t then none else some (s.fenceTile t 2)

/-! ### SRAM banks (Table 18.5, R631) -/

/-- The owner of a bank number and the local bank: tile 0 to 71, 72 + j for unit j, 80 + n for engine n. -/
def bankHome (n : Nat) : Nat × Nat :=
  if n < 4096 then (n / 128, n % 128)
  else if n < 4480 then (64 + (n - 4096) / 96, (n - 4096) % 96)
  else if n < 8576 then (32 + (n - 4480) / 128, (n - 4480) % 128)
  else if n < 8960 then (68 + (n - 8576) / 96, (n - 8576) % 96)
  else
    let j := (n - 8960) / 192
    let r := (n - 8960) % 192
    if r < 32 then (72 + j, r) else if r < 160 then (80 + 4 * j + (r - 32) / 32, r % 32) else (72 + j, r - 128)

/-- The bank number of a local bank. -/
def bankNo (t l : Nat) : Nat :=
  if t < 32 then 128 * t + l else if t < 64 then 4480 + 128 * (t - 32) + l
  else if t < 68 then 4096 + 96 * (t - 64) + l else if t < 72 then 8576 + 96 * (t - 68) + l
  else if t < 80 then 8960 + 192 * (t - 72) + (if l < 32 then l else 128 + (l - 32))
  else 8960 + 192 * ((t - 80) / 4) + 32 + 32 * ((t - 80) % 4) + l

/-- A bank of a buffer pool: every bank of a tile, and the chunk slots of a unit (R631). -/
def poolBank (t l : Nat) : Bool :=
  if t < 64 then l < 128 else if t < 72 then l < 96 else if t < 80 then decide (8 ≤ l ∧ l < 40) else false

/-- Elements of a list whose place has its bit set in `v`, as the model picks what a lost bank held (log entry 1). -/
def picked {α : Type} (v : Nat) (l : List α) : List α := (((List.range l.length).zip l).filter fun p => bit v p.1).map (·.2)

/-- What a lost bank of input memory held goes. -/
def State.loseInput (s : State) (t v : Nat) : State :=
  let l := picked v (s.tile t).held
  let s := s.each l fun s h => (s.cancelReq t h.id).modTile t fun x => { x with held := x.held.filter (·.id != h.id), aborts := x.aborts ++ [h.id] }
  s.fenceLoss l.length

/-- What a lost bank of middle memory held goes. -/
def State.loseMid (s : State) (t v : Nat) : State :=
  let cut := (s.tile t).mid.map fun e => (e.1, e.2.filter fun c => !bit v (c.idx + e.1 % 16))
  let n := s.midUsed t
  let s := s.modTile t fun x => { x with mid := cut.filter fun e => !e.2.isEmpty }
  s.fenceLoss (n - s.midUsed t)

/-- What a lost bank of output memory or staging held goes. -/
def State.loseOut (s : State) (t v : Nat) (stg : Bool) : State :=
  let l := picked v (((s.tile t).resv ++ (s.tile t).tx).filter fun r => r.stg == stg)
  let s := s.each l fun s r =>
    let s := s.modTile t fun x => { x with resv := x.resv.filter (·.res != r.res) }
    let s := s.each r.members fun s m => s.dropMember m.port r.res
    s.modTile t fun x => { x with tx := x.tx.filter (·.res != r.res) }
  s.fenceLoss l.length

/-- What a lost bank of replay memory held goes: the links whose frames it held are handled as PORT_CMD.DOWN (R631). -/
def State.loseReplay (s : State) (t v : Nat) : State :=
  let l := picked v ((portsOf t).filter fun p => !(s.link p).replay.isEmpty)
  (s.each l State.linkDown).fenceLoss l.length

/-- The chunks that a lost bank of chunk-slot memory held. -/
def State.loseChunks (s : State) (u v : Nat) : State :=
  let l := picked v (s.cunit u).chunks
  (s.each l fun s c => s.freeChunk u c.g c.idx).fenceLoss l.length

/-- What a lost bank held goes; which of the pool's contents that is, is a free value. DESIGN CHOICE: log entry 122. -/
def State.loseBank (s : State) (t l : Nat) : State :=
  let v := s.peek
  let s := s.drawn
  if 72 ≤ t then s.loseChunks (t - 72) v
  else if t < 64 then
    (if l < 64 then s.loseInput t v else if l < 88 then s.loseMid t v else if l < 96 then s.loseOut t v false else s.loseReplay t v)
  else (if l < 32 then s.loseInput t v else if l < 56 then s.loseMid t v else if l < 64 then s.loseOut t v false else s.loseOut t v true)

/-- The fenced banks of a tile. -/
def State.fencedBanks (s : State) (t : Nat) : Nat := (s.flt.bankFence.filter (·.1 == t)).length

/-- A bank of a pool fenced (R631); a tile with more than 4 is fenced whole instead, and none stands for the fence of a ninth middle. -/
def State.fenceBank (s : State) (t l : Nat) : Option State :=
  if s.flt.bankFence.contains (t, l) then some s
  else if t < 72 ∧ 4 ≤ s.fencedBanks t then s.fenceWhole t
  else some (State.loseBank { s with flt := { s.flt with bankFence := s.flt.bankFence ++ [(t, l)] } } t l)

/-! ### Safe state (R641) -/

/-- Safe state entered; Uncorrectable Internal Error is bit 22 of PF0's AER. PRESUMED: log entry 173. -/
def State.enterSafe (s : State) : State :=
  let s := { s.set F.FLT_STAT_SAFE 1 with flt := { s.flt with safeMt := s.mtNs } }
  let s := s.each (List.range 32) State.discardEng
  let s := s.each (List.range 8) State.discardUnit
  let s := s.each ((List.range 64).filter s.linkUp) fun s h => s.aer h 0 22
  if s.pins.faultMode then s.refreshPins
  else State.refreshPins { s.hw F.FLT_PIN_CTL_ASSERT 1 with flt := { s.flt with pulseEnd := some (s.now + ns 100000) } }

/-! ### Control processors (R712, R713) -/

/-- An image is valid. -/
def Almanac.valid (a : Almanac) (i : Nat) : Bool := if i = 0 then a.validA else a.validB

/-- The control processors start on the image that BOOT names, fall back to the other, or stay halted (R713). -/
def State.cpsBoot (s : State) : State :=
  let a := s.almanac
  let fresh := { s with cps := ⟨false, false, s.now, 0⟩ }
  if a.valid a.boot then { fresh with almanac := { a with active := a.boot } }
  else if a.valid (1 - a.boot) then
    let s := { fresh with almanac := { a with active := 1 - a.boot, boot := 1 - a.boot } }
    (s.event F.ALM_FW_FALLBACK 0).raise E.ALM_FW_FALLBACK
  else { s with cps := ⟨false, true, s.now, 0⟩ }

/-! ### Resets (R13, R43, R698, R746, R768) -/

/-- The requests of every host link that are out end as Completion Timeouts: what the sticky counters keep of the links' fall
(R585, R768). -/
def State.countDowns (s : State) : State :=
  s.each (s.reqs.filter fun r => !r.closed) fun s r => s.inc F.HPT_CNT_B_CTO r.port

/-- The state of the main domains at reset; `s` keeps the standby domain, the clocks, the sticky fields, the Almanac and what the board
drives. -/
def State.mainReset (s : State) : State :=
  { s with
    xfer := [], core := ⟨0, 0, [], [], []⟩, tiles := [], rte := State.reset.rte, sched := [], telSeq := [], links := [], lanes := [],
    opts := s.opts.map fun e => (e.1, { OptSt.reset with prsnt := e.2.prsnt, prsntAt := s.now }),
    ports := [], funcs := s.funcs.map fun e => (e.1, e.2.cleared),
    engs := [], ctxs := [], ops := [], gens := [], genBase := (List.range 32).map fun e => (e, s.free + 2048 * e),
    units := [], parked := [], free := s.free + 65536,
    reqs := s.reqs.map fun r => { r with ended := true, closed := true },
    hports := s.hports.map fun e => (e.1, { e.2 with fenced := false }),
    rf := ⟨[], s.rf.sticky, [], [], [], [], [], [], [], [], []⟩,
    mem := [], flt := { Collector.reset with scrubAt := s.now },
    ladder := Ladder.reset, mgmt := Mgmt.reset,
    almanac := { s.almanac with cmd := none, repairDue := [] },
    servo := { s.servo with tod := none, ptmOut := false }, pins := { s.pins with ppsOut := none } }

/-- LSRC_PRSNT shows the pins again. -/
def State.showPrsnt (s : State) : State :=
  s.each (s.opts.filter (·.2.prsnt)) fun s e => s.set F.OPT_STAT_LSRC_PRSNT 1 e.1

/-- The fields of MT_STAT. -/
def mtStatFields : List Fld :=
  [F.MT_STAT_STATE, F.MT_STAT_FIRST_LOCK, F.MT_STAT_ON_ALT, F.MT_STAT_HOPS, F.MT_STAT_ERR_NS, F.MT_STAT_STEPPED, F.MT_STAT_LOOP,
    F.MT_STAT_TOD_PENDING]

/-- MT, elapsed MT and the servo as at cold reset, and MT_STAT at its reset values (R43, R44, R65). -/
def State.coldTime (s : State) : State :=
  let s := { s with clk := { s.clk with mt := 0, base := s.clk.emt }, servo := { Servo.reset with lastGood := s.now, lastClk := s.now }, marks := [] }
  s.each mtStatFields fun s f => s.set f (f.resetAt 0 0 0)

/-- What every reset but a cold one does; `any` tells that the servo's source goes whatever its kind (R746). A device that was Dark leaves it, and MT
restarts (R44). -/
def State.warmReset (s : State) (any : Bool) : State :=
  let kind := s.get F.MT_SRC_KIND
  let s := if any || kind == 2 || kind == 3 then s.loseSource else s
  let dark := s.get F.PWR_STAT_RUNG == 5
  let s := s.countDowns.mainReset.showPrsnt
  let s := State.refreshPins (State.cpsBoot { s with boot := ⟨s.boot.pwrGood, 0, false, s.now, !dark⟩ })
  if dark then s.coldTime else s

/-- The rung from which a reset wakes the device, recorded after it (R678). -/
def State.recordWake (s : State) (rung cause : Nat) : State :=
  if rung = 0 then s else (s.set F.PWR_STAT_WAKE_CAUSE cause).raise E.PWR_WAKE

/-- COLD_RESET (R13, R43): every field at its reset value; the Almanac, the fuses and the levels of the pins stay. The restore waits for
PWR_GOOD. -/
def execColdReset (s : State) : Host.Outcome State Fault Refusal :=
  let t : State := { State.reset with
    almanac := { s.almanac with cmd := none, repairDue := [] }, presence := { Owner.reset with low := s.presence.low, fuses := s.presence.fuses },
    hports := s.hports.map fun e => (e.1, { HostPort.reset with perst := e.2.perst }),
    opts := s.opts.map fun e => (e.1, { OptSt.reset with prsnt := e.2.prsnt }),
    pins := { State.reset.pins with faultMode := s.pins.faultMode }, nextTag := s.nextTag,
    genBase := (List.range 32).map fun e => (e, s.free + 2048 * e), free := s.free + 65536, out := s.out, pending := s.pending }
  .next (t.showPrsnt.cpsBoot.refreshPins)

/-- WARM_RESET (R13, R698): RESET_N asserted; it is also a wake from a device rung (R678). -/
def execWarmReset (s : State) : Host.Outcome State Fault Refusal :=
  let rung := s.get F.PWR_STAT_RUNG
  .next ((s.warmReset false).recordWake rung 2)

/-- DEV_RESET (R612): a write of KEY 0x5752 starts a warm reset, and with RESET_N high the restore follows at once where PWR_GOOD is
high; any other value is ignored. -/
def execDevReset (key : Nat) (s : State) : Host.Outcome State Fault Refusal :=
  if key % 2 ^ 16 = 0x5752 then .next (s.warmReset false) else .next s

/-- PWR_GOOD_FALL (R746): every main domain is held in reset, and the servo loses its source. -/
def execPwrGoodFall (s : State) : Host.Outcome State Fault Refusal :=
  if s.boot.pwrGood then
    let s := s.warmReset true
    .next { s with boot := { s.boot with pwrGood := false } }
  else .next s

/-- PWR_GOOD_RISE (R743): main domains leave reset and every main rail is checked: a management or core rail out of limits leaves the
device in safe state with no restore; a host I/O or optical rail out fences its domain. -/
def execPwrGoodRise (mainOut : Bool) (hio : List (Fin 4)) (opt : List (Fin 16)) (s : State) : Host.Outcome State Fault Refusal :=
  if s.boot.pwrGood then .next s
  else
    let s := { s with boot := { s.boot with pwrGood := true, railOut := mainOut } }
    let s := s.each hio fun s k => (s.raiseCap E.FLT_RAIL_HIO 0 (blockCapture 18 (8 * k.val))).fenceHio k
    let s := s.each opt fun s e => (s.raiseCap E.FLT_RAIL_OPT 0 (blockCapture 9 e.val)).fenceOpt e
    if mainOut then .next ((s.raise E.FLT_RAIL_MAIN).enterSafe) else .next s

/-! ### The restore (R690 to R698, R703) -/

/-- RESTORE_START (R690, R698): at the later of PWR_GOOD rising and RESET_N being deasserted; FAULT_MODE is sampled (R644). -/
def execRestoreStart (faultMode : Bool) (s : State) : Host.Outcome State Fault Refusal :=
  if s.boot.pwrGood && s.boot.stage == 0 && !s.boot.railOut then
    .next (State.refreshPins { s with boot := { s.boot with stage := 1, since := s.now }, pins := { s.pins with faultMode := faultMode } })
  else .next s

/-- The fields of the calibration record (R696). -/
def calFields : List Fld :=
  [F.LANE_EQ_PRESET, F.LANE_EQ_VALID, F.PORT_TASYM_ASYM, F.PORT_TASYM_VALID, F.MT_EXT_COMP_PS, F.MT_PPS_OUT_COMP]

/-- A key names a field of the calibration record. -/
def isCal (key : Nat) : Bool :=
  calFields.any fun f => key / 64 / 4096 / 1024 == f.cls && key / 64 % 4096 == f.off && key % 64 == f.lo

/-- The snapshot of a slot, valid for this device (R694). -/
def State.snapOf (s : State) (n : Nat) : Option Snapshot :=
  ((s.almanac.slots.find? fun e => e.1 == n && e.2.sn == s.get F.DEV_SERIAL_SN)).map (·.2)

/-- The newest valid slot among those that meet `p`. -/
def State.newestSlot (s : State) (p : Nat → Bool) : Option (Nat × Snapshot) :=
  let l := (List.range 4).filterMap fun n => if p n then (s.snapOf n).map fun x => (n, x) else none
  (argMin (fun x => 2 ^ 32 - x.2.seq) l)

/-- The snapshot to restore: slot, snapshot, SOURCE (R695). -/
def State.chooseSnap (s : State) : Option (Nat × Snapshot × Nat) :=
  let boot := s.get F.ALM_CFG_BOOT_SLOT
  let chosen := if boot = 7 then s.newestSlot fun _ => true else (s.snapOf boot).map fun x => (boot, x)
  match chosen with
  | some (n, x) => some (n, x, 0)
  | none => if s.flag F.ALM_CFG_FALLBACK then (s.newestSlot (· != boot)).map fun p => (p.1, p.2, 1) else none

/-- The valid calibration copy written last (R696). -/
def State.calCopy (s : State) : Option (Tab Nat) := (argMin (fun c => 2 ^ 64 - c.2.1) s.almanac.cal).map (·.2.2)

/-- The repair record applied (R703): each bank fenced, a tile with more than 4 fenced whole. -/
def State.applyRepair (s : State) : State :=
  s.each s.almanac.repair fun s r =>
    let (t, l) := bankHome r.1
    if poolBank t l then (s.fenceBank t l).getD s else s

/-- RESTORE_PHASE1_DONE (R695 to R697, R703): calibration, AL fields and repair fences in force; host links may train; after a warm
reset the engines keep the pause and the refusal of Table 12.2. -/
def execRestorePhase1Done (s : State) : Host.Outcome State Fault Refusal :=
  if s.boot.stage = 1 then
    let pick := s.chooseSnap
    let cal := s.calCopy
    let base := match pick with
      | some (_, x, _) => x.fields.filter fun e => !isCal e.1
      | none => []
    let alm := (cal.getD []).foldl (fun t e => Tab.insert t e.1 e.2) base
    let s := { s with rf := { s.rf with alm := alm }, boot := { s.boot with stage := 2 } }
    let s := s.setFlag F.ALM_STAT_CAL_OK cal.isSome
    let s := match pick with
      | some (n, _, src) => (s.set F.ALM_STAT_SLOT n).set F.ALM_STAT_SOURCE src
      | none => (((s.set F.ALM_STAT_SLOT 7).set F.ALM_STAT_SOURCE 2)).raise E.ALM_RESTORE_FAIL
    let s := (s.raiseIf cal.isNone E.ALM_CAL_FAIL).applyRepair
    let self := (s.get F.DEV_SELF_GROUP, s.get F.DEV_SELF_DEVICE, s.flag F.DEV_SELF_VALID)
    let s := { s with rte := { s.rte with selfNext := [], selfOld := self } }
    let s := (s.each (List.range 64) State.unform).each (List.range 16) State.formPort
    let s := (s.each (List.range 72) State.checkOvercommit).each (List.range 32) State.checkStaging
    .next (if s.boot.warm then s.each (List.range 32) fun s e => s.afterwards e s.boot.since else s)
  else .next s

/-- The tables of a snapshot loaded: route tables into both banks, the others as they stand (R693). -/
def loadTables (l : List (Nat × Byte)) (m : Memory) : Memory :=
  l.foldl (fun m c =>
    if c.1 / 2 ^ 32 = 1 then Memory.write (Memory.write m (bankKey 0 c.1) c.2) (bankKey 1 c.1) c.2 else Memory.write m c.1 c.2) m

/-- RESTORE_DONE (R690, R693, R697): tables loaded, ports start bring-up, the heartbeat starts in heartbeat mode. -/
def execRestoreDone (s : State) : Host.Outcome State Fault Refusal :=
  if s.boot.stage = 2 then
    let s := match s.snapOf (s.get F.ALM_STAT_SLOT) with
      | some x => { s with mem := loadTables x.tables s.mem }
      | none => s
    let s := { s with boot := { s.boot with stage := 3 } }
    let s := ((s.set F.ALM_STAT_RESTORED 1).raise E.ALM_RESTORE_DONE).setFlag F.FLT_STAT_HB_RUN s.pins.faultMode
    let on := (List.range 1024).filter fun p => s.flag F.PORT_CTL_EN p
    let s := s.each on fun s p => s.set F.PORT_CTL_EN 0 p
    let s := s.each on State.enablePort
    .next s.refreshPins
  else .next s

end Sys2Proof.Machine
end

