-- ==== Sys2Proof/Machine/Fault.lean ====
section
/-!
DEFINITION. Commands of the fault collector (chapter "Fault collection, reaction and guarantees"): an event accepted and its reaction,
the detectors of the board and of the management die, the patrol scrub, the configuration check, and the FAULT_N pin.
-/
namespace Sys2Proof.Machine
open Sys2Proof

/-! ### Degrade (R630, R631, Table 17.4) -/

/-- The tile of an arrival fenced, or the bank that its capture names (R631). -/
def State.degradeTile (s : State) (a : Arrival) : Option State :=
  let (t, l) := bankHome (bits a.cap.addr 13 14)
  if a.slot % 64 = E.bitMemUe ∧ a.cap.space = 0 ∧ t = a.inst ∧ poolBank t l = true ∧ a.cap.mkind = 0 then
    let old := s.flt.bankFence
    (s.fenceBank t l).map fun u =>
      if u.flt.bankFence != old && u.flag F.ALM_CFG_AUTO_REPAIR then
        { u with almanac := { u.almanac with repairDue := u.almanac.repairDue ++ [(bankNo t l, u.mtNs)] } }
      else u
  else s.fenceWhole a.inst

/-- The unit of an arrival fenced, or its bank of chunk slots (R631). -/
def State.degradeUnit (s : State) (a : Arrival) : State :=
  let (t, l) := bankHome (bits a.cap.addr 13 14)
  if a.slot % 64 = E.bitMemUe ∧ a.cap.space = 0 ∧ t = 72 + a.inst ∧ poolBank t l = true ∧ a.cap.mkind = 0 then
    let u := (s.fenceBank t l).getD s
    if u.flag F.ALM_CFG_AUTO_REPAIR then
      { u with almanac := { u.almanac with repairDue := u.almanac.repairDue ++ [(bankNo t l, u.mtNs)] } }
    else u
  else s.fenceUnit a.inst

/-- A block fenced (R765). -/
def State.fenceBlock (s : State) (cls : Nat) : State :=
  if s.blockFenced cls then s else { s with flt := { s.flt with blockFence := s.flt.blockFence ++ [cls] } }

/-- The Degrade reaction of an arrival; none where severity 3 acts as 4 (R189, R628, R630). A rail event names its domain in MASTER, or
in CAP_ADDR where it was forced (R766). DEDUCED: log entry 52. -/
def State.degradeOf (s : State) (a : Arrival) : Option State :=
  let cls := a.slot / 64
  let i := a.inst
  if cls = 8 then some (s.fenceLane i)
  else if cls = 9 then some (s.fenceOpt i)
  else if cls = 10 ∨ cls = 11 then some (s.fencePort i)
  else if (12 ≤ cls ∧ cls ≤ 15) ∨ cls = 29 then s.degradeTile a
  else if 18 ≤ cls ∧ cls ≤ 23 then some (s.fenceEng i)
  else if cls = 17 then some (s.degradeUnit a)
  else if cls = 24 ∨ cls = 25 then some (s.fenceUnit i)
  else if 26 ≤ cls ∧ cls ≤ 28 then some (s.fenceLink i)
  else if (3 ≤ cls ∧ cls ≤ 7) ∨ cls = 30 then some (s.fenceBlock cls)
  else if a.slot = 64 * 2 + E.FLT_RAIL_HIO.bit then
    some (s.fenceHio (if a.cap.mkind = 0 then a.cap.master / 64 / 8 % 4 else a.cap.addr % 4))
  else if a.slot = 64 * 2 + E.FLT_RAIL_OPT.bit then
    some (s.fenceOpt (if a.cap.mkind = 0 then a.cap.master / 64 % 16 else a.cap.addr % 16))
  else none

/-! ### Accepting an event (R627, R636 to R639) -/

/-- A fault message (R639). DEDUCED: log entry 177. -/
def State.notify (s : State) (vec : Nat) : State :=
  let h := s.get F.FLT_NOTIFY_PORT
  let pf := s.get F.FLT_NOTIFY_PF
  if !s.flag F.FLT_NOTIFY_EN then s
  else if !s.linkUp h || !s.funcExists h pf || decide (s.vecCount h pf ≤ vec) then s.raise E.FLT_NOTIFY_ERR
  else (s.message h pf vec).count 2 0 0x42

/-- The global capture of an event (R636). -/
def State.globalCapture (s : State) (a : Arrival) (sev : Nat) : State :=
  if s.flag F.FLT_GCAP_SRC_VALID then s
  else
    let s := (s.set F.FLT_GCAP_ADDR_ADDR a.cap.addr).set F.FLT_GCAP_INFO_EVT (a.slot % 64)
    let s := (s.set F.FLT_GCAP_INFO_SPACE a.cap.space).set F.FLT_GCAP_INFO_MKIND a.cap.mkind
    let s := (s.set F.FLT_GCAP_INFO_MASTER a.cap.master).set F.FLT_GCAP_INFO_ACC a.cap.acc
    let s := (s.set F.FLT_GCAP_TIME_MT a.mt).set F.FLT_GCAP_SRC_SLOT a.slot
    (s.set F.FLT_GCAP_SRC_SEV sev).event F.FLT_GCAP_SRC_VALID 0

/-- The first Fatal slot recorded. -/
def State.recordFatal (s : State) (a : Arrival) : State :=
  if s.flag F.FLT_FATAL_VALID then s else ((s.set F.FLT_FATAL_SLOT a.slot).event F.FLT_FATAL_VALID 0).set F.FLT_FATAL_TIME_MT a.mt

/-- The count of a slot advanced (Table 17.2). -/
def State.countSlot (s : State) (k : Nat) : State :=
  s.hw F.FLT_CE_CNT_CNT (satAdd (s.get F.FLT_CE_CNT_CNT 0 (k / 8) (k % 8)) 1 F.FLT_CE_CNT_CNT.w) 0 (k / 8) (k % 8)

/-- A Fatal event that came after safe state was entered counts, and does nothing else (R642). DEDUCED: log entry 176. -/
def State.furtherFatal (s : State) (a : Arrival) (sev : Nat) : Bool := sev == 4 && s.safe && decide (s.flt.safeMt < a.mt)

/-- The bookkeeping of an event handled at severity `sev` (Table 17.2). -/
def State.bookEvent (s : State) (a : Arrival) (sev : Nat) : State :=
  if s.furtherFatal a sev then ((s.count 2 0 0x40).countSlot a.slot).inc F.FLT_CNT_FATAL
  else
  let s := (s.event F.FLT_PEND_PEND (a.slot % 64) 0 (a.slot / 64)).count 2 0 0x40
  if sev < 2 then s
  else
    let s := (s.globalCapture a sev).countSlot a.slot
    if sev = 2 then
      let s := s.inc F.FLT_CNT_CE
      if s.flag F.FLT_SEV_MSI 0 (a.slot / 16) (a.slot % 16) then s.notify (s.get F.FLT_NOTIFY_VEC_CE) else s
    else if sev = 3 then (s.inc F.FLT_CNT_DG).notify (s.get F.FLT_NOTIFY_VEC_DG)
    else ((s.inc F.FLT_CNT_FATAL).recordFatal a).notify (s.get F.FLT_NOTIFY_VEC_DG)

/-- What follows a Degrade fence: its count, and with ON_DEGRADE = 1 in pulse mode the 100 µs pulse (R644). -/
def State.degradeDone (s : State) : State :=
  let s := s.count 2 0 0x45
  if !s.pins.faultMode && s.flag F.FLT_PIN_CTL_ON_DEGRADE then { s with flt := { s.flt with pulseEnd := some (s.now + ns 100000) } } else s

/-- The arrival that the collector takes next: the oldest, of those of one clock that of the lowest slot (R637). DEDUCED: log entry 51. -/
def Collector.next (c : Collector) : Option Arrival := match c.arrivals with
  | [] => none
  | a :: _ => argMin (fun x => x.slot) (c.arrivals.filter (·.emt == a.emt))

/-- FAULT_EVENT (R627, R637): the next event takes its reaction; its bookkeeping is lost while the collector handles another. -/
def execFaultEvent (s : State) : Host.Outcome State Fault Refusal :=
  match s.flt.next with
  | none => .next s
  | some a =>
    let s := { s with flt := { s.flt with arrivals := s.flt.arrivals.erase a } }
    let lost := decide (a.emt < s.flt.busyUntil)
    let fence := if a.sev = 3 then s.degradeOf a else none
    let sev := if a.sev = 3 && fence.isNone then 4 else a.sev
    let s := match fence with
      | some t => t.degradeDone
      | none => s
    let s := if lost then s.count 2 0 0x41
      else State.bookEvent { s with flt := { s.flt with busyUntil := a.emt + ns 64 } } a sev
    let s := if sev = 4 && !s.safe then s.enterSafe else s
    .next (s.settleAll.refreshPins)

/-- REPAIR_ENTRY_ADD (R702): the oldest bank fence still without its entry enters the repair record, or finds it full. -/
def execRepairEntryAdd (s : State) : Host.Outcome State Fault Refusal :=
  match s.almanac.repairDue with
  | [] => .next s
  | x :: l =>
    let s := { s with almanac := { s.almanac with repairDue := l } }
    if s.almanac.repair.length < 1024 then .next { s with almanac := { s.almanac with repair := s.almanac.repair ++ [x] } }
    else .next (s.raise E.ALM_REPAIR_FULL)

/-! ### Checkers (R626, R646 to R648) -/

/-- The page whose unit holds a local bank: the tile's, the lock, filter or collective page of a unit, the engine's (Table 18.5). -/
def bankPage (t l : Nat) : Nat × Nat :=
  if t < 72 then (12, t)
  else if t < 80 then (if l < 6 then (24, t - 72) else if 8 ≤ l ∧ l < 40 then (17, t - 72) else (25, t - 72))
  else (18, t - 80)

/-- A bank is in the on state: neither retained, off nor fenced. -/
def State.bankOn (s : State) (t l : Nat) : Bool :=
  let tile := if t < 72 then t else if t < 80 then t - 8 else 64 + (t - 80) / 4
  decide (s.get F.TILE_PWR_CUR tile < 4) && !s.flt.bankFence.contains (t, l)
    && !(decide (t < 72) && s.bankRung t l != 0 && !s.getBit F.TILE_BANK_PEND_BITS (l % 64) t (l / 64))

/-- A pass of the scrub ends (R646). -/
def State.scrubPass (s : State) : State :=
  let d := s.now - s.flt.scrubAt
  let s := ((s.set F.FLT_SCRUB_STAT_LAST_US (min (d / ns 1000) (2 ^ 24 - 1))).inc F.FLT_SCRUB_STAT_PASSES)
  let late := decide (ns (1000000 * s.get F.FLT_SCRUB_PERIOD) < d)
  State.raiseIf { s with flt := { s.flt with scrubAt := s.now } } late E.FLT_SCRUB_LATE

/-- SCRUB_READ (R646, R647): the scrub reads a word of a bank; `bad` 0 good, 1 one bit (corrected), else more; `last` ends the pass. -/
def execScrubRead (bank : Fin 10496) (word : Fin 8192) (bad : Fin 3) (last : Bool) (s : State) : Host.Outcome State Fault Refusal :=
  let (t, l) := bankHome bank
  if s.flag F.FLT_SCRUB_EN then
    let s :=
      if s.bankOn t l then
        let (cls, i) := bankPage t l
        let c : Capture := { blockCapture cls i with addr := field word 0 13 + field bank 13 14, acc := 5 }
        let s := s.count 2 0 0x43
        if bad = 0 then s
        else if bad = 1 then (s.raiseAt cls i E.bitMemCe c).count 2 0 0x44
        else s.raiseAt cls i E.bitMemUe c
      else s
    .next (if last then s.scrubPass else s)
  else .next s

/-- A register offset from class, instance and page offset (R590). -/
def regOffset (cls i o : Nat) : Nat := cls * 2 ^ 22 + i * 2 ^ 12 + o

/-- CFG_CHECK (R648): the parity of a page's register at an offset is checked. -/
def execCfgCheck (cls : Fin 31) (i : Fin 1024) (off : Fin 512) (bad : Bool) (s : State) : Host.Outcome State Fault Refusal :=
  if bad && implemented cls i then
    .next (s.raiseAt cls i E.bitCfgErr { blockCapture cls i with addr := regOffset cls i (8 * off.val), space := 1 })
  else .next s

/-- A packet closed within the core as under R173: at the input tile while its copy for `out` is still being sent, else at `out`; before
any grant, at the input tile `t`. -/
def State.closeInCore (s : State) (t out id : Nat) : State :=
  match (s.tile out).resv.find? (·.id == id) with
  | some r =>
    let sending := match (s.tile r.inTile).byId id with
      | some h => (match h.phase with
        | .granted res _ => res == r.res && h.out == out
        | _ => false)
      | none => false
    if sending then s.abortHeld r.inTile id
    else (s.modTile out fun x => { x with resv := x.resv.filter (·.res != r.res) }).inc F.BUF_CNT_A_ABORT r.inTile
  | none => if ((s.tile t).byId id).isSome then s.abortHeld t id else s

/-- A packet that waits to leave by a port, or is leaving, dropped. -/
def State.dropLeaving (s : State) (p k : Nat) : State :=
  match (s.txq p)[k]? with
  | some r => ((s.dropMember p r.res).modSched p fun x => { x with prog := x.prog.filter (· != r.res) }).noteIdle p
  | none => s

/-- A packet handed to an engine dropped without an answer. -/
def State.dropHanded (s : State) (e k : Nat) : State :=
  match (s.txq (engUnit e))[k]? with
  | some r => s.takeWhole (engUnit e) r
  | none => s

/-- An error found at a checker: its event, and the packet with a failed granule discarded where it is found (R626, R633, R635).
DEDUCED: log entry 134. -/
def State.granuleErr (s : State) (x : GranuleErr) : State := match x with
  | .corrected cls i => if implemented cls i then s.raiseAt cls i E.bitDpCe (blockCapture cls i) else s
  | .failed cls i => if implemented cls i then s.raiseAt cls i E.bitDpUe (blockCapture cls i) else s
  | .inCore t out id => (s.closeInCore t out id).raiseAt 12 t E.bitDpUe (blockCapture 12 t)
  | .atPort p k => (s.dropLeaving p k).raiseAt 11 p E.bitDpUe (blockCapture 11 p)
  | .atEngine e k => (s.dropHanded e k).raiseAt 18 e E.bitDpUe (blockCapture 18 e)
  | .bridge failed => s.raise (if failed then E.FLT_BRIDGE_UE else E.FLT_BRIDGE_CE)
  | .word bank word failed =>
    let (t, l) := bankHome bank
    let (cls, i) := bankPage t l
    let c : Capture := { blockCapture cls i with addr := field word 0 13 + field bank 13 14, acc := 1 }
    if s.bankOn t l then s.raiseAt cls i (if failed then E.bitMemUe else E.bitMemCe) c else s
  | .disarm cls i => { s with flt := { s.flt with inj := Tab.erase s.flt.inj (pageNo cls i) } }

/-- CELL_SLOT (R163, R626, R633): one slot of the core, and the errors that checkers find in it. DESIGN CHOICE: log entry 12. -/
def execCellSlot (errs : List GranuleErr) (s : State) : Host.Outcome State Fault Refusal :=
  .next (s.coreSlot.each errs State.granuleErr)

/-! ### Detectors (R635, R643, R726, R743) -/

/-- THERM_WARN (R635): a junction sensor reads `temp` °C. -/
def execThermWarn (temp : Nat) (s : State) : Host.Outcome State Fault Refusal :=
  if s.get F.FLT_CTL_THERM_WARN ≤ temp then .next (s.raise E.FLT_THERM_WARN) else .next s

/-- THERM_TRIP (R643, R726): a junction sensor reads `temp` °C; at 115 °C THERM_TRIP_N asserts until STBY_GOOD falls. -/
def execThermTrip (temp : Nat) (s : State) : Host.Outcome State Fault Refusal :=
  if 115 ≤ temp then .next (State.raise { s with pins := { s.pins with thermTrip := true } } E.FLT_THERM_TRIP) else .next s

/-- RAIL_FAULT (R635, R743): a main rail of a group has been out of limits for 5 µs, from PWR_GOOD on. -/
def execRailFault (g : RailGroup) (s : State) : Host.Outcome State Fault Refusal :=
  if s.boot.pwrGood then
    match g with
    | .main => .next (s.raise E.FLT_RAIL_MAIN)
    | .hio k => .next (s.raiseCap E.FLT_RAIL_HIO 0 (blockCapture 18 (8 * k.val)))
    | .opt e => .next (s.raiseCap E.FLT_RAIL_OPT 0 (blockCapture 9 e.val))
  else .next s

/-- REFCLK_LOSS (R635): FAB_REFCLK has been absent for 1 µs. -/
def execRefclkLoss (s : State) : Host.Outcome State Fault Refusal := .next (s.raise E.FLT_REFCLK_LOSS)

/-- CP_WATCHDOG raised (R713): the third time within 60 s of a restart sends the control processors to the other image, where that one
is valid. DEDUCED: log entry 53. -/
def State.watchdog (s : State) (c : Capture) : State :=
  let s := s.raiseCap E.FLT_CP_WATCHDOG 0 c
  let n := if s.now < s.cps.start + ns 60000000000 then s.cps.misses + 1 else 0
  let other := 1 - s.almanac.active
  if n = 3 ∧ s.almanac.valid other = true then
    let s := { s with almanac := { s.almanac with boot := other, active := other }, cps := ⟨true, false, s.now, 0⟩ }
    (s.event F.ALM_FW_FALLBACK 0).raise E.ALM_FW_FALLBACK
  else { s with cps := { s.cps with misses := n } }

/-- CP_WATCHDOG (R635, R713): a control processor misses its watchdog and is restarted. -/
def execCpWatchdog (s : State) : Host.Outcome State Fault Refusal :=
  if s.cps.halted || s.cps.busy then .next s else .next (s.watchdog (blockCapture 2 0))

/-- COLLECTOR_ERR raised (R628, R635): it acts through a path that bypasses the collector. DEDUCED: log entry 50. -/
def State.collectorErr (s : State) (c : Capture) : State :=
  let e := E.FLT_COLLECTOR_ERR
  let rose := !s.getBit (F.EVT_STAT_EVT.of 2) e.bit
  let s := (s.event (F.EVT_STAT_EVT.of 2) e.bit).pageCapture 2 0 e.bit c
  let s := if rose then s.count 2 0 4 else s
  if s.safe then s else s.enterSafe

/-- COLLECTOR_ERR (R635): a check of the collector's own state fails. -/
def execCollectorErr (s : State) : Host.Outcome State Fault Refusal := .next (s.collectorErr (blockCapture 2 0))

/-! ### FAULT_N (R644, R645) -/

/-- HEARTBEAT_EDGE (R645): in heartbeat mode FAULT_N takes the level of the half period in which MT stands. -/
def execHeartbeatEdge (s : State) : Host.Outcome State Fault Refusal :=
  if s.pins.faultMode && s.flag F.FLT_STAT_HB_RUN then .next s.refreshPins else .next s

/-- FAULT_PULSE_END (R644): 100 µs have passed; the pin stays low while ASSERT = 1. -/
def execFaultPulseEnd (s : State) : Host.Outcome State Fault Refusal :=
  match s.flt.pulseEnd with
  | some t => if t ≤ s.now then .next (State.refreshPins { s with flt := { s.flt with pulseEnd := none } }) else .next s
  | none => .next s

end Sys2Proof.Machine
end

