-- ==== Sys2Proof/Machine/Power.lean ====
section
/-!
DEFINITION. Commands of the power ladder (chapter "Power ladder and on-module memory"): tile rungs, device rungs, and the ends of exits.
-/
namespace Sys2Proof.Machine
open Sys2Proof

/-! ### Tiles (R672 to R675) -/

/-- A context has no started descriptor and no record left to write. -/
def Ctx.drained (k : Ctx) : Bool := k.events.isEmpty && k.errors.isEmpty && k.qs.all fun w => w.live.isEmpty && w.compFrom.isNone && !w.compNow

/-- An engine is drained (Table 12.2). -/
def State.engDrained (s : State) (e : Nat) : Bool :=
  let x := s.eng e
  (s.opsOf e).isEmpty && x.miss.isEmpty && x.ready.isEmpty && x.begun.isEmpty && x.colls.isEmpty && x.jobs.isEmpty && x.unissued.isEmpty && x.trackers.isEmpty
    && (s.cached e).all Ctx.drained

/-- A unit that R672 lets leave Run: no Constellation with VALID = 1, no held lock, no waiter. -/
def State.unitQuiet (s : State) (u : Nat) : Bool :=
  (s.cunit u).groups.isEmpty && (s.cunit u).waiters.isEmpty && (s.cunit u).holders.all fun h => !s.lHeld u h.1

/-- The buffers of a tile are empty (Table 12.2). -/
def State.tileEmpty (s : State) (t : Nat) : Bool :=
  let x := s.tile t
  x.fresh.isEmpty && x.held.isEmpty && x.resv.isEmpty && x.tx.isEmpty

/-- A tile may leave Run (R672). -/
def State.tileQuiet (s : State) (t : Nat) : Bool :=
  if t < 64 then s.fabricQuiet t && s.tileEmpty t
  else s.midSkipped t && s.tileEmpty t && ((List.range 4).map (4 * (t - 64) + ·)).all s.engDrained && s.unitQuiet (t - 64)

/-- A tile enters a rung; at an engine tile the RTE_FENCE bits of its engines are set (R673). -/
def State.enterTile (s : State) (t rung : Nat) : State :=
  let s := (s.set F.TILE_PWR_CUR rung t).modTile t fun x => { x with exitAt := none }
  if t < 64 then s else s.hwFenceOn t 15

/-- A commanded tile whose conditions hold enters its rung. -/
def State.tryTile (s : State) (t : Nat) : Option State :=
  let r := s.get F.TILE_PWR_RUNG t
  if 1 ≤ r ∧ r ≤ 4 ∧ s.tileQuiet t = true ∧ s.get F.TILE_PWR_CUR t ≠ r then some (s.enterTile t r) else none

/-- TILE_RUNG_CMD (R673, R675): TILE_PWR.RUNG written: 1 to 4 commands the rung, 0 starts the exit. -/
def execTileRungCmd (t : Fin 72) (rung : Fin 8) (s : State) : Host.Outcome State Fault Refusal :=
  let s := s.set F.TILE_PWR_RUNG rung t
  if rung.val = 0 then .next (s.exitTile t)
  else if rung.val ≤ 4 then
    match s.tryTile t with
    | some u => .next u
    | none => .next (s.raiseIf (s.get F.TILE_PWR_CUR t == 0) E.TILE_RUNG_REFUSED t)
  else .next s

/-- TILE_RUNG_ENTRY (R673): the conditions of a tile commanded earlier have come to hold. -/
def execTileRungEntry (t : Fin 72) (s : State) : Host.Outcome State Fault Refusal :=
  if s.get F.TILE_PWR_CUR t = 0 then .next ((s.tryTile t).getD s) else .next s

/-- TILE_AUTO_ENTRY (R674): R672 has held for IDLE at a fabric tile with AUTO_MAX from 1 to 4. -/
def execTileAutoEntry (t : Fin 64) (s : State) : Host.Outcome State Fault Refusal :=
  let most := s.get F.TILE_PWR_AUTO_MAX t
  match (s.tile t).quietSince with
  | some at_ =>
    if 1 ≤ most ∧ most ≤ 4 ∧ s.get F.TILE_PWR_CUR t = 0 ∧ s.get F.TILE_PWR_RUNG t = 0 ∧ s.tileQuiet t = true
        ∧ s.over at_ (64 * s.get F.TILE_PWR_IDLE t) 64 then .next (s.enterTile t most)
    else .next s
  | none => .next s

/-! ### The device (R676 to R678) -/

/-- A device command refused (R676). -/
def State.rungRefused (s : State) (cause : Nat) : State := (s.set F.PWR_STAT_REFUSE cause).raise E.PWR_DEV_RUNG_REFUSED

/-- What a device command asks of a port: the rung of a port that can take it, and the fall of every other (R676). -/
def State.portForRung (s : State) (rung p : Nat) : State :=
  if !s.active p then s
  else if rung ≤ 3 ∧ s.feat p 6 = true then
    if s.get F.PORT_PWR_STAT_RUNG p = 0 then (s.modPort p fun x => { x with ladCmd := some rung }).ladCommand p else s
  else s.linkDown p

/-- The device wakes from its rung (R678); from Dark, MT restarts as at cold reset and the restore starts (R44, R698). -/
def State.wakeDevice (s : State) (cause : Nat) : State :=
  let rung := s.get F.PWR_STAT_RUNG
  let s := if rung = 5 then
      let t := s.countDowns.mainReset.showPrsnt.coldTime
      let t := State.refreshPins { t with boot := ⟨s.boot.pwrGood, 1, s.boot.railOut, s.now, false⟩ }
      t.set F.PWR_STAT_RUNG 5
    else s
  let s := { s with ladder := ⟨none, some (s.now, rung)⟩ }
  ((s.set F.PWR_STAT_WAKE_CAUSE cause).raise E.PWR_WAKE).count 3 0 0x41

/-- DEVICE_RUNG_CMD (R676, R678): PWR_CTL written with GO = 1; RUNG = 0 on a rung is a wake. A fenced PWR block carries out none (R765). DESIGN CHOICE: log entry 15. -/
def execDeviceRungCmd (rung : Fin 8) (s : State) : Host.Outcome State Fault Refusal :=
  if s.blockFenced 3 then .next s
  else
    let s := s.set F.PWR_CTL_RUNG rung
    let cur := s.get F.PWR_STAT_RUNG
    if (rung.val = 0 ∨ cur = 5) ∧ cur ≠ 0 ∧ s.ladder.wakeAt = none then .next (s.wakeDevice 1)
    else if 6 ≤ rung.val ∨ rung.val = 0 then .next s
    else if (List.range 64).any s.linkUp then .next (s.rungRefused 1)
    else if s.safe then .next (s.rungRefused 2)
    else if s.ladder.goal.isSome || s.ladder.wakeAt.isSome then .next (s.rungRefused 3)
    else
      let s := { s.set F.PWR_STAT_REFUSE 0 with ladder := ⟨some rung.val, none⟩ }
      .next (s.each (List.range 1024) fun s p => s.portForRung rung p)

/-- Every unit has drained, so that the device may enter its rung (R676, Table 12.2): engines, tiles, and the ports still ACTIVE on their
rung. -/
def State.allArrived (s : State) : Bool :=
  (List.range 32).all s.engDrained
    && (s.tiles.all fun e => e.2.fresh.isEmpty && e.2.held.isEmpty && e.2.resv.isEmpty && e.2.tx.isEmpty && e.2.mid.all (·.2.isEmpty))
    && (List.range 1024).all fun p => !s.active p || s.get F.PORT_PWR_STAT_RUNG p != 0

/-- DEVICE_RUNG_ARRIVAL (R676): every unit has reached the rung. -/
def execDeviceRungArrival (s : State) : Host.Outcome State Fault Refusal :=
  match s.ladder.goal with
  | some r =>
    if s.allArrived then
      let s := { s with ladder := Ladder.reset }
      let s := s.each (List.range 72) fun s t => s.enterTile t r
      .next (((s.set F.PWR_STAT_RUNG r).raise E.PWR_DEV_RUNG_DONE).count 3 0 0x40)
    else .next s
  | none => .next s

/-- A wake source has its WAKE_EN bit and acts on the present rung (R678), with its WAKE_CAUSE. -/
def State.wakeBy (s : State) : WakeSource → Option Nat
  | .command => some 1
  | .perst => if s.getBit F.PWR_CTL_WAKE_EN 0 then some 3 else none
  | .light => if s.getBit F.PWR_CTL_WAKE_EN 1 && s.get F.PWR_STAT_RUNG != 5 then some 4 else none
  | .alarm => if s.getBit F.PWR_CTL_WAKE_EN 2 && s.get F.PWR_STAT_RUNG != 5 then some 5 else none
  | .lsrc => if s.getBit F.PWR_CTL_WAKE_EN 3 then some 6 else none

/-- DEVICE_WAKE (R678): a source wakes the device from its rung. DEDUCED: log entry 57. -/
def execDeviceWake (w : WakeSource) (s : State) : Host.Outcome State Fault Refusal :=
  if s.get F.PWR_STAT_RUNG ≠ 0 ∧ s.ladder.wakeAt = none then
    match s.wakeBy w with
    | some c => .next (s.wakeDevice c)
    | none => .next s
  else .next s

/-! ### Exits (R654, R668, R675, R678) -/

/-- A tile back in Run: the engine fences of the ladder clear (R675). -/
def State.tileInRun (s : State) (t : Nat) : State :=
  let s := (s.set F.TILE_PWR_CUR 0 t).modTile t fun x => { x with exitAt := none, quietSince := none }
  if t < 64 then s.noteQuiet t else s.hwFenceOff t 15

/-- A port of a device that wakes: an ACTIVE one begins its exit, one in bring-up trains afresh with its nonce (R95, R678). -/
def State.portWakes (s : State) (p : Nat) : State :=
  if s.active p then s.wakePort p
  else if s.get F.PORT_STAT_STATE p != stDisabled then s.enterBringup p (s.port p).retrain 0 false else s

/-- RUNG_EXIT_DONE (R654): a unit whose exit is under way is in Run. -/
def execRungExitDone (u : RungUnit) (s : State) : Host.Outcome State Fault Refusal :=
  match u with
  | .port p =>
    if (s.port p).wake.isSome && s.get F.PORT_PWR_STAT_RUNG p != 0 then
      let s := (s.set F.PORT_PWR_STAT_RUNG 0 p).set F.PORT_PWR_STAT_COMMANDED 0 p
      .next ((s.inc F.PORT_PWR_STAT_EXITS p).count 10 p 0x45)
    else .next s
  | .tile t => if (s.tile t).exitAt.isSome then .next (s.tileInRun t) else .next s
  | .lane l => if (s.owner l).isSome then .next (s.modLane l fun x => { x with rung := 0 }) else .next s
  | .device =>
    match s.ladder.wakeAt with
    | some (at_, _) =>
      let s := { s with ladder := Ladder.reset }
      let s := s.each (List.range 72) State.tileInRun
      let s := (s.set F.PWR_STAT_RUNG 0).set F.PWR_STAT_LAST_EXIT (min ((s.now - at_) / unitsPerNs) (2 ^ 32 - 1))
      .next (s.each (List.range 1024) State.portWakes)
    | none => .next s

end Sys2Proof.Machine
end

