-- ==== Sys2Proof/Machine/Almanac.lean ====
section
/-!
DEFINITION. Commands of the Almanac, of the owner and of the control processors (chapter "Start-up, the Almanac and in-service change"):
snapshots, repair records, microcode, the lifting of fences, presence, fuses, and management firmware.
-/
namespace Sys2Proof.Machine
open Sys2Proof

/-! ### Owner operations (R705 to R708) -/

/-- The presence window is open (R706, R707). -/
def State.windowOpen (s : State) : Bool := !s.presence.broken && (s.presence.low || decide (s.now < s.presence.until_))

/-- The last 16 bits of the 1 MHz pattern have matched (R706). -/
def State.sealIntact (s : State) : Bool := decide (s.presence.sealAt + ns 16000 ≤ s.now)

/-- An owner operation is accepted (R705): over MCTP or from a control processor, with the window open and the loop intact. -/
def State.ownerOk (s : State) (m : Master) : Bool := m == .mctp && s.windowOpen && s.sealIntact

/-- An owner operation refused (R705). -/
def State.ownerRefused (s : State) : State := ((s.inc F.ALM_CNT_OWNER_REFUSED).raise E.ALM_OWNER_REFUSED).count 4 0 0x43

/-- An owner operation of a party: refused, or accepted and done. -/
def State.ownerDo (s : State) (m : Master) (f : State → State) : State :=
  if s.ownerOk m then f (s.count 4 0 0x42) else s.ownerRefused

/-- The page class of an owner register. -/
def ownerClass (r : OwnerReg) : Nat := match r with
  | .prot => 4
  | .fwBoot => 4
  | .list _ => 5
  | .fusRow => 30
  | .fusData => 30

/-- An owner register written. -/
def State.setOwner (s : State) (r : OwnerReg) (v : Nat) : State := match r with
  | .prot => (s.set F.ALM_PROT_SLOT_WP (bits v 0 4)).set F.ALM_PROT_CAL_WP (bits v 4 1)
  | .fwBoot => { s with almanac := { s.almanac with boot := bits v 1 1 } }
  | .list n => ((s.set F.MGT_LIST_ENDPOINT (bits v 0 24) 0 n).set F.MGT_LIST_MASK (bits v 24 24) 0 n).set F.MGT_LIST_VALID (bits v 48 1) 0 n
  | .fusRow => s.set F.FUS_ROW_ROW (bits v 0 8)
  | .fusData => s.set F.FUS_DATA_DATA v

/-- OWNER_WRITE (R705, R765): a write of an owner register by a party; a fenced block ignores it. -/
def execOwnerWrite (m : Master) (r : OwnerReg) (v : Nat) (s : State) : Host.Outcome State Fault Refusal :=
  if s.blockFenced (ownerClass r) then .next s else .next (s.ownerDo m fun s => s.setOwner r v)

/-- PRESENCE_EDGE (R706, R707): a debounced edge of PRESENCE_N: falling opens the window, also after a break of the seal; rising leaves
60 s. DEDUCED: log entry 54. -/
def execPresenceEdge (low : Bool) (s : State) : Host.Outcome State Fault Refusal :=
  if low == s.presence.low then .next s
  else if low then .next { s with presence := { s.presence with low := true, broken := false } }
  else .next { s with presence := { s.presence with low := false, until_ := s.now + ns 60000000000 } }

/-- PRESENCE_WINDOW_EXPIRY (R706): 60 s have passed since PRESENCE_N went high. -/
def execPresenceWindowExpiry (s : State) : Host.Outcome State Fault Refusal :=
  if !s.presence.low && decide (s.presence.until_ ≤ s.now) then .next { s with presence := { s.presence with until_ := 0 } } else .next s

/-- SEAL_MISMATCH (R707): the window closes at once; a firmware transfer under way (`xfer`) is cancelled and its image invalid. -/
def execSealMismatch (xfer : Bool) (s : State) : Host.Outcome State Fault Refusal :=
  let s := { s with presence := { s.presence with broken := true, until_ := 0, sealAt := s.now } }
  let a := s.almanac
  let s := if xfer then
      { s with almanac := if a.active = 0 then { a with validB := false } else { a with validA := false } }
    else s
  .next ((s.raise E.ALM_SEAL_BROKEN).inc F.ALM_CNT_SEAL_BREAKS)

/-! ### Fuses and debug (R709, R710) -/

/-- An owner fuse row. -/
def State.fuseRow (s : State) (r : Nat) : Nat := Tab.get 0 s.presence.fuses r

/-- FUSE_PROG (R709): FUS_CTL.PROG written by a party: FUS_ROW is programmed with FUS_DATA; rows 0 to 127 are read-only. DEDUCED: log entry 55. -/
def execFuseProg (m : Master) (s : State) : Host.Outcome State Fault Refusal :=
  if s.blockFenced 30 || s.presence.prog.isSome then .next s
  else .next (s.ownerDo m fun s =>
    if s.get F.FUS_ROW_ROW < 128 then (s.event F.FUS_STAT_ERR 0).raise E.FUS_PROG_ERR
    else { s with presence := { s.presence with prog := some (s.get F.FUS_ROW_ROW, s.get F.FUS_DATA_DATA) } })

/-- PROG_DONE (R709): programming ends; `ok` tells that VFUSE was within its limits. Only bits from 0 to 1 change. -/
def execProgDone (ok : Bool) (s : State) : Host.Outcome State Fault Refusal :=
  match s.presence.prog with
  | some (r, v) =>
    let s := { s with presence := { s.presence with prog := none } }
    if ok then
      .next (State.raise { s with presence := { s.presence with fuses := Tab.insert s.presence.fuses r (Nat.lor (s.fuseRow r) v) } } E.FUS_PROG_DONE)
    else .next ((s.event F.FUS_STAT_ERR 0).raise E.FUS_PROG_ERR)
  | none => .next s

/-- DEBUG_UNLOCK (R709, R710): FUS_DEBUG.UNLOCK written by a party; refused for ever once DEBUG_LOCK is blown. -/
def execDebugUnlock (m : Master) (s : State) : Host.Outcome State Fault Refusal :=
  if s.blockFenced 30 then .next s
  else .next (s.ownerDo m fun s =>
    if bit (s.fuseRow 128) 0 then s else State.raise { s with presence := { s.presence with debug := true } } E.FUS_DEBUG_UNLOCKED)

/-! ### Snapshots (R692, R699 to R701) -/

/-- The software fields of a Constellation entry alone: VALID, NEXT, SSTATE and FENCED_BITS go (R692, R693). -/
def softColg (m : Memory) (g : Nat) : Memory :=
  let a := colgAt g
  let m := m.setWord a (setBits (m.word a) 0 1 0)
  let m := m.setWord (a + 8) (setBits (m.word (a + 8)) 32 18 0)
  m.setWord (a + 16) 0

/-- The tables of a snapshot: the active bank of each tile's route tables under its plain address, and the Constellation, child and member
tables. -/
def State.tablesOf (s : State) : List (Nat × Byte) :=
  let rte := (List.range 72).flatMap fun t =>
    let lo := bankKey (b2n (s.bankOf t)) (groupAddr t 0)
    (s.mem.filter fun c => decide (lo ≤ c.1) && decide (c.1 < lo + 2 ^ 20)).map fun c => (groupAddr t 0 + (c.1 - lo), c.2)
  let col := s.mem.filter fun c => decide (colgAt 0 ≤ c.1) && decide (c.1 < colgAt 0 + 2 ^ 32)
  let gs := ((col.filter fun c => decide (c.1 < childAt 0)).map fun c => (c.1 - colgAt 0) / 32).eraseDups
  rte ++ gs.foldl softColg col

/-- What a COMMIT captures at GO. DESIGN CHOICE: log entry 46. -/
def State.snapNow (s : State) : Snapshot :=
  ⟨s.almanac.seq + 1, s.get F.DEV_SERIAL_SN, if s.almanac.active = 0 then s.almanac.verA else s.almanac.verB, s.mtNs, s.rf.alm, s.tablesOf⟩

/-- ALM_CMD may start a command: none runs, and the block is not fenced (R699, R765). -/
def State.almFree (s : State) : Bool := s.almanac.cmd.isNone && !s.blockFenced 4

/-- The fields of ALM_CMD as written, and an Almanac command begun. -/
def State.almStart (s : State) (op slot arg : Nat) (snap : Option Snapshot) : State :=
  { s with almanac := { s.almanac with cmd := some ⟨op, slot, arg, false, snap⟩ } }

/-- ALM_CMD's fields written. -/
def State.almFields (s : State) (op slot arg : Nat) : State :=
  ((s.set F.ALM_CMD_OP op).set F.ALM_CMD_SLOT slot).set F.ALM_CMD_ARG arg

/-- COMMIT (R699 to R701): the AL fields and the tables are captured; the slot is invalid until its header is written. -/
def execCommit (slot : Fin 4) (s : State) : Host.Outcome State Fault Refusal :=
  if s.almFree then
    let s := s.almFields 1 slot (s.get F.ALM_CMD_ARG)
    if s.getBit F.ALM_PROT_SLOT_WP slot then .next ((s.set F.ALM_STAT_RESULT 2).raise E.ALM_COMMIT_FAIL)
    else
      let x := s.snapNow
      let s := { s with almanac := { s.almanac with slots := Tab.erase s.almanac.slots slot } }
      .next (s.almStart 1 slot 0 (some x))
  else .next s

/-- REPAIR_CLEAR (R704): the entry of a bank, or every entry for 0xFFFF. -/
def execRepairClear (arg : Fin 65536) (s : State) : Host.Outcome State Fault Refusal :=
  if s.almFree then
    let s := s.almFields 2 (s.get F.ALM_CMD_SLOT) arg
    if arg.val < 10496 ∨ arg.val = 0xFFFF then .next (s.almStart 2 0 arg none) else .next (s.set F.ALM_STAT_RESULT 5)
  else .next s

/-- ERASE (R705, R711): an owner operation that erases the regions of a mask. -/
def execErase (m : Master) (mask : Fin 65536) (s : State) : Host.Outcome State Fault Refusal :=
  if s.almFree then .next (s.ownerDo m fun s => (s.almFields 3 (s.get F.ALM_CMD_SLOT) mask).almStart 3 0 mask none) else .next s

/-- An engine may take new microcode (R718). -/
def State.ucodeOk (s : State) (e : Nat) : Bool :=
  ([0, 1].all fun n => !s.flag F.CTX_RANGE_EN e n && !s.flag F.CTX_RANGE_HOLD e n) && (s.cached e).isEmpty
    && (e % 4 != 0 || (!s.flag F.LCK_CTL_EN (unitOf e) && (s.cunit (unitOf e)).groups.isEmpty))

/-- UCODE (R718): the engine is fenced for the load. -/
def execUcode (arg : Fin 65536) (s : State) : Host.Outcome State Fault Refusal :=
  if s.almFree then
    let s := s.almFields 4 (s.get F.ALM_CMD_SLOT) arg
    if 32 ≤ arg.val then .next (s.set F.ALM_STAT_RESULT 5)
    else if s.ucodeOk arg then .next ((s.almStart 4 0 arg none).hwFenceOn (tileOfEng arg) (2 ^ (arg.val % 4)))
    else .next (s.set F.ALM_STAT_RESULT 4)
  else .next s

/-- The older calibration copy rewritten (R696, R699). DEDUCED: log entry 47. -/
def State.calWrite (s : State) (fields : Tab Nat) : State :=
  let a := s.almanac
  let age : Nat → Nat := fun n => ((a.cal.find? (·.1 == n)).map (·.2.1)).getD 0
  let n := if age 1 < age 0 then 1 else 0
  { s with almanac := { a with calSeq := a.calSeq + 1, cal := Tab.insert a.cal n (a.calSeq + 1, fields.filter fun e => isCal e.1) } }

/-- A COMMIT ends (R699, R700). -/
def State.commitEnd (s : State) (c : AlmCmd) (ok : Bool) : State :=
  if c.changed then ((s.set F.ALM_STAT_RESULT 1).raise E.ALM_COMMIT_FAIL).count 4 0 0x41
  else if !ok then s.set F.ALM_STAT_RESULT 3
  else match c.snap with
    | none => s
    | some x =>
      let s := { s with almanac := { s.almanac with seq := s.almanac.seq + 1, slots := Tab.insert s.almanac.slots c.slot { x with mt := s.mtNs } } }
      let s := if s.flag F.ALM_PROT_CAL_WP then s else s.calWrite x.fields
      (((s.set F.ALM_STAT_RESULT 0).inc F.ALM_CNT_COMMITS).raise E.ALM_COMMIT_DONE).count 4 0 0x40

/-- An ERASE ends (R711): bit 0 the snapshots whose slot is not protected, 1 calibration, 2 repair record, 3 the inactive image. DEDUCED: log entry 48. -/
def State.eraseEnd (s : State) (mask : Nat) : State :=
  let a := s.almanac
  let a := if bit mask 0 then { a with slots := a.slots.filter fun e => s.getBit F.ALM_PROT_SLOT_WP e.1 } else a
  let a := if bit mask 1 then { a with cal := [] } else a
  let a := if bit mask 2 then { a with repair := [] } else a
  let a := if bit mask 3 then (if a.active = 0 then { a with validB := false } else { a with validA := false }) else a
  ({ s with almanac := a }).set F.ALM_STAT_RESULT 0

/-- A UCODE load ends (R718): the fence clears and the new version shows; unit j of engine 4j starts empty. -/
def State.ucodeEnd (s : State) (e : Nat) : State :=
  let a := s.almanac
  let v := Config.microcode (if a.active = 0 then a.verA else a.verB)
  let s := { s with almanac := { a with ucode := Tab.insert a.ucode e v } }
  let s := s.hwFenceOff (tileOfEng e) (2 ^ (e % 4))
  let s := if e % 4 = 0 then (s.discardUnit (unitOf e)).emptyUnit (unitOf e) else s
  (s.set F.ALM_STAT_RESULT 0).count 4 0 0x44

/-- ALM_CMD_END (R699): the command in progress ends; `ok` tells that the MRAM was written. -/
def execAlmCmdEnd (ok : Bool) (s : State) : Host.Outcome State Fault Refusal :=
  match s.almanac.cmd with
  | none => .next s
  | some c =>
    let s := { s with almanac := { s.almanac with cmd := none } }
    if c.op = 1 then .next (s.commitEnd c ok)
    else if c.op = 4 then .next (s.ucodeEnd c.arg)
    else if !ok then .next (s.set F.ALM_STAT_RESULT 3)
    else if c.op = 3 then .next (s.eraseEnd c.arg)
    else
      let l := if c.arg = 0xFFFF then [] else s.almanac.repair.filter (·.1 != c.arg)
      .next (({ s with almanac := { s.almanac with repair := l } }).set F.ALM_STAT_RESULT 0)

/-! ### Lifting a Degrade fence (R715) -/

/-- A number out of a list. -/
def without (l : List Nat) (n : Nat) : List Nat := l.filter (· != n)

/-- Ports of a list of lanes that are in bring-up transmit again from now. DESIGN CHOICE: log entry 118. -/
def State.relight (s : State) (lanes : List Nat) : State :=
  s.each (s.portsOn lanes) fun s p =>
    if s.get F.PORT_STAT_STATE p = stBringup then (s.transmit p true).modPort p fun x => { x with start := s.now } else s

/-- The Degrade fence of a unit lifted, or none where it has no such fence. DEDUCED: log entry 56. -/
def State.lift (s : State) (cls i : Nat) : Option State :=
  if cls = 8 then if (s.lane i).fenced then some (s.modLane i fun x => { x with fenced := false }) else none
  else if cls = 9 then
    if (s.optic i).fenced then some ((s.modOpt i fun x => { x with fenced := false }).relight (lanesOfOpt i)) else none
  else if cls = 10 ∨ cls = 11 then
    if (s.port i).fenced then
      some (((s.modPort i fun x => { x with fenced := false }).hwFenceOff (tileOf i) (2 ^ (i % 16))).portStart i) else none
  else if (12 ≤ cls ∧ cls ≤ 15) ∨ cls = 29 then
    if s.flag F.TILE_FENCE_FULL i && s.get F.TILE_FENCE_REASON i == 2 then some (s.releaseTile i false) else none
  else if 18 ≤ cls ∧ cls ≤ 23 then
    if s.flt.engFence.contains i then
      let s := { s with flt := { s.flt with engFence := without s.flt.engFence i } }
      some ((s.hwFenceOff (tileOfEng i) (2 ^ (i % 4))).afterwards i s.now) else none
  else if cls = 17 ∨ cls = 24 ∨ cls = 25 then
    if s.flt.unitFence.contains i then
      let s := { s with flt := { s.flt with unitFence := without s.flt.unitFence i } }
      some ((s.hwFenceOff (64 + i) 15).each ((List.range 4).map (4 * i + ·)) fun s e => s.afterwards e s.now) else none
  else if 26 ≤ cls ∧ cls ≤ 28 then
    if (s.hport i).fenced then some (s.modHport i fun x => { x with fenced := false }) else none
  else if s.blockFenced cls then some { s with flt := { s.flt with blockFence := without s.flt.blockFence cls } }
  else none

/-- The fence of a bank lifted, with its repair entry (R704, R715). -/
def State.liftBank (s : State) (n : Nat) : Option State :=
  if s.flt.bankFence.contains (bankHome n) then
    some { s with flt := { s.flt with bankFence := s.flt.bankFence.filter (· != bankHome n) },
                  almanac := { s.almanac with repair := s.almanac.repair.filter (·.1 != n), repairDue := s.almanac.repairDue.filter (·.1 != n) } }
  else none

/-- ALM_UNFENCE (R715): GO written with CLASS, INSTANCE, BANK and SCOPE. -/
def execAlmUnfence (cls : Fin 64) (i : Fin 1024) (bank : Fin 16384) (scope : Fin 4) (s : State) : Host.Outcome State Fault Refusal :=
  if s.blockFenced 4 then .next s
  else
    let s := ((s.set F.ALM_UNFENCE_CLASS cls).set F.ALM_UNFENCE_INSTANCE i).set F.ALM_UNFENCE_BANK bank
    let s := s.set F.ALM_UNFENCE_SCOPE scope
    if s.safe then .next (s.set F.ALM_UNFENCE_ERR 2)
    else
      let lifted := if scope.val = 0 then (if implemented cls i then s.lift cls i else none)
        else if scope.val = 1 then s.liftBank bank else none
      match lifted with
      | some t => .next ((t.set F.ALM_UNFENCE_ERR 0).raise E.ALM_UNFENCE_DONE)
      | none => .next (s.set F.ALM_UNFENCE_ERR 1)

/-- REFUSAL_PERIOD_END (R485, R715): an engine serves non-idempotent requests again. -/
def execRefusalPeriodEnd (e : Fin 32) (s : State) : Host.Outcome State Fault Refusal :=
  if (s.eng e).refuseTo ≤ s.now then .next (s.modEng e fun x => { x with refuseTo := 0 }) else .next s

/-- INJECT_PAUSE_END (R485, R715): an engine injects requests again. -/
def execInjectPauseEnd (e : Fin 32) (s : State) : Host.Outcome State Fault Refusal :=
  if (s.eng e).pauseTo ≤ s.now then .next (s.modEng e fun x => { x with pauseTo := 0 }) else .next s

/-! ### Management firmware (R712, R713) -/

/-- FW_IMAGE_ACCEPT (R705, R712): a PLDM image of a version is offered for acceptance into the inactive slot; `crc` tells that its CRC
checks. -/
def execFwImageAccept (version : Fin 65536) (crc : Bool) (s : State) : Host.Outcome State Fault Refusal :=
  if s.blockFenced 4 then .next s
  else if !s.ownerOk .mctp then .next s.ownerRefused
  else if !crc then .next s
  else
    let a := s.almanac
    let s := s.count 4 0 0x42
    if a.active = 0 then .next { s with almanac := { a with verB := version, validB := true } }
    else .next { s with almanac := { a with verA := version, validA := true } }

/-- FW_RESTART (R712): ALM_FW.RESTART written: the control processors restart on the image that BOOT names. -/
def execFwRestart (s : State) : Host.Outcome State Fault Refusal :=
  if s.blockFenced 4 then .next s else .next { s with cps := ⟨true, false, s.now, 0⟩ }

/-- CP_RESTART_DONE (R712, R713): the restart ends, on the BOOT image, on the other one, or halted. -/
def execCpRestartDone (s : State) : Host.Outcome State Fault Refusal := if s.cps.busy then .next s.cpsBoot else .next s

end Sys2Proof.Machine
end

