-- ==== Sys2Proof/Machine/RegRead.lean ====
section
/-!
DEFINITION. What a register reads as (R8, R14 to R16, R552, R590 to R596): the fields of a page at an offset, and the fields that
hardware computes from the state of the units.
-/
namespace Sys2Proof.Machine
open Sys2Proof

/-! ### Offsets (R590, R592, R593) -/

/-- Class, instance and page offset of the register at a 28-bit offset. -/
def offCls (o : Nat) : Nat := o / 2 ^ 22 % 64
def offInst (o : Nat) : Nat := o / 2 ^ 12 % 1024
def offReg (o : Nat) : Nat := o % 4096 / 8 * 8

/-- The index at which a field stands at an offset of its page. -/
def Fld.index (f : Fld) (o : Nat) : Option Nat :=
  if f.stride = 0 then (if o = f.off then some 0 else none)
  else if f.off ≤ o ∧ (o - f.off) % f.stride = 0 ∧ (o - f.off) / f.stride < f.cnt then some ((o - f.off) / f.stride) else none

/-- The fields of the register at an offset of a class's pages: field, array index, sub-index. -/
def fieldsAt (cls o : Nat) : List (Fld × Nat × Nat) :=
  (F.fieldsOfHdr.map (·.of cls) ++ F.ofClass cls).flatMap fun f => match f.index o with
    | some n => (List.range f.subn).map fun k => (f, n, k)
    | none => []

/-- The page that holds a field: SCH_GRP is one state for every SCH page (Table 7.5). -/
def Fld.page (f : Fld) (i : Nat) : Nat := if f = F.SCH_GRP_EN then 0 else i

/-- Whether the field exists at an instance and an index: counters that the page lacks (R267), SPLIT outside instances 4p (R587),
shapers (R251) and ports that an engine tile lacks, the engine minimum of a fabric tile, AUTO_MAX of an engine tile (Table 18.7), and slots of the reserved class (R625). -/
def Fld.present (f : Fld) (i n k : Nat) : Bool :=
  if f = F.PMC_COUNT.of f.cls ∨ f = F.PMC_SAT.of f.cls then decide (n < pmcNum f.cls)
  else if f = F.PMC_SEL_EV.of f.cls then decide (k < pmcNum f.cls)
  else if f = F.HPT_CTL_SPLIT then i % 4 == 0
  else if f.cls = 13 ∧ f.off = 0x200 then decide (n < (portsOf i).length)
  else if f.cls = 15 ∧ 0x400 ≤ f.off then decide (i < 64 ∨ n < 64)
  else if f = F.BUF_IN_ENG_MIN then decide (64 ≤ i)
  else if f = F.TILE_PWR_AUTO_MAX then decide (i < 64)
  else if f = F.FLT_SEV_SEV ∨ f = F.FLT_SEV_MSI then decide (n < 124)
  else if f = F.FLT_PEND_PEND then decide (n < 31)
  else if f = F.FLT_CE_CNT_CNT then decide (n < 248)
  else true

/-! ### Header fields (R595, R596, R625, R632) -/

/-- The unit of a page is fenced: STAT.FENCED. -/
def State.pageFenced (s : State) (cls i : Nat) : Bool :=
  if cls = 8 then (s.lane i).fenced
  else if cls = 9 then (s.optic i).fenced
  else if cls = 10 ∨ cls = 11 then s.fenceHeld i || s.portFence i
  else if (12 ≤ cls ∧ cls ≤ 15) ∨ cls = 29 then s.flag F.TILE_FENCE_FULL i
  else if 18 ≤ cls ∧ cls ≤ 23 then
    s.engFence i || s.flt.engFence.contains i || s.flt.unitFence.contains (unitOf i) || s.flt.hioFence.contains (dieOfEng i)
  else if cls = 17 ∨ cls = 24 ∨ cls = 25 then s.flt.unitFence.contains i || s.flt.hioFence.contains (i / 2)
  else if 26 ≤ cls ∧ cls ≤ 28 then (s.hport i).fenced || s.flt.hioFence.contains (dieOfPort i)
  else s.blockFenced cls

/-- The rung of a page's unit: STAT.RUNG. DEDUCED: log entry 60. -/
def State.pageRung (s : State) (cls i : Nat) : Nat :=
  if cls = 8 then match s.owner i with
    | some p => s.get F.PORT_PWR_STAT_RUNG p
    | none => s.get F.LANE_PWR_IDLE_RUNG i
  else if cls = 10 ∨ cls = 11 then s.get F.PORT_PWR_STAT_RUNG i
  else if (12 ≤ cls ∧ cls ≤ 15) ∨ cls = 29 then s.get F.TILE_PWR_CUR i
  else if 18 ≤ cls ∧ cls ≤ 23 then s.get F.TILE_PWR_CUR (tileOfEng i)
  else if cls = 17 ∨ cls = 24 ∨ cls = 25 then s.get F.TILE_PWR_CUR (64 + i)
  else 0

/-- The header fields that hardware sets. DEDUCED: log entry 17. -/
def State.shownHdr (s : State) (cls i : Nat) (f : Fld) : Option Nat :=
  let has := fun (g : Fld) => decide (f = g.of cls)
  let page := pageNo cls i
  if has F.ID_CODE then some 0x5951
  else if has F.ID_CLASS then some cls
  else if has F.ID_INSTANCE then some i
  else if has F.ID_VERSION then some (Config.blockVersion cls)
  else if has F.CAP_NEVT then some 64
  else if has F.CAP_SHADOW then some (b2n (shadowClass cls))
  else if has F.CAP_EPOCH then some (b2n (shadowClass cls))
  else if has F.CAP_AL then some 1
  else if has F.STAT_RUNG then some (s.pageRung cls i)
  else if has F.STAT_FENCED then some (b2n (s.pageFenced cls i))
  else if has F.EVT_BASE_BASE then some (64 * cls)
  else if has F.INJ_PEND then some (b2n (s.flt.inj.any (·.1 == page)))
  else if has F.CYC_COUNT then some s.clk.cyc
  else if has F.PMC_CTL_FILT_EN ∧ cls ≠ 18 then some 0
  else if has F.PMC_CTL_NUM then some (pmcNum cls)
  else if has F.SHADOW_CTL_PEND then some (b2n (s.capturePending page))
  else if has F.SHADOW_CTL_ARMED then some (b2n (s.rf.armed.any (·.1 == page)))
  else if has F.SHADOW_CTL_SLOT then some (Tab.get 0 s.rf.armed page)
  else none

/-! ### Computed fields of the classes -/

/-- FLT_SUM: classes with an enabled event in some page (R638). -/
def State.fltSum (s : State) : Nat :=
  ((List.range 31).map fun c =>
    b2n (s.rf.regs.any fun e =>
      e.1 / 64 % 4096 == 0x20 && e.1 / 64 / 4096 / 1024 == c
        && Nat.land e.2 (s.get (F.EVT_EN_EN.of c) (e.1 / 64 / 4096 % 1024)) != 0) * 2 ^ c).sum

/-- DEV, MT, FLT and PWR. -/
def State.shownDev (s : State) (f : Fld) : Option Nat :=
  if f = F.DEV_INFO_PART then some 0x0F90
  else if f = F.MT_NOW_NS then some s.mtNs
  else if f = F.MT_STAT_ERR_NS then some (min s.errNow 0xFFFF)
  else if f = F.FLT_STAT_ALERT then some (b2n s.pins.alert)
  else if f = F.FLT_STAT_MODE then some (b2n s.pins.faultMode)
  else if f = F.FLT_STAT_HB_RUN then some (b2n (s.flag f && !s.safe && !s.flag F.FLT_PIN_CTL_ASSERT))
  else if f = F.FLT_STAT_BUSY then some (b2n (decide (s.now < s.flt.busyUntil)))
  else if f = F.FLT_SUM_CLASS then some s.fltSum
  else if f = F.PWR_STAT_BUSY then some (b2n (s.ladder.goal.isSome || s.ladder.wakeAt.isSome))
  else none

/-- ALM and FUS. DEDUCED: log entry 26. -/
def State.shownAlm (s : State) (f : Fld) (n k : Nat) : Option Nat :=
  let a := s.almanac
  let slot := s.snapOf n
  if f = F.ALM_STAT_BUSY then some (b2n a.cmd.isSome)
  else if f = F.ALM_STAT_PRESENCE then some (b2n s.windowOpen)
  else if f = F.ALM_STAT_SEAL then some (b2n (s.sealIntact && !s.presence.broken))
  else if f = F.ALM_SLOT_SEQ then some ((slot.map Snapshot.seq).getD 0)
  else if f = F.ALM_SLOT_VALID then some (b2n slot.isSome)
  else if f = F.ALM_SLOT_MT_MT then some ((slot.map Snapshot.mt).getD 0)
  else if f = F.ALM_FW_ACTIVE then some a.active
  else if f = F.ALM_FW_BOOT then some a.boot
  else if f = F.ALM_FW_VER_A then some a.verA
  else if f = F.ALM_FW_VER_B then some a.verB
  else if f = F.ALM_FW_VALID_A then some (b2n a.validA)
  else if f = F.ALM_FW_VALID_B then some (b2n a.validB)
  else if f = F.ALM_REPAIR_COUNT then some a.repair.length
  else if f = F.ALM_REPAIR_FULL then some (b2n (decide (1024 ≤ a.repair.length)))
  else if f = F.ALM_UCODE_VER_VER then some (Tab.get (Config.factoryVersion (4 * n + k)) a.ucode (4 * n + k))
  else if f = F.FUS_STAT_BUSY then some (b2n s.presence.prog.isSome)
  else if f = F.FUS_STAT_DEBUG_LOCK then some (b2n (bit (s.fuseRow 128) 0))
  else if f = F.FUS_DEBUG_UNLOCKED then some (b2n s.presence.debug)
  else none

/-- MGT. -/
def State.shownMgt (s : State) (f : Fld) : Option Nat :=
  if f = F.MGT_MBOX_BUSY then some (b2n s.mgmt.mbox.isSome)
  else if f = F.MGT_STAT_QUEUE then some s.mgtQueue
  else if f = F.MGT_STAT_CACHE then some s.mgmt.cache.length
  else none

/-- LNK, BUF and CORE. -/
def State.shownFab (s : State) (f : Fld) (i n : Nat) : Option Nat :=
  let q := (portsOf i).getD n 0
  if f = F.LNK_REPLAY_USED then some (s.replayUsed i)
  else if f = F.LNK_CR_POOL_POOL_USED then some (s.poolUsed i)
  else if f = F.LNK_CR_STAT_OUT then some (divUp (s.grantOut i n) 4)
  else if f = F.LNK_CR_STAT_HELD then some (s.cellsHeld i n)
  else if f = F.LNK_CR_STAT_TX_AVAIL then some (s.txAvail i n)
  else if f = F.CORE_STAT_MID_ACTIVE then some (72 - ((List.range 72).filter s.midSkipped).length)
  else if f = F.CORE_STAT_DRAINING then some (b2n !s.core.draining.isEmpty)
  else if f = F.BUF_STAT_OVER_QUOTA then some (b2n (s.overQuota i))
  else if f = F.BUF_STAT_OVQ_PORTS then
    some (((portsOf i).map fun p => b2n (decide (s.get F.BUF_PORT_QUOTA i (slotIn i p) < s.occ i p)) * 2 ^ slotIn i p).sum)
  else if f = F.BUF_STAT_MID_SHARED_USED then some (s.midSharedUsed i)
  else if f = F.BUF_STAT_OUT_SHARED_USED then some (s.outSharedUsed i)
  else if f = F.BUF_MID_OCC_USED then some (s.midUsed i)
  else if f = F.BUF_PORT_OCC then some (s.occ i q)
  else if f = F.BUF_PORT_OVER then some (b2n (decide (s.get F.BUF_PORT_QUOTA i n < s.occ i q)))
  else none

/-- COL, LCK and DUP. -/
def State.shownUnit (s : State) (f : Fld) (i : Nat) : Option Nat :=
  let u := s.cunit i
  if f = F.COL_STAT_SLOTS_FREE then some (s.slotsFree i)
  else if f = F.COL_STAT_GROUPS then some u.groups.length
  else if f = F.COL_STAT_OPEN then some u.seqs.length
  else if f = F.LCK_STAT_HELD then some (u.holders.filter fun h => s.lHeld i h.1).length
  else if f = F.LCK_STAT_WAITERS then some u.waiters.length
  else if f = F.DUP_STAT_USED then some u.dup.length
  else none

/-- ENG to XLT. DESIGN CHOICE: log entry 22. -/
def State.shownEng (s : State) (f : Fld) (i : Nat) : Option Nat :=
  let x := s.eng i
  if f = F.ENG_STAT_OPS then some ((s.opsOf i).length + s.collOps i none)
  else if f = F.ENG_STAT_CACHED then some (s.cached i).length
  else if f = F.ENG_STAT_MISS then some x.miss.length
  else if f = F.ENG_STAT_HOT then some (s.hotQueues i)
  else if f = F.ENG_BOOST_USED then some x.boosts.length
  else if f = F.CTX_CMD_STAT_BUSY then some (b2n x.cmd.isSome)
  else if f = F.WQ_STAT_DC_USED then some (s.dcUsed i)
  else if f = F.RMA_STAT_TRACKERS then some x.trackers.length
  else if f = F.RMA_STAT_CC_USED then some x.cc.length
  else if f = F.RMA_STAT_STG_USED then some (s.stgUsed i)
  else if f = F.MAT_STAT_POSTED then some x.posted.length
  else if f = F.MAT_STAT_UNEXP then some (x.unexpIn none)
  else if f = F.MAT_STAT_STREAMS then some (x.tx.length + x.rx.length)
  else if f = F.MAT_STAT_OVF_CTX then some ((s.cached i).filter (·.ovf)).length
  else if f = F.XLT_STAT_TLB_USED then some x.tlb.length
  else if f = F.XLT_STAT_WALKS then some (x.walks.filter (·.running)).length
  else if f = F.XLT_STAT_WC_USED then some x.wc.length
  else if f = F.XLT_INVAL_BUSY then some (b2n (s.invalBusy i))
  else none

/-- A bit per PF whose function meets a condition. -/
def State.pfBits (s : State) (h : Nat) (p : FuncSt → Bool) : Nat := ((List.range 8).map fun i => b2n (p (s.fn h i)) * 2 ^ i).sum

/-- HPT, WIN and FUN. -/
def State.shownHost (s : State) (f : Fld) (i n : Nat) : Option Nat :=
  if f = F.HPT_STAT_FORMED then some (b2n (s.hport i).formed)
  else if f = F.HPT_STAT_PERST then some (b2n (s.hport i).perst)
  else if f = F.HPT_STAT_NP_OUT then some (s.npOut i)
  else if f = F.FUN_STAT_FLR_BUSY then some (s.pfBits i fun x => x.flrAt.isSome)
  else if f = F.FUN_STAT_D3 then some (s.pfBits i (·.d3))
  else if f = F.WIN_COMMIT_PEND then some (b2n (s.capturePending (pageNo 27 i)))
  else if f = F.FUN_PF_EN ∧ n = 0 then some 1
  else if f = F.FUN_PF_VECTORS ∨ f = F.FUN_VF_VECTORS then some (max 1 (s.get f i n))
  else none

/-- A field that hardware computes, by its class. -/
def State.shown (s : State) (f : Fld) (i n k : Nat) : Option Nat :=
  if f.off < 0x100 then s.shownHdr f.cls i f
  else if f.cls ≤ 3 then s.shownDev f
  else if f.cls = 4 ∨ f.cls = 30 then s.shownAlm f n k
  else if f.cls = 5 then s.shownMgt f
  else if f.cls = 11 ∨ f.cls = 13 ∨ f.cls = 16 then s.shownFab f i n
  else if f.cls = 17 ∨ f.cls = 24 ∨ f.cls = 25 then s.shownUnit f i
  else if f = F.RTE_STAT_HW_FENCE then some (s.hwCause i)
  else if f = F.SHP_TOK_TOK then some (ofSigned (s.tok i n) 40)
  else if 18 ≤ f.cls ∧ f.cls ≤ 23 then s.shownEng f i
  else if 26 ≤ f.cls ∧ f.cls ≤ 28 then s.shownHost f i n
  else none

/-! ### Reads (R8, R14, R15, R552, R591) -/

/-- What a field reads as (Table 0.2). -/
def State.fieldRead (s : State) (f : Fld) (i n k : Nat) : Nat :=
  if !f.present i n k then 0
  else match s.shown f i n k with
    | some v => v % 2 ^ f.w
    | none => match f.acc with
      | .wo => 0
      | .rws => if s.flag (F.SHADOW_CTL_VIEW_ACTIVE.of f.cls) i then s.get f i n k else s.getShadow f i n k
      | _ => s.get f (f.page i) n k

/-- Pages that read as 0: host-port instances that are not the first quarter of a link (R552). DEDUCED: log entry 23. -/
def State.pageDark (s : State) (cls i : Nat) : Bool := decide (26 ≤ cls ∧ cls ≤ 28) && i % 4 != 0 && !(s.hport i).formed

/-- The value of the 8-byte register at an offset; an offset that no register occupies reads as 0 (R15, R16, R593). -/
def State.regValue (s : State) (o : Nat) : Nat :=
  let cls := offCls o
  let i := offInst o
  if implemented cls i && !s.pageDark cls i then
    ((fieldsAt cls (offReg o)).map fun x => s.fieldRead x.1 i x.2.1 x.2.2 * 2 ^ (x.1.lo + x.1.sub * x.2.2)).sum
  else 0

end Sys2Proof.Machine

namespace Sys2Proof

/-- The part of a register's value that an access covers (R591). -/
def Half.cut : Half → Nat → Nat
  | .whole, v => v % 2 ^ 64
  | .lo, v => v % 2 ^ 32
  | .hi, v => v / 2 ^ 32 % 2 ^ 32

/-- The bits of a register that an access covers, and a written value at their place (R591). -/
def Half.mask : Half → Nat
  | .whole => 2 ^ 64 - 1
  | .lo => 2 ^ 32 - 1
  | .hi => 2 ^ 64 - 2 ^ 32
def Half.place : Half → Nat → Nat
  | .whole, v => v % 2 ^ 64
  | .lo, v => v % 2 ^ 32
  | .hi, v => v % 2 ^ 32 * 2 ^ 32

end Sys2Proof

namespace Sys2Proof.Machine
open Sys2Proof

/-- A register read: its value, and what the read does: MT_NOW latches MT_FRAC (R40). -/
def State.regRead (s : State) (o : Nat) (h : Half) : State × Nat :=
  let s := if offCls o = 1 ∧ offInst o = 0 ∧ offReg o = F.MT_NOW_NS.off then s.set F.MT_FRAC_FRAC s.mtFrac else s
  (s, h.cut (s.regValue o))

end Sys2Proof.Machine
end

