-- ==== Sys2Proof/Machine/Mbox.lean ====
section
/-!
DEFINITION. The management endpoint as a sender (R616 to R618): the packets it injects, the mailbox, and the expiry of its reply cache.
-/
namespace Sys2Proof.Machine
open Sys2Proof

/-- The port of arrival of a packet that the management endpoint sends (R217). DEDUCED: log entry 34. -/
def mgtPort : Nat := 0x3FF

/-- A packet of the management endpoint: SRC with engine 0, BIRTH, EP from the active bank of tile 64, TU and HOPS filled (Table 6.1,
R60, R225, R618). -/
def State.mgtStamped (s : State) (q : Packet) : Packet :=
  { q with src := s.selfEp 0, birth := s.stamp, ep := s.bankOf 64, tu := s.isUnsure, hops := 0 }

/-- A packet presented by the management endpoint to the core, at the input side of tile 64. -/
def State.mgtSend (s : State) (q : Packet) : State :=
  let f := s.fresh q mgtPort
  let s := { s with core := { s.core with nextId := s.core.nextId + 1 } }
  s.modTile 64 fun x => { x with fresh := x.fresh ++ [f] }

/-- TAG of a management packet (Table 16.6). -/
def mTag (q : Packet) : Nat := bits q.w2 16 16

/-- A time of MGT_CTL in ns, multiplied in UNSURE and for TU = 1 (R619). -/
def State.mgtRto (s : State) (tu : Bool) : Nat := s.stretch tu (1000 * s.get F.MGT_CTL_RTO)
def State.replyLife (s : State) (tu : Bool) : Nat := s.stretch tu (1000 * s.get F.MGT_CTL_REPLY_LIFE)

/-! ### The mailbox (R618) -/

/-- The request that MGT_HDR and MGT_BUF hold. -/
def State.mboxPacket (s : State) : Packet :=
  let q := packetOf ((List.range 8).map fun k => s.get F.MGT_HDR_WORD 0 k) []
  let buf := bytesOfWords ((List.range 256).map fun k => s.get F.MGT_BUF_WORD 0 k)
  { q with data := (buf ++ List.replicate (q.len - buf.length) 0).take q.len }

/-- MGT_MBOX_GO (R618, R765): GO written; ignored while BUSY = 1, and by a fenced block. -/
def execMgtMboxGo (s : State) : Host.Outcome State Fault Refusal :=
  if s.mgmt.mbox.isSome || s.blockFenced 5 then .next s
  else
    let q := s.mgtStamped s.mboxPacket
    .next (State.mgtSend { s with mgmt := { s.mgmt with mbox := some (q, 0, s.now) } } q)

/-- The mailbox is done. -/
def State.mboxDone (s : State) (status : Nat) : State :=
  let s := { s with mgmt := { s.mgmt with mbox := none } }
  ((s.set F.MGT_MBOX_STATUS status).event F.MGT_MBOX_DONE 0).raise E.MGT_MBOX_DONE

/-- MGT_MBOX_RESEND (R618): RTO has passed without a response: the request is sent again, or after RETRIES resends the mailbox
fails with STATUS 0x10. -/
def execMgtMboxResend (s : State) : Host.Outcome State Fault Refusal :=
  match s.mgmt.mbox with
  | some (q, n, at_) =>
    if s.over at_ (s.mgtRto q.tu) 1000 && !s.blockFenced 5 then
      if n < s.get F.MGT_CTL_RETRIES then
        let q := s.mgtStamped q
        .next ((State.mgtSend { s with mgmt := { s.mgmt with mbox := some (q, n + 1, s.now) } } q).count 5 0 0x44)
      else .next ((s.event F.MGT_MBOX_FAIL 0).mboxDone 0x10)
    else .next s
  | none => .next s

/-- A packet delivered to the management endpoint taken from its queue, with the port of its arrival. -/
def State.mgtTake (s : State) (q : Packet) : Option (Nat × State) :=
  match takeFirst (fun x => x.1 == q) s.core.mgtRx with
  | some (x, l) => some (x.2, { s with core := { s.core with mgtRx := l } })
  | none => none

/-- The response written to MGT_HDR and MGT_BUF. DEDUCED: log entry 35. -/
def State.mboxStore (s : State) (q : Packet) : State :=
  let s := s.each (q.words.zip (List.range 8)) fun s x => s.hw F.MGT_HDR_WORD x.1 0 x.2
  let l := wordsOfBytes (divUp (min q.data.length 2048) 8) q.data
  s.each (l.zip (List.range 256)) fun s x => s.hw F.MGT_BUF_WORD x.1 0 x.2

/-- RESPONSE (R618): a management response that has reached the endpoint: with the TAG of the mailbox's request it completes it. -/
def execResponse (q : Packet) (s : State) : Host.Outcome State Fault Refusal :=
  if isResponse q then
    match s.mgtTake q with
    | some (_, t) =>
      match t.mgmt.mbox with
      | some (r, _, _) => if mTag r = mTag q ∧ !t.blockFenced 5 then .next ((t.mboxStore q).mboxDone (bits q.w2 8 8)) else .next t
      | none => .next t
    | none => .next s
  else .next s

/-! ### The reply cache (R616) -/

/-- REPLY_CACHE_EXPIRY (R616): the entry of (SRC, TAG) reaches its expiry and is freed. -/
def execReplyCacheExpiry (src tag : Nat) (s : State) : Host.Outcome State Fault Refusal :=
  .next { s with mgmt := { s.mgmt with cache := s.mgmt.cache.filter fun r => !(r.src == src && r.tag == tag && decide (r.expiry ≤ s.now)) } }

end Sys2Proof.Machine
end

