-- ==== Sys2Proof/Machine/Regs.lean ====
section
/-!
DEFINITION. Register writes (R8, R14 to R17, R591): fields by their access codes, the registers whose write does more, EVT_FORCE
(R598) and INJ (R640).
-/
namespace Sys2Proof.Machine
open Sys2Proof

/-- The state that a command leads to. -/
def State.did (s : State) (o : Host.Outcome State Fault Refusal) : State := match o with
  | .next t => t
  | _ => s

/-! ### Fields by their access codes (R8, R591) -/

/-- The bits of `old` outside a mask, and those of `new` inside it. -/
def masked (old new m : Nat) : Nat := old - Nat.land old m + Nat.land new m

/-- What a severity field stores: 5 to 7 become 4, and the fixed slots keep 4 (R628). -/
def sevStored (slot v : Nat) : Nat :=
  if slot = 64 * 2 + E.FLT_THERM_TRIP.bit ∨ slot = 64 * 2 + E.FLT_COLLECTOR_ERR.bit then 4 else min 4 v

/-- One field written under a mask of its register; INJ.MASK ignores a value of more than two bits (R640). -/
def State.fieldWrite (s : State) (i mask v : Nat) (x : Fld × Nat × Nat) : State :=
  let (f, n, k) := x
  let at_ := f.lo + f.sub * k
  let m := bits mask at_ f.w
  let w := bits v at_ f.w
  if m = 0 ∨ f.present i n k = false then s
  else match f.acc with
    | .rw =>
      let i := f.page i
      let w := masked (s.get f i n k) w m
      if f = F.INJ_MASK.of f.cls ∧ 2 < popcount w 8 then s
      else s.write f (if f = F.FLT_SEV_SEV then sevStored (16 * n + k) w else w) i n k
    | .rws => s.setShadow f (masked (s.getShadow f i n k) w m) i n k
    | .w1c => s.set f (Nat.lor (masked (s.get f i n k) 0 (Nat.land w m)) (s.firedBits f i n)) i n k
    | _ => s

/-- A register written field by field. -/
def State.plainWrite (s : State) (cls i o mask v : Nat) : State := s.each (fieldsAt cls o) fun s x => s.fieldWrite i mask v x

/-- The word that a write leaves to act on: written bits as written, and the others as the RW and RWS fields hold them, bits that act
when written being 0 there (R591). DEDUCED: log entry 20. -/
def State.combined (s : State) (cls i o mask v : Nat) : Nat :=
  let old := ((fieldsAt cls o).map fun (f, n, k) =>
    (match f.acc with
      | .rw => if f.present i n k then (s.shown f i n k).getD (s.get f (f.page i) n k) else 0
      | .rws => s.getShadow f i n k
      | _ => 0) * 2 ^ (f.lo + f.sub * k)).sum
  masked old v mask

/-! ### EVT_FORCE and INJ (R598, R640, R766) -/

/-- One event raised by a write of EVT_FORCE: as hardware raises it, with the writer captured; a rail event captures the domain. DEDUCED: log entry 18. -/
def State.forceEvent (s : State) (m : Master) (cls i b : Nat) : State :=
  let rail := cls = 2 ∧ (b = E.FLT_RAIL_HIO.bit ∨ b = E.FLT_RAIL_OPT.bit)
  let c := m.capture (if rail then s.get F.FLT_FORCE_DOM_DOMAIN else regOffset cls i F.EVT_FORCE_FORCE.off) 1 2
  if cls = 2 ∧ b = E.FLT_COLLECTOR_ERR.bit then s.collectorErr c
  else if cls = 2 ∧ b = E.FLT_CP_WATCHDOG.bit then s.watchdog c
  else if cls = 2 ∧ b = E.FLT_THERM_TRIP.bit then State.raiseAt { s with pins := { s.pins with thermTrip := true } } cls i b c
  else s.raiseAt cls i b c

/-- EVT_FORCE (R598): a party writes 1 to bits of EVT_FORCE in a page. A block fenced by Degrade ignores it (R765). -/
def execEvtForce (m : Master) (cls : Fin 31) (i : Fin 1024) (v : Nat) (s : State) : Host.Outcome State Fault Refusal :=
  if implemented cls i && !s.blockFenced cls then .next (s.each (setBitsOf v 64) fun s b => s.forceEvent m cls i b) else .next s

/-- INJ_ARM (R640): ARM written in a page: its checkers are armed with the MASK in force, or disarmed by a MASK of 0. DESIGN CHOICE: log entry 27. -/
def execInjArm (cls : Fin 31) (i : Fin 1024) (s : State) : Host.Outcome State Fault Refusal :=
  if implemented cls i && !s.blockFenced cls then
    let mask := s.get (F.INJ_MASK.of cls) i
    let page := pageNo cls i
    .next { s with flt := { s.flt with inj := if mask = 0 then Tab.erase s.flt.inj page else Tab.insert s.flt.inj page mask } }
  else .next s

/-! ### Registers whose write does more than store -/

/-- The header registers. DESIGN CHOICE: log entry 19. DEDUCED: log entry 24. -/
def State.hdrWrite (s : State) (m : Master) (cls i o mask v : Nat) : State :=
  let c := Fin.ofNat 31 cls
  let n := Fin.ofNat 1024 i
  let w := Nat.land v mask
  if o = F.CTL_CNT_CLR.off then (if bit w 0 then s.did (execCntClr c n s) else s)
  else if o = F.EVT_FORCE_FORCE.off then s.did (execEvtForce m c n w s)
  else if o = F.EPOCH_AT_NS.off then s.did (execEpochAtWrite c n (s.combined cls i o mask v) s)
  else
    let s := s.plainWrite cls i o mask v
    if o = F.INJ_ARM.off then (if bit w 8 then s.did (execInjArm c n s) else s)
    else if o = F.PMC_CTL_EN.off then (if bit w 18 then s.did (execPmcSnapNow c n s) else s)
    else if o = F.SHADOW_CTL_COMMIT.off then
      let s := if bit w 0 then s.did (execShadowCommit c n s) else s
      let s := if bit w 1 then s.did (execShadowDiscard c n s) else s
      if bit w 2 then s.did (execShadowDisarm c n s) else s
    else s

/-- BOUND_VIOL in the MGT page (R619). -/
def State.checkMgt (s : State) : State :=
  let am := 16 * s.get F.CORE_AGE_LIMIT 0 3
  let rto := 1000 * s.get F.MGT_CTL_RTO
  s.raiseIf (decide (rto ≤ 2 * am + s.dNs) || decide (1000 * s.get F.MGT_CTL_REPLY_LIFE < rto + am + s.dNs)) E.MGT_BOUND_VIOL

/-- Every requirement on times, after a write of an ageing limit or of the accuracy limit (R360, R417, R534, R619, R758). -/
def State.checkAll (s : State) : State :=
  ((s.checkBounds (List.range 32) (List.range 8)).checkLegacy (List.range 32) (List.range 8)).checkMgt

/-- DEV, MT, FLT and PWR; an alarm slot that fires in the clock of its write fires first (R71), and DEV_SELF is taken from any writer (R201).
DEDUCED: log entries 25 and 123. DESIGN CHOICE: log entry 158. -/
def State.devWrite (s : State) (cls o mask v : Nat) : State :=
  let w := Nat.land v mask
  let x := s.combined cls 0 o mask v
  if cls = 0 ∧ o = F.DEV_RESET_KEY.off then s.did (execDevReset (bits w 0 16) s)
  else if cls = 0 ∧ o = F.DEV_SELF_GROUP.off then s.did (execDevSelfWrite x s)
  else if cls = 1 ∧ o = F.MT_SRC_KIND.off then s.did (execMtSrcWrite x s)
  else if cls = 1 ∧ o = F.MT_TOD_NEXT_NS.off then s.did (execMtTodNextWrite x s)
  else if cls = 1 ∧ (F.MT_ALM_TIME_NS.index o <|> F.MT_ALM_CTL_EN.index o) ≠ none then
    (s.fireDue (((F.MT_ALM_TIME_NS.index o <|> F.MT_ALM_CTL_EN.index o).getD 0))).plainWrite cls 0 o mask v
  else if cls = 3 ∧ o = F.PWR_CTL_RUNG.off ∧ bit w 8 = true then
    let s := s.plainWrite cls 0 o mask v
    s.did (execDeviceRungCmd (Fin.ofNat 8 (s.get F.PWR_CTL_RUNG)) s)
  else
    let s := s.plainWrite cls 0 o mask v
    if cls = 1 ∧ o = F.MT_ACC_LIMIT.off then s.checkAll
    else if cls = 1 ∧ o = F.MT_PPS_OUT_EN.off ∧ s.flag F.MT_PPS_OUT_EN = false then { s with pins := { s.pins with ppsOut := none } }
    else if cls = 2 then s.refreshPins
    else s

/-- ALM_CMD (R699). -/
def State.almCmd (s : State) (m : Master) (mask v : Nat) : State :=
  let x := s.combined 4 0 F.ALM_CMD_OP.off mask v
  let op := bits x 0 4
  let arg := bits x 16 16
  if s.almanac.cmd.isSome then s
  else if bit x 63 then
    if op = 3 then s.did (execErase m (Fin.ofNat 65536 arg) s)
    else
      let s := s.plainWrite 4 0 F.ALM_CMD_OP.off mask v
      if op = 1 then s.did (execCommit (Fin.ofNat 4 (bits x 8 2)) s)
      else if op = 2 then s.did (execRepairClear (Fin.ofNat 65536 arg) s)
      else if op = 4 then s.did (execUcode (Fin.ofNat 65536 arg) s)
      else s
  else s.plainWrite 4 0 F.ALM_CMD_OP.off mask v

/-- ALM_FW (R705, R712): a write that changes BOOT is an owner operation, and a refused one has no effect. DEDUCED: log entry 21. -/
def State.almFw (s : State) (m : Master) (mask v : Nat) : State :=
  let x := s.combined 4 0 F.ALM_FW_BOOT.off mask v
  let go := fun (s : State) =>
    let s := s.plainWrite 4 0 F.ALM_FW_BOOT.off mask v
    if bit x 56 then s.did (execFwRestart s) else s
  if bits x 1 1 = s.almanac.boot then go s else s.ownerDo m fun s => go { s with almanac := { s.almanac with boot := bits x 1 1 } }

/-- ALM, MGT, DPT and PMN. -/
def State.svcWrite (s : State) (m : Master) (cls o mask v : Nat) : State :=
  let w := Nat.land v mask
  if cls = 4 ∧ o = F.ALM_CMD_OP.off then s.almCmd m mask v
  else if cls = 4 ∧ o = F.ALM_PROT_SLOT_WP.off then s.ownerDo m fun s => s.plainWrite cls 0 o mask v
  else if cls = 4 ∧ o = F.ALM_FW_BOOT.off then s.almFw m mask v
  else if cls = 5 ∧ F.MGT_LIST_VALID.index o ≠ none then s.ownerDo m fun s => s.plainWrite cls 0 o mask v
  else if cls = 6 ∧ o = F.DPT_ADDR_ADDR.off then s.plainWrite cls 0 o (mask / 8 * 8) v
  else
    let s := s.plainWrite cls 0 o mask v
    if cls = 4 ∧ o = F.ALM_UNFENCE_GO.off ∧ bit w 63 = true then
      s.did (execAlmUnfence (Fin.ofNat 64 (s.get F.ALM_UNFENCE_CLASS)) (Fin.ofNat 1024 (s.get F.ALM_UNFENCE_INSTANCE))
        (Fin.ofNat 16384 (s.get F.ALM_UNFENCE_BANK)) (Fin.ofNat 4 (s.get F.ALM_UNFENCE_SCOPE)) s)
    else if cls = 5 ∧ o = F.MGT_CTL_RTO.off then s.checkMgt
    else if cls = 5 ∧ o = F.MGT_MBOX_GO.off ∧ bit w 0 = true then s.did (execMgtMboxGo s)
    else if cls = 7 ∧ o = F.PMN_CTL_SNAP_NOW.off ∧ bit w 1 = true then s.did (execPmnSnapNow s)
    else s

/-- FUS: every write is an owner operation (R705, R709, R710). -/
def State.fusWrite (s : State) (m : Master) (o mask v : Nat) : State :=
  let w := Nat.land v mask
  if o = F.FUS_CTL_PROG.off ∧ bit w 0 = true then s.did (execFuseProg m s)
  else if o = F.FUS_DEBUG_UNLOCK.off ∧ bit w 0 = true then s.did (execDebugUnlock m s)
  else if 0x100 ≤ o ∧ o ≤ 0x120 then s.ownerDo m fun s => s.plainWrite 30 0 o mask v
  else s

/-- LANE, OPT, PORT and LNK. A refused REACH leaves FEED_LOW and FEED_MIN of the same write in force (R80). DESIGN CHOICE: log entry 150. -/
def State.portWrite (s : State) (cls i o mask v : Nat) : State :=
  let w := Nat.land v mask
  let p := Fin.ofNat 1024 i
  let x := s.combined cls i o mask v
  if cls = 9 ∧ o = F.OPT_CTL_REACH.off then
    let old := s.get F.OPT_CTL_REACH i
    let s := (s.plainWrite cls i o mask v).set F.OPT_CTL_REACH old i
    s.did (execOptReachWrite (Fin.ofNat 16 i) (Fin.ofNat 2 (bits x 0 1)) s)
  else if cls = 10 ∧ o = F.PORT_CTL_EN.off then (if bit x 0 then s.did (execPortEnable p x s) else s.did (execPortDisable p x s))
  else if cls = 10 ∧ o = F.PORT_CMD_DOWN.off then
    let s := if bit w 0 then s.did (execPortRetrain p s) else s
    let s := if bit w 1 then s.did (execPortRestore p s) else s
    if bit w 2 then s.did (execPortDown p s) else s
  else if cls = 11 ∧ o = F.LNK_REPLAY_SLOTS.off ∧ bits mask 0 32 ≠ 0 then s.did (execSlotsWrite p x s)
  else
    let s := s.plainWrite cls i o mask v
    if cls = 10 ∧ o = F.PORT_PWR_CMD_GO.off ∧ bit w 24 = true then
      s.did (execPortRungCmd p (Fin.ofNat 8 (s.get F.PORT_PWR_CMD_RUNG i)) s)
    else if cls = 8 ∧ o = F.LANE_CTL_LOOPBACK.off then s.laneTest i
    else if cls = 11 ∧ (o = F.LNK_CR_POOL_POOL.off ∨ F.LNK_CR_MIN_MIN.index o ≠ none) ∧ s.flag F.PORT_CTL_EN i = true then s.checkCredit i
    else s

/-- TILE, BUF, RTE, SCH, CORE and TEL. -/
def State.tileWrite (s : State) (cls i o mask v : Nat) : State :=
  let w := Nat.land v mask
  let t := Fin.ofNat 72 i
  let x := s.combined cls i o mask v
  if cls = 12 ∧ o = F.TILE_FENCE_FULL.off then (if bit x 0 then s.did (execTileFenceFull t s) else s.did (execTileFenceRelease t s))
  else if cls = 12 ∧ F.TILE_BANK_RET_BITS.index o ≠ none then s.did (execBankBitWrite t false (Fin.ofNat 2 ((o - F.TILE_BANK_RET_BITS.off) / 8)) x s)
  else if cls = 12 ∧ F.TILE_BANK_OFF_BITS.index o ≠ none then s.did (execBankBitWrite t true (Fin.ofNat 2 ((o - F.TILE_BANK_OFF_BITS.off) / 8)) x s)
  else if cls = 14 ∧ o = F.RTE_FENCE_PORTS.off ∧ bits mask 0 32 ≠ 0 then s.did (execRteFenceWrite t x s)
  else if cls = 15 ∧ F.SHP_CFG_EN.index o ≠ none then s.did (execShaperCfgWrite t (Fin.ofNat 128 ((o - F.SHP_CFG_EN.off) / 8)) false x s)
  else if cls = 15 ∧ F.SHP_RATE_RATE.index o ≠ none then s.did (execShaperCfgWrite t (Fin.ofNat 128 ((o - F.SHP_RATE_RATE.off) / 8)) true x s)
  else
    let s := if cls = 13 then s.checkQuota i else s
    let s := s.plainWrite cls i o mask v
    if cls = 12 ∧ o = F.TILE_PWR_RUNG.off ∧ bits mask 0 3 ≠ 0 then s.did (execTileRungCmd t (Fin.ofNat 8 (bits x 0 3)) s)
    else if cls = 13 then (s.checkOvercommit i).checkQuota i
    else if cls = 16 ∧ F.CORE_AGE_LIMIT.index o ≠ none then s.checkAll
    else if cls = 29 ∧ o = F.TEL_CTL_HIST_CLR.off ∧ bit w 32 = true then s.did (execHistClr t s)
    else s

/-- CTX_CMD (R299): a write acts on its OP; one while BUSY = 1 is ignored. -/
def State.ctxCmdWrite (s : State) (i mask v : Nat) : State :=
  let e := Fin.ofNat 32 i
  let x := s.combined 19 i F.CTX_CMD_OP.off mask v
  let op := bits x 0 3
  if (s.eng i).cmd.isSome || bits mask 0 32 == 0 then s
  else if op = 1 then s.did (execEvict e (bits x 8 20) (s.plainWrite 19 i F.CTX_CMD_OP.off mask v))
  else if op = 2 then s.did (execClose e (bits x 8 20) (s.plainWrite 19 i F.CTX_CMD_OP.off mask v))
  else if op = 3 then s.did (execEvictRange e (Fin.ofNat 2 (bits x 3 1)) (s.plainWrite 19 i F.CTX_CMD_OP.off mask v))
  else s.plainWrite 19 i F.CTX_CMD_OP.off mask v

/-- BOUND_VIOL in the pages that a write of an RMA or MAT register concerns (R360, R417, R534, R758). -/
def State.checkEng (s : State) (cls i o : Nat) : State :=
  let u := unitOf i
  if cls = 21 ∧ o = F.RMA_RTX_TIMEOUT.off then s.checkBounds [i] [u]
  else if cls = 21 ∧ o = F.RMA_HOLE_HOLE.off then s.raiseIf (s.rmaBad i) E.RMA_BOUND_VIOL i
  else if cls = 21 ∧ o = F.RMA_LEG_TIMEOUT.off then s.checkLegacy [i] [u]
  else if cls = 22 ∧ o = F.MAT_STREAM_WINDOW.off then s.raiseIf (s.matBad i) E.MAT_BOUND_VIOL i
  else s

/-- ENG to XLT. -/
def State.engWrite (s : State) (cls i o mask v : Nat) : State :=
  let e := Fin.ofNat 32 i
  let x := s.combined cls i o mask v
  if cls = 19 ∧ F.CTX_RANGE_EN.index o ≠ none then s.did (execCtxRangeWrite e (Fin.ofNat 2 ((o - F.CTX_RANGE_EN.off) / 8)) x s)
  else if cls = 19 ∧ o = F.CTX_CMD_OP.off then s.ctxCmdWrite i mask v
  else if cls = 21 ∧ o = F.RMA_REG_INVAL_GO.off then s.did (execRegInval e x s)
  else if cls = 21 ∧ o = F.RMA_ACACHE_FLUSH.off then s.did (execAcacheFlush e x s)
  else if cls = 23 ∧ o = F.XLT_INVAL_GO.off then s.did (execXltInvalCmd e x s)
  else
    let s := (s.plainWrite cls i o mask v).checkEng cls i o
    if cls = 21 ∧ o = F.RMA_STG_QUOTA.off then s.checkStaging i else s

/-- COL, LCK and DUP. -/
def State.unitWrite (s : State) (cls i o mask v : Nat) : State :=
  let u := Fin.ofNat 8 i
  let x := s.combined cls i o mask v
  if cls = 17 ∧ o = F.COL_CMD_GO.off ∧ bit x 63 = true then
    let g := Fin.ofNat 4096 (bits x 8 12)
    let seq := bits x 32 16
    let s := s.plainWrite cls i o mask v
    if bits x 0 2 = 1 then s.did (execSetup u g seq s)
    else if bits x 0 2 = 2 then s.did (execRelease u g s)
    else if bits x 0 2 = 3 then s.did (execReset u g seq s)
    else s
  else
    let s := s.plainWrite cls i o mask v
    if cls = 25 ∧ o = F.DUP_CTL_LIFE.off then s.raiseIf (s.dupBad i) E.DUP_BOUND_VIOL i
    else if cls = 25 ∧ o = F.DUP_LEG_LIFE.off then s.checkLegacy [] [i]
    else if cls = 24 ∧ o = F.LCK_TIME_WAIT_LIFE.off then s.raiseIf (s.lckBad i) E.LCK_BOUND_VIOL i
    else if cls = 24 ∧ o = F.LCK_CTL_DEF_QUOTA.off then s.defQuotaWritten i
    else s

/-- HPT, WIN and FUN. -/
def State.hostWriteReg (s : State) (cls i o mask v : Nat) : State :=
  let s := s.plainWrite cls i o mask v
  if cls = 27 ∧ o = F.WIN_COMMIT_GO.off ∧ bit (Nat.land v mask) 0 = true then s.did (execWinCommit (Fin.ofNat 64 i) s) else s

/-- A write under a mask reaches some field of the register (R15, R591). -/
def writeReaches (cls o mask : Nat) : Bool := (fieldsAt cls o).any fun x => bits mask (x.1.lo + x.1.sub * x.2.2) x.1.w != 0

/-- A write to the register at an offset, under a mask (R15, R593); a block fenced by Degrade takes only the clearing of its events
(R765). -/
def State.maskWrite (s : State) (m : Master) (o mask v : Nat) : State :=
  let cls := offCls o
  let i := offInst o
  let o := offReg o
  if implemented cls i = false ∨ writeReaches cls o mask = false then s
  else if s.blockFenced cls then
    (if o = F.EVT_STAT_EVT.off ∨ o = F.STAT_CAP_VALID.off then s.plainWrite cls i o mask v else s)
  else if o < 0x100 then s.hdrWrite m cls i o mask v
  else if cls ≤ 3 then s.devWrite cls o mask v
  else if cls ≤ 7 then s.svcWrite m cls o mask v
  else if cls ≤ 11 then s.portWrite cls i o mask v
  else if cls ≤ 16 ∨ cls = 29 then s.tileWrite cls i o mask v
  else if cls = 17 ∨ cls = 24 ∨ cls = 25 then s.unitWrite cls i o mask v
  else if cls ≤ 23 then s.engWrite cls i o mask v
  else if cls = 30 then s.fusWrite m o mask v
  else s.hostWriteReg cls i o mask v

/-- An access of 8 or 4 bytes written (R591). -/
def State.regWrite (s : State) (m : Master) (o : Nat) (h : Half) (v : Nat) : State := s.maskWrite m o h.mask (h.place v)

/-- REG_WRITE (R8, R591): party `m` writes the register at the 28-bit offset `off`, whole or one half of it. -/
def execRegWrite (m : Master) (off : Nat) (h : Half) (v : Nat) (s : State) : Host.Outcome State Fault Refusal :=
  .next (s.regWrite m (off % 2 ^ 28) h v)

end Sys2Proof.Machine
end

