-- ==== Sys2Proof/Machine/Dpt.lean ====
section
/-!
DEFINITION. The data port (R604 to R611): the map of table space, its writable fields, and bursts.
-/
namespace Sys2Proof.Machine
open Sys2Proof

/-! ### Table space (Table 16.4) -/

/-- What stands at an 8-byte address of table space: a word of the banked tables of some tiles, of a Constellation entry, a child or
member entry, a word of a lock entry, or a word that nobody may write. -/
inductive TabAt where
  | banked (tiles : List Nat) (r : Nat)
  | colg (g k : Nat)
  | child (i : Nat)
  | member (i : Nat)
  | lock (u l k : Nat)
  | fixed
deriving DecidableEq, Repr

/-- The bits that exist in word `k` of a route entry (Table 6.2). -/
def routeMask (k : Nat) : Nat :=
  if k = 0 then 2 ^ 64 - 1 else if k = 1 then 2 ^ 63 - 1 else if k = 2 then (2 ^ 11 - 1) + (2 ^ 30 - 2 ^ 12) else 0

/-- The bits that exist in the banked word at offset `r` of tile `t` (Tables 5.3, 6.2 and 16.4). -/
def bankedMask (t r : Nat) : Option Nat :=
  if r < 0x11000 then some (routeMask (r / 8 % 4))
  else if r < 0x11100 then some (2 ^ 6 - 1)
  else if 0x20000 ≤ r ∧ r < 0x30000 then some (if r / 8 % 2 = 0 then 2 ^ 64 - 1 else 2 ^ 9 - 1)
  else if 0x30000 ≤ r ∧ r < 0x38000 then some (if t < 64 then 2 ^ 20 - 1 else 2 ^ 20 - 2 ^ 16 + 15)
  else none

/-- The software fields of word `k` of a Constellation entry (Table 11.1). -/
def colgMask (k : Nat) : Nat :=
  if k = 0 then (2 ^ 15 - 2) + (2 ^ 56 - 2 ^ 16) else if k = 1 then 2 ^ 21 - 1 else if k = 2 then 0 else 2 ^ 25 - 1

/-- The tiles that T names: one, or all for 0xFF (R610). -/
def tilesNamed (t : Nat) : List Nat := if t = 0xFF then List.range 72 else if t < 72 then [t] else []

/-- What stands at an address; none where Table 16.4 maps nothing. -/
def tabAt (a : Nat) : Option TabAt :=
  let x := a % 2 ^ 32
  let r := a / 2 ^ 32
  if r = 1 then
    let ts := tilesNamed (x / 2 ^ 20)
    if ts = [] ∨ bankedMask 0 (x % 2 ^ 20) = none then none else some (.banked ts (x % 2 ^ 20))
  else if r = 2 then
    if x < 0x20000 then some (.colg (x / 32) (x / 8 % 4))
    else if 0x100000 ≤ x ∧ x < 0x120000 then some (.child ((x - 0x100000) / 8))
    else if 0x200000 ≤ x ∧ x < 0x220000 then some (.member ((x - 0x200000) / 8))
    else none
  else if r = 3 then (if x < 2 ^ 21 then some (.lock (x / 2 ^ 18) (x % 2 ^ 18 / 32) (x / 8 % 4)) else none)
  else if r = 4 then (if x < 72 * 2 ^ 14 then some .fixed else none)
  else if r = 5 then (if implemented (x / 2 ^ 17) (x % 2 ^ 17 / 128) then some .fixed else none)
  else none

/-- The physical bank that BANK names at a tile (R608). -/
def State.physBank (s : State) (bank t : Nat) : Nat :=
  if bank = 0 then 1 - b2n (s.bankOf t) else if bank = 1 then b2n (s.bankOf t) else bank - 2

/-- The word at an address of table space. -/
def State.tabRead (s : State) (bank a : Nat) : Option Nat := match tabAt a with
  | none => none
  | some (.banked ts r) =>
    let t := ts.headD 0
    some (s.bankWord (s.physBank bank t) (groupAddr t 0 + r))
  | some _ => some (s.word a)

/-! ### Writes -/

/-- What a burst met: an unmapped address, a discarded word, the first address at fault, the words moved, tiles that had a bank in hold,
and units whose Constellations were in use. -/
structure Burst where
  unmapped : Bool := false
  discarded : Bool := false
  bad : Option Nat := none
  moved : Nat := 0
  hold : List Nat := []
  busy : List Nat := []
deriving DecidableEq, Repr

/-- A word discarded at an address (R609). -/
def Burst.discard (b : Burst) (a : Nat) : Burst := { b with discarded := true, bad := b.bad <|> some a }

/-- The Constellation in use that holds a child or a member entry (R426 to R428). DEDUCED: log entry 33. -/
def State.groupHolding (s : State) (first count : Nat → Nat) (i : Nat) : Option Nat :=
  ((List.range 8).flatMap fun u => (s.cunit u).groups).find? fun g => decide (first g ≤ i) && decide (i < first g + count g)

/-- A word written under a mask. DEDUCED: log entry 31. -/
def State.wordUnder (s : State) (a m v : Nat) : State := s.setWord a (masked (s.word a) v m)

/-- A word of the banked tables written in one tile: discarded in a bank in hold (R227); a write to an active bank aborts a COMMIT
(R700). -/
def State.bankWrite (s : State) (bank a r v t : Nat) (b : Burst) : State × Burst :=
  let p := s.physBank bank t
  let live := b2n (s.bankOf t)
  if s.flag F.RTE_STAT_HOLD t && p != live then (s, { b.discard a with hold := b.hold ++ [t] })
  else
    let s := if p = live then s.almTouch else s
    (s.wordUnder (bankKey p (groupAddr t 0 + r)) ((bankedMask t r).getD 0) v, b)

/-- A word of a Constellation's entries written, unless that Constellation is in use (R428). -/
def State.colgWrite (s : State) (a m v : Nat) (user : Option Nat) (b : Burst) : State × Burst := match user with
  | some g => (s, { b.discard a with busy := b.busy ++ [s.gUnit g] })
  | none => (s.wordUnder a m v, { b with moved := b.moved + 1 })

/-- A word written at an address of table space (R428, R527, R608 to R610). DEDUCED: log entry 30. -/
def State.tabWrite (s : State) (bank a v : Nat) (b : Burst) : State × Burst := match tabAt a with
  | none => (s, { b with unmapped := true, bad := b.bad <|> some a })
  | some (.banked ts r) =>
    let (s, c) := ts.foldl (fun (p : State × Burst) t => p.1.bankWrite bank a r v t p.2) (s, b)
    (s, if c.hold.length < b.hold.length + ts.length then { c with moved := c.moved + 1 } else c)
  | some (.colg g k) =>
    if k = 2 then (s, b.discard a) else s.colgWrite a (colgMask k) v (if s.gValid g then some g else none) b
  | some (.child i) => s.colgWrite a (2 ^ 16 - 1) v (s.groupHolding s.gChildFirst s.gChild i) b
  | some (.member i) => s.colgWrite a (2 ^ 31 - 1) v (s.groupHolding s.gMemb s.gLocal i) b
  | some (.lock u l k) =>
    if k = 1 then ((s.wordUnder a (2 ^ 63 - 2 ^ 49) v).quotaWritten u [l], { b with moved := b.moved + 1 })
    else if k = 3 then (s, { b with moved := b.moved + 1 })
    else (s, b.discard a)
  | some .fixed => (s, b.discard a)

/-! ### Bursts (R604 to R607) -/

/-- Address of word `k` of a burst; bits [2:0] of its address are reserved, and a STRIDE of 0 acts as 1 (R605, Table 16.8). -/
def burstAddr (a stride k : Nat) : Nat := (a / 8 * 8 + 8 * max 1 stride * k) % 2 ^ 48

/-- The flags and events that a burst leaves (R227, R428, R609), and its counts (R624). -/
def State.burstEnd (s : State) (m : Master) (acc ev : Nat) (b : Burst) : State :=
  let c := m.capture (b.bad.getD 0) 2 acc
  let s := if b.unmapped then s.event F.DPT_STAT_UNMAPPED 0 else s
  let s := if b.discarded then s.event F.DPT_STAT_DISCARDED 0 else s
  let s := if b.unmapped || b.discarded then s.raiseCap E.DPT_ERR 0 c else s
  let s := s.each b.hold.eraseDups fun s t => s.raiseCap E.RTE_BANK_BUSY t c
  let s := s.each b.busy.eraseDups fun s u => s.raiseCap E.COL_ENTRY_BUSY u c
  (s.inc F.DPT_STAT_WORDS 0 0 0 b.moved).count 6 0 ev b.moved

/-- The words of a burst written from an address. -/
def State.burstWrite (s : State) (m : Master) (a stride bank : Nat) (ws : List Nat) : State :=
  let (s, b) := (ws.zip (List.range ws.length)).foldl
    (fun (p : State × Burst) x => p.1.tabWrite bank (burstAddr a stride x.2) x.1 p.2) (s, {})
  s.burstEnd m 2 0x40 b

/-- The words of a burst read from an address; what is not mapped reads as 0. -/
def State.burstRead (s : State) (m : Master) (a stride bank n : Nat) : State × List Nat :=
  let l := (List.range n).map fun k => (burstAddr a stride k, s.tabRead bank (burstAddr a stride k))
  let lost := l.filter (·.2.isNone)
  let b : Burst := { unmapped := !lost.isEmpty, bad := (lost.head?).map Prod.fst, moved := n - lost.length }
  (s.burstEnd m 1 0x41 b, l.map fun x => x.2.getD 0)

/-- A burst that breaks R604 or R606: it has no effect but its flags. -/
def State.burstBad (s : State) (m : Master) (len dir : Bool) (acc : Nat) : State :=
  let s := if len then s.event F.DPT_STAT_BAD_LEN 0 else s
  let s := if dir then s.event F.DPT_STAT_DIR_ERR 0 else s
  (s.raiseCap E.DPT_ERR 0 (m.capture (s.get F.DPT_ADDR_ADDR) 2 acc)).count 6 0 0x42

/-- DPT_ADDR after a burst that was applied (R605). DESIGN CHOICE: log entry 32. -/
def State.dptStep (s : State) (n : Nat) : State :=
  if s.flag F.DPT_CTL_AUTO_INC then s.hw F.DPT_ADDR_ADDR (burstAddr (s.get F.DPT_ADDR_ADDR) (s.get F.DPT_CTL_STRIDE) n) else s

/-- A burst is not whole aligned words, or is longer than 4 KiB (R604). -/
def badBurst (off len : Nat) : Bool := off % 8 != 0 || len % 8 != 0 || decide (4096 < len)

/-- DPT_BURST_WRITE (R604 to R609, R765): a burst of bytes written into the aperture at `off`. -/
def execDptBurstWrite (m : Master) (off : Nat) (data : List Byte) (s : State) : Host.Outcome State Fault Refusal :=
  let bad := badBurst off data.length
  let dir := !s.flag F.DPT_CTL_DIR
  if s.blockFenced 6 then .next (s.count 6 0 0x42)
  else if bad || dir then .next (s.burstBad m bad dir 2)
  else
    let ws := wordsOfBytes (data.length / 8) data
    .next ((s.burstWrite m (s.get F.DPT_ADDR_ADDR) (s.get F.DPT_CTL_STRIDE) (s.get F.DPT_CTL_BANK) ws).dptStep ws.length)

/-- DPT_BURST_READ (R604 to R609, R765): a read request of `len` bytes to the aperture at `off`. -/
def execDptBurstRead (m : Master) (off len : Nat) (s : State) : Host.Outcome State Fault Refusal :=
  let bad := badBurst off len
  let dir := s.flag F.DPT_CTL_DIR
  let zeros := List.replicate (divUp len 8) 0
  if s.blockFenced 6 then .next ((s.count 6 0 0x42).emitData m len (.burst m zeros))
  else if bad || dir then .next ((s.burstBad m bad dir 1).emitData m len (.burst m zeros))
  else
    let (t, ws) := s.burstRead m (s.get F.DPT_ADDR_ADDR) (s.get F.DPT_CTL_STRIDE) (s.get F.DPT_CTL_BANK) (len / 8)
    .next ((t.dptStep (len / 8)).emitData m len (.burst m ws))

end Sys2Proof.Machine
end

