-- ==== Sys2Proof/Machine/Mgmt.lean ====
section
/-!
DEFINITION. Requests to the management endpoint, in-band and over MCTP (R613 to R617, R620, R677, R705, R765).
-/
namespace Sys2Proof.Machine
open Sys2Proof

/-! ### A request (Table 16.6) -/

/-- Words 2 to 5 of a management packet, and the data that travel with them. -/
structure MReq where
  w2 : Nat
  w3 : Nat
  w4 : Nat
  w5 : Nat
  data : List Byte
deriving DecidableEq, Repr

/-- The fields of a request. -/
def MReq.mtype (r : MReq) : Nat := bits r.w2 0 8
def MReq.off (r : MReq) : Nat := bits r.w3 0 28
def MReq.rlen (r : MReq) : Nat := bits r.w4 0 12

/-- The request that a packet carries. -/
def reqIn (q : Packet) : MReq := ⟨q.w2, q.w3, q.w4, q.w5, q.data⟩

/-- A request is malformed: a register not 8-byte aligned, a table length that is not 8 to 2,048 in whole words or differs from the data,
or a reserved MTYPE (R613, R614). -/
def MReq.malformed (r : MReq) : Bool :=
  if r.mtype = 2 ∨ r.mtype = 3 then r.w3 % 8 != 0
  else if r.mtype = 4 ∨ r.mtype = 5 then
    decide (r.rlen < 8) || decide (2048 < r.rlen) || r.rlen % 8 != 0 || (r.mtype == 5 && r.data.length != r.rlen)
  else true

/-- A write of a register value is an owner operation (R705). -/
def State.ownerWrite (s : State) (o v : Nat) : Bool :=
  let cls := offCls o
  let r := offReg o
  offInst o == 0
    && ((cls == 5 && (F.MGT_LIST_VALID.index r).isSome) || (cls == 30 && decide (0x100 ≤ r ∧ r ≤ 0x120))
      || (cls == 4 && (r == F.ALM_PROT_SLOT_WP.off || (r == F.ALM_FW_BOOT.off && bits v 1 1 != s.almanac.boot)
        || (r == F.ALM_CMD_OP.off && bits v 0 4 == 3 && bit v 63))))

/-- What a request is answered with: STATUS, DATA, and data. -/
structure MAns where
  status : Nat
  val : Nat := 0
  data : List Byte := []
deriving DecidableEq, Repr

/-- The words 2 to 5 of a response: MTYPE 6, the status, TAG, ADDR, RLEN, BANK and STRIDE of the request, and DATA (Table 16.6, R18). -/
def MAns.words (a : MAns) (r : MReq) : List Nat :=
  [6 + field a.status 8 8 + field (bits r.w2 16 16) 16 16, bits r.w3 0 48,
    field (bits r.w4 0 12) 0 12 + field (bits r.w4 13 2) 13 2 + field (bits r.w4 16 8) 16 8, a.val % 2 ^ 64]

/-- A register request of a party carried out (R613, R614, R705). -/
def State.mgtReg (s : State) (m : Master) (r : MReq) : State × MAns :=
  if r.mtype = 2 then
    let (t, v) := s.regRead r.off .whole
    (t, { status := 0, val := v })
  else if s.ownerWrite r.off r.w5 && !s.ownerOk m then (s.ownerRefused, { status := 2 })
  else (s.regWrite m r.off .whole r.w5, { status := 0 })

/-- A table request of a party carried out as one burst (R613); a fenced DPT block discards it (R765). DEDUCED: log entry 39. -/
def State.mgtTab (s : State) (m : Master) (r : MReq) : State × MAns :=
  let a := bits r.w3 0 48
  let bank := bits r.w4 13 2
  let stride := bits r.w4 16 8
  let n := r.rlen / 8
  if s.blockFenced 6 then
    (s.count 6 0 0x42, { status := 0, data := if r.mtype = 4 then List.replicate r.rlen 0 else [] })
  else if r.mtype = 4 then
    let (t, ws) := s.burstRead m a stride bank n
    (t, { status := 0, data := bytesOfWords ws })
  else (s.burstWrite m a stride bank (wordsOfBytes n r.data), { status := 0 })

/-- A request of a party carried out. DEDUCED: log entry 37. -/
def State.mgtDo (s : State) (m : Master) (r : MReq) : State × MAns :=
  if r.malformed then (s, { status := 3 })
  else if r.mtype = 2 ∨ r.mtype = 3 then s.mgtReg m r else s.mgtTab m r

/-! ### In-band requests (R614 to R617) -/

/-- A source on the manager list, with in-band management enabled (R614). -/
def State.manages (s : State) (src : Nat) : Bool :=
  s.flag F.MGT_CTL_INB_EN && (List.range 16).any fun n =>
    s.flag F.MGT_LIST_VALID 0 n
      && Nat.land (Nat.xor src (s.get F.MGT_LIST_ENDPOINT 0 n)) (2 ^ 24 - 1 - s.get F.MGT_LIST_MASK 0 n) == 0

/-- A request refused: counted, with MGT_REFUSED (R614). -/
def State.mgtRefuse (s : State) : State := ((s.inc F.MGT_CNT_REFUSED).raise E.MGT_REFUSED).count 5 0 0x42

/-- An in-band request checked, carried out and counted. -/
def State.mgtInBand (s : State) (src : Nat) (r : MReq) : State × MAns :=
  if !s.manages src then (s.mgtRefuse, { status := 1 })
  else
    let (t, a) := s.mgtDo (.endpoint src) r
    if a.status = 2 then (t.mgtRefuse, a) else if a.status = 0 then (t.count 5 0 0x40, a) else (t, a)

/-- The directed route of a response: from the request's port of arrival back over its delivered hops (R617). -/
def backRoute (q : Packet) (inPort : Nat) (p : Packet) : Packet :=
  if q.rmode = 2 then
    let n := bits q.w6 60 4
    let p := { p with rmode := 2, w6 := field n 60 4, w7 := 0 }
    (List.range (min n 12)).foldl (fun p k => setDrHop p k (if k = 0 then inPort else drHop q (n - k))) p
  else p

/-- A response sent to the source of a request (R617). DEDUCED: log entry 38. -/
def State.mgtAnswer (s : State) (q : Packet) (inPort : Nat) (ws : List Nat) (data : List Byte) : State :=
  let p := packetOf ([0, 0] ++ ws ++ [0, 0]) data
  let p := { p with dst := q.src, cls := 3, sl := q.sl, mep := true, len := data.length }
  s.mgtSend (s.mgtStamped (backRoute q inPort p))

/-- The entry of the reply cache for a key, and that entry renewed (R616). -/
def State.cached1 (s : State) (src tag : Nat) : Option Reply := s.mgmt.cache.find? fun r => r.src == src && r.tag == tag
def State.renew (s : State) (src tag expiry : Nat) : State :=
  { s with mgmt := { s.mgmt with
      cache := updWhere (fun r => r.src == src && r.tag == tag) (fun r => { r with expiry := expiry }) s.mgmt.cache } }

/-- A request at the head of the endpoint: answered from the cache, or carried out, cached and answered (R616). -/
def State.mgtServe (s : State) (q : Packet) (inPort : Nat) : State :=
  let r := reqIn q
  let till := s.now + ns (s.replyLife q.tu)
  match s.cached1 q.src (mTag q) with
  | some c => ((s.renew q.src (mTag q) till).count 5 0 0x41).mgtAnswer q inPort c.words c.data
  | none =>
    if 256 ≤ s.mgmt.cache.length then s.mgtDiscard
    else
      let (t, a) := s.mgtInBand q.src r
      let t := { t with mgmt := { t.mgmt with cache := t.mgmt.cache ++ [Reply.mk q.src (mTag q) (a.words r) a.data till] } }
      t.mgtAnswer q inPort (a.words r) a.data

/-- A request that waits at the endpoint served; one that does not wait there changes nothing. A fenced block discards it (R765). -/
def State.mgtRequest (s : State) (q : Packet) : State := match s.mgtTake q with
  | some (p, t) => if t.blockFenced 5 then t else t.mgtServe q p
  | none => s

/-- MTYPE of a management packet. -/
def mType (q : Packet) : Nat := bits q.w2 0 8

/-- REG_RD (R613): an in-band register read; a request with a reserved MTYPE is handled, and answered BAD_REQUEST, here too. -/
def execRegRd (q : Packet) (s : State) : Host.Outcome State Fault Refusal :=
  if mType q = 2 ∨ mType q = 0 ∨ 7 ≤ mType q then .next (s.mgtRequest q) else .next s

/-- REG_WR (R613, R614): an in-band register write. -/
def execRegWr (q : Packet) (s : State) : Host.Outcome State Fault Refusal :=
  if mType q = 3 then .next (s.mgtRequest q) else .next s

/-- DPT_RD (R613): an in-band read of table space, as one burst. -/
def execDptRd (q : Packet) (s : State) : Host.Outcome State Fault Refusal :=
  if mType q = 4 then .next (s.mgtRequest q) else .next s

/-- DPT_WR (R613): an in-band write of table space, as one burst. -/
def execDptWr (q : Packet) (s : State) : Host.Outcome State Fault Refusal :=
  if mType q = 5 then .next (s.mgtRequest q) else .next s

/-! ### MCTP (R620, R677, R690, R713, R746) -/

/-- How MCTP serves a request: 0 whole, 1 answered ASLEEP, 2 as a wake, 3 not at all. DEDUCED: log entry 40. -/
def State.mctpRule (s : State) (r : MReq) : Nat :=
  let rung := s.get F.PWR_STAT_RUNG
  let cls := offCls r.off
  let reg := r.mtype == 2 || r.mtype == 3
  if s.cps.busy || s.cps.halted then 3
  else if rung = 5 then
    (if r.mtype = 3 ∧ r.w3 % 8 = 0 ∧ cls = 3 ∧ offInst r.off = 0 ∧ offReg r.off = F.PWR_CTL_RUNG.off then 2 else 3)
  else if rung = 4 then (if reg && (cls == 0 || cls == 2 || cls == 3) then 0 else 1)
  else if !s.boot.pwrGood then (if reg && (cls == 0 || cls == 2 || cls == 3 || cls == 4) then 0 else 3)
  else 0

/-- MCTP_REQUEST (R620, R736): a request over MCTP: words 2 to 5 of a management packet, and data; answered the same way. -/
def execMctpRequest (w2 w3 w4 w5 : Nat) (data : List Byte) (s : State) : Host.Outcome State Fault Refusal :=
  let r : MReq := ⟨w2 % 2 ^ 64, w3 % 2 ^ 64, w4 % 2 ^ 64, w5 % 2 ^ 64, data⟩
  let rule := s.mctpRule r
  if rule = 0 then
    let (t, a) := s.mgtDo .mctp r
    .next (t.emit (.mctp (a.words r) a.data))
  else if rule = 1 then .next (s.emit (.mctp ((MAns.mk 4 0 []).words r) []))
  else if rule = 2 then
    .next (if s.ladder.wakeAt = none ∧ s.blockFenced 3 = false then s.wakeDevice 1 else s)
  else .next s

end Sys2Proof.Machine
end

