-- ==== Sys2Proof/Machine/HostCmd.lean ====
section
/-!
DEFINITION. Inbound requests of a host port (R556 to R558, R564 to R567, R577, R582): memory accesses by BAR, AtomicOps, and accesses to
configuration space.
-/
namespace Sys2Proof.Machine
open Sys2Proof

/-! ### Completions -/

/-- Completion data for a read. -/
def State.readData (s : State) (h f v : Nat) : State := s.emitData (.fn h f) 8 (.regData (.fn h f) v)

/-- The data of a write as a number. -/
def dataWord (d : List Byte) : Nat := ofLeBytes d

/-- The part of a register that an aligned access of 4 or 8 bytes covers; none for any other access (R565, R591). -/
def halfAt (off len : Nat) : Option Half :=
  if len = 8 ∧ off % 8 = 0 then some .whole
  else if len = 4 ∧ off % 8 = 0 then some .lo
  else if len = 4 ∧ off % 8 = 4 then some .hi
  else none

/-! ### BAR0 (R564, R565) -/

/-- A PF has management rights: BAR0 and the data-port aperture (R564). -/
def State.mgmtPf (s : State) (h f : Nat) : Bool := decide (f < 8) && bit (s.hport h).mgmt f

/-- A register at an offset has a RW field. -/
def hasRw (o : Nat) : Bool := (fieldsAt (offCls o) (offReg o)).any fun x => x.1.acc == .rw

/-- The result of an AtomicOp on 64 bits: FetchAdd, Swap, or CAS with compare value `a` and swap value `b`. -/
def atomicResult (kind old a b : Nat) : Nat :=
  if kind = 0 then (old + a) % 2 ^ 64 else if kind = 1 then a % 2 ^ 64 else if old = a % 2 ^ 64 then b % 2 ^ 64 else old

/-- An AtomicOp: performed on a whole 8-byte register of BAR0 with a RW field, else unsupported (R565). DEDUCED: log entry 43. -/
def State.barAtomic (s : State) (h f bar off len kind a b : Nat) : State :=
  if bar = 0 ∧ s.mgmtPf h f ∧ off % 8 = 0 ∧ len = 8 ∧ off < 2 ^ 28 ∧ implemented (offCls off) (offInst off) ∧ hasRw off then
    let (s, old) := s.regRead off .whole
    (s.regWrite (.fn h f) off .whole (atomicResult kind old a b)).readData h f old
  else s.unsupported h f false

/-! ### BAR2 (R328, R566, R567) -/

/-- The engine whose range holds a context, among those of the link's die. -/
def State.engOfCtx (s : State) (h c : Nat) : Nat :=
  (((List.range 8).map (8 * dieOfPort h + ·)).find? fun e => (s.rangeOf e c).isSome).getD (8 * dieOfPort h)

/-- A user page reached through BAR2. -/
def State.bar2 (s : State) (h f off len : Nat) (val : Option Nat) : State :=
  match s.pageCtx h f (off / 4096) with
  | some c =>
    let s := s.count 27 h 0x41
    s.did (execUserPageAccess (Fin.ofNat 32 (s.engOfCtx h c)) c (Fin.ofNat 64 h) f (off % 4096) len val s)
  | none => s.unsupported h f val.isSome

/-! ### BAR4: the MSI-X table and its Pending Bit Array (R564, R577) -/

/-- Doubleword `k` of a function's MSI-X table. -/
def State.vecRead (s : State) (h f k : Nat) : Nat :=
  let x := s.vec h f (k / 4)
  if s.vecCount h f ≤ k / 4 then 0
  else if k % 4 = 0 then x.addr % 2 ^ 32 else if k % 4 = 1 then x.addr / 2 ^ 32
  else if k % 4 = 2 then x.data else b2n x.mask

/-- Doubleword `k` of a function's MSI-X table written. -/
def State.vecWrite (s : State) (h f k v : Nat) : State :=
  if s.vecCount h f ≤ k / 4 then s
  else s.modVec h f (k / 4) fun x =>
    if k % 4 = 0 then { x with addr := setBits x.addr 0 32 (v / 4 * 4) } else if k % 4 = 1 then { x with addr := setBits x.addr 32 32 v }
    else if k % 4 = 2 then { x with data := v % 2 ^ 32 } else { x with mask := bit v 0 }

/-- Doubleword `k` of a function's Pending Bit Array. -/
def State.pbaRead (s : State) (h f k : Nat) : Nat :=
  ((List.range 32).map fun i => b2n (decide (32 * k + i < s.vecCount h f) && (s.vec h f (32 * k + i)).pending) * 2 ^ i).sum

/-- A read of `len` bytes at `off` from the start of the MSI-X table; the Pending Bit Array is 32 KiB behind it. -/
def State.msixRead (s : State) (h f off len : Nat) : Nat :=
  ((List.range (len / 4)).map fun j =>
    let k := off / 4 + j
    (if k < 8192 then s.vecRead h f k else if k < 8192 + 64 then s.pbaRead h f (k - 8192) else 0) * 2 ^ (32 * j)).sum

/-- A write there: whole doublewords of the table; the Pending Bit Array is read-only. -/
def State.msixWrite (s : State) (h f off : Nat) (d : List Byte) : State :=
  s.each (List.range (d.length / 4)) fun s j =>
    if off / 4 + j < 8192 then s.vecWrite h f (off / 4 + j) (ofLeBytes ((d.drop (4 * j)).take 4)) else s

/-! ### Memory requests -/

/-- A function takes memory requests: it is in D0, and Memory Space Enable is 1; for a VF, VF Enable and VF Memory Space Enable of its
PF. -/
def State.memOpen (s : State) (h f : Nat) : Bool :=
  !(s.fn h f).d3 && (if f < 8 then (s.fn h f).mse else (s.fn h (s.pfOf h f)).vfEn && (s.fn h (s.pfOf h f)).vfMse)

/-- Offset of the MSI-X table in BAR4, and size of BAR4 (Table 15.4). -/
def msixBase (f : Nat) : Nat := if f < 8 then 2 ^ 20 else 0
def bar4Size (f : Nat) : Nat := if f < 8 then 2 ^ 21 else 2 ^ 16

/-- A memory read, decoded (R564, R565). -/
def State.memRead (s : State) (h f bar off len : Nat) : State :=
  if bar = 0 ∧ s.mgmtPf h f = true ∧ off < 2 ^ 28 then
    match halfAt off len with
    | some x =>
      let (s, v) := s.regRead off x
      s.readData h f v
    | none => s.unsupported h f false
  else if bar = 2 then s.bar2 h f off len none
  else if bar = 4 ∧ off < bar4Size f then
    if msixBase f ≤ off then s.readData h f (s.msixRead h f (off - msixBase f) len)
    else if s.mgmtPf h f then s.did (execDptBurstRead (.fn h f) off len s)
    else s.unsupported h f false
  else s.unsupported h f false

/-- A memory write, decoded (R564, R565). -/
def State.memWrite (s : State) (h f bar off : Nat) (d : List Byte) : State :=
  if bar = 0 ∧ s.mgmtPf h f = true ∧ off < 2 ^ 28 then
    match halfAt off d.length with
    | some x => s.regWrite (.fn h f) off x (dataWord d)
    | none => s.unsupported h f true
  else if bar = 2 then s.bar2 h f off d.length (some (dataWord d))
  else if bar = 4 ∧ off < bar4Size f then
    if msixBase f ≤ off then s.msixWrite h f (off - msixBase f) d
    else if s.mgmtPf h f then s.did (execDptBurstWrite (.fn h f) off d s)
    else s.unsupported h f true
  else s.unsupported h f true

/-! ### Configuration space (Tables 15.2 and 15.3) -/

/-- The functions that carry a capability (Table 15.3). -/
def hasCap (f : Nat) (c : Capability) : Bool := match c with
  | .power | .msix | .express | .aer | .ari | .tph => true
  | .acs | .sriov => decide (f < 8)
  | .l1Substates | .ltr | .ptm | .doe | .dataLinkFeature | .physical | .margining | .flitLogging | .serialNumber => f == 0

/-- Sizes of BAR0, BAR2 and BAR4 of a function, 0 where it has none, and of the VF BARs of a PF (R563, Table 15.4). -/
def State.barSize (s : State) (h f k : Nat) : Nat :=
  if 8 ≤ f then 0
  else if k = 0 then (if s.mgmtPf h f then 2 ^ 28 else 0)
  else if k = 1 then 2 ^ (s.bar2Log h f + 12) else 2 ^ 21
def State.vfBarSize (s : State) (h k : Nat) : Nat := if k = 0 then 0 else if k = 1 then 2 ^ (s.bar2Log h 8 + 12) else 2 ^ 16

/-- Doubleword `i` of the BARs: 64-bit and prefetchable, with the address bits that the size leaves; 0 where there is none (R564). -/
def barRead (size : Nat → Nat) (bars : List Nat) (i : Nat) : Nat :=
  let n := size (i / 2)
  if n = 0 then 0
  else
    let v := bars.getD (i / 2) 0 / n * n
    if i % 2 = 0 then v % 2 ^ 32 + 0xC else v / 2 ^ 32

/-- Doubleword `i` of the BARs written. -/
def barWrite (bars : List Nat) (i v : Nat) : List Nat := bars.modify (i / 2) fun b => setBits b (32 * (i % 2)) 32 (v % 2 ^ 32)

/-- The value of a configuration field; one that the function lacks reads 0. PRESUMED: log entry 41. -/
def State.cfgRead (s : State) (h f : Nat) (c : CfgField) : Nat :=
  let x := s.fn h f
  let pf := decide (f < 8)
  match c with
  | .mse => b2n (x.mse && pf)
  | .bme => b2n x.bme
  | .atomic => b2n x.atomic
  | .msix => b2n x.msix
  | .fmask => b2n x.fmask
  | .tph => b2n x.tph
  | .ptm => b2n x.ptm
  | .pme => b2n x.pme
  | .cto => x.cto
  | .vfEn => b2n x.vfEn
  | .vfMse => b2n x.vfMse
  | .mrrs => x.mrrs
  | .mps => x.mps
  | .power => if x.d3 then 3 else 0
  | .l1 => x.l1
  | .flr => 0
  | .vendorId => if pf then Config.vendorId % 2 ^ 16 else 0xFFFF
  | .deviceId => if pf then 0x0F90 else 0xFFFF
  | .revisionId => Config.revisionId (!pf) % 2 ^ 8
  | .classCode => 0x028000
  | .headerType => if f = 0 ∧ (s.hport h).pfs ≠ 1 then 0x80 else 0
  | .subsysVid => s.get F.FUN_ID_SUBSYS_VID h
  | .subsysId => s.get F.FUN_ID_SUBSYS_ID h
  | .interruptPin => 0
  | .vfDeviceId => if pf then 0x0F91 else 0
  | .serial => if f = 0 then s.get F.DEV_SERIAL_SN else 0
  | .totalVfs => if pf then (s.hport h).vfs.getD f 0 else 0
  | .initialVfs => if pf then (s.hport h).vfs.getD f 0 else 0
  | .tableSize => s.vecCount h f - 1
  | .mpsSupported => 2
  | .capable c => b2n (hasCap f c)
  | .bar i => barRead (s.barSize h f) x.bars i
  | .vfBar i => if pf then barRead (s.vfBarSize h) x.vfBars i else 0
  | .aerStatus => x.aerStat
  | .aerMask => x.aerMask
  | .aerSeverity => x.aerSev
  | .errorEnables => x.errEn
  | .ltrEnable => b2n (x.ltr && f == 0)
  | .acsControl => if pf then x.acs else 0
  | .deviceType => 0
  | .flrCapable => 1
  | .ctoRanges => 15
  | .ctoDisable => 0
  | .atomicCompleter => 2
  | .tag14 => 3
  | .aspmSupport => 2
  | .noSoftReset => 0
  | .pmeSupport => 0b11000
  | .acsCapability => if pf then 0b1110 else 0
  | .l1Capability => if f = 0 then 0b11111 else 0
  | .ptmCapability => if f = 0 then 1 else 0
  | .tphModes => 1

/-- VF Enable of a PF written; clearing it resets the VFs, as the standard lays down. -/
def State.vfEnWrite (s : State) (h f : Nat) (on : Bool) : State :=
  let s := s.modFn h f fun x => { x with vfEn := on }
  if on then s else s.each (s.vfsOf h f) fun s v => s.clearFn h v

/-- A configuration field written; a field that the function lacks, or that is read-only, ignores the write. -/
def State.cfgWrite (s : State) (h : Fin 64) (f : Fin 264) (c : CfgField) (v : Nat) : State :=
  let on := bit v 0
  let upd := fun (g : FuncSt → FuncSt) => s.modFn h f g
  match c with
  | .mse => if f.val < 8 then upd fun x => { x with mse := on } else s
  | .bme => s.did (execBmeWrite h f on s)
  | .atomic => upd fun x => { x with atomic := on }
  | .msix => upd fun x => { x with msix := on }
  | .fmask => upd fun x => { x with fmask := on }
  | .tph => upd fun x => { x with tph := on }
  | .ptm => if f.val = 0 then upd fun x => { x with ptm := on } else s
  | .pme => upd fun x => { x with pme := on }
  | .cto => upd fun x => { x with cto := v % 16 }
  | .vfEn => if f.val < 8 then s.vfEnWrite h f on else s
  | .vfMse => if f.val < 8 then upd fun x => { x with vfMse := on } else s
  | .mrrs => upd fun x => { x with mrrs := v % 8 }
  | .mps => upd fun x => { x with mps := v % 8 }
  | .power => if v % 4 = 3 then s.did (execD3hotEntry h f s) else if v % 4 = 0 then s.did (execD0Return h f s) else s
  | .l1 => if f.val = 0 then upd fun x => { x with l1 := v % 8 } else s
  | .flr => if on then s.did (execFlr h f s) else s
  | .bar i => upd fun x => { x with bars := barWrite x.bars i v }
  | .vfBar i => upd fun x => { x with vfBars := barWrite x.vfBars i v }
  | .aerStatus => upd fun x => { x with aerStat := Nat.land x.aerStat (2 ^ 32 - 1 - v % 2 ^ 32) }
  | .aerMask => upd fun x => { x with aerMask := v % 2 ^ 32 }
  | .aerSeverity => upd fun x => { x with aerSev := v % 2 ^ 32 }
  | .errorEnables => upd fun x => { x with errEn := v % 16 }
  | .ltrEnable => if f.val = 0 then upd fun x => { x with ltr := on } else s
  | .acsControl => if f.val < 8 then upd fun x => { x with acs := Nat.land v 0b1110 } else s
  | .vendorId | .deviceId | .revisionId | .classCode | .headerType | .subsysVid | .subsysId | .interruptPin | .vfDeviceId | .serial
  | .totalVfs | .initialVfs | .tableSize | .mpsSupported | .capable _ | .deviceType | .flrCapable | .ctoRanges | .ctoDisable
  | .atomicCompleter | .tag14 | .aspmSupport | .noSoftReset | .pmeSupport | .acsCapability | .l1Capability | .ptmCapability | .tphModes => s

/-! ### The request -/

end Sys2Proof.Machine

namespace Sys2Proof

/-- Bytes of payload that a request carries. -/
def Tlp.bytes : Tlp → Nat
  | .memWrite _ _ d => d.length
  | .atomicOp _ _ l k _ _ => if k.val = 2 then 2 * l else l
  | .cfgWrite _ _ => 4
  | _ => 0

/-- A request to configuration space. -/
def Tlp.isCfg : Tlp → Bool
  | .cfgRead _ => true
  | .cfgWrite _ _ => true
  | _ => false

/-- A posted request. -/
def Tlp.posted : Tlp → Bool
  | .memWrite _ _ _ => true
  | .message => true
  | _ => false

end Sys2Proof

namespace Sys2Proof.Machine
open Sys2Proof

/-- A function answers requests: it exists, and a VF is enabled by its PF (R557, R561). -/
def State.answers (s : State) (h f : Nat) : Bool := s.funcExists h f && (decide (f < 8) || (s.fn h (s.pfOf h f)).vfEn)

/-- A request that is neither poisoned nor turned away. -/
def State.serveTlp (s : State) (h : Fin 64) (f : Fin 264) : Tlp → State
  | .memRead bar off len => if s.memOpen h f then s.memRead h f bar off len else s.unsupported h f false
  | .memWrite bar off d => if s.memOpen h f then s.memWrite h f bar off d else s.unsupported h f true
  | .atomicOp bar off len k a b => if s.memOpen h f then s.barAtomic h f bar off len k a b else s.unsupported h f false
  | .cfgRead c => s.emitData (.fn h f) 4 (.cfgData h f (s.cfgRead h f c))
  | .cfgWrite c v => s.cfgWrite h f c v
  | .other => s.unsupported h f false
  | .message => s.unsupported h f true

/-- INBOUND_REQUEST (R565, R582, R697): a request TLP for function `f` arrives on an active link, perhaps poisoned. DESIGN CHOICE: log entry 42. DEDUCED: log entry 44. -/
def execInboundRequest (h : Fin 64) (f : Fin 264) (q : Tlp) (poisoned : Bool) (s : State) : Host.Outcome State Fault Refusal :=
  if s.linkUp h then
    let s := (s.did (execL1Exit h s)).modHport h fun x => { x with idleFrom := s.now }
    let s := (s.count 26 h 0x43).count 26 h 0x45 (divUp q.bytes 64)
    if poisoned then .next ((s.raise E.HPT_POISON_RX h).aer h f 12)
    else if s.answers h f = false then .next (s.unsupported h f q.posted)
    else if q.isCfg ∧ ((s.fn h f).flrAt.isSome ∨ s.boot.stage < 3) then .next (s.emit (.retryStatus h f))
    else if (s.fn h f).flrAt.isSome then .next (s.unsupported h f q.posted)
    else .next (s.serveTlp h f q)
  else .next s

end Sys2Proof.Machine
end

