-- ==== Sys2Proof/Machine/Dispatch.lean ====
section
/-!
DEFINITION. The dispatch of a command to its meaning: one arm per constructor of Instr, one direct call each.
-/
namespace Sys2Proof.Machine
open Sys2Proof

def exec (i : Instr) (s : State) : Host.Outcome State Fault Refusal :=
  match i with
  | .coldReset => Sys2Proof.Machine.execColdReset s
  | .warmReset => Sys2Proof.Machine.execWarmReset s
  | .devReset key => Sys2Proof.Machine.execDevReset key s
  | .pwrGoodFall => Sys2Proof.Machine.execPwrGoodFall s
  | .restoreStart faultMode => Sys2Proof.Machine.execRestoreStart faultMode s
  | .restorePhase1Done => Sys2Proof.Machine.execRestorePhase1Done s
  | .restoreDone => Sys2Proof.Machine.execRestoreDone s
  | .regWrite m off h v => Sys2Proof.Machine.execRegWrite m off h v s
  | .mtNowRead m => Sys2Proof.Machine.execMtNowRead m s
  | .mtTodNextWrite v => Sys2Proof.Machine.execMtTodNextWrite v s
  | .ppsInEdge x => Sys2Proof.Machine.execPpsInEdge x s
  | .servoUpdate offPs err qual => Sys2Proof.Machine.execServoUpdate offPs err qual s
  | .sourceLost => Sys2Proof.Machine.execSourceLost s
  | .mtSrcWrite v => Sys2Proof.Machine.execMtSrcWrite v s
  | .holdoverLimit => Sys2Proof.Machine.execHoldoverLimit s
  | .settleQualified => Sys2Proof.Machine.execSettleQualified s
  | .timeRequestDue p => Sys2Proof.Machine.execTimeRequestDue p s
  | .timeFrameRx p k hd rest residual => Sys2Proof.Machine.execTimeFrameRx p k hd rest residual s
  | .ptmDialog => Sys2Proof.Machine.execPtmDialog s
  | .ptmResponseRx ok t residual => Sys2Proof.Machine.execPtmResponseRx ok t residual s
  | .ppsOutRise => Sys2Proof.Machine.execPpsOutRise s
  | .alarmFire n => Sys2Proof.Machine.execAlarmFire n s
  | .epochAtWrite cls inst t => Sys2Proof.Machine.execEpochAtWrite cls inst t s
  | .optReachWrite e reach => Sys2Proof.Machine.execOptReachWrite e reach s
  | .feedLow e f pwr => Sys2Proof.Machine.execFeedLow e f pwr s
  | .feedLost e f => Sys2Proof.Machine.execFeedLost e f s
  | .lsrcRemoved e => Sys2Proof.Machine.execLsrcRemoved e s
  | .lsrcInserted e => Sys2Proof.Machine.execLsrcInserted e s
  | .feedQualified e f pwr => Sys2Proof.Machine.execFeedQualified e f pwr s
  | .monitorRefresh l rx bias temp feed => Sys2Proof.Machine.execMonitorRefresh l rx bias temp feed s
  | .portEnable p v => Sys2Proof.Machine.execPortEnable p v s
  | .portDisable p v => Sys2Proof.Machine.execPortDisable p v s
  | .laneSymbolLock l => Sys2Proof.Machine.execLaneSymbolLock l s
  | .bringupDone p => Sys2Proof.Machine.execBringupDone p s
  | .bringupTimeout p => Sys2Proof.Machine.execBringupTimeout p s
  | .capSend p => Sys2Proof.Machine.execCapSend p s
  | .capFrameRx p k hd rest => Sys2Proof.Machine.execCapFrameRx p k hd rest s
  | .nonceRedraw p => Sys2Proof.Machine.execNonceRedraw p s
  | .trainRestart p => Sys2Proof.Machine.execTrainRestart p s
  | .frameLock p => Sys2Proof.Machine.execFrameLock p s
  | .symbolLockLoss l => Sys2Proof.Machine.execSymbolLockLoss l s
  | .laneLossExpiry l => Sys2Proof.Machine.execLaneLossExpiry l s
  | .uncorrWindow l corr uncorr => Sys2Proof.Machine.execUncorrWindow l corr uncorr s
  | .laneRetryAttempt l locked idx => Sys2Proof.Machine.execLaneRetryAttempt l locked idx s
  | .portRestore p => Sys2Proof.Machine.execPortRestore p s
  | .portRetrain p => Sys2Proof.Machine.execPortRetrain p s
  | .portDown p => Sys2Proof.Machine.execPortDown p s
  | .lockLossExpiry p => Sys2Proof.Machine.execLockLossExpiry p s
  | .graceExpiry p => Sys2Proof.Machine.execGraceExpiry p s
  | .rcalStep l live drifted => Sys2Proof.Machine.execRcalStep l live drifted s
  | .frameSlot p k => Sys2Proof.Machine.execFrameSlot p k s
  | .dataFrameRx p k b => Sys2Proof.Machine.execDataFrameRx p k b s
  | .idleFrameRx p k b => Sys2Proof.Machine.execIdleFrameRx p k b s
  | .ackFrameRx p k hd rest => Sys2Proof.Machine.execAckFrameRx p k hd rest s
  | .fenceFrameRx p k b => Sys2Proof.Machine.execFenceFrameRx p k b s
  | .badFrameRx lane b => Sys2Proof.Machine.execBadFrameRx lane b s
  | .replayTimeout p => Sys2Proof.Machine.execReplayTimeout p s
  | .creditGrant p => Sys2Proof.Machine.execCreditGrant p s
  | .creditRelease p vc => Sys2Proof.Machine.execCreditRelease p vc s
  | .slotsWrite p v => Sys2Proof.Machine.execSlotsWrite p v s
  | .cellSlot errs => Sys2Proof.Machine.execCellSlot errs s
  | .packetArrival t inPort pkt => Sys2Proof.Machine.execPacketArrival t inPort pkt s
  | .reservationRequest t out port vc mc => Sys2Proof.Machine.execReservationRequest t out port vc mc s
  | .reservationGrant out port vc mc => Sys2Proof.Machine.execReservationGrant out port vc mc s
  | .packetComplete t res => Sys2Proof.Machine.execPacketComplete t res s
  | .reasmTimeout t res => Sys2Proof.Machine.execReasmTimeout t res s
  | .packetAbort t id => Sys2Proof.Machine.execPacketAbort t id s
  | .ageSweep t => Sys2Proof.Machine.execAgeSweep t s
  | .midFenceEffect => Sys2Proof.Machine.execMidFenceEffect s
  | .midDrainDone m => Sys2Proof.Machine.execMidDrainDone m s
  | .midReturn m => Sys2Proof.Machine.execMidReturn m s
  | .tileFenceFull t => Sys2Proof.Machine.execTileFenceFull t s
  | .tileFenceRelease t => Sys2Proof.Machine.execTileFenceRelease t s
  | .devSelfWrite v => Sys2Proof.Machine.execDevSelfWrite v s
  | .escMove t id => Sys2Proof.Machine.execEscMove t id s
  | .gossipSend => Sys2Proof.Machine.execGossipSend s
  | .gossipRx p pkt => Sys2Proof.Machine.execGossipRx p pkt s
  | .gossipStale p => Sys2Proof.Machine.execGossipStale p s
  | .holdEnd t => Sys2Proof.Machine.execHoldEnd t s
  | .rteFenceWrite t v => Sys2Proof.Machine.execRteFenceWrite t v s
  | .shaperRefill => Sys2Proof.Machine.execShaperRefill s
  | .shaperCfgWrite t j rate v => Sys2Proof.Machine.execShaperCfgWrite t j rate v s
  | .queueSample t => Sys2Proof.Machine.execQueueSample t s
  | .histClr t => Sys2Proof.Machine.execHistClr t s
  | .telRecord t => Sys2Proof.Machine.execTelRecord t s
  | .pmcWrite cls inst k v => Sys2Proof.Machine.execPmcWrite cls inst k v s
  | .pmcSnapNow cls inst => Sys2Proof.Machine.execPmcSnapNow cls inst s
  | .pmnSnapNow => Sys2Proof.Machine.execPmnSnapNow s
  | .cntClr cls inst => Sys2Proof.Machine.execCntClr cls inst s
  | .ctxRangeWrite e n v => Sys2Proof.Machine.execCtxRangeWrite e n v s
  | .enginePacketRx e q => Sys2Proof.Machine.execEnginePacketRx e q s
  | .ctxLoadStart e => Sys2Proof.Machine.execCtxLoadStart e s
  | .ctxWord0Return e c w0 => Sys2Proof.Machine.execCtxWord0Return e c w0 s
  | .ctxLoadDone e c ws => Sys2Proof.Machine.execCtxLoadDone e c ws s
  | .ctxLoadFail e c => Sys2Proof.Machine.execCtxLoadFail e c s
  | .evict e c => Sys2Proof.Machine.execEvict e c s
  | .close e c => Sys2Proof.Machine.execClose e c s
  | .evictRange e n => Sys2Proof.Machine.execEvictRange e n s
  | .ctxCmdEnd e => Sys2Proof.Machine.execCtxCmdEnd e s
  | .queuePoll e c q => Sys2Proof.Machine.execQueuePoll e c q s
  | .pollReadReturn e tag ok data => Sys2Proof.Machine.execPollReadReturn e tag ok data s
  | .nudge e c q port func => Sys2Proof.Machine.execNudge e c q port func s
  | .wqInval e c q index port func => Sys2Proof.Machine.execWqInval e c q index port func s
  | .wqCtlReset e c q index port func => Sys2Proof.Machine.execWqCtlReset e c q index port func s
  | .queueDrainDone e c q => Sys2Proof.Machine.execQueueDrainDone e c q s
  | .entryStart e => Sys2Proof.Machine.execEntryStart e s
  | .nop e c q => Sys2Proof.Machine.execNop e c q s
  | .completionRecordWrite e c q => Sys2Proof.Machine.execCompletionRecordWrite e c q s
  | .eventRecordWrite e c => Sys2Proof.Machine.execEventRecordWrite e c s
  | .errorRecordWrite e c => Sys2Proof.Machine.execErrorRecordWrite e c s
  | .evqArm e c port func => Sys2Proof.Machine.execEvqArm e c port func s
  | .userPageAccess e c port func off len val => Sys2Proof.Machine.execUserPageAccess e c port func off len val s
  | .put e slot => Sys2Proof.Machine.execPut e slot s
  | .putFlag e slot => Sys2Proof.Machine.execPutFlag e slot s
  | .get e slot => Sys2Proof.Machine.execGet e slot s
  | .getSegmentIssue e slot => Sys2Proof.Machine.execGetSegmentIssue e slot s
  | .atomicAdd e slot => Sys2Proof.Machine.execAtomicAdd e slot s
  | .atomicFadd e slot => Sys2Proof.Machine.execAtomicFadd e slot s
  | .atomicCas e slot => Sys2Proof.Machine.execAtomicCas e slot s
  | .send e slot => Sys2Proof.Machine.execSend e slot s
  | .fence e c q => Sys2Proof.Machine.execFence e c q s
  | .fenceFinish e c q => Sys2Proof.Machine.execFenceFinish e c q s
  | .recvPost e c q => Sys2Proof.Machine.execRecvPost e c q s
  | .recvClaim e c q => Sys2Proof.Machine.execRecvClaim e c q s
  | .recvResume e c q => Sys2Proof.Machine.execRecvResume e c q s
  | .lockAcq e slot => Sys2Proof.Machine.execLockAcq e slot s
  | .lockRel e slot => Sys2Proof.Machine.execLockRel e slot s
  | .lockRenew e slot => Sys2Proof.Machine.execLockRenew e slot s
  | .coll e c q => Sys2Proof.Machine.execColl e c q s
  | .xltInval e c q => Sys2Proof.Machine.execXltInval e c q s
  | .putPacketRx e q => Sys2Proof.Machine.execPutPacketRx e q s
  | .getReqRx e q => Sys2Proof.Machine.execGetReqRx e q s
  | .atomicRequestRx e q => Sys2Proof.Machine.execAtomicRequestRx e q s
  | .flushRx e q => Sys2Proof.Machine.execFlushRx e q s
  | .flushReadComplete e tag ok => Sys2Proof.Machine.execFlushReadComplete e tag ok s
  | .atomicopCompletion e tag ok data => Sys2Proof.Machine.execAtomicopCompletion e tag ok data s
  | .hostReadCompletion e tag ok data => Sys2Proof.Machine.execHostReadCompletion e tag ok data s
  | .ackRx e q => Sys2Proof.Machine.execAckRx e q s
  | .sackRx e q => Sys2Proof.Machine.execSackRx e q s
  | .nackBusyRx e q => Sys2Proof.Machine.execNackBusyRx e q s
  | .nackAccessRx e q => Sys2Proof.Machine.execNackAccessRx e q s
  | .getDataRx e q => Sys2Proof.Machine.execGetDataRx e q s
  | .holeTimeout e get src opid => Sys2Proof.Machine.execHoleTimeout e get src opid s
  | .retryTimeout e slot => Sys2Proof.Machine.execRetryTimeout e slot s
  | .busyBackoffExpiry e slot poff => Sys2Proof.Machine.execBusyBackoffExpiry e slot poff s
  | .completionHoldEnd e slot => Sys2Proof.Machine.execCompletionHoldEnd e slot s
  | .dupExpiry u src opid => Sys2Proof.Machine.execDupExpiry u src opid s
  | .regInval e v => Sys2Proof.Machine.execRegInval e v s
  | .acacheFlush e v => Sys2Proof.Machine.execAcacheFlush e v s
  | .rateIncrease e => Sys2Proof.Machine.execRateIncrease e s
  | .sendPacketRx e q => Sys2Proof.Machine.execSendPacketRx e q s
  | .rtsRx e q => Sys2Proof.Machine.execRtsRx e q s
  | .rdvGetRx e q => Sys2Proof.Machine.execRdvGetRx e q s
  | .rdvAcceptRx e q => Sys2Proof.Machine.execRdvAcceptRx e q s
  | .gapWindowExpiry e src sctx sq tctx => Sys2Proof.Machine.execGapWindowExpiry e src sctx sq tctx s
  | .streamEntryExpiry e c q dest tctx => Sys2Proof.Machine.execStreamEntryExpiry e c q dest tctx s
  | .setup u g seq => Sys2Proof.Machine.execSetup u g seq s
  | .release u g => Sys2Proof.Machine.execRelease u g s
  | .reset u g seq => Sys2Proof.Machine.execReset u g seq s
  | .contribRx u q => Sys2Proof.Machine.execContribRx u q s
  | .resultRx e q => Sys2Proof.Machine.execResultRx e q s
  | .reissueRx e q => Sys2Proof.Machine.execReissueRx e q s
  | .fencedRx u q => Sys2Proof.Machine.execFencedRx u q s
  | .pruneNotice u => Sys2Proof.Machine.execPruneNotice u s
  | .colTimeout u g => Sys2Proof.Machine.execColTimeout u g s
  | .collWaitTimeout e c q => Sys2Proof.Machine.execCollWaitTimeout e c q s
  | .walkReadReturn e tag ok entry => Sys2Proof.Machine.execWalkReadReturn e tag ok entry s
  | .adCasReturn e tag ok entry => Sys2Proof.Machine.execAdCasReturn e tag ok entry s
  | .xltInvalCmd e v => Sys2Proof.Machine.execXltInvalCmd e v s
  | .invalComplete e => Sys2Proof.Machine.execInvalComplete e s
  | .lockAcqRx e q => Sys2Proof.Machine.execLockAcqRx e q s
  | .lockRelRx e q => Sys2Proof.Machine.execLockRelRx e q s
  | .lockRenewRx e q => Sys2Proof.Machine.execLockRenewRx e q s
  | .lockRspRx e q => Sys2Proof.Machine.execLockRspRx e q s
  | .leaseExpiry u l => Sys2Proof.Machine.execLeaseExpiry u l s
  | .waiterExpiry u src opid => Sys2Proof.Machine.execWaiterExpiry u src opid s
  | .boostRefresh u l => Sys2Proof.Machine.execBoostRefresh u l s
  | .boostRx e q => Sys2Proof.Machine.execBoostRx e q s
  | .boostExpiry e => Sys2Proof.Machine.execBoostExpiry e s
  | .perstDeassert p => Sys2Proof.Machine.execPerstDeassert p s
  | .perstAssert p => Sys2Proof.Machine.execPerstAssert p s
  | .hostLinkUp h gen width => Sys2Proof.Machine.execHostLinkUp h gen width s
  | .hostLinkDown h => Sys2Proof.Machine.execHostLinkDown h s
  | .inboundRequest h f q poisoned => Sys2Proof.Machine.execInboundRequest h f q poisoned s
  | .winCommit h => Sys2Proof.Machine.execWinCommit h s
  | .winCommitInForce h => Sys2Proof.Machine.execWinCommitInForce h s
  | .completionTimeout tag => Sys2Proof.Machine.execCompletionTimeout tag s
  | .fabTimeout tag => Sys2Proof.Machine.execFabTimeout tag s
  | .d3hotEntry h f => Sys2Proof.Machine.execD3hotEntry h f s
  | .d0Return h f => Sys2Proof.Machine.execD0Return h f s
  | .l1Entry h => Sys2Proof.Machine.execL1Entry h s
  | .flr h f => Sys2Proof.Machine.execFlr h f s
  | .flrComplete h f => Sys2Proof.Machine.execFlrComplete h f s
  | .bmeWrite h f on => Sys2Proof.Machine.execBmeWrite h f on s
  | .msixPendingSend h f v => Sys2Proof.Machine.execMsixPendingSend h f v s
  | .shadowCommit cls inst => Sys2Proof.Machine.execShadowCommit cls inst s
  | .shadowDiscard cls inst => Sys2Proof.Machine.execShadowDiscard cls inst s
  | .shadowDisarm cls inst => Sys2Proof.Machine.execShadowDisarm cls inst s
  | .evtForce m cls inst v => Sys2Proof.Machine.execEvtForce m cls inst v s
  | .injArm cls inst => Sys2Proof.Machine.execInjArm cls inst s
  | .dptBurstWrite m off data => Sys2Proof.Machine.execDptBurstWrite m off data s
  | .dptBurstRead m off len => Sys2Proof.Machine.execDptBurstRead m off len s
  | .regRd q => Sys2Proof.Machine.execRegRd q s
  | .regWr q => Sys2Proof.Machine.execRegWr q s
  | .dptRd q => Sys2Proof.Machine.execDptRd q s
  | .dptWr q => Sys2Proof.Machine.execDptWr q s
  | .response q => Sys2Proof.Machine.execResponse q s
  | .mgtMboxGo => Sys2Proof.Machine.execMgtMboxGo s
  | .mgtMboxResend => Sys2Proof.Machine.execMgtMboxResend s
  | .replyCacheExpiry src tag => Sys2Proof.Machine.execReplyCacheExpiry src tag s
  | .mctpRequest w2 w3 w4 w5 data => Sys2Proof.Machine.execMctpRequest w2 w3 w4 w5 data s
  | .faultEvent => Sys2Proof.Machine.execFaultEvent s
  | .repairEntryAdd => Sys2Proof.Machine.execRepairEntryAdd s
  | .scrubRead bank word bad last => Sys2Proof.Machine.execScrubRead bank word bad last s
  | .cfgCheck cls inst off bad => Sys2Proof.Machine.execCfgCheck cls inst off bad s
  | .thermWarn temp => Sys2Proof.Machine.execThermWarn temp s
  | .thermTrip temp => Sys2Proof.Machine.execThermTrip temp s
  | .railFault g => Sys2Proof.Machine.execRailFault g s
  | .refclkLoss => Sys2Proof.Machine.execRefclkLoss s
  | .cpWatchdog => Sys2Proof.Machine.execCpWatchdog s
  | .collectorErr => Sys2Proof.Machine.execCollectorErr s
  | .heartbeatEdge => Sys2Proof.Machine.execHeartbeatEdge s
  | .faultPulseEnd => Sys2Proof.Machine.execFaultPulseEnd s
  | .portIdleRequest p => Sys2Proof.Machine.execPortIdleRequest p s
  | .portRungCmd p rung => Sys2Proof.Machine.execPortRungCmd p rung s
  | .ladderReqTimeout p => Sys2Proof.Machine.execLadderReqTimeout p s
  | .rungStepDown p => Sys2Proof.Machine.execRungStepDown p s
  | .portWake p light => Sys2Proof.Machine.execPortWake p light s
  | .wakeTimeout p d => Sys2Proof.Machine.execWakeTimeout p d s
  | .tileRungCmd t rung => Sys2Proof.Machine.execTileRungCmd t rung s
  | .tileRungEntry t => Sys2Proof.Machine.execTileRungEntry t s
  | .tileAutoEntry t => Sys2Proof.Machine.execTileAutoEntry t s
  | .deviceRungCmd rung => Sys2Proof.Machine.execDeviceRungCmd rung s
  | .deviceRungArrival => Sys2Proof.Machine.execDeviceRungArrival s
  | .deviceWake w => Sys2Proof.Machine.execDeviceWake w s
  | .bankBitWrite t off n v => Sys2Proof.Machine.execBankBitWrite t off n v s
  | .bankRungReached t l => Sys2Proof.Machine.execBankRungReached t l s
  | .commit slot => Sys2Proof.Machine.execCommit slot s
  | .repairClear arg => Sys2Proof.Machine.execRepairClear arg s
  | .erase m mask => Sys2Proof.Machine.execErase m mask s
  | .ucode arg => Sys2Proof.Machine.execUcode arg s
  | .almCmdEnd ok => Sys2Proof.Machine.execAlmCmdEnd ok s
  | .almUnfence cls inst bank scope => Sys2Proof.Machine.execAlmUnfence cls inst bank scope s
  | .refusalPeriodEnd e => Sys2Proof.Machine.execRefusalPeriodEnd e s
  | .injectPauseEnd e => Sys2Proof.Machine.execInjectPauseEnd e s
  | .ownerWrite m r v => Sys2Proof.Machine.execOwnerWrite m r v s
  | .presenceEdge low => Sys2Proof.Machine.execPresenceEdge low s
  | .presenceWindowExpiry => Sys2Proof.Machine.execPresenceWindowExpiry s
  | .sealMismatch xfer => Sys2Proof.Machine.execSealMismatch xfer s
  | .fuseProg m => Sys2Proof.Machine.execFuseProg m s
  | .progDone ok => Sys2Proof.Machine.execProgDone ok s
  | .debugUnlock m => Sys2Proof.Machine.execDebugUnlock m s
  | .fwImageAccept version crc => Sys2Proof.Machine.execFwImageAccept version crc s
  | .fwRestart => Sys2Proof.Machine.execFwRestart s
  | .lsrcBusPoll e ok id ready => Sys2Proof.Machine.execLsrcBusPoll e ok id ready s
  | .bringupRateAlternate p => Sys2Proof.Machine.execBringupRateAlternate p s
  | .laneDelineated lane => Sys2Proof.Machine.execLaneDelineated lane s
  | .decGapExpiry e dest => Sys2Proof.Machine.execDecGapExpiry e dest s
  | .l1Exit h => Sys2Proof.Machine.execL1Exit h s
  | .pwrGoodRise mainOut hio opt => Sys2Proof.Machine.execPwrGoodRise mainOut hio opt s
  | .rungExitDone u => Sys2Proof.Machine.execRungExitDone u s
  | .cpRestartDone => Sys2Proof.Machine.execCpRestartDone s

end Sys2Proof.Machine
end

