-- ==== Sys2Proof/Machine/Tick.lean ====
section
/-!
DEFINITION. One core clock (R40, R268): the clock advances, and the programmable counters that count clocks advance with it (Tables 7.2,
7.3, 8.14, 9.11, 10.9, 11.9, 13.12, 14.8, 15.10 and 18.9).
-/
namespace Sys2Proof.Machine
open Sys2Proof

/-- Clocks of the 1.6 GHz block clock that end in the core clock numbered `cyc`. DEDUCED: log entry 13. -/
def engineClocks (cyc : Nat) : Nat := (cyc + 1) * 4 / 5 - cyc * 4 / 5

/-- A page stands in an engine-side block (Table 7.2, number 2). -/
def engineSide (cls : Nat) : Bool := decide (17 ≤ cls ∧ cls ≤ 25)

/-- Some packet of an engine waits on the rate of its destination (Table 9.11). -/
def State.rateWait (s : State) (e : Nat) : Bool :=
  let slow := fun dest => decide (s.now < Tab.get 0 (s.eng e).pace dest)
  (s.opsOf e).any (fun x => x.2.begun && !x.2.unsent.isEmpty && slow x.2.dest)
    || (s.tile (tileOfEng e)).fresh.any (fun f => f.inPort == e && pacedHere e f.pkt && slow f.pkt.dst)
    || (s.cached e).any fun k => (List.range 8).any fun q => (k.q q).st == 1 && match (k.q q).cache with
      | d :: _ => takesSlot (dOpcode d) && slow (dDest d)
      | [] => false

/-- What an event of a fabric page adds in one clock. -/
def State.perClockFab (s : State) (cls i ev : Nat) : Nat :=
  if cls = 8 ∧ ev = 0x43 then b2n (s.flag F.LANE_STAT_LOCK i)
  else if cls = 10 ∧ ev = 0x42 then b2n (s.active i)
  else if cls = 10 ∧ ev = 0x43 then b2n (s.flag F.PORT_STAT_HELD i)
  else if cls = 10 ∧ ev = 0x44 then b2n (s.get F.PORT_PWR_STAT_RUNG i != 0)
  else if cls = 12 ∧ ev = 0x43 then b2n (s.get F.TILE_PWR_CUR i != 0)
  else if cls = 13 ∧ ev = 0x42 then (s.tile i).reqs.length
  else if cls = 26 ∧ ev = 0x46 then s.npOut i
  else if cls = 26 ∧ ev = 0x47 then b2n (s.get F.HPT_STAT_PM i != 0)
  else 0

/-- What an event of an engine-side page sums in one of its block clocks; `ctx` restricts it to a context (R276). -/
def State.perClockEng (s : State) (cls i ev : Nat) (ctx : Option Nat) : Nat :=
  let x := s.eng i
  let u := s.cunit i
  if cls = 18 ∧ ev = 0x47 then ((s.opsOf i).filter fun o => ctx.all (o.2.ctx == ·)).length + s.collOps i ctx
  else if ctx.isSome then 0
  else if cls = 18 ∧ ev = 0x46 then x.miss.length
  else if cls = 20 ∧ ev = 0x45 then b2n (decide (1024 ≤ s.dcUsed i))
  else if cls = 21 ∧ ev = 0x46 then x.trackers.length
  else if cls = 21 ∧ ev = 0x49 then b2n (s.rateWait i)
  else if cls = 22 ∧ ev = 0x47 then x.posted.length
  else if cls = 22 ∧ ev = 0x48 then x.unexpIn none
  else if cls = 23 ∧ ev = 0x48 then (x.walks.filter (·.running)).length
  else if cls = 17 ∧ ev = 0x46 then (u.chunks.map fun c => if s.ordered c.g then c.ins.length else 1).sum
  else if cls = 24 ∧ ev = 0x47 then u.waiters.length
  else if cls = 25 ∧ ev = 0x43 then u.dup.length
  else 0

/-- What an event adds in the clock that follows state `s`, in which elapsed MT reaches `now` (Tables 7.2 and 7.3). -/
def State.perClock (s : State) (now cls i ev : Nat) (ctx : Option Nat) : Nat :=
  if ev = 1 then b2n ctx.isNone
  else if ev = 2 then (if ctx.isSome then 0 else if engineSide cls then engineClocks s.clk.cyc else 1)
  else if ev = 3 then (if ctx.isSome then 0 else now / ns 1000 - s.now / ns 1000)
  else if engineSide cls then engineClocks s.clk.cyc * s.perClockEng cls i ev ctx
  else if ctx.isSome then 0
  else s.perClockFab cls i ev

/-- The pages with an enabled counter: class and instance. -/
def State.countingPages (s : State) : List (Nat × Nat) :=
  (s.rf.regs.filter fun e => e.1 % (64 * 4096) == 0xB0 * 64 && e.2 != 0).map fun e => (e.1 / 64 / 4096 / 1024, e.1 / 64 / 4096 % 1024)

/-- One counter of a page advanced by the clock that follows `old`; one with FILT_EN outside ENG counts nothing (R277). -/
def State.clockCounter (old : State) (cls i : Nat) (s : State) (k : Nat) : State :=
  let filt := s.getBit (F.PMC_CTL_FILT_EN.of cls) k i
  let d := old.perClock s.now cls i (s.get (F.PMC_SEL_EV.of cls) i 0 k) (if filt then some (s.get F.PMC_FILT_FILT_CTX i) else none)
  if s.getBit (F.PMC_CTL_EN.of cls) k i && !s.flag (F.PMC_SAT.of cls) i k && !(filt && cls != 18) && d != 0 then s.countIn cls i d k else s

/-- The counters of a page. -/
def State.clockPage (old s : State) (cls i : Nat) : State :=
  if s.pmcFrozen cls i then s else (List.range (pmcNum cls)).foldl (old.clockCounter cls i) s

/-- BUF_STAT.OVER_QUOTA of every tile that holds something brought up to date (R180). -/
def State.quotas (s : State) : State := s.each (s.tiles.map (·.1)) State.checkQuota

/-- The PEAK fields of a link, a middle or a unit that a write left below the level raised to it again (R10, R161, R382). -/
def State.peaks (s : State) : State :=
  let s := s.each (s.links.map (·.1)) fun s p => s.raisePeak F.LNK_REPLAY_PEAK (s.replayUsed p) p
  let s := s.each (s.tiles.map (·.1)) fun s m => s.raisePeak F.BUF_MID_OCC_PEAK (s.midUsed m) m
  s.each (s.units.map (·.1)) fun s u =>
    (s.raisePeak F.DUP_STAT_PEAK (s.cunit u).dup.length u).raisePeak F.LCK_STAT_PEAK (s.cunit u).waiters.length u

/-- One core clock. DESIGN CHOICE: log entry 4. -/
def State.tick (s : State) : State := State.each s.countingPages (fun t (c, i) => s.clockPage t c i) ((s.clock.quotas).peaks.joins.hwFences s.rf.wrote)

end Sys2Proof.Machine
end

