-- ==== Sys2Proof/Machine/Step.lean ====
section
/-!
DEFINITION. The step: the command at the front of the queue, or one core clock when no command waits (log entries 3 and 4).
-/
namespace Sys2Proof.Machine
open Sys2Proof

/-- One step: the command at the front of the queue on the state with the queue's rest; on an empty queue, one core clock. DESIGN CHOICE: log entry 3. -/
def step (s : State) : Host.Outcome State Fault Refusal := match s.pending with
  | [] => .next s.tick
  | c :: l => exec c { s with pending := l }

/-- `s` with the command that a word spells at the front of its queue; unchanged where it spells none. -/
def State.withFetchWord (s : State) (nbits w : Nat) : State := match decodeTableWord nbits w with
  | some c => { s with pending := c :: s.pending }
  | none => s

end Sys2Proof.Machine
end

