-- ==== Sys2Proof/Safety.lean ====
section
/-!
DEFINITION. What a safe run is, and the invariant that every step keeps.
-/
namespace Sys2Proof.Machine
open Sys2Proof

/-- The invariant of a state: table-space memory is in its canonical form (addresses strictly rising, no byte that an unlisted address
reads as). -/
def State.inv (s : State) : Bool := Memory.wf s.mem

/-- The commands that may store in table space: resets and power (which clear it), the restore, writes of registers and of the data
port by every path, telemetry records and snapshots (also those of a slot that fires), and the operations that keep groups and locks
there. Every other command leaves table space as it is. -/
def mayStore (i : Instr) : Bool := match i with
  | .coldReset => true
  | .warmReset => true
  | .devReset _ => true
  | .pwrGoodFall => true
  | .restoreDone => true
  | .regWrite _ _ _ _ => true
  | .alarmFire _ => true
  | .telRecord _ => true
  | .pmcSnapNow _ _ => true
  | .pmnSnapNow => true
  | .close _ _ => true
  | .ctxCmdEnd _ => true
  | .setup _ _ _ => true
  | .release _ _ => true
  | .reset _ _ _ => true
  | .contribRx _ _ => true
  | .resultRx _ _ => true
  | .fencedRx _ _ => true
  | .pruneNotice _ => true
  | .colTimeout _ _ => true
  | .lockAcqRx _ _ => true
  | .lockRelRx _ _ => true
  | .lockRenewRx _ _ => true
  | .leaseExpiry _ _ => true
  | .waiterExpiry _ _ _ => true
  | .perstAssert _ => true
  | .hostLinkDown _ => true
  | .inboundRequest _ _ _ _ => true
  | .d3hotEntry _ _ => true
  | .flr _ _ => true
  | .shadowDiscard _ _ => true
  | .evtForce _ _ _ _ => true
  | .dptBurstWrite _ _ _ => true
  | .regRd _ => true
  | .regWr _ => true
  | .dptRd _ => true
  | .dptWr _ => true
  | .mctpRequest _ _ _ _ _ => true
  | .faultEvent => true
  | .collectorErr => true
  | .epochAtWrite _ _ _ => true
  | .shadowDisarm _ _ => true
  | .packetArrival _ _ _ => true
  | .d0Return _ _ => true
  | .deviceRungCmd _ => true
  | .deviceWake _ => true
  | .almCmdEnd _ => true
  | .pwrGoodRise _ _ _ => true
  | _ => false

/-- The state after `n` steps; none where one of them ends in a fault or a refusal. -/
def State.run : Nat → State → Option State
  | 0, s => some s
  | n + 1, s => match step s with
    | .next t => State.run n t
    | _ => none

/-- A safe run: `n` steps, none of which faults or is refused. -/
def State.safeRun (n : Nat) (s : State) : Bool := (s.run n).isSome

end Sys2Proof.Machine
end

