-- ==== Sys2Proof/WellFormed.lean ====
section
/-!
DEFINITION. Well-formed commands: operands that fit the fields the spec gives them. The meanings cut every operand to the width of the
field it enters, so they are defined on ill-formed commands too; a command from outside is well formed.
-/
namespace Sys2Proof

/-- A value that an unsigned field of `w` bits holds. -/
def fits (w v : Nat) : Bool := decide (v < 2 ^ w)

/-- The offset of a register in the 28-bit register space: a multiple of 8 bytes (R591). -/
def wordOffset (o : Nat) : Bool := decide (o < 2 ^ 28) && o % 8 == 0

/-- A link width (R554). -/
def isWidth (n : Nat) : Bool := [1, 2, 4, 8, 16].contains n

/-- A register value, or the value of one half of a register (R591). -/
def Half.fits (h : Half) (v : Nat) : Bool := match h with
  | .whole => Sys2Proof.fits 64 v
  | .lo => Sys2Proof.fits 32 v
  | .hi => Sys2Proof.fits 32 v

/-- The fields of a packet fit Table 6.1, and its payload is LEN bytes. -/
def Packet.wf (q : Packet) : Bool :=
  fits 24 q.dst && fits 24 q.src && fits 2 q.cls && fits 3 q.sl && fits 2 q.rmode && fits 32 q.birth && decide (q.len ≤ 4096)
    && fits 6 q.hops && [q.w2, q.w3, q.w4, q.w5, q.w6, q.w7].all (fits 64) && q.data.length == q.len

/-- The header and trailer fields of a frame fit Table 4.1. -/
def FrameHead.wf (h : FrameHead) : Bool :=
  fits 20 h.seq && fits 16 h.sack && fits 4 h.crVc && fits 12 h.crCnt && fits 12 h.cong && fits 20 h.cack

/-- The fields of a CAP cell fit Table 4.2. -/
def CapCell.wf (c : CapCell) : Bool :=
  fits 8 c.vers && fits 16 c.feat && fits 2 c.req && fits 2 c.cfgWidth && fits 3 c.laneIdx && fits 8 c.lockedLanes && fits 8 c.propLanes
    && fits 64 c.nonce && fits 11 c.group && fits 7 c.device && fits 10 c.port && fits 7 c.ladder

/-- The fields of a TIME cell fit Table 4.2. -/
def TimeCell.wf (c : TimeCell) : Bool :=
  fits 2 c.state && fits 4 c.hops && fits 16 c.errNs && fits 32 c.xid && fits 64 c.txStamp && fits 64 c.echo

/-- The fields of a FENCE cell fit Table 4.2. -/
def FenceCell.wf (c : FenceCell) : Bool := fits 8 c.reason && fits 64 c.mt && fits 11 c.group && fits 7 c.device && fits 10 c.port

/-- An ACK cell has 16 grants and 16 releases of 12 bits and an XSACK map of 1,536 bits (Table 4.2). -/
def AckCell.wf (c : AckCell) : Bool :=
  c.grants.length == 16 && c.releases.length == 16 && c.grants.all (fits 12) && c.releases.all (fits 12) && fits 1536 c.xsack

/-- A frame whose fields fit, as a sender forms it (R115, R120, R126). -/
def Frame.wf (f : Frame) : Bool := match f with
  | .data d => d.head.wf && fits 4 d.vc && d.cell.length == 256
  | .idle h => h.wf
  | .ack h c => h.wf && c.wf
  | .time h c => h.wf && c.wf
  | .fence h c => h.wf && c.wf
  | .cap h c => h.wf && c.wf

/-- A frame is 272 bytes (R115). -/
def frameWf (b : List Byte) : Bool := b.length == 272

/-- A frame as its 8 header bytes and the 264 bytes of cell and trailer (R115). -/
def frameParts (hd rest : List Byte) : Bool := hd.length == 8 && rest.length == 264

/-- A party's numbers fit: a host-port instance and a function of it, or an endpoint address (R594). -/
def Master.wf (m : Master) : Bool := match m with
  | .fn port func => decide (port < 64) && decide (func < 264)
  | .endpoint a => fits 24 a
  | .mctp => true

/-- A TLP moves 1 to 4,096 bytes; an AtomicOp has an operand of 4, 8 or (CAS only) 16 bytes (R565). -/
def Tlp.wf (q : Tlp) : Bool := match q with
  | .memRead _ _ len => decide (0 < len) && decide (len ≤ 4096)
  | .memWrite _ _ data => decide (0 < data.length) && decide (data.length ≤ 4096)
  | .atomicOp _ _ len kind _ _ => len == 4 || len == 8 || (len == 16 && kind.val == 2)
  | .cfgRead _ => true
  | .cfgWrite _ v => fits 64 v
  | .other => true
  | .message => true

/-- A well-formed command. -/
def Instr.wf (i : Instr) : Bool := match i with
  | .coldReset => true
  | .warmReset => true
  | .devReset key => fits 16 key
  | .pwrGoodFall => true
  | .restoreStart _ => true
  | .restorePhase1Done => true
  | .restoreDone => true
  | .regWrite m off h v => m.wf && wordOffset off && h.fits v
  | .mtNowRead m => m.wf
  | .mtTodNextWrite v => fits 64 v
  | .ppsInEdge _ => true
  | .servoUpdate _ err _ => fits 16 err
  | .sourceLost => true
  | .mtSrcWrite v => fits 64 v
  | .holdoverLimit => true
  | .settleQualified => true
  | .timeRequestDue _ => true
  | .timeFrameRx _ _ hd rest _ => frameParts hd rest
  | .ptmDialog => true
  | .ptmResponseRx _ t _ => fits 64 t
  | .ppsOutRise => true
  | .alarmFire _ => true
  | .epochAtWrite _ _ t => fits 64 t
  | .optReachWrite _ _ => true
  | .feedLow _ _ pwr => fits 16 pwr
  | .feedLost _ _ => true
  | .lsrcRemoved _ => true
  | .lsrcInserted _ => true
  | .feedQualified _ _ pwr => fits 16 pwr
  | .monitorRefresh _ rx bias temp feed => fits 16 rx && fits 16 bias && fits 16 temp && fits 16 feed
  | .portEnable _ v => fits 64 v
  | .portDisable _ v => fits 64 v
  | .laneSymbolLock _ => true
  | .bringupDone _ => true
  | .bringupTimeout _ => true
  | .capSend _ => true
  | .capFrameRx _ _ hd rest => frameParts hd rest
  | .nonceRedraw _ => true
  | .trainRestart _ => true
  | .frameLock _ => true
  | .symbolLockLoss _ => true
  | .laneLossExpiry _ => true
  | .uncorrWindow _ _ _ => true
  | .laneRetryAttempt _ _ _ => true
  | .portRestore _ => true
  | .portRetrain _ => true
  | .portDown _ => true
  | .lockLossExpiry _ => true
  | .graceExpiry _ => true
  | .rcalStep _ live _ => fits 48 live
  | .frameSlot _ _ => true
  | .dataFrameRx _ _ b => frameWf b
  | .idleFrameRx _ _ b => frameWf b
  | .ackFrameRx _ _ hd rest => frameParts hd rest
  | .fenceFrameRx _ _ b => frameWf b
  | .badFrameRx _ b => frameWf b
  | .replayTimeout _ => true
  | .creditGrant _ => true
  | .creditRelease _ _ => true
  | .slotsWrite _ v => fits 64 v
  | .cellSlot _ => true
  | .packetArrival _ _ pkt => pkt.wf
  | .reservationRequest _ _ _ _ _ => true
  | .reservationGrant _ _ _ _ => true
  | .packetComplete _ _ => true
  | .reasmTimeout _ _ => true
  | .packetAbort _ _ => true
  | .ageSweep _ => true
  | .midFenceEffect => true
  | .midDrainDone _ => true
  | .midReturn _ => true
  | .tileFenceFull _ => true
  | .tileFenceRelease _ => true
  | .devSelfWrite v => fits 64 v
  | .escMove _ _ => true
  | .gossipSend => true
  | .gossipRx _ pkt => pkt.wf
  | .gossipStale _ => true
  | .holdEnd _ => true
  | .rteFenceWrite _ v => fits 64 v
  | .shaperRefill => true
  | .shaperCfgWrite _ _ _ v => fits 64 v
  | .queueSample _ => true
  | .histClr _ => true
  | .telRecord _ => true
  | .pmcWrite _ _ _ v => fits 64 v
  | .pmcSnapNow _ _ => true
  | .pmnSnapNow => true
  | .cntClr _ _ => true
  | .ctxRangeWrite _ _ v => fits 64 v
  | .enginePacketRx _ q => q.wf
  | .ctxLoadStart _ => true
  | .ctxWord0Return _ c w0 => fits 20 c && fits 64 w0
  | .ctxLoadDone _ c ws => fits 20 c && (ws.length == 63 && ws.all (fits 64))
  | .ctxLoadFail _ c => fits 20 c
  | .evict _ c => fits 20 c
  | .close _ c => fits 20 c
  | .evictRange _ _ => true
  | .ctxCmdEnd _ => true
  | .queuePoll _ c _ => fits 20 c
  | .pollReadReturn _ _ _ data => decide (data.length ≤ 4096)
  | .nudge _ c _ _ func => fits 20 c && decide (func < 264)
  | .wqInval _ c _ index _ func => fits 20 c && fits 32 index && decide (func < 264)
  | .wqCtlReset _ c _ index _ func => fits 20 c && fits 32 index && decide (func < 264)
  | .queueDrainDone _ c _ => fits 20 c
  | .entryStart _ => true
  | .nop _ c _ => fits 20 c
  | .completionRecordWrite _ c _ => fits 20 c
  | .eventRecordWrite _ c => fits 20 c
  | .errorRecordWrite _ c => fits 20 c
  | .evqArm _ c _ func => fits 20 c && decide (func < 264)
  | .userPageAccess _ c _ func off len val => fits 20 c && decide (func < 264) && decide (off < 4096) && (len == 4 || len == 8) && val.all (fits (8 * len))
  | .put _ _ => true
  | .putFlag _ _ => true
  | .get _ _ => true
  | .getSegmentIssue _ _ => true
  | .atomicAdd _ _ => true
  | .atomicFadd _ _ => true
  | .atomicCas _ _ => true
  | .send _ _ => true
  | .fence _ c _ => fits 20 c
  | .fenceFinish _ c _ => fits 20 c
  | .recvPost _ c _ => fits 20 c
  | .recvClaim _ c _ => fits 20 c
  | .recvResume _ c _ => fits 20 c
  | .lockAcq _ _ => true
  | .lockRel _ _ => true
  | .lockRenew _ _ => true
  | .coll _ c _ => fits 20 c
  | .xltInval _ c _ => fits 20 c
  | .putPacketRx _ q => q.wf
  | .getReqRx _ q => q.wf
  | .atomicRequestRx _ q => q.wf
  | .flushRx _ q => q.wf
  | .flushReadComplete _ _ _ => true
  | .atomicopCompletion _ _ _ data => decide (data.length ≤ 4096)
  | .hostReadCompletion _ _ _ data => decide (data.length ≤ 4096)
  | .ackRx _ q => q.wf
  | .sackRx _ q => q.wf
  | .nackBusyRx _ q => q.wf
  | .nackAccessRx _ q => q.wf
  | .getDataRx _ q => q.wf
  | .holeTimeout _ _ src opid => fits 24 src && fits 32 opid
  | .retryTimeout _ _ => true
  | .busyBackoffExpiry _ _ poff => fits 32 poff
  | .completionHoldEnd _ _ => true
  | .dupExpiry _ src opid => fits 24 src && fits 32 opid
  | .regInval _ v => fits 64 v
  | .acacheFlush _ v => fits 64 v
  | .rateIncrease _ => true
  | .sendPacketRx _ q => q.wf
  | .rtsRx _ q => q.wf
  | .rdvGetRx _ q => q.wf
  | .rdvAcceptRx _ q => q.wf
  | .gapWindowExpiry _ src sctx sq tctx => fits 24 src && fits 20 sctx && decide (sq < 8) && fits 20 tctx
  | .streamEntryExpiry _ c _ dest tctx => fits 20 c && fits 24 dest && fits 20 tctx
  | .setup _ _ seq => fits 16 seq
  | .release _ _ => true
  | .reset _ _ seq => fits 16 seq
  | .contribRx _ q => q.wf
  | .resultRx _ q => q.wf
  | .reissueRx _ q => q.wf
  | .fencedRx _ q => q.wf
  | .pruneNotice _ => true
  | .colTimeout _ _ => true
  | .collWaitTimeout _ c _ => fits 20 c
  | .walkReadReturn _ _ _ entry => fits 64 entry
  | .adCasReturn _ _ _ entry => fits 64 entry
  | .xltInvalCmd _ v => fits 64 v
  | .invalComplete _ => true
  | .lockAcqRx _ q => q.wf
  | .lockRelRx _ q => q.wf
  | .lockRenewRx _ q => q.wf
  | .lockRspRx _ q => q.wf
  | .leaseExpiry _ _ => true
  | .waiterExpiry _ src opid => fits 24 src && fits 32 opid
  | .boostRefresh _ _ => true
  | .boostRx _ q => q.wf
  | .boostExpiry _ => true
  | .perstDeassert _ => true
  | .perstAssert _ => true
  | .hostLinkUp _ gen width => decide (1 ≤ gen) && decide (gen ≤ 7) && isWidth width
  | .hostLinkDown _ => true
  | .inboundRequest _ _ q _ => q.wf
  | .winCommit _ => true
  | .winCommitInForce _ => true
  | .completionTimeout _ => true
  | .fabTimeout _ => true
  | .d3hotEntry _ _ => true
  | .d0Return _ _ => true
  | .l1Entry _ => true
  | .flr _ _ => true
  | .flrComplete _ _ => true
  | .bmeWrite _ _ _ => true
  | .msixPendingSend _ _ _ => true
  | .shadowCommit _ _ => true
  | .shadowDiscard _ _ => true
  | .shadowDisarm _ _ => true
  | .evtForce m _ _ v => m.wf && fits 64 v
  | .injArm _ _ => true
  | .dptBurstWrite m off data => m.wf && decide (off < 2 ^ 28) && decide (0 < data.length)
  | .dptBurstRead m off len => m.wf && decide (off < 2 ^ 28) && decide (0 < len)
  | .regRd q => q.wf
  | .regWr q => q.wf
  | .dptRd q => q.wf
  | .dptWr q => q.wf
  | .response q => q.wf
  | .mgtMboxGo => true
  | .mgtMboxResend => true
  | .replyCacheExpiry src tag => fits 24 src && fits 32 tag
  | .mctpRequest w2 w3 w4 w5 data => fits 64 w2 && fits 64 w3 && fits 64 w4 && fits 64 w5 && decide (data.length ≤ 4096)
  | .faultEvent => true
  | .repairEntryAdd => true
  | .scrubRead _ _ _ _ => true
  | .cfgCheck _ _ _ _ => true
  | .thermWarn temp => fits 8 temp
  | .thermTrip temp => fits 8 temp
  | .railFault _ => true
  | .refclkLoss => true
  | .cpWatchdog => true
  | .collectorErr => true
  | .heartbeatEdge => true
  | .faultPulseEnd => true
  | .portIdleRequest _ => true
  | .portRungCmd _ _ => true
  | .ladderReqTimeout _ => true
  | .rungStepDown _ => true
  | .portWake _ _ => true
  | .wakeTimeout _ _ => true
  | .tileRungCmd _ _ => true
  | .tileRungEntry _ => true
  | .tileAutoEntry _ => true
  | .deviceRungCmd _ => true
  | .deviceRungArrival => true
  | .deviceWake _ => true
  | .bankBitWrite _ _ _ v => fits 64 v
  | .bankRungReached _ _ => true
  | .commit _ => true
  | .repairClear _ => true
  | .erase m _ => m.wf
  | .ucode _ => true
  | .almCmdEnd _ => true
  | .almUnfence _ _ _ _ => true
  | .refusalPeriodEnd _ => true
  | .injectPauseEnd _ => true
  | .ownerWrite m _ v => m.wf && fits 64 v
  | .presenceEdge _ => true
  | .presenceWindowExpiry => true
  | .sealMismatch _ => true
  | .fuseProg m => m.wf
  | .progDone _ => true
  | .debugUnlock m => m.wf
  | .fwImageAccept _ _ => true
  | .fwRestart => true
  | .lsrcBusPoll _ _ id _ => fits 8 id
  | .bringupRateAlternate _ => true
  | .laneDelineated _ => true
  | .decGapExpiry _ dest => fits 24 dest
  | .l1Exit _ => true
  | .pwrGoodRise _ _ _ => true
  | .rungExitDone _ => true
  | .cpRestartDone => true

end Sys2Proof
end

