-- ==== Sys2Proof/Certificates/Slice0/Obligations.lean ====
section
/-!
DEFINITION. The statements for the provers.
-/
open Sys2Proof Sys2Proof.Machine

/-- A step takes the command at the front of the queue and runs it on the state with the queue's rest. The queue is the model's (log entry 3). -/
def Obligations.StepRunsFrontCommand : Prop :=
  ∀ (c : Instr) (l : List Instr) (s : State), s.pending = c :: l → step s = exec c { s with pending := l }

/-- On an empty queue a step is one core clock (DESIGN CHOICE, log entry 4). -/
def Obligations.IdleStepIsOneCoreClock : Prop :=
  ∀ s : State, s.pending = [] → ∃ t, step s = .next t ∧ t.clk.cyc = s.clk.cyc + 1 ∧ t.mem = s.mem ∧ t.pending = []

/-- Totality: every command runs on every state, touches no waiting command, and keeps the canonical form of table space. The canonical form is the model's (the form of Memory). -/
def Obligations.EveryCommandAnswersANextState : Prop :=
  ∀ (c : Instr) (s : State), ∃ t, exec c s = .next t ∧ t.pending = s.pending ∧ (Memory.wf s.mem = true → Memory.wf t.mem = true)

/-- The invariant State.inv is kept by every step from every state that meets it. -/
def Obligations.StepKeepsCanonicalMemory : Prop :=
  ∀ s t : State, s.inv = true → step s = .next t → t.inv = true ∧ t.pending = s.pending.tail

/-- The state after reset meets the invariant; it lists no byte and no command. -/
def Obligations.ResetMemoryIsCanonical : Prop :=
  State.reset.inv = true ∧ State.reset.mem = [] ∧ State.reset.pending = []

/-- Every field reads its reset value after reset (R13; where a table gives none, log entry 7). -/
def Obligations.ResetGivesEveryFieldItsResetValue : Prop :=
  ∀ (f : Fld) (i n k : Nat), State.reset.get f i n k = f.resetAt i n k

/-- Frame of table space: a command outside mayStore leaves every byte as it was. -/
def Obligations.CommandsThatLeaveTableSpaceAlone : Prop :=
  ∀ (c : Instr) (s t : State) (a : Nat), mayStore c = false → exec c s = .next t → t.mem.read a = s.mem.read a

/-- Read after write of a register field, and its frame. -/
def Obligations.FieldWriteChangesOneField : Prop :=
  (∀ (s : State) (f : Fld) (v i n k : Nat), (s.set f v i n k).get f i n k = v % 2 ^ f.w) ∧
  (∀ (s : State) (f g : Fld) (v i n k j m l : Nat), g.key j m l ≠ f.key i n k → (s.set f v i n k).get g j m l = s.get g j m l)

/-- Frame of an event: only header fields (offset below 0x100) and the fault collector change. -/
def Obligations.EventTouchesOnlyHeaderAndCollector : Prop :=
  (∀ (s : State) (e : Evt) (i : Nat) (g : Fld) (j n k : Nat), 0x100 * 64 ≤ (g.off + g.stride * n) * 64 + g.lo + g.sub * k → (g.off + g.stride * n) * 64 + g.lo + g.sub * k < 4096 * 64 → (s.raise e i).get g j n k = s.get g j n k) ∧
  (∀ (s : State) (e : Evt) (i : Nat), (s.raise e i) = { s with rf := (s.raise e i).rf, flt := (s.raise e i).flt })

/-- What the four resets leave (R13, R43, R44, R612, R698, R746). -/
def Obligations.ResetsEmptyTheMainDomains : Prop :=
  (∀ s : State, ∃ t, exec .coldReset s = .next t ∧ t.mem = [] ∧ t.ports = [] ∧ t.links = [] ∧ t.tiles = [] ∧ t.engs = [] ∧ t.ctxs = [] ∧ t.units = [] ∧ t.boot.stage = 0
     ∧ t.clk = State.reset.clk ∧ t.servo = State.reset.servo ∧ t.boot = State.reset.boot ∧ t.nextTag = s.nextTag) ∧
  (∀ s : State, ∃ t, exec .warmReset s = .next t ∧ t.mem = [] ∧ t.ports = [] ∧ t.links = [] ∧ t.tiles = [] ∧ t.engs = [] ∧ t.ctxs = [] ∧ t.units = [] ∧ t.boot.stage = 0 ∧ t.clk = (if s.get F.PWR_STAT_RUNG = 5 then { s.clk with mt := 0, base := s.clk.emt } else s.clk)) ∧
  (∀ s : State, ∃ t, exec (.devReset 0x5752) s = .next t ∧ t.mem = [] ∧ t.ports = [] ∧ t.links = [] ∧ t.tiles = [] ∧ t.engs = [] ∧ t.ctxs = [] ∧ t.units = [] ∧ t.boot.stage = 0 ∧ t.boot.warm = (s.get F.PWR_STAT_RUNG != 5) ∧ t.clk = (if s.get F.PWR_STAT_RUNG = 5 then { s.clk with mt := 0, base := s.clk.emt } else s.clk)) ∧
  (∀ (s : State) (key : Nat), key % 2 ^ 16 ≠ 0x5752 → exec (.devReset key) s = .next s) ∧
  (∀ s : State, s.boot.pwrGood = true → ∃ t, exec .pwrGoodFall s = .next t ∧ t.mem = [] ∧ t.ports = [] ∧ t.links = [] ∧ t.tiles = [] ∧ t.engs = [] ∧ t.ctxs = [] ∧ t.units = [] ∧ t.boot.stage = 0 ∧ t.boot.pwrGood = false ∧ t.clk = (if s.get F.PWR_STAT_RUNG = 5 then { s.clk with mt := 0, base := s.clk.emt } else s.clk))

/-- The steps of the hardware restore (R690, R697) and PWR_GOOD rising (R743). -/
def Obligations.RestoreGoesThroughItsStages : Prop :=
  (∀ (fm : Bool) (s : State), s.boot.pwrGood = true → s.boot.stage = 0 → s.boot.railOut = false →
     ∃ t, exec (.restoreStart fm) s = .next t ∧ t.boot.stage = 1 ∧ t.boot.since = s.now ∧ t.pins.faultMode = fm ∧ t.rf = s.rf ∧ t.mem = s.mem) ∧
  (∀ (n src : Nat) (x : Snapshot) (cal : Tab Nat) (s : State), s.boot.stage = 1 → s.chooseSnap = some (n, x, src) → s.calCopy = some cal →
     exec .restorePhase1Done s =
     .next (let u := ((((State.setFlag { s with rf := { s.rf with alm := cal.foldl (fun t e => Tab.insert t e.1 e.2) (x.fields.filter fun e => !isCal e.1) }, boot := { s.boot with stage := 2 } } F.ALM_STAT_CAL_OK true).set F.ALM_STAT_SLOT n).set F.ALM_STAT_SOURCE src).raiseIf false E.ALM_CAL_FAIL).applyRepair
       let v := State.each (List.range 16) State.formPort (State.each (List.range 64) State.unform
         { u with rte := { u.rte with selfNext := [], selfOld := (u.get F.DEV_SELF_GROUP, u.get F.DEV_SELF_DEVICE, u.flag F.DEV_SELF_VALID) } })
       let v := State.each (List.range 32) State.checkStaging (State.each (List.range 72) State.checkOvercommit v)
       if v.boot.warm then v.each (List.range 32) fun s e => s.afterwards e s.boot.since else v)) ∧
  (∀ s : State, s.boot.stage = 1 → s.chooseSnap = none → s.calCopy = none →
     exec .restorePhase1Done s =
     .next (let u := (((((State.setFlag { s with rf := { s.rf with alm := [] }, boot := { s.boot with stage := 2 } } F.ALM_STAT_CAL_OK false).set F.ALM_STAT_SLOT 7).set F.ALM_STAT_SOURCE 2).raise E.ALM_RESTORE_FAIL).raiseIf true E.ALM_CAL_FAIL).applyRepair
       let v := State.each (List.range 16) State.formPort (State.each (List.range 64) State.unform
         { u with rte := { u.rte with selfNext := [], selfOld := (u.get F.DEV_SELF_GROUP, u.get F.DEV_SELF_DEVICE, u.flag F.DEV_SELF_VALID) } })
       let v := State.each (List.range 32) State.checkStaging (State.each (List.range 72) State.checkOvercommit v)
       if v.boot.warm then v.each (List.range 32) fun s e => s.afterwards e s.boot.since else v)) ∧
  (∀ (s : State) (x : Snapshot), s.boot.stage = 2 → s.snapOf (s.get F.ALM_STAT_SLOT) = some x →
     exec .restoreDone s =
     .next (let v := (((State.set { s with mem := loadTables x.tables s.mem, boot := { s.boot with stage := 3 } } F.ALM_STAT_RESTORED 1).raise E.ALM_RESTORE_DONE).setFlag F.FLT_STAT_HB_RUN s.pins.faultMode)
       let on := (List.range 1024).filter fun p => v.flag F.PORT_CTL_EN p
       (State.each on State.enablePort (State.each on (fun s p => s.set F.PORT_CTL_EN 0 p) v)).refreshPins)) ∧
  (∀ s : State, s.boot.stage = 2 → s.snapOf (s.get F.ALM_STAT_SLOT) = none →
     exec .restoreDone s =
     .next (let v := (((State.set { s with boot := { s.boot with stage := 3 } } F.ALM_STAT_RESTORED 1).raise E.ALM_RESTORE_DONE).setFlag F.FLT_STAT_HB_RUN s.pins.faultMode)
       let on := (List.range 1024).filter fun p => v.flag F.PORT_CTL_EN p
       (State.each on State.enablePort (State.each on (fun s p => s.set F.PORT_CTL_EN 0 p) v)).refreshPins)) ∧
  (∀ s : State, s.boot.pwrGood = false →
     exec (.pwrGoodRise false [] []) s = .next { s with boot := { s.boot with pwrGood := true, railOut := false } }) ∧
  (∀ s : State, s.boot.pwrGood = false →
     exec (.pwrGoodRise true [] []) s = .next ((State.raise { s with boot := { s.boot with pwrGood := true, railOut := true } } E.FLT_RAIL_MAIN).enterSafe))

/-- Reading MT (R40) and the pending time of day (R46); outputs are the model's (log entry 120). -/
def Obligations.MtReadAndTimeOfDayWrite : Prop :=
  (∀ (m : Master) (s : State), exec (.mtNowRead m) s =
     .next ((s.set F.MT_FRAC_FRAC s.mtFrac).emit (.regData m s.mtNs))) ∧
  (∀ (v : Nat) (s : State), exec (.mtTodNextWrite v) s =
     .next { (s.set F.MT_TOD_NEXT_NS v).set F.MT_STAT_TOD_PENDING 1 with servo := { s.servo with tod := some (v % 2 ^ 64, s.now) } })

/-- Selecting a source, losing it, and the limit of HOLDOVER (R54, R57, Table 2.2); the restart at a write is the model's (log entry 66). -/
def Obligations.SourceSelectionAndLoss : Prop :=
  (∀ (v : Nat) (s : State), exec (.mtSrcWrite v) s =
     .next (let w := ((((((s.set F.MT_SRC_KIND (bits v 0 2)).set F.MT_SRC_EXT_MODE (bits v 2 1)).set F.MT_SRC_PTM_PORT (bits v 8 6)).set
         F.MT_SRC_UP_PORT (bits v 16 10)).set F.MT_SRC_ALT_PORT (bits v 32 10)).set F.MT_SRC_ALT_EN (bits v 48 1))
       let u := (w.setFlag F.MT_STAT_ON_ALT (w.get F.MT_SRC_KIND == 3 && w.flag F.MT_SRC_ALT_EN && !w.active (w.get F.MT_SRC_UP_PORT))).loseSource
       { u with servo := { u.servo with lastGood := u.now, lastClk := u.now, ptmOut := false, ptmFails := 0, qualSince := none } })) ∧
  (∀ (s : State), s.sourceGone = true → s.get F.MT_STAT_STATE = locked → exec .sourceLost s =
     .next (State.servoTo { s with servo := { s.servo with slew := 0, lossAt := s.now, lossErr := s.get F.MT_STAT_ERR_NS } } holdover)) ∧
  (∀ (s : State), s.sourceGone = true → s.get F.MT_STAT_STATE = unsure → exec .sourceLost s =
     .next { s with servo := { s.servo with qualSince := none } }) ∧
  (∀ (s : State), s.sourceGone = true → s.get F.MT_STAT_STATE ≠ locked → s.get F.MT_STAT_STATE ≠ unsure → exec .sourceLost s =
     .next s) ∧
  (∀ (s : State), s.sourceGone = false → exec .sourceLost s =
     .next s) ∧
  (∀ (s : State), s.get F.MT_STAT_STATE = holdover → s.get F.MT_ACC_LIMIT < s.errNow → exec .holdoverLimit s =
     .next (State.servoTo { s.setErr s.errNow with servo := { s.servo with slew := 0, freq := 0, qualSince := none } } unsure)) ∧
  (∀ (s : State), s.get F.MT_STAT_STATE ≠ holdover ∨ s.errNow ≤ s.get F.MT_ACC_LIMIT → exec .holdoverLimit s =
     .next s)

/-- Updates of the servo and the end of settling (R51, R54, R57, R58, Table 2.2); the trained frequency is a free value (log entry 67). -/
def Obligations.ServoUpdatesAndSettling : Prop :=
  (∀ (offPs : Int) (err : Nat) (s : State), s.get F.MT_SRC_KIND ≠ 0 → s.get F.MT_STAT_STATE = locked → err ≤ s.get F.MT_ACC_LIMIT → exec (.servoUpdate offPs err true) s =
     .next ((State.setErr { s with servo := { s.servo with lastGood := s.now, lastOff := psUnits offPs } } err).train.slewBy (psUnits offPs))) ∧
  (∀ (offPs : Int) (err : Nat) (s : State), s.get F.MT_SRC_KIND ≠ 0 → s.get F.MT_STAT_STATE = holdover → err ≤ s.get F.MT_ACC_LIMIT → (psUnits offPs).natAbs ≤ ns (s.get F.MT_ACC_LIMIT) → exec (.servoUpdate offPs err true) s =
     .next (((State.setErr { s with servo := { s.servo with lastGood := s.now, lastOff := psUnits offPs } } err).servoTo locked).train.slewBy (psUnits offPs))) ∧
  (∀ (offPs : Int) (err : Nat) (s : State), s.get F.MT_SRC_KIND ≠ 0 → s.get F.MT_STAT_STATE = holdover → err ≤ s.get F.MT_ACC_LIMIT → ns (s.get F.MT_ACC_LIMIT) < (psUnits offPs).natAbs → exec (.servoUpdate offPs err true) s =
     .next ((State.setErr { s with servo := { s.servo with lastGood := s.now, lastOff := psUnits offPs } } err).raise E.MT_HOLD_BREACH).goUnsure) ∧
  (∀ (offPs : Int) (err : Nat) (s : State), s.get F.MT_SRC_KIND ≠ 0 → s.get F.MT_STAT_STATE ≠ unsure → s.get F.MT_ACC_LIMIT < err → exec (.servoUpdate offPs err true) s =
     .next (State.setErr { s with servo := { s.servo with lastGood := s.now, lastOff := psUnits offPs } } err).goUnsure) ∧
  (∀ (offPs : Int) (err : Nat) (s : State), s.get F.MT_SRC_KIND ≠ 0 → s.get F.MT_STAT_STATE = unsure → err ≤ s.get F.MT_ACC_LIMIT → exec (.servoUpdate offPs err true) s =
     .next (State.setErr { s with servo := { s.servo with lastGood := s.now, lastOff := psUnits offPs, qualSince := s.servo.qualSince <|> some s.now } } err)) ∧
  (∀ (offPs : Int) (err : Nat) (s : State), s.get F.MT_STAT_STATE ≠ unsure → exec (.servoUpdate offPs err false) s =
     .next s) ∧
  (∀ (offPs : Int) (err : Nat) (qual : Bool) (s : State), s.get F.MT_SRC_KIND = 0 → exec (.servoUpdate offPs err qual) s =
     .next s) ∧
  (∀ (at_ : Nat) (s : State), s.servo.qualSince = some at_ → s.isUnsure = true → at_ + ns (s.get F.MT_ACC_SETTLE * 10000000) ≤ s.now → s.servo.lastOff.natAbs ≤ ns (s.get F.MT_SLEW_STEP_THRESH) → exec .settleQualified s =
     .next ((((s.set F.MT_STAT_FIRST_LOCK 1).servoTo locked).train).slewBy s.servo.lastOff)) ∧
  (∀ (at_ : Nat) (s : State), s.servo.qualSince = some at_ → s.isUnsure = true → at_ + ns (s.get F.MT_ACC_SETTLE * 10000000) ≤ s.now → ns (s.get F.MT_SLEW_STEP_THRESH) < s.servo.lastOff.natAbs → exec .settleQualified s =
     .next (((((s.stepMt (-s.servo.lastOff)).set F.MT_STAT_FIRST_LOCK 1).servoTo locked).train).slewBy 0)) ∧
  (∀ (s : State), s.servo.qualSince = none ∨ s.isUnsure = false → exec .settleQualified s =
     .next s) ∧
  (∀ (at_ : Nat) (s : State), s.servo.qualSince = some at_ → s.now < at_ + ns (s.get F.MT_ACC_SETTLE * 10000000) → exec .settleQualified s =
     .next s)

/-- Edges of the external reference and the PPS output (R45, R46, R48, R54, R731); reading of the pending time of day: log entry 66. -/
def Obligations.ReferenceEdgesAndPpsOutput : Prop :=
  (∀ (residual : Nat) (clk : Bool) (s : State), s.get F.MT_SRC_KIND = 1 → s.boot.pwrGood = true → s.servo.tod = none → exec (.ppsInEdge ⟨residual, clk⟩) s =
     .next (let u := (if clk then { s with servo := { s.servo with lastClk := s.now } } else s)
       (u.set F.MT_STAT_HOPS 0).update (secOffset ((u.clk.mt : Int) - psUnits (u.sget F.MT_EXT_COMP_PS))) (u.get F.MT_REF_ERR_EXT_ERR + 2 + residual) true)) ∧
  (∀ (residual v at_ : Nat) (clk : Bool) (s : State), s.get F.MT_SRC_KIND = 1 → s.boot.pwrGood = true → s.servo.tod = some (v, at_) → s.now < at_ + ns 1000000 → exec (.ppsInEdge ⟨residual, clk⟩) s =
     .next (let u := (if clk then { s with servo := { s.servo with lastClk := s.now } } else s)
       (u.set F.MT_STAT_HOPS 0).update (secOffset ((u.clk.mt : Int) - psUnits (u.sget F.MT_EXT_COMP_PS))) (u.get F.MT_REF_ERR_EXT_ERR + 2 + residual) true)) ∧
  (∀ (residual v at_ : Nat) (clk : Bool) (s : State), s.get F.MT_SRC_KIND = 1 → s.boot.pwrGood = true → s.servo.tod = some (v, at_) → at_ + ns 1000000 ≤ s.now → s.isUnsure = true → exec (.ppsInEdge ⟨residual, clk⟩) s =
     .next (let u := (if clk then { s with servo := { s.servo with lastClk := s.now } } else s)
       let w := (u.stepMt (wrapDiff (ns v : Nat) ((u.clk.mt : Int) - psUnits (u.sget F.MT_EXT_COMP_PS)))).todDone
       (w.set F.MT_STAT_HOPS 0).update (secOffset (ns v : Nat)) (w.get F.MT_REF_ERR_EXT_ERR + 2 + residual) true)) ∧
  (∀ (residual v at_ : Nat) (clk : Bool) (s : State), s.get F.MT_SRC_KIND = 1 → s.boot.pwrGood = true → s.servo.tod = some (v, at_) → at_ + ns 1000000 ≤ s.now → s.isUnsure = false → (wrapDiff (ns v : Nat) ((s.clk.mt : Int) - psUnits (s.sget F.MT_EXT_COMP_PS))).natAbs ≤ ns (s.get F.MT_ACC_LIMIT) → exec (.ppsInEdge ⟨residual, clk⟩) s =
     .next (let u := (if clk then { s with servo := { s.servo with lastClk := s.now } } else s)
       let w := u.todDone
       (w.set F.MT_STAT_HOPS 0).update (secOffset ((u.clk.mt : Int) - psUnits (u.sget F.MT_EXT_COMP_PS))) (w.get F.MT_REF_ERR_EXT_ERR + 2 + residual) true)) ∧
  (∀ (residual v at_ : Nat) (clk : Bool) (s : State), s.get F.MT_SRC_KIND = 1 → s.boot.pwrGood = true → s.servo.tod = some (v, at_) → at_ + ns 1000000 ≤ s.now → s.isUnsure = false → ns (s.get F.MT_ACC_LIMIT) < (wrapDiff (ns v : Nat) ((s.clk.mt : Int) - psUnits (s.sget F.MT_EXT_COMP_PS))).natAbs → exec (.ppsInEdge ⟨residual, clk⟩) s =
     .next (let u := (if clk then { s with servo := { s.servo with lastClk := s.now } } else s)
       let w := { u with servo := { u.servo with tod := some ((v + 1000000000) % 2 ^ 64, at_), lastGood := u.now } }
       ((w.setErr (min 0xFFFF (w.get F.MT_ACC_LIMIT + 1 + w.peek))).drawn).goUnsure)) ∧
  (∀ (residual : Nat) (clk : Bool) (s : State), s.get F.MT_SRC_KIND ≠ 1 ∨ s.boot.pwrGood = false → exec (.ppsInEdge ⟨residual, clk⟩) s =
     .next s) ∧
  (∀ (s : State), s.flag F.MT_PPS_OUT_EN = true → ((s.clk.mt : Int) + psUnits (s.sget F.MT_PPS_OUT_COMP)) % (secUnits : Int) < 1000000000 + (s.get F.MT_SLEW_MAX_PPB : Int) → Tab.get 0 s.marks markPps ≠ s.ppsCount → exec .ppsOutRise s =
     .next { s with marks := s.marks.insert markPps s.ppsCount, pins := { s.pins with ppsOut := some (s.now + ns (s.get F.MT_PPS_OUT_WIDTH * 1000)) } }) ∧
  (∀ (s : State), s.flag F.MT_PPS_OUT_EN = false ∨ s.ppsNow = false ∨ Tab.get 0 s.marks markPps = s.ppsCount → exec .ppsOutRise s =
     .next s)

/-- PTM (R47), TIME requests and frames (R128) and their bounds (R54); hop count 0 for PTM is the model's (log entry 66). -/
def Obligations.PtmDialogsAndTimeFrames : Prop :=
  (∀ (s : State), s.get F.MT_SRC_KIND = 2 → s.due markPtm (2 ^ s.get F.MT_SYNC_PTM_K) = true → s.ptmReady (s.get F.MT_SRC_PTM_PORT) = true → exec .ptmDialog s =
     .next (let u := if s.servo.ptmOut then State.ptmFailed (s.mark markPtm (2 ^ s.get F.MT_SYNC_PTM_K)) else (s.mark markPtm (2 ^ s.get F.MT_SYNC_PTM_K))
       { u with servo := { u.servo with ptmOut := true } }.emit (.ptmRequest (s.get F.MT_SRC_PTM_PORT)))) ∧
  (∀ (s : State), s.get F.MT_SRC_KIND = 2 → s.due markPtm (2 ^ s.get F.MT_SYNC_PTM_K) = true → s.ptmReady (s.get F.MT_SRC_PTM_PORT) = false → exec .ptmDialog s =
     .next (s.mark markPtm (2 ^ s.get F.MT_SYNC_PTM_K)).loseSource) ∧
  (∀ (t residual : Nat) (s : State), s.get F.MT_SRC_KIND = 2 → s.servo.ptmOut = true → exec (.ptmResponseRx true t residual) s =
     .next (let u := State.set { s with servo := { s.servo with ptmOut := false, ptmFails := 0 } } F.MT_STAT_HOPS 0
     u.update (wrapDiff s.clk.mt (ns ((t + 2 ^ 64 - s.get F.MT_PTM_OFS_NS) % 2 ^ 64))) (s.get F.MT_REF_ERR_PTM_ERR + 2 + residual) true)) ∧
  (∀ (t residual : Nat) (s : State), s.get F.MT_SRC_KIND = 2 → s.servo.ptmOut = true → exec (.ptmResponseRx false t residual) s =
     .next (let u := { s with servo := { s.servo with ptmOut := false, ptmFails := s.servo.ptmFails + 1 } }
     if 4 ≤ s.servo.ptmFails + 1 then u.loseSource else u)) ∧
  (∀ (p : Fin 1024) (s : State), s.hasTime p = true → s.due (markTime p) (2 ^ s.get F.MT_SYNC_TIME_K) = true → exec (.timeRequestDue p) s =
     .next ((s.mark (markTime p) (2 ^ s.get F.MT_SYNC_TIME_K)).modXfer p fun x => { x with reqDue := true })) ∧
  (∀ (p : Fin 1024) (k : Fin 8) (hd rest : List Byte) (h : FrameHead) (c : TimeCell) (residual : Nat) (s : State), frameOf (hd ++ rest) = some (.time h c) → s.hears p k = true → ((s.heard p k).notFence p).accepts p = true → exec (.timeFrameRx p k hd rest residual) s =
     .next (let u := ((s.heard p k).notFence p).applyHead p h h.sack 16
       if u.hasTime p then if c.response then u.timeResponse p c else u.timeRequest p c residual else u)) ∧
  (∀ (p : Fin 1024) (k : Fin 8) (hd rest : List Byte) (h : FrameHead) (c : TimeCell) (residual : Nat) (s : State), frameOf (hd ++ rest) = some (.time h c) → s.hears p k = false → exec (.timeFrameRx p k hd rest residual) s =
     .next ((s.heard p k).notFence p)) ∧
  (∀ (p : Fin 1024) (k : Fin 8) (hd rest : List Byte) (h : FrameHead) (c : TimeCell) (residual : Nat) (s : State), frameOf (hd ++ rest) = some (.time h c) → s.hears p k = true → ((s.heard p k).notFence p).accepts p = false → exec (.timeFrameRx p k hd rest residual) s =
     .next (((s.heard p k).notFence p).applyAlways p h))

/-- Pages armed for an instant, their shadow commands, and alarms (R66 to R72, R227, R600 to R603). -/
def Obligations.ArmingAndAlarmCommands : Prop :=
  (∀ (cls : Fin 31) (i : Fin 1024) (t : Nat) (s : State), shadowClass cls = true → implemented cls i = true → ((((s.fireArmed (pageNo cls i)).set (F.EPOCH_AT_NS.of cls) (t % 2 ^ 64) i).disarm (pageNo cls i)).slotFor (t % 2 ^ 64)) = none → exec (.epochAtWrite cls i t) s =
     .next ((((s.fireArmed (pageNo cls i)).set (F.EPOCH_AT_NS.of cls) (t % 2 ^ 64) i).disarm (pageNo cls i)).raise E.MT_ALM_EXHAUSTED)) ∧
  (∀ (cls : Fin 31) (i : Fin 1024) (t n : Nat) (new : Bool) (s : State), shadowClass cls = true → implemented cls i = true → ((((s.fireArmed (pageNo cls i)).set (F.EPOCH_AT_NS.of cls) (t % 2 ^ 64) i).disarm (pageNo cls i)).slotFor (t % 2 ^ 64)) = some (n, new) → exec (.epochAtWrite cls i t) s =
     .next (let u := ((s.fireArmed (pageNo cls i)).set (F.EPOCH_AT_NS.of cls) (t % 2 ^ 64) i).disarm (pageNo cls i)
     let u := if new then u.takeSlot n (t % 2 ^ 64) else u
     let u := { u with rf := { u.rf with armed := Tab.insert u.rf.armed (pageNo cls i) n } }
     u.hw F.MT_ALM_CTL_ARG (u.pagesIn n).length 0 n)) ∧
  (∀ (cls : Fin 31) (i : Fin 1024) (s : State), shadowClass cls = true → implemented cls i = true → s.capturePending (pageNo cls i) = false → s.swappedNow (pageNo cls i) = false → exec (.shadowCommit cls i) s =
     .next ((s.disarm (pageNo cls i)).capture (pageNo cls i))) ∧
  (∀ (cls : Fin 31) (i : Fin 1024) (s : State), shadowClass cls = true → implemented cls i = true → cls.val ≠ 14 → exec (.shadowDiscard cls i) s =
     .next (s.each (shadowFields cls) fun s x => s.setShadow x.1 (s.get x.1 i x.2.1 x.2.2) i x.2.1 x.2.2)) ∧
  (∀ (cls : Fin 31) (i : Fin 1024) (s : State), shadowClass cls = true → implemented cls i = true → cls.val = 14 → exec (.shadowDiscard cls i) s =
     .next ((s.each (shadowFields cls) fun s x => s.setShadow x.1 (s.get x.1 i x.2.1 x.2.2) i x.2.1 x.2.2).copyBank i)) ∧
  (∀ (cls : Fin 31) (i : Fin 1024) (s : State), exec (.shadowDisarm cls i) s =
     .next ((s.fireArmed (pageNo cls i)).disarm (pageNo cls i))) ∧
  (∀ (s : State) (page : Nat), s.fireArmed page = match s.rf.armed.find? (·.1 == page) with
       | some (_, n) => s.fireDue n
       | none => s) ∧
  (∀ (t : Fin 72) (s : State), s.flag F.RTE_STAT_HOLD t = true → s.over (Tab.get 0 s.rte.holdAt t) (16 * s.get F.RTE_EPOCH_CFG_HOLD t) 16 = true → exec (.holdEnd t) s =
     .next (s.set F.RTE_STAT_HOLD 0 t)) ∧
  (∀ (n : Fin 64) (s : State), ¬ (s.flag F.MT_ALM_CTL_EN 0 n = true ∧ ns (s.get F.MT_ALM_TIME_NS 0 n) ≤ s.clk.mt) → exec (.alarmFire n) s =
     .next s) ∧
  (∀ (n : Fin 64) (s : State), s.slotDue n = true → s.captures n = true → exec (.alarmFire n) s =
     .next (let t := s.each ((List.range 64).filter fun k => s.slotDue k && s.captures k) fun t k => s.slotAction k t
     t.each ((List.range 64).filter fun k => s.slotDue k && s.captures k) State.slotFired)) ∧
  (∀ (n : Fin 64) (s : State), s.slotDue n = true → s.captures n = false → exec (.alarmFire n) s =
     .next ((let t := s.each ((List.range 64).filter fun k => s.slotDue k && s.captures k) fun t k => s.slotAction k t
     t.each ((List.range 64).filter fun k => s.slotDue k && s.captures k) State.slotFired).fireSlot n)) ∧
  (∀ (n : Nat) (s : State), s.clk.mt ≤ ns (s.get F.MT_ALM_TIME_NS 0 n + s.get F.MT_ACC_LIMIT) → n ∉ s.rf.past →
       s.fireSlot n = ((((s.event F.MT_ALM_STAT_BITS n).raiseIf (s.flag F.MT_ALM_CTL_INT 0 n) E.MT_ALARM).rearm n (s.get F.MT_ALM_TIME_NS 0 n) false).alarmAction n (s.get F.MT_ALM_CTL_ACTION 0 n) (s.get F.MT_ALM_CTL_ARG 0 n) (s.get F.MT_ALM_TIME_NS 0 n) false)) ∧
  (∀ (n : Nat) (s : State), (ns (s.get F.MT_ALM_TIME_NS 0 n + s.get F.MT_ACC_LIMIT) < s.clk.mt ∨ n ∈ s.rf.past) →
       s.fireSlot n = ((((((s.event F.MT_ALM_STAT_BITS n).event F.MT_ALM_LATE_BITS n).raise E.MT_ALARM_LATE).raiseIf (s.flag F.MT_ALM_CTL_INT 0 n) E.MT_ALARM).rearm n (s.get F.MT_ALM_TIME_NS 0 n) true).alarmAction n (s.get F.MT_ALM_CTL_ACTION 0 n) (s.get F.MT_ALM_CTL_ARG 0 n) (s.get F.MT_ALM_TIME_NS 0 n) true))

/-- The slew limit: one core clock moves MT by 10^9 units of 5e-10 ns, corrected by at most MAX_PPB (R58); the clock of an idle step is the model's (log entry 4). -/
def Obligations.SlewIsBounded : Prop :=
  ∀ s : State, s.pending = [] → s.get F.PWR_STAT_RUNG ≠ 5 → s.get F.MT_SLEW_MAX_PPB ≤ 1000000000 →
    ∃ t d, step s = .next t ∧ t.clk.mt = (s.clk.mt + d) % mtSpan ∧ t.clk.emt = s.clk.emt + d ∧
      1000000000 ≤ d + s.get F.MT_SLEW_MAX_PPB ∧ d ≤ 1000000000 + s.get F.MT_SLEW_MAX_PPB

/-- Optical engines and their laser modules (R80 to R85, R737). -/
def Obligations.OpticsCommands : Prop :=
  (∀ (e : Fin 16) (reach : Fin 2) (s : State), s.get F.OPT_CTL_REACH e ≠ reach → (s.portsOn (lanesOfOpt e)).isEmpty = true → exec (.optReachWrite e reach) s =
     .next (s.set F.OPT_CTL_REACH reach e)) ∧
  (∀ (e : Fin 16) (reach : Fin 2) (s : State), s.get F.OPT_CTL_REACH e ≠ reach → (s.portsOn (lanesOfOpt e)).isEmpty = false → exec (.optReachWrite e reach) s =
     .next ((s.event F.OPT_STAT_REACH_REJ 0 e).raise E.OPT_REACH_REJ e)) ∧
  (∀ (e : Fin 16) (f : Fin 8) (pwr : Nat) (s : State), exec (.feedLow e f pwr) s =
     .next (s.feedPower e f pwr)) ∧
  (∀ (e : Fin 16) (f : Fin 8) (pwr : Nat) (s : State), signedOf (pwr % 2 ^ 16) 16 < s.sget F.OPT_CTL_FEED_LOW e → (s.optic e).low.contains f.val = false → ∃ t, exec (.feedLow e f pwr) s = .next t ∧
     (∃ u, t = (State.raise u E.OPT_FEED_LOW e) ∧ u.rf = s.rf.set F.OPT_FEED_PWR pwr e f 0) ∧ t.ports = s.ports ∧ t.mem = s.mem) ∧
  (∀ (e : Fin 16) (f : Fin 8) (k at_ : Nat) (s : State), (s.optic e).below.find? (·.1 == f.val) = some (k, at_) → at_ + ns 1000 ≤ s.now → (s.optic e).lost.contains f.val = false → exec (.feedLost e f) s =
     .next ((State.darken ((s.modOpt e fun x => { x with lost := x.lost ++ [f.val] }).setBit F.OPT_STAT_FEED_OK f false e) (lanesOfFeed e f)).raise E.OPT_FEED_LOST e)) ∧
  (∀ (e : Fin 16) (s : State), exec (.lsrcRemoved e) s =
     .next (State.raise (State.darken ((((s.modOpt e fun x => { x with prsnt := false, prsntAt := s.now, inserted := false, below := [], above := [], lost := [] }).set
       F.OPT_STAT_LSRC_PRSNT 0 e).set F.OPT_STAT_FEED_OK 0 e).set F.OPT_LSRC_VALID 0 e) (lanesOfOpt e)) E.OPT_LSRC_REMOVED e)) ∧
  (∀ (e : Fin 16) (s : State), (s.optic e).prsnt = false → exec (.lsrcInserted e) s =
     .next ((s.modOpt e fun x => { x with prsnt := true, prsntAt := s.now }).set F.OPT_STAT_LSRC_PRSNT 1 e)) ∧
  (∀ (e : Fin 16) (s : State), (s.optic e).prsnt = true → (s.optic e).inserted = false → (s.optic e).prsntAt + ns 50000000 ≤ s.now → exec (.lsrcInserted e) s =
     .next ((s.modOpt e fun x => { x with inserted := true }).raise E.OPT_LSRC_INSERTED e)) ∧
  (∀ (e : Fin 16) (f : Fin 8) (pwr k at_ : Nat) (s : State), ((s.feedPower e f pwr).optic e).above.find? (·.1 == f.val) = some (k, at_) → at_ + ns 10000000 ≤ (s.feedPower e f pwr).now → (s.feedPower e f pwr).getBit F.OPT_STAT_FEED_OK f e = false → ((s.feedPower e f pwr).optic e).prsnt = true → exec (.feedQualified e f pwr) s =
     .next (State.each ((s.feedPower e f pwr).portsOn (lanesOfFeed e f)) State.litAgain ((s.feedPower e f pwr).setBit F.OPT_STAT_FEED_OK f true e))) ∧
  (∀ (l : Fin 1024) (rx bias temp feed : Nat) (s : State), s.due (markMonitor l) (2 ^ 20) = true → exec (.monitorRefresh l rx bias temp feed) s =
     .next ((((s.mark (markMonitor l) (2 ^ 20)).set F.LANE_MON_RX_PWR rx l).set F.LANE_MON_MOD_BIAS bias l).set F.LANE_MON_TEMP temp l |>.set F.OPT_FEED_PWR feed (l.val / 64) (l.val % 64 / 8))) ∧
  (∀ (e : Fin 16) (id : Nat) (ready : Bool) (s : State), (s.optic e).inserted = true → (if Tab.get 0 s.marks (markLsrc e) < (s.optic e).prsntAt + ns 150000000 then (s.optic e).prsntAt + ns 150000000 else Tab.get 0 s.marks (markLsrc e) + ns 1000000000) ≤ s.now → exec (.lsrcBusPoll e true id ready) s =
     .next ((({ s with marks := s.marks.insert (markLsrc e) s.now }.set F.OPT_LSRC_ID id e).setFlag F.OPT_LSRC_READY ready e).set F.OPT_LSRC_VALID 1 e))

/-- Enabling a port and its bring-up (R79, R87 to R94). -/
def Obligations.PortBringupCommands : Prop :=
  (∀ (p : Fin 1024) (v : Nat) (s : State), s.flag F.PORT_CTL_EN p = false → (s.setModes p v).flag F.PORT_CTL_EN p = false → exec (.portEnable p v) s =
     .next (((s.setModes p v).setForm p v).enablePort p)) ∧
  (∀ (p : Fin 1024) (v : Nat) (s : State), (s.setModes p v).flag F.PORT_CTL_EN p = true → exec (.portEnable p v) s =
     .next (((s.setModes p v).raiseIf ((s.setModes p v).formChanges p v) E.PORT_FORM_ERR p).autoWiden p)) ∧
  (∀ (p : Fin 1024) (v : Nat) (s : State), (s.setModes p v).flag F.PORT_CTL_EN p = true → exec (.portDisable p v) s =
     .next (((s.setModes p v).raiseIf ((s.setModes p v).formChanges p v) E.PORT_FORM_ERR p).disablePort p)) ∧
  (∀ (p : Fin 1024) (v : Nat) (s : State), (s.setModes p v).flag F.PORT_CTL_EN p = false → exec (.portDisable p v) s =
     .next ((s.setModes p v).setForm p v)) ∧
  (∀ (l : Fin 1024) (p : Nat) (s : State), s.owner l = some p → s.get F.PORT_STAT_STATE p = stActive → exec (.laneSymbolLock l) s =
     .next ((s.modLane l fun x => { x with relock := some s.now }).set F.LANE_STAT_LOCK 1 l)) ∧
  (∀ (l : Fin 1024) (p : Nat) (s : State), s.owner l = some p → s.get F.PORT_STAT_STATE p = stBringup → s.mayLock p l = true → ((s.set F.LANE_STAT_LOCK 1 l).modLane l fun x => { x with good := 0, loss := none }).flag F.LANE_EQ_VALID l = true → exec (.laneSymbolLock l) s =
     .next (((s.set F.LANE_STAT_LOCK 1 l).modLane l fun x => { x with good := 0, loss := none }).modPort p fun x => { x with firstLock := x.firstLock <|> some s.now })) ∧
  (∀ (l : Fin 1024) (p : Nat) (s : State), s.owner l = some p → s.get F.PORT_STAT_STATE p = stBringup → s.mayLock p l = true → ((s.set F.LANE_STAT_LOCK 1 l).modLane l fun x => { x with good := 0, loss := none }).flag F.LANE_EQ_VALID l = false → exec (.laneSymbolLock l) s =
     .next (((((s.set F.LANE_STAT_LOCK 1 l).modLane l fun x => { x with good := 0, loss := none }).set F.LANE_EQ_LIVE_LIVE ((s.set F.LANE_STAT_LOCK 1 l).modLane l fun x => { x with good := 0, loss := none }).peek l).drawn).modPort p fun x => { x with firstLock := x.firstLock <|> some s.now })) ∧
  (∀ (p : Fin 1024) (at_ : Nat) (s : State), (s.port p).firstLock = some at_ → s.get F.PORT_STAT_STATE p = stBringup → (s.port p).restartAt = none → (s.port p).awaitCap = false → bestBlock (s.healthyMask p) ≠ 0 → at_ + ns 1000000 ≤ s.now → exec (.bringupDone p) s =
     .next (s.portTo p stCapx)) ∧
  (∀ (p : Fin 1024) (s : State), s.get F.PORT_STAT_STATE p = stBringup → s.healthyMask p = 0 → (s.port p).start + ns 200000000 ≤ s.now → exec (.bringupTimeout p) s =
     .next ((s.raise E.PORT_TRAIN_FAIL p).modPort p fun x => { x with start := s.now })) ∧
  (∀ (p : Fin 1024) (s : State), s.get F.PORT_STAT_STATE p = stBringup → s.flag F.PORT_CTL_COMPAT_EN p = true → s.lockedMask p = 0 → (s.port p).rateAt + ns 5000000 ≤ s.now → exec (.bringupRateAlternate p) s =
     .next (s.modPort p fun x => { x with slow := !x.slow, rateAt := s.now })) ∧
  (∀ (p : Fin 1024) (s : State), s.frameLocked p = true → (s.port p).gotLocked = true → exec (.frameLock p) s =
     .next (s.portUp p)) ∧
  (∀ (p : Fin 1024) (at_ : Nat) (s : State), (s.port p).redrawAt = some at_ → at_ ≤ s.now → (s.port p).widthReq = none → exec (.nonceRedraw p) s =
     .next (let u := ((s.set F.PORT_NONCE_LOCAL s.peek p).drawn).modPort p fun x => { x with redrawAt := none, peerNonce := if s.active p then x.peerNonce else none }
     u.sendCaps p (u.lockedMask p) 0 0 false 0)) ∧
  (∀ (p : Fin 1024) (at_ : Nat) (s : State), (s.port p).restartAt = some at_ → at_ ≤ s.now → s.get F.PORT_STAT_STATE p = stBringup → exec (.trainRestart p) s =
     .next (s.enterBringup p (s.port p).retrain 0 false))

/-- The capability exchange and width requests (R91 to R102). -/
def Obligations.CapabilityExchangeCommands : Prop :=
  (∀ (p : Fin 1024) (s : State), s.get F.PORT_STAT_STATE p = stCapx → s.due (markCap p) 256 = true → exec (.capSend p) s =
     .next (((State.sendCaps (s.mark (markCap p) 256) p (s.lockedMask p) 0 (s.port p).setTx (s.frameLocked p) 0).modPort p fun y => { y with setSent := (s.port p).setTx }).tryAgree p)) ∧
  (∀ (p : Fin 1024) (prop : Nat) (wide : Bool) (s : State), s.get F.PORT_STAT_STATE p = stActive → s.due (markCap p) 64 = true → (s.port p).widthReq = some (prop, wide) → exec (.capSend p) s =
     .next ((s.mark (markCap p) 64).sendCaps p prop 2 prop false 0)) ∧
  (∀ (p : Fin 1024) (k : Fin 8) (hd rest : List Byte) (h : FrameHead) (c : CapCell) (s : State), frameOf (hd ++ rest) = some (.cap h c) → (s.lane (s.base p + k)).delineated = true → s.safe = false → exec (.capFrameRx p k hd rest) s =
     .next ((((s.goodFrame (s.base p + k)).notFence p).wakeSeen p k).capHeard p k h c)) ∧
  (∀ (p k : Nat) (h : FrameHead) (c : CapCell) (s : State), s.get F.PORT_STAT_STATE p = stCapx → ((((if s.keepsLink p then s.applyHead p h h.sack 16 else s).modPort p fun x => { x with awaitCap := false }).heardNonce p c).port p).retrain = false →
       s.capHeard p k h c = (((if s.keepsLink p then s.applyHead p h h.sack 16 else s).modPort p fun x => { x with awaitCap := false }).heardNonce p c).capExchange p k c) ∧
  (∀ (p k : Nat) (h : FrameHead) (c : CapCell) (s : State), s.get F.PORT_STAT_STATE p = stFrameLock → ((((if s.keepsLink p then s.applyHead p h h.sack 16 else s).modPort p fun x => { x with awaitCap := false }).heardNonce p c).port p).retrain = true →
       ((((if s.keepsLink p then s.applyHead p h h.sack 16 else s).modPort p fun x => { x with awaitCap := false }).heardNonce p c).port p).recNonce ≠ some c.nonce →
       s.capHeard p k h c = (((if s.keepsLink p then s.applyHead p h h.sack 16 else s).modPort p fun x => { x with awaitCap := false }).heardNonce p c).linkDown p) ∧
  (∀ (p : Fin 1024) (s : State), s.active p = true → laneCount (s.port p).act < laneCount (bestBlock (Nat.land (Nat.lor (s.port p).act (s.get F.PORT_STAT_READY p)) (s.fullMask p))) → exec (.portRestore p) s =
     .next (s.askWidth p (bestBlock (Nat.land (Nat.lor (s.port p).act (s.get F.PORT_STAT_READY p)) (s.fullMask p))) true)) ∧
  (∀ (p : Fin 1024) (s : State), s.active p = true → s.get F.PORT_PWR_STAT_RUNG p = 0 → (s.port p).wake = none → exec (.portRetrain p) s =
     .next ((s.sendCaps p (s.port p).act 1 0 false 0).retrain p)) ∧
  (∀ (p : Fin 1024) (s : State), s.active p = true → s.get F.PORT_PWR_STAT_RUNG p ≠ 0 → exec (.portRetrain p) s =
     .next ((s.wakePort p).modPort p fun x => { x with retrainDue := true }))

/-- Lane loss, link down and grace (R98 to R110). -/
def Obligations.LaneLossCommands : Prop :=
  (∀ (l : Fin 1024) (p : Nat) (s : State), s.owner l = some p → s.flag F.LANE_STAT_LOCK l = true → s.get F.PORT_PWR_STAT_RUNG p = 0 → s.get F.PORT_STAT_STATE p = stCapx → exec (.symbolLockLoss l) s =
     .next (((((s.set F.LANE_STAT_LOCK 0 l).count 8 l 0x42).raise E.LANE_LOCK_LOSS l).modLane l fun x => { x with loss := some ((s.lossStart l).getD s.now), relock := none }).reagree p)) ∧
  (∀ (l : Fin 1024) (p at_ : Nat) (s : State), s.owner l = some p → s.lossStart l = some at_ → s.active p = true → bit (s.port p).act (s.idxOf p l) = true → s.flag F.LANE_STAT_FAILED l = false → s.over at_ (16 * min (s.get F.PORT_TIMERS_LANE_LOSS p) (s.get F.PORT_TIMERS_LOCK_LOSS p)) 16 = true → exec (.laneLossExpiry l) s =
     .next (s.failLane p l)) ∧
  (∀ (l : Fin 1024) (corr uncorr : Nat) (s : State), s.due (markUncorr l) (2 ^ 20) = true → (((((((s.mark (markUncorr l) (2 ^ 20)).inc F.LANE_FEC_CORR l (d := corr)).inc F.LANE_FEC_UNCORR l (d := uncorr)).count 8 l 0x40 corr).count 8 l 0x41 uncorr).raiseIf
       (decide (0 < uncorr)) E.LANE_FEC_UNCORR l).owner l) = none → exec (.uncorrWindow l corr uncorr) s =
     .next ((((((s.mark (markUncorr l) (2 ^ 20)).inc F.LANE_FEC_CORR l (d := corr)).inc F.LANE_FEC_UNCORR l (d := uncorr)).count 8 l 0x40 corr).count 8 l 0x41 uncorr).raiseIf
       (decide (0 < uncorr)) E.LANE_FEC_UNCORR l)) ∧
  (∀ (l : Fin 1024) (p : Nat) (idx : Fin 8) (s : State), s.owner l = some p → s.active p = true → bit (s.port p).act (s.idxOf p l) = false → s.getBit F.PORT_STAT_READY (s.idxOf p l) p = false → (s.lane l).fenced = false → s.lit l = true → s.get F.LANE_CTL_LOOPBACK l = 0 → s.get F.LANE_CTL_PRBS l = 0 → (s.lane l).attemptAt + ns 10000000 ≤ s.now → exec (.laneRetryAttempt l false idx) s =
     .next (s.modLane l fun x => { x with attemptAt := s.now, idxRx := none })) ∧
  (∀ (l : Fin 1024) (p : Nat) (idx : Fin 8) (s : State), s.owner l = some p → s.active p = true → bit (s.port p).act (s.idxOf p l) = false → s.getBit F.PORT_STAT_READY (s.idxOf p l) p = false → (s.lane l).fenced = false → s.lit l = true → s.get F.LANE_CTL_LOOPBACK l = 0 → s.get F.LANE_CTL_PRBS l = 0 → (s.lane l).attemptAt + ns 10000000 ≤ s.now → idx.val ≠ s.idxOf p l → exec (.laneRetryAttempt l true idx) s =
     .next (((s.modLane l fun x => { x with attemptAt := s.now, idxRx := some idx.val }).sendCaps p (2 ^ s.idxOf p l) 0 0 false 0).misorder l idx)) ∧
  (∀ (l : Fin 1024) (p : Nat) (idx : Fin 8) (s : State), s.owner l = some p → s.active p = true → bit (s.port p).act (s.idxOf p l) = false → s.getBit F.PORT_STAT_READY (s.idxOf p l) p = false → (s.lane l).fenced = false → s.lit l = true → s.get F.LANE_CTL_LOOPBACK l = 0 → s.get F.LANE_CTL_PRBS l = 0 → (s.lane l).attemptAt + ns 10000000 ≤ s.now → idx.val = s.idxOf p l → exec (.laneRetryAttempt l true idx) s =
     .next ((State.modLane (((((s.modLane l fun x => { x with attemptAt := s.now, idxRx := some idx.val }).sendCaps p (2 ^ s.idxOf p l) 0 0 false 0).set F.LANE_STAT_LOCK 1 l).set F.LANE_STAT_FAILED 0 l).setBit F.PORT_STAT_READY (s.idxOf p l) true p) l fun x => { x with misordered := false, loss := none, relock := none, good := 8, bad := 0, delineated := true }).autoWiden p)) ∧
  (∀ (p : Fin 1024) (s : State), exec (.portDown p) s =
     .next (s.linkDown p)) ∧
  (∀ (p : Fin 1024) (s : State), s.active p = true → s.get F.PORT_PWR_STAT_RUNG p = 0 → (setBitsOf (s.port p).act 8).all (fun k => match s.lossStart (s.base p + k) with
       | some at_ => s.over at_ (16 * s.get F.PORT_TIMERS_LOCK_LOSS p) 16
       | none => false) = true → exec (.lockLossExpiry p) s =
     .next (s.linkDown p)) ∧
  (∀ (p : Fin 1024) (at_ : Nat) (s : State), (s.port p).grace = some at_ → s.active p = false → s.flag F.PORT_STAT_FLUSHING p = false → s.flag F.PORT_CTL_EN p = true → s.over at_ (16 * s.get F.PORT_TIMERS_GRACE p) 16 = true → exec (.graceExpiry p) s =
     .next ((((s.sourcePortDown p).discardLink p).flushPort p).modPort p fun x => { x with retrain := false })) ∧
  (∀ (l : Fin 1024) (live : Nat) (drifted : Bool) (s : State), s.flag F.LANE_CTL_RCAL_EN l = true → (s.lane l).rcalAt + ns (2 ^ 17) ≤ s.now → exec (.rcalStep l live drifted) s =
     .next (((s.set F.LANE_EQ_LIVE_LIVE live l).modLane l fun x => { x with rcalAt := s.now }).raiseIf drifted E.LANE_RCAL_DRIFT l))

/-- The ladder of a port (R662 to R670). -/
def Obligations.PortLadderCommands : Prop :=
  (∀ (p : Fin 1024) (s : State), s.active p = true → s.feat p 6 = true → 1 ≤ s.get F.PORT_PWR_AUTO_MAX p → s.idle p = true → s.namedInSrc p = false → (s.port p).ladReq.isNone = true → (s.port p).ladCmd.isNone = true → (s.port p).wake.isNone = true → (s.port p).widthReq.isNone = true → s.get F.PORT_PWR_STAT_RUNG p = 0 → exec (.portIdleRequest p) s =
     .next (s.ladAsk p (s.get F.PORT_PWR_AUTO_MAX p) false)) ∧
  (∀ (p : Fin 1024) (s : State), exec (.portRungCmd p 0) s =
     .next (((s.set F.PORT_PWR_CMD_RUNG 0 p).modPort p fun x => { x with ladCmd := none }).wakePort p)) ∧
  (∀ (p : Fin 1024) (rung : Fin 8) (s : State), rung.val ≠ 0 → rung.val ≤ 4 → exec (.portRungCmd p rung) s =
     .next (((s.set F.PORT_PWR_CMD_RUNG rung p).modPort p fun x => { x with ladCmd := some rung.val }).ladCommand p)) ∧
  (∀ (p : Fin 1024) (rung at_ : Nat) (cmd : Bool) (s : State), (s.port p).ladReq = some (rung, cmd, at_) → s.quiet p = true → at_ + ns 100000 ≤ s.now → exec (.ladderReqTimeout p) s =
     .next (s.ladRefused p)) ∧
  (∀ (p : Fin 1024) (j : Nat) (s : State), s.get F.PORT_PWR_STAT_RUNG p + 1 = j → 2 ≤ j → j ≤ (s.port p).ladMax → s.flag F.PORT_PWR_STAT_COMMANDED p = false → (s.port p).wake = none → s.over (s.port p).ladAt (10 ^ (j - 1) * s.get F.PORT_PWR_IDLE p * 64) 64 = true → exec (.rungStepDown p) s =
     .next (s.set F.PORT_PWR_STAT_RUNG j p)) ∧
  (∀ (p : Fin 1024) (s : State), (s.port p).wake = none → exec (.portWake p true) s =
     .next (s.wakePort p)) ∧
  (∀ (p : Fin 1024) (d at_ rung m : Nat) (s : State), (s.port p).wake = some (at_, rung, m) → holdsMask m (s.port p).act = false → at_ + ns (exitNs rung true + 2 * d + 16 * s.get F.PORT_TIMERS_LOCK_LOSS p) ≤ s.now → exec (.wakeTimeout p d) s =
     .next ((s.linkDown p).raise E.PORT_WAKE_FAIL p))

/-- Frames sent and received (R124 to R132, R145). -/
def Obligations.LinkFrameCommands : Prop :=
  (∀ (p : Fin 1024) (k : Fin 8) (s : State), s.safe = true → (s.lane (s.base p + k)).tx = true → k.val < s.width p → exec (.frameSlot p k) s =
     .next (s.sendControl p k fun h => .fence h (s.fenceCell p))) ∧
  (∀ (p : Fin 1024) (k : Fin 8) (s : State), s.safe = false → s.get F.PORT_STAT_STATE p = stActive → bit (s.port p).act k = true → s.get F.PORT_PWR_STAT_RUNG p = 0 → exec (.frameSlot p k) s =
     .next (s.activeSlot p k)) ∧
  (∀ (p : Fin 1024) (k : Fin 8) (s : State), s.safe = false → s.get F.PORT_STAT_STATE p = stFrameLock → bit (s.port p).act k = true → exec (.frameSlot p k) s =
     .next (s.sendControl p k .idle)) ∧
  (∀ (p : Fin 1024) (k : Fin 8) (b : List Byte) (f : DataFrame) (s : State), frameOf b = some (.data f) → s.hears p k = true → ((s.heard p k).notFence p).accepts p = true → exec (.dataFrameRx p k b) s =
     .next (((s.heard p k).notFence p).dataHeard p f)) ∧
  (∀ (p : Fin 1024) (k : Fin 8) (b : List Byte) (f : DataFrame) (s : State), frameOf b = some (.data f) → s.hears p k = true → ((s.heard p k).notFence p).accepts p = false → exec (.dataFrameRx p k b) s =
     .next (((s.heard p k).notFence p).applyAlways p f.head)) ∧
  (∀ (p : Nat) (f : DataFrame) (s : State), ((s.applyHead p f.head f.head.sack 16).count 11 p 0x42).mode p ≠ 2 →
       s.dataHeard p f = ((s.applyHead p f.head f.head.sack 16).count 11 p 0x42).takeData p ⟨f.head.seq % 2 ^ 20, f.vc % 16, f.ep, f.sop, f.eop, f.cell⟩) ∧
  (∀ (p : Nat) (f : DataFrame) (s : State), ((s.applyHead p f.head f.head.sack 16).count 11 p 0x42).mode p = 2 →
       s.dataHeard p f = ((s.applyHead p f.head f.head.sack 16).count 11 p 0x42).takeCompat p ⟨f.head.seq % 2 ^ 20, rlp3Vc (f.vc % 12), f.ep, f.sop, f.eop, f.cell⟩) ∧
  (∀ (p : Fin 1024) (k : Fin 8) (b : List Byte) (h : FrameHead) (s : State), frameOf b = some (.idle h) → s.hears p k = true → exec (.idleFrameRx p k b) s =
     .next (((s.heard p k).notFence p).applyAlways p h)) ∧
  (∀ (p : Fin 1024) (k : Fin 8) (hd rest : List Byte) (h : FrameHead) (c : AckCell) (s : State), frameOf (hd ++ rest) = some (.ack h c) → s.hears p k = true → ((s.heard p k).notFence p).keepsLink p = true → exec (.ackFrameRx p k hd rest) s =
     .next (((s.heard p k).notFence p).ackHeard p h c)) ∧
  (∀ (p : Nat) (h : FrameHead) (c : AckCell) (s : State), s.mode p ≠ 2 →
       s.ackHeard p h c = (s.applyHead p h (h.sack % 2 ^ 16 + c.xsack % 2 ^ 1536 * 2 ^ 16) 1552).applyAckCell p c) ∧
  (∀ (p : Fin 1024) (k : Fin 8) (b : List Byte) (h : FrameHead) (c : FenceCell) (s : State), frameOf b = some (.fence h c) → s.hears p k = true → s.get F.PORT_STAT_STATE p ≠ stDisabled → (((s.heard p k).applyAlways p h).link p).fenceRun = 3 → exec (.fenceFrameRx p k b) s =
     .next (((((s.heard p k).applyAlways p h).modLink p fun x => { x with fenceRun := 4 })).peerFenced p)) ∧
  (∀ (p : Fin 1024) (k : Fin 8) (b : List Byte) (h : FrameHead) (c : FenceCell) (s : State), frameOf b = some (.fence h c) → s.hears p k = true → s.get F.PORT_STAT_STATE p ≠ stDisabled → (((s.heard p k).applyAlways p h).link p).fenceRun ≠ 3 → exec (.fenceFrameRx p k b) s =
     .next (((s.heard p k).applyAlways p h).modLink p fun x => { x with fenceRun := (((s.heard p k).applyAlways p h).link p).fenceRun + 1 }))

/-- Recovery, credit and slots of a link (R117, R118, R135 to R149). -/
def Obligations.LinkRecoveryCommands : Prop :=
  (∀ (p : Nat) (lane : Fin 1024) (b : List Byte) (s : State), s.owner lane = some p → goodCrc b = false → (((((s.inc F.LNK_CNT_ERR_CRC p).count 11 p 0x43).raise E.LNK_CRC_ERR p)).lane lane).bad + 1 < 8 → exec (.badFrameRx lane b) s =
     .next (((((s.inc F.LNK_CNT_ERR_CRC p).count 11 p 0x43).raise E.LNK_CRC_ERR p)).modLane lane fun x => { x with good := 0, bad := (((((s.inc F.LNK_CNT_ERR_CRC p).count 11 p 0x43).raise E.LNK_CRC_ERR p)).lane lane).bad + 1 })) ∧
  (∀ (lane : Fin 1024) (s : State), 8 ≤ (s.lane lane).good → (s.lane lane).delineated = false → exec (.laneDelineated lane) s =
     .next (s.modLane lane fun x => { x with delineated := true })) ∧
  (∀ (p : Fin 1024) (at_ : Nat) (s : State), (s.link p).timer = some at_ → s.active p = true → s.over at_ (16 * s.get F.LNK_RTX_TIMEOUT p) 16 = true → (s.replayExpired p).get F.LNK_RTX_EXP_NOW p < (s.replayExpired p).get F.LNK_RTX_MAX_EXP p → exec (.replayTimeout p) s =
     .next (s.replayExpired p)) ∧
  (∀ (p : Fin 1024) (at_ : Nat) (s : State), (s.link p).timer = some at_ → s.active p = true → s.over at_ (16 * s.get F.LNK_RTX_TIMEOUT p) 16 = true → (s.replayExpired p).get F.LNK_RTX_MAX_EXP p ≤ (s.replayExpired p).get F.LNK_RTX_EXP_NOW p → exec (.replayTimeout p) s =
     .next ((((s.replayExpired p).inc F.LNK_CNT_MISC_EXHAUST p).raise E.LNK_RTX_EXHAUST p).linkDown p)) ∧
  (∀ (p : Fin 1024) (vc : Nat) (s : State), s.active p = true → s.safe = false → s.unitsClaimed (tileOf p) + 1 ≤ s.inUnits (tileOf p) → s.grantChoice p = some (vc, false) → exec (.creditGrant p) s =
     .next (s.grantUnit p vc)) ∧
  (∀ (p : Fin 1024) (vc : Nat) (s : State), s.active p = true → s.safe = false → s.unitsClaimed (tileOf p) + 1 ≤ s.inUnits (tileOf p) → s.grantChoice p = some (vc, true) → exec (.creditGrant p) s =
     .next ((s.grantUnit p vc).modLink p fun x => { x with rrGrant := (vc + 1) % 16 })) ∧
  (∀ (p : Fin 1024) (vc : Fin 16) (at_ : Nat) (s : State), (s.vcSt p vc).idleSince = some at_ → s.mode p = 1 → (s.vcSt p vc).released = false → s.over at_ (64 * s.get F.LNK_CTL_REL_IDLE p) 64 = true → s.txAvail p vc / 4 ≠ 0 → exec (.creditRelease p vc) s =
     .next ((s.modVc p vc fun v => { v with r := v.r + s.txAvail p vc / 4, released := true }).modLink p fun x => { x with ackOwed := true })) ∧
  (∀ (p : Fin 1024) (v : Nat) (s : State), (s.write F.LNK_REPLAY_PEAK (bits v 32 13) p).flag F.PORT_CTL_EN p = false → (s.write F.LNK_REPLAY_PEAK (bits v 32 13) p).slotsOthers p + bits v 0 13 ≤ (s.write F.LNK_REPLAY_PEAK (bits v 32 13) p).replaySlots (tileOf p) → exec (.slotsWrite p v) s =
     .next ((s.write F.LNK_REPLAY_PEAK (bits v 32 13) p).set F.LNK_REPLAY_SLOTS (bits v 0 13) p)) ∧
  (∀ (p : Fin 1024) (v : Nat) (s : State), (s.write F.LNK_REPLAY_PEAK (bits v 32 13) p).flag F.PORT_CTL_EN p = true → exec (.slotsWrite p v) s =
     .next ((s.write F.LNK_REPLAY_PEAK (bits v 32 13) p).raise E.LNK_SLOTS_REJ p))

/-- A packet through the core (R163 to R173, R184). -/
def Obligations.PacketCommands : Prop :=
  (∀ (t : Fin 72) (inPort : Fin 1024) (pkt : Packet) (s : State), t.val < 64 → exec (.packetArrival t inPort pkt) s =
     .next ((s.presented t inPort pkt).2.arrive t (s.presented t inPort pkt).1)) ∧
  (∀ (t : Fin 72) (inPort : Fin 1024) (pkt : Packet) (s : State), 64 ≤ t.val → s.engMute (s.presented t inPort pkt).1 = false → s.asBefore.engRoom t inPort (vcOf pkt.cls 0) pkt.ncells = true → exec (.packetArrival t inPort pkt) s =
     .next (let x := s.presented t inPort pkt
       let y := (x.2.engCharge x.1).started inPort x.1
       y.1.arrive t { x.1 with pkt := y.2 })) ∧
  (∀ (t out : Fin 72) (port : Fin 1024) (vc : Fin 16) (mc : Bool) (h : Held) (s : State), (s.tile t).head mc out port vc = some h → h.phase = .waiting → exec (.reservationRequest t out port vc mc) s =
     .next ((s.modHeld t h.id fun x => { x with phase := .requested }).modTile out fun x => { x with reqs := x.reqs ++ [⟨t, h.id, mc, port, vc, h.pkt.sl, h.pkt.ncells, h.pkt.cls, h.pkt.birth⟩] })) ∧
  (∀ (out : Fin 72) (port : Fin 1024) (vc : Fin 16) (mc : Bool) (q : ResReq) (h : Held) (s : State), (s.tile out).oldestReq mc port vc = some q → (s.tile q.inTile).byId q.id = some h → q.mc = false → (s.reqMembers out q h.pkt h.inPort).all (fun p => s.asBefore.outAdmits out p q.vc q.sl q.n && s.asBefore.quotaAdmits out p q.n) = true → s.tooOld h.pkt = false → s.toSpare out h.pkt = false → exec (.reservationGrant out port vc mc) s =
     .next ((s.grant out q h (s.reqMembers out q h.pkt h.inPort)).checkQuota out)) ∧
  (∀ (out : Fin 72) (port : Fin 1024) (vc : Fin 16) (mc : Bool) (q : ResReq) (h : Held) (s : State), (s.tile out).oldestReq mc port vc = some q → (s.tile q.inTile).byId q.id = some h → toStaging out h.pkt = false → (s.reqMembers out q h.pkt h.inPort).any (fun p => !s.asBefore.outAdmits out p q.vc q.sl q.n) = true → exec (.reservationGrant out port vc mc) s =
     .next (s.count 13 out 0x47)) ∧
  (∀ (errs : List GranuleErr) (s : State), exec (.cellSlot errs) s =
     .next (let u := State.each (List.range 72) (fun s m => s.slotAt s.core.slot m) s
     State.each errs State.granuleErr { u with core := { u.core with slot := u.core.slot + 1 } })) ∧
  (∀ (s : State), exec (.cellSlot [.bridge true]) s =
     .next (s.coreSlot.raise E.FLT_BRIDGE_UE)) ∧
  (∀ (t : Fin 72) (res : Fin 65536) (r : Resv) (s : State), (s.tile t).resv.find? (·.res == res.val) = some r → r.cells.length = r.n → (s.tile t).ordBlocked r = false → exec (.packetComplete t res) s =
     .next ((s.release t r).checkQuota t)) ∧
  (∀ (t : Fin 72) (res : Fin 65536) (r : Resv) (s : State), (s.tile t).resv.find? (·.res == res.val) = some r → r.cells.length < r.n → s.over r.since (64 * s.get F.CORE_CTL_REASM_TO) 64 = true → r.dead = false → s.tooOld r.pkt = false → exec (.reasmTimeout t res) s =
     .next ((((s.modTile t fun x => { x with resv := x.resv.filter (·.res != r.res) }).inc F.BUF_CNT_A_REASM_DROP t).count 13 t 0x44).raise E.BUF_REASM_DROP t)) ∧
  (∀ (t : Fin 72) (res : Fin 65536) (r : Resv) (s : State), (s.tile t).resv.find? (·.res == res.val) = some r → r.cells.length < r.n → s.over r.since (64 * s.get F.CORE_CTL_REASM_TO) 64 = true → r.dead = true → exec (.reasmTimeout t res) s =
     .next (s.modTile t fun x => { x with resv := x.resv.filter (·.res != r.res) })) ∧
  (∀ (t : Fin 72) (id : Nat) (s : State), (s.tile t).aborts.contains id = true → exec (.packetAbort t id) s =
     .next ((s.modTile t fun x => { x with aborts := x.aborts.filter (· != id) }).abortHeld t id)) ∧
  (∀ (t : Fin 72) (s : State), s.due (markSweep t) (2 ^ s.get F.CORE_CTL_SWEEP_K) = true → exec (.ageSweep t) s =
     .next ((((s.mark (markSweep t) (2 ^ s.get F.CORE_CTL_SWEEP_K)).sweepIn t).sweepOut t).checkQuota t))

/-- Fences of middles, tiles and routes; the identity (R187 to R191, R203, R234). -/
def Obligations.MiddleAndFenceCommands : Prop :=
  (∀ (s : State), s.boundary = true → s.capturePending (pageNo 16 0) = true → (s.midsOut.filter ((s.applyCapture (pageNo 16 0)).each ((List.range 64).filter fun m => s.midFence m && !(s.applyCapture (pageNo 16 0)).midFence m && s.get F.TILE_PWR_RUNG m == 0) State.exitTile).midKept).length + ((List.range 72).filter fun m => (s.applyCapture (pageNo 16 0)).midFence m && !s.midFence m && !s.midOut m).length ≤ 8 → exec .midFenceEffect s =
     .next (((s.applyCapture (pageNo 16 0)).each ((List.range 64).filter fun m => s.midFence m && !(s.applyCapture (pageNo 16 0)).midFence m && s.get F.TILE_PWR_RUNG m == 0) State.exitTile).each ((List.range 72).filter fun m => (s.applyCapture (pageNo 16 0)).midFence m && !s.midFence m && !s.midOut m) State.startDrain)) ∧
  (∀ (s : State), s.boundary = true → s.capturePending (pageNo 16 0) = true → 8 < (s.midsOut.filter ((s.applyCapture (pageNo 16 0)).each ((List.range 64).filter fun m => s.midFence m && !(s.applyCapture (pageNo 16 0)).midFence m && s.get F.TILE_PWR_RUNG m == 0) State.exitTile).midKept).length + ((List.range 72).filter fun m => (s.applyCapture (pageNo 16 0)).midFence m && !s.midFence m && !s.midOut m).length → exec .midFenceEffect s =
     .next (((s.applyCapture (pageNo 16 0)).each ((List.range 64).filter fun m => s.midFence m && !(s.applyCapture (pageNo 16 0)).midFence m && s.get F.TILE_PWR_RUNG m == 0) State.exitTile).raise E.CORE_FENCE_REJ)) ∧
  (∀ (m : Fin 72) (s : State), s.boundary = true → s.core.draining.contains m.val = true → s.midEmpty m = true → exec (.midDrainDone m) s =
     .next (s.skipMid m)) ∧
  (∀ (m : Fin 72) (s : State), s.boundary = true → s.midOut m = true → s.midFence m = false → s.flag F.TILE_FENCE_FULL m = false → s.get F.TILE_PWR_CUR m = 0 → s.midSkipped m = true → exec (.midReturn m) s =
     .next (((s.setMidSkipped m false).raise E.CORE_MID_RESTORED).noteQuiet m)) ∧
  (∀ (t : Fin 72) (s : State), s.flag F.TILE_FENCE_FULL t = false → s.ninth t = false → exec (.tileFenceFull t) s =
     .next (s.fenceTile t 1)) ∧
  (∀ (t : Fin 72) (s : State), s.flag F.TILE_FENCE_FULL t = false → s.ninth t = true → exec (.tileFenceFull t) s =
     .next (s.raise E.CORE_FENCE_REJ)) ∧
  (∀ (t : Fin 72) (s : State), s.flag F.TILE_FENCE_FULL t = true → exec (.tileFenceRelease t) s =
     .next (s.releaseTile t)) ∧
  (∀ (t : Fin 72) (s : State), s.flag F.TILE_FENCE_FULL t = false → exec (.tileFenceRelease t) s =
     .next (s.write F.TILE_FENCE_FULL 0 t)) ∧
  (∀ (t : Fin 72) (v : Nat) (s : State), t.val < 64 → exec (.rteFenceWrite t v) s =
     .next (((State.write { s with rte := { s.rte with hwFence := Tab.insert s.rte.hwFence t (s.hwNeed t - Nat.land (s.hwNeed t) (bits v 0 16)) } } F.RTE_FENCE_PORTS (Nat.lor (bits v 0 16) (s.hwNeed t)) t).write F.RTE_FENCE_PEER (bits v 16 16) t).write F.RTE_FENCE_MGT_PASS (bits v 32 1) t)) ∧
  (∀ (t : Fin 72) (v : Nat) (s : State), 64 ≤ t.val → exec (.rteFenceWrite t v) s =
     .next (((State.write { s with rte := { s.rte with hwFence := Tab.insert s.rte.hwFence t (s.hwNeed t - Nat.land (s.hwNeed t) (bits v 0 4)) } } F.RTE_FENCE_PORTS (Nat.lor (bits v 0 4) (s.hwNeed t)) t).write F.RTE_FENCE_PEER 0 t).write F.RTE_FENCE_MGT_PASS (bits v 32 1) t)) ∧
  (∀ (v : Nat) (s : State), exec (.devSelfWrite v) s =
     .next (((State.write { s with rte := { s.rte with selfOld := s.devSelf, selfNext := (s.rte.selfNext.filter fun e => decide (s.now < e.1 + ns 100)) ++ [(s.now, (bits v 0 11, bits v 16 7, bit v 24))] } } F.DEV_SELF_GROUP (bits v 0 11)).write F.DEV_SELF_DEVICE (bits v 16 7)).write F.DEV_SELF_VALID (b2n (bit v 24))))

/-- Escape, gossip and bank bits (R212, R213, R218, R682 to R684). -/
def Obligations.RoutingAndBankCommands : Prop :=
  (∀ (t : Fin 72) (id p : Nat) (h : Held) (s : State), (s.tile t).byId id = some h → s.escDue t h = true → h.pkt.rmode ≠ 2 → h.esc = some p → exec (.escMove t id) s =
     .next (s.escMove t h p)) ∧
  (∀ (t : Fin 72) (id : Nat) (h : Held) (s : State), (s.tile t).byId id = some h → s.escDue t h = true → h.pkt.rmode = 2 → exec (.escMove t id) s =
     .next ((s.removeHeld t id).dropNoroute t)) ∧
  (∀ (s : State), s.due markGossip 1000 = true → exec .gossipSend s =
     .next ((s.mark markGossip 1000).each ((List.range 1024).filter fun p => s.getBit F.RTE_GOSSIP_PORTS (p % 16) (tileOf p) && s.active p && s.mode p == 1) fun s p => s.sendDirect p (s.gossip p))) ∧
  (∀ (p : Fin 1024) (pkt : Packet) (s : State), pkt.isGossip = true → exec (.gossipRx p pkt) s =
     .next ((s.modTile (tileOf p) fun x => { x with fresh := x.fresh.filter fun f => !(f.pkt == pkt && f.inPort == p.val) }).applyGossip p pkt)) ∧
  (∀ (p : Fin 1024) (s : State), (s.staleKeys p).isEmpty = false → s.rte.stale.contains p.val = false → exec (.gossipStale p) s =
     .next (State.raise { s with rte := { s.rte with stale := s.rte.stale ++ [p.val] } } E.RTE_GOSSIP_STALE (tileOf p))) ∧
  (∀ (t : Fin 72) (off : Bool) (n : Fin 2) (v : Nat) (s : State), (s.each ((List.range 64).filter fun b => (bankBits t).contains (64 * n.val + b) && !s.flt.bankFence.contains (t.val, 64 * n.val + b)) fun s b => s.setBit (if off then F.TILE_BANK_OFF_BITS else F.TILE_BANK_RET_BITS) b (bit v b) t n).bankRoom t = false → exec (.bankBitWrite t off n v) s =
     .next (s.raise E.TILE_BANK_REJ t)) ∧
  (∀ (t : Fin 72) (off : Bool) (n : Fin 2) (v : Nat) (s : State), (s.each ((List.range 64).filter fun b => (bankBits t).contains (64 * n.val + b) && !s.flt.bankFence.contains (t.val, 64 * n.val + b)) fun s b => s.setBit (if off then F.TILE_BANK_OFF_BITS else F.TILE_BANK_RET_BITS) b (bit v b) t n).bankRoom t = true → exec (.bankBitWrite t off n v) s =
     .next (State.checkPools (State.each ((List.range 64).filter fun b => (bankBits t).contains (64 * n.val + b) && !s.flt.bankFence.contains (t.val, 64 * n.val + b)) (fun u b =>
         if s.bankRung t (64 * n.val + b) = 0 ∧ u.bankRung t (64 * n.val + b) ≠ 0 then u.setBit F.TILE_BANK_PEND_BITS b true t n
         else if u.bankRung t (64 * n.val + b) = 0 then u.setBit F.TILE_BANK_PEND_BITS b false t n
         else u) (s.each ((List.range 64).filter fun b => (bankBits t).contains (64 * n.val + b) && !s.flt.bankFence.contains (t.val, 64 * n.val + b)) fun s b => s.setBit (if off then F.TILE_BANK_OFF_BITS else F.TILE_BANK_RET_BITS) b (bit v b) t n)) t)) ∧
  (∀ (t : Fin 72) (l : Fin 128) (s : State), s.getBit F.TILE_BANK_PEND_BITS (l.val % 64) t (l.val / 64) = true → exec (.bankRungReached t l) s =
     .next ((s.setBit F.TILE_BANK_PEND_BITS (l.val % 64) false t (l.val / 64)).checkPools t))

/-- Shapers, samples, rings and counters (R254 to R273, R764). -/
def Obligations.SchedulingAndTelemetryCommands : Prop :=
  (∀ (s : State), exec .shaperRefill s =
     .next (let u := s.each s.listedToks fun u e => u.setTok e.1 e.2 (min (u.tok e.1 e.2 +
         ((((s.now - s.clk.base) / ns 64 - (Tab.get 0 s.marks markRefill - s.clk.base) / ns 64) * u.get F.SHP_RATE_RATE e.1 e.2 : Nat))) (u.get F.SHP_RATE_BURST e.1 e.2 * 256 : Nat))
     { u with marks := u.marks.insert markRefill s.now })) ∧
  (∀ (t : Fin 72) (j : Fin 128) (v : Nat) (s : State), t.val < 64 ∨ j.val < 64 → exec (.shaperCfgWrite t j true v) s =
     .next (((s.set F.SHP_RATE_RATE (bits v 0 24) t j).set F.SHP_RATE_BURST (bits v 32 24) t j).resetBucket t j)) ∧
  (∀ (t : Fin 72) (j : Fin 128) (v : Nat) (s : State), t.val < 64 ∨ j.val < 64 → exec (.shaperCfgWrite t j false v) s =
     .next (((((s.set F.SHP_CFG_EN (bits v 0 1) t j).set F.SHP_CFG_RESET_FULL (bits v 1 1) t j).set F.SHP_CFG_OVERHEAD (bits v 8 8) t j).set F.SHP_CFG_GROUP (bits v 16 8) t j).resetBucket t j)) ∧
  (∀ (t : Fin 72) (j : Fin 128) (rate : Bool) (v : Nat) (s : State), 64 ≤ t.val → 64 ≤ j.val → exec (.shaperCfgWrite t j rate v) s =
     .next s) ∧
  (∀ (t : Fin 72) (s : State), s.due (markSample t) (2 ^ s.get F.TEL_CTL_SAMPLE_K t) = true → exec (.queueSample t) s =
     .next (let l := (portsOf t).flatMap fun q => (List.range 8).map fun sl => (sampleKey t q sl, s.sampleOf t q sl)
     let d := (portsOf t).map fun q => (depthKey t q, s.outCells t q fun _ => true)
     State.mark { s with rte := { s.rte with sample := l.foldl (fun x e => Tab.insert x e.1 e.2) s.rte.sample,
                                             depth := d.foldl (fun x e => Tab.insert x e.1 e.2) s.rte.depth } } (markSample t) (2 ^ s.get F.TEL_CTL_SAMPLE_K t))) ∧
  (∀ (t : Fin 72) (s : State), s.due (markSample t) (2 ^ s.get F.TEL_CTL_SAMPLE_K t) = false → exec (.queueSample t) s =
     .next s) ∧
  (∀ (t : Fin 72) (s : State), exec (.histClr t) s =
     .next (s.each (List.range 128) fun s n => (s.set F.TEL_HIST_BIN_LO 0 t n).set F.TEL_HIST_BIN_HI 0 t n)) ∧
  (∀ (t : Fin 72) (s : State), s.flag F.TEL_CTL_RING_EN t = true → s.due (markRing t) (2 ^ s.get F.TEL_CTL_RING_K t) = true → exec (.telRecord t) s =
     .next ((s.mark (markRing t) (2 ^ s.get F.TEL_CTL_RING_K t)).telRecord t 0 false)) ∧
  (∀ (t : Fin 72) (s : State), s.flag F.TEL_CTL_RING_EN t = false ∨ s.due (markRing t) (2 ^ s.get F.TEL_CTL_RING_K t) = false → exec (.telRecord t) s =
     .next s) ∧
  (∀ (cls : Fin 31) (i : Fin 1024) (k : Fin 8) (v : Nat) (s : State), implemented cls i = true → k.val < pmcNum cls → exec (.pmcWrite cls i k v) s =
     .next ((s.write (F.PMC_COUNT.of cls) (bits v 0 48) i k).write (F.PMC_SAT.of cls) (bits v 63 1) i k)) ∧
  (∀ (cls : Fin 31) (i : Fin 1024) (s : State), implemented cls i = true → exec (.pmcSnapNow cls i) s =
     .next (s.snapshot cls i (s.get (F.PMC_CTL_TAG.of cls) i))) ∧
  (∀ (cls : Fin 31) (i : Fin 1024) (k : Fin 8) (v : Nat) (s : State), implemented cls i = false ∨ pmcNum cls ≤ k.val → exec (.pmcWrite cls i k v) s =
     .next s) ∧
  (∀ (s : State), s.blockFenced 7 = false → exec .pmnSnapNow s =
     .next (s.snapshotAll (s.get F.PMN_CTL_TAG))) ∧
  (∀ (cls : Fin 31) (i : Fin 1024) (s : State), implemented cls i = true → exec (.cntClr cls i) s =
     .next (s.each (counterFields cls) fun s f => s.each (List.range f.cnt) (fun s n => s.each (List.range f.subn) fun s k => s.write f 0 i n k)))

/-- Detected faults (R635, R643, R646, R648, R726, R743). -/
def Obligations.FaultEventCommands : Prop :=
  (∀ (temp : Nat) (s : State), s.get F.FLT_CTL_THERM_WARN ≤ temp → exec (.thermWarn temp) s =
     .next (s.raise E.FLT_THERM_WARN)) ∧
  (∀ (temp : Nat) (s : State), 115 ≤ temp → exec (.thermTrip temp) s =
     .next (State.raise { s with pins := { s.pins with thermTrip := true } } E.FLT_THERM_TRIP)) ∧
  (∀ (s : State), s.boot.pwrGood = true → exec (.railFault .main) s =
     .next (s.raise E.FLT_RAIL_MAIN)) ∧
  (∀ (k : Fin 4) (s : State), s.boot.pwrGood = true → exec (.railFault (.hio k)) s =
     .next (s.raiseCap E.FLT_RAIL_HIO 0 (blockCapture 18 (8 * k.val)))) ∧
  (∀ (e : Fin 16) (s : State), s.boot.pwrGood = true → exec (.railFault (.opt e)) s =
     .next (s.raiseCap E.FLT_RAIL_OPT 0 (blockCapture 9 e.val))) ∧
  (∀ (s : State), exec .refclkLoss s =
     .next (s.raise E.FLT_REFCLK_LOSS)) ∧
  (∀ (s : State), s.cps.halted = false → s.cps.busy = false → exec .cpWatchdog s =
     .next (s.watchdog (blockCapture 2 0))) ∧
  (∀ (s : State), s.safe = false → exec .collectorErr s =
     .next ((if !s.getBit (F.EVT_STAT_EVT.of 2) E.FLT_COLLECTOR_ERR.bit then ((s.event (F.EVT_STAT_EVT.of 2) E.FLT_COLLECTOR_ERR.bit).pageCapture 2 0 E.FLT_COLLECTOR_ERR.bit (blockCapture 2 0)).count 2 0 4 else ((s.event (F.EVT_STAT_EVT.of 2) E.FLT_COLLECTOR_ERR.bit).pageCapture 2 0 E.FLT_COLLECTOR_ERR.bit (blockCapture 2 0))).enterSafe)) ∧
  (∀ (cls : Fin 31) (i : Fin 1024) (off : Fin 512) (s : State), implemented cls i = true → exec (.cfgCheck cls i off true) s =
     .next (s.raiseAt cls i E.bitCfgErr { blockCapture cls i with addr := regOffset cls i (8 * off.val), space := 1 })) ∧
  (∀ (bank : Fin 10496) (word : Fin 8192) (s : State), s.flag F.FLT_SCRUB_EN = true → s.bankOn (bankHome bank).1 (bankHome bank).2 = true → exec (.scrubRead bank word 0 false) s =
     .next (s.count 2 0 0x43))

/-- Reactions of the collector (R627, R637, R641, R644, R645, R702). -/
def Obligations.FaultReactionCommands : Prop :=
  (∀ (a : Arrival) (s : State), s.flt.next = some a → a.sev ≤ 2 → s.flt.busyUntil ≤ a.emt → exec .faultEvent s =
     .next (((State.bookEvent { s with flt := { s.flt with arrivals := s.flt.arrivals.erase a, busyUntil := a.emt + ns 64 } } a a.sev).settleAll).refreshPins)) ∧
  (∀ (a : Arrival) (s : State), s.flt.next = some a → a.sev ≤ 2 → a.emt < s.flt.busyUntil → exec .faultEvent s =
     .next (((State.count { s with flt := { s.flt with arrivals := s.flt.arrivals.erase a } } 2 0 0x41).settleAll).refreshPins)) ∧
  (∀ (s : State), s.pins.faultMode = true → s.flag F.FLT_STAT_HB_RUN = true → exec .heartbeatEdge s =
     .next s.refreshPins) ∧
  (∀ (t : Nat) (s : State), s.flt.pulseEnd = some t → t ≤ s.now → exec .faultPulseEnd s =
     .next (State.refreshPins { s with flt := { s.flt with pulseEnd := none } })) ∧
  (∀ (x : Nat × Nat) (l : List (Nat × Nat)) (s : State), s.almanac.repairDue = x :: l → s.almanac.repair.length < 1024 → exec .repairEntryAdd s =
     .next { s with almanac := { s.almanac with repairDue := l, repair := s.almanac.repair ++ [x] } }) ∧
  (∀ (x : Nat × Nat) (l : List (Nat × Nat)) (s : State), s.almanac.repairDue = x :: l → 1024 ≤ s.almanac.repair.length → exec .repairEntryAdd s =
     .next (State.raise { s with almanac := { s.almanac with repairDue := l } } E.ALM_REPAIR_FULL))

/-- The owner, presence, seal and fuses (R705 to R710). -/
def Obligations.OwnerCommands : Prop :=
  (∀ (m : Master) (r : OwnerReg) (v : Nat) (s : State), s.blockFenced (ownerClass r) = false → s.ownerOk m = true → exec (.ownerWrite m r v) s =
     .next ((s.count 4 0 0x42).setOwner r v)) ∧
  (∀ (m : Master) (r : OwnerReg) (v : Nat) (s : State), s.blockFenced (ownerClass r) = false → s.ownerOk m = false → exec (.ownerWrite m r v) s =
     .next (((s.inc F.ALM_CNT_OWNER_REFUSED).raise E.ALM_OWNER_REFUSED).count 4 0 0x43)) ∧
  (∀ (s : State), s.presence.low = false → exec (.presenceEdge true) s =
     .next { s with presence := { s.presence with low := true, broken := false } }) ∧
  (∀ (s : State), s.presence.low = true → exec (.presenceEdge false) s =
     .next { s with presence := { s.presence with low := false, until_ := s.now + ns 60000000000 } }) ∧
  (∀ (s : State), s.presence.low = false → s.presence.until_ ≤ s.now → exec .presenceWindowExpiry s =
     .next { s with presence := { s.presence with until_ := 0 } }) ∧
  (∀ (s : State), exec (.sealMismatch false) s =
     .next ((State.raise { s with presence := { s.presence with broken := true, until_ := 0, sealAt := s.now } } E.ALM_SEAL_BROKEN).inc F.ALM_CNT_SEAL_BREAKS)) ∧
  (∀ (m : Master) (s : State), s.blockFenced 30 = false → s.presence.prog = none → s.ownerOk m = true → 128 ≤ (s.count 4 0 0x42).get F.FUS_ROW_ROW → exec (.fuseProg m) s =
     .next { s.count 4 0 0x42 with presence := { (s.count 4 0 0x42).presence with prog := some ((s.count 4 0 0x42).get F.FUS_ROW_ROW, (s.count 4 0 0x42).get F.FUS_DATA_DATA) } }) ∧
  (∀ (m : Master) (s : State), s.blockFenced 30 = false → s.presence.prog = none → s.ownerOk m = true → (s.count 4 0 0x42).get F.FUS_ROW_ROW < 128 → exec (.fuseProg m) s =
     .next (((s.count 4 0 0x42).event F.FUS_STAT_ERR 0).raise E.FUS_PROG_ERR)) ∧
  (∀ (r v : Nat) (s : State), s.presence.prog = some (r, v) → exec (.progDone true) s =
     .next (State.raise { s with presence := { s.presence with prog := none, fuses := Tab.insert s.presence.fuses r (Nat.lor (s.fuseRow r) v) } } E.FUS_PROG_DONE)) ∧
  (∀ (m : Master) (s : State), s.blockFenced 30 = false → s.ownerOk m = true → bit ((s.count 4 0 0x42).fuseRow 128) 0 = false → exec (.debugUnlock m) s =
     .next (State.raise { s.count 4 0 0x42 with presence := { (s.count 4 0 0x42).presence with debug := true } } E.FUS_DEBUG_UNLOCKED))

/-- The Almanac, unfencing and firmware (R699 to R718). -/
def Obligations.AlmanacCommands : Prop :=
  (∀ (slot : Fin 4) (s : State), s.almFree = true → (s.almFields 1 slot (s.get F.ALM_CMD_ARG)).getBit F.ALM_PROT_SLOT_WP slot = false → exec (.commit slot) s =
     .next (let u := s.almFields 1 slot (s.get F.ALM_CMD_ARG)
     { u with almanac := { u.almanac with slots := Tab.erase u.almanac.slots slot, cmd := some ⟨1, slot, 0, false, some u.snapNow⟩ } })) ∧
  (∀ (slot : Fin 4) (s : State), s.almFree = true → (s.almFields 1 slot (s.get F.ALM_CMD_ARG)).getBit F.ALM_PROT_SLOT_WP slot = true → exec (.commit slot) s =
     .next (((s.almFields 1 slot (s.get F.ALM_CMD_ARG)).set F.ALM_STAT_RESULT 2).raise E.ALM_COMMIT_FAIL)) ∧
  (∀ (arg : Fin 65536) (s : State), s.almFree = true → arg.val < 10496 → exec (.repairClear arg) s =
     .next ((s.almFields 2 (s.get F.ALM_CMD_SLOT) arg).almStart 2 0 arg none)) ∧
  (∀ (m : Master) (mask : Fin 65536) (s : State), s.almFree = true → s.ownerOk m = true → exec (.erase m mask) s =
     .next (((s.count 4 0 0x42).almFields 3 ((s.count 4 0 0x42).get F.ALM_CMD_SLOT) mask).almStart 3 0 mask none)) ∧
  (∀ (arg : Fin 65536) (s : State), s.almFree = true → arg.val < 32 → (s.almFields 4 (s.get F.ALM_CMD_SLOT) arg).ucodeOk arg = true → exec (.ucode arg) s =
     .next (((s.almFields 4 (s.get F.ALM_CMD_SLOT) arg).almStart 4 0 arg none).hwFenceOn (tileOfEng arg) (2 ^ (arg.val % 4)))) ∧
  (∀ (c : AlmCmd) (s : State), s.almanac.cmd = some c → c.op = 2 → c.arg ≠ 0xFFFF → exec (.almCmdEnd true) s =
     .next (State.set { s with almanac := { s.almanac with cmd := none, repair := s.almanac.repair.filter (·.1 != c.arg) } } F.ALM_STAT_RESULT 0)) ∧
  (∀ (cls : Fin 64) (i : Fin 1024) (bank : Fin 16384) (t : State) (s : State), s.blockFenced 4 = false → ((((s.set F.ALM_UNFENCE_CLASS cls).set F.ALM_UNFENCE_INSTANCE i).set F.ALM_UNFENCE_BANK bank).set F.ALM_UNFENCE_SCOPE 1).safe = false → ((((s.set F.ALM_UNFENCE_CLASS cls).set F.ALM_UNFENCE_INSTANCE i).set F.ALM_UNFENCE_BANK bank).set F.ALM_UNFENCE_SCOPE 1).liftBank bank = some t → exec (.almUnfence cls i bank 1) s =
     .next ((t.set F.ALM_UNFENCE_ERR 0).raise E.ALM_UNFENCE_DONE)) ∧
  (∀ (cls : Fin 64) (i : Fin 1024) (bank : Fin 16384) (s : State), s.blockFenced 4 = false → ((((s.set F.ALM_UNFENCE_CLASS cls).set F.ALM_UNFENCE_INSTANCE i).set F.ALM_UNFENCE_BANK bank).set F.ALM_UNFENCE_SCOPE 1).safe = false → ((((s.set F.ALM_UNFENCE_CLASS cls).set F.ALM_UNFENCE_INSTANCE i).set F.ALM_UNFENCE_BANK bank).set F.ALM_UNFENCE_SCOPE 1).liftBank bank = none → exec (.almUnfence cls i bank 1) s =
     .next (((((s.set F.ALM_UNFENCE_CLASS cls).set F.ALM_UNFENCE_INSTANCE i).set F.ALM_UNFENCE_BANK bank).set F.ALM_UNFENCE_SCOPE 1).set F.ALM_UNFENCE_ERR 1)) ∧
  (∀ (e : Fin 32) (s : State), (s.eng e).refuseTo ≤ s.now → exec (.refusalPeriodEnd e) s =
     .next (s.modEng e fun x => { x with refuseTo := 0 })) ∧
  (∀ (e : Fin 32) (s : State), (s.eng e).pauseTo ≤ s.now → exec (.injectPauseEnd e) s =
     .next (s.modEng e fun x => { x with pauseTo := 0 })) ∧
  (∀ (version : Fin 65536) (s : State), s.blockFenced 4 = false → s.ownerOk .mctp = true → s.almanac.active = 0 → exec (.fwImageAccept version true) s =
     .next { s.count 4 0 0x42 with almanac := { s.almanac with verB := version, validB := true } }) ∧
  (∀ (s : State), s.blockFenced 4 = false → exec .fwRestart s =
     .next { s with cps := ⟨true, false, s.now, 0⟩ }) ∧
  (∀ (s : State), s.cps.busy = true → exec .cpRestartDone s =
     .next s.cpsBoot)

/-- The mailbox and the management endpoint (R613 to R620). -/
def Obligations.ManagementCommands : Prop :=
  (∀ (s : State), s.mgmt.mbox = none → s.blockFenced 5 = false → exec .mgtMboxGo s =
     .next (State.mgtSend { s with mgmt := { s.mgmt with mbox := some (s.mgtStamped s.mboxPacket, 0, s.now) } } (s.mgtStamped s.mboxPacket))) ∧
  (∀ (q : Packet) (n at_ : Nat) (s : State), s.mgmt.mbox = some (q, n, at_) → s.over at_ (s.mgtRto q.tu) 1000 = true → s.blockFenced 5 = false → n < s.get F.MGT_CTL_RETRIES → exec .mgtMboxResend s =
     .next ((State.mgtSend { s with mgmt := { s.mgmt with mbox := some (s.mgtStamped q, n + 1, s.now) } } (s.mgtStamped q)).count 5 0 0x44)) ∧
  (∀ (q : Packet) (n at_ : Nat) (s : State), s.mgmt.mbox = some (q, n, at_) → s.over at_ (s.mgtRto q.tu) 1000 = true → s.blockFenced 5 = false → s.get F.MGT_CTL_RETRIES ≤ n → exec .mgtMboxResend s =
     .next ((s.event F.MGT_MBOX_FAIL 0).mboxDone 0x10)) ∧
  (∀ (q r : Packet) (p n at_ : Nat) (t : State) (s : State), isResponse q = true → s.mgtTake q = some (p, t) → t.mgmt.mbox = some (r, n, at_) → mTag r = mTag q → t.blockFenced 5 = false → exec (.response q) s =
     .next ((t.mboxStore q).mboxDone (bits q.w2 8 8))) ∧
  (∀ (src tag : Nat) (s : State), exec (.replyCacheExpiry src tag) s =
     .next { s with mgmt := { s.mgmt with cache := s.mgmt.cache.filter fun r => !(r.src == src && r.tag == tag && decide (r.expiry ≤ s.now)) } }) ∧
  (∀ (q : Packet) (p : Nat) (t : State) (s : State), mType q = 2 → s.mgtTake q = some (p, t) → t.blockFenced 5 = false → exec (.regRd q) s =
     .next (t.mgtServe q p)) ∧
  (∀ (q : Packet) (p : Nat) (t : State) (s : State), mType q = 3 → s.mgtTake q = some (p, t) → t.blockFenced 5 = false → exec (.regWr q) s =
     .next (t.mgtServe q p)) ∧
  (∀ (q : Packet) (p : Nat) (t : State) (s : State), mType q = 4 → s.mgtTake q = some (p, t) → t.blockFenced 5 = false → exec (.dptRd q) s =
     .next (t.mgtServe q p)) ∧
  (∀ (q : Packet) (p : Nat) (t : State) (s : State), mType q = 5 → s.mgtTake q = some (p, t) → t.blockFenced 5 = false → exec (.dptWr q) s =
     .next (t.mgtServe q p)) ∧
  (∀ (w2 w3 w4 w5 : Nat) (data : List Byte) (r : MReq) (s : State), r = ⟨w2 % 2 ^ 64, w3 % 2 ^ 64, w4 % 2 ^ 64, w5 % 2 ^ 64, data⟩ → s.mctpRule r = 0 → exec (.mctpRequest w2 w3 w4 w5 data) s =
     .next ((s.mgtDo .mctp r).1.emit (.mctp ((s.mgtDo .mctp r).2.words r) (s.mgtDo .mctp r).2.data)))

/-- Tile and device rungs (R654, R673 to R678). -/
def Obligations.PowerLadderCommands : Prop :=
  (∀ (t : Fin 72) (s : State), exec (.tileRungCmd t 0) s =
     .next ((s.set F.TILE_PWR_RUNG 0 t).exitTile t)) ∧
  (∀ (t : Fin 72) (rung : Fin 8) (u : State) (s : State), rung.val ≠ 0 → rung.val ≤ 4 → (s.set F.TILE_PWR_RUNG rung t).tryTile t = some u → exec (.tileRungCmd t rung) s =
     .next u) ∧
  (∀ (t : Fin 72) (u : State) (s : State), s.get F.TILE_PWR_CUR t = 0 → s.tryTile t = some u → exec (.tileRungEntry t) s =
     .next u) ∧
  (∀ (t : Fin 64) (at_ : Nat) (s : State), (s.tile t).quietSince = some at_ → 1 ≤ s.get F.TILE_PWR_AUTO_MAX t → s.get F.TILE_PWR_AUTO_MAX t ≤ 4 → s.get F.TILE_PWR_CUR t = 0 → s.get F.TILE_PWR_RUNG t = 0 → s.tileQuiet t = true → s.over at_ (64 * s.get F.TILE_PWR_IDLE t) 64 = true → exec (.tileAutoEntry t) s =
     .next (s.enterTile t (s.get F.TILE_PWR_AUTO_MAX t))) ∧
  (∀ (rung : Fin 8) (s : State), s.blockFenced 3 = false → (s.set F.PWR_CTL_RUNG rung).get F.PWR_STAT_RUNG = 0 → 1 ≤ rung.val → rung.val ≤ 5 → (List.range 64).any (s.set F.PWR_CTL_RUNG rung).linkUp = false → (s.set F.PWR_CTL_RUNG rung).safe = false → (s.set F.PWR_CTL_RUNG rung).ladder = Ladder.reset → exec (.deviceRungCmd rung) s =
     .next (State.each (List.range 1024) (fun s p => s.portForRung rung p) { (s.set F.PWR_CTL_RUNG rung).set F.PWR_STAT_REFUSE 0 with ladder := ⟨some rung.val, none⟩ })) ∧
  (∀ (rung : Fin 8) (s : State), s.blockFenced 3 = false → (s.set F.PWR_CTL_RUNG rung).get F.PWR_STAT_RUNG = 0 → 1 ≤ rung.val → rung.val ≤ 5 → (List.range 64).any (s.set F.PWR_CTL_RUNG rung).linkUp = true → exec (.deviceRungCmd rung) s =
     .next ((s.set F.PWR_CTL_RUNG rung).rungRefused 1)) ∧
  (∀ (r : Nat) (s : State), s.ladder.goal = some r → s.allArrived = true → exec .deviceRungArrival s =
     .next ((((State.each (List.range 72) (fun s t => s.enterTile t r) { s with ladder := Ladder.reset }).set F.PWR_STAT_RUNG r).raise E.PWR_DEV_RUNG_DONE).count 3 0 0x40)) ∧
  (∀ (w : WakeSource) (c : Nat) (s : State), s.get F.PWR_STAT_RUNG ≠ 0 → s.ladder.wakeAt = none → s.wakeBy w = some c → exec (.deviceWake w) s =
     .next (s.wakeDevice c)) ∧
  (∀ (t : Fin 72) (s : State), (s.tile t).exitAt.isSome = true → exec (.rungExitDone (.tile t)) s =
     .next (s.tileInRun t)) ∧
  (∀ (p : Fin 1024) (s : State), (s.port p).wake.isSome = true → s.get F.PORT_PWR_STAT_RUNG p ≠ 0 → exec (.rungExitDone (.port p)) s =
     .next ((((s.set F.PORT_PWR_STAT_RUNG 0 p).set F.PORT_PWR_STAT_COMMANDED 0 p).inc F.PORT_PWR_STAT_EXITS p).count 10 p 0x45))

/-- Register writes (R8, R15, R591), forced events (R598) and armed checkers (R640). -/
def Obligations.RegisterCommands : Prop :=
  (∀ (m : Master) (v : Nat) (s : State), s.blockFenced 1 = false → exec (.regWrite m (regOffset 1 0 0x130) .whole v) s =
     .next ((s.write F.MT_SLEW_MAX_PPB (bits v 0 16)).write F.MT_SLEW_STEP_THRESH (bits v 16 32))) ∧
  (∀ (m : Master) (off v : Nat) (h : Half) (s : State), implemented (offCls (off % 2 ^ 28)) (offInst (off % 2 ^ 28)) = false → exec (.regWrite m off h v) s =
     .next s) ∧
  (∀ (m : Master) (off v : Nat) (h : Half) (s : State), s.blockFenced (offCls (off % 2 ^ 28)) = true → offReg (off % 2 ^ 28) ≠ F.EVT_STAT_EVT.off → offReg (off % 2 ^ 28) ≠ F.STAT_CAP_VALID.off → exec (.regWrite m off h v) s =
     .next s) ∧
  (∀ (m : Master) (cls : Fin 31) (i : Fin 1024) (v : Nat) (s : State), implemented cls i = true → s.blockFenced cls = false → exec (.evtForce m cls i v) s =
     .next (s.each (setBitsOf v 64) fun s b => s.forceEvent m cls i b)) ∧
  (∀ (cls : Fin 31) (i : Fin 1024) (s : State), implemented cls i = true → s.blockFenced cls = false → exec (.injArm cls i) s =
     .next { s with flt := { s.flt with inj := if s.get (F.INJ_MASK.of cls) i = 0 then Tab.erase s.flt.inj (pageNo cls i) else Tab.insert s.flt.inj (pageNo cls i) (s.get (F.INJ_MASK.of cls) i) } })

/-- Bursts at the data port (R604, R605, R609). -/
def Obligations.DataPortBursts : Prop :=
  (∀ (m : Master) (off : Nat) (data : List Byte) (s : State), s.blockFenced 6 = false → badBurst off data.length = false → s.flag F.DPT_CTL_DIR = true → exec (.dptBurstWrite m off data) s =
     .next ((s.burstWrite m (s.get F.DPT_ADDR_ADDR) (s.get F.DPT_CTL_STRIDE) (s.get F.DPT_CTL_BANK) (wordsOfBytes (data.length / 8) data)).dptStep (wordsOfBytes (data.length / 8) data).length)) ∧
  (∀ (m : Master) (off len : Nat) (s : State), s.blockFenced 6 = false → badBurst off len = false → s.flag F.DPT_CTL_DIR = false → exec (.dptBurstRead m off len) s =
     .next (((s.burstRead m (s.get F.DPT_ADDR_ADDR) (s.get F.DPT_CTL_STRIDE) (s.get F.DPT_CTL_BANK) (len / 8)).1.dptStep (len / 8)).emitData m len (.burst m (s.burstRead m (s.get F.DPT_ADDR_ADDR) (s.get F.DPT_CTL_STRIDE) (s.get F.DPT_CTL_BANK) (len / 8)).2))) ∧
  (∀ (m : Master) (off : Nat) (data : List Byte) (s : State), s.blockFenced 6 = false → badBurst off data.length = true → ∃ t, exec (.dptBurstWrite m off data) s = .next t ∧
     t.mem = s.mem ∧ t.get F.DPT_STAT_BAD_LEN = 1 ∧ t.get F.DPT_ADDR_ADDR = s.get F.DPT_ADDR_ADDR ∧ t.get F.DPT_STAT_WORDS = s.get F.DPT_STAT_WORDS)

/-- Context ranges, loads, commands and user pages (R285 to R299, R328). -/
def Obligations.ContextCommands : Prop :=
  (∀ (e : Fin 32) (n : Fin 2) (v : Nat) (s : State), bit v 48 = false → exec (.ctxRangeWrite e n v) s =
     .next ((((s.set F.CTX_RANGE_FIRST (bits v 0 20) e n).set F.CTX_RANGE_COUNT (bits v 20 21) e n).set F.CTX_RANGE_EN (bits v 48 1) e n).set F.CTX_RANGE_HOLD (bits v 49 1) e n)) ∧
  (∀ (e : Fin 32) (n : Fin 2) (v : Nat) (s : State), s.rangeOverlap e n (bits v 0 20) (bits v 20 21) = false → exec (.ctxRangeWrite e n v) s =
     .next ((((s.set F.CTX_RANGE_FIRST (bits v 0 20) e n).set F.CTX_RANGE_COUNT (bits v 20 21) e n).set F.CTX_RANGE_EN (bits v 48 1) e n).set F.CTX_RANGE_HOLD (bits v 49 1) e n)) ∧
  (∀ (e : Fin 32) (n : Fin 2) (v : Nat) (s : State), bit v 48 = true → s.rangeOverlap e n (bits v 0 20) (bits v 20 21) = true → exec (.ctxRangeWrite e n v) s =
     .next (s.raise E.CTX_RANGE_OVERLAP e)) ∧
  (∀ (e : Fin 32) (q : Packet) (s : State), s.handDead e q = false → s.handed e q = true → ownCommand e q = false → exec (.enginePacketRx e q) s =
     .next (((s.unhand e q).letIn e q).rest e)) ∧
  (∀ (e : Fin 32) (q : Packet) (s : State), s.handHead e q = true → s.handDead e q = true → exec (.enginePacketRx e q) s =
     .next (s.dropHead e q)) ∧
  (∀ (e : Fin 32) (l : Load) (s : State), (s.eng e).loads.find? (·.phase == 0) = some l → s.loadsRun e < s.get F.CTX_CFG_FETCH_MAX e → (s.cached e).length + s.loadsRun e < 512 → exec (.ctxLoadStart e) s =
     .next ((s.beginLoad e l.ctx).rest e)) ∧
  (∀ (e : Fin 32) (c w0 : Nat) (r : HostReq) (s : State), s.reqFor e (.word0 c) = some r → (((s.cplRx r.port 8).dropReqTag r.tag).sendHeld r.port).binds e c w0 = true → exec (.ctxWord0Return e c w0) s =
     .next ((((((s.cplRx r.port 8).dropReqTag r.tag).sendHeld r.port).modEng e fun x => { x with loads := updWhere (·.ctx == c) (fun l => { l with phase := 2, w0 := w0 % 2 ^ 64 }) x.loads }).request e r.port 0 (.record c) fun tag => .hostRead tag r.port 0 [(((((s.cplRx r.port 8).dropReqTag r.tag).sendHeld r.port).modEng e fun x => { x with loads := updWhere (·.ctx == c) (fun l => { l with phase := 2, w0 := w0 % 2 ^ 64 }) x.loads }).loadRecord e c + 8, 504, false)]).rest e)) ∧
  (∀ (e : Fin 32) (c w0 : Nat) (r : HostReq) (s : State), s.reqFor e (.word0 c) = some r → (((s.cplRx r.port 8).dropReqTag r.tag).sendHeld r.port).binds e c w0 = false → exec (.ctxWord0Return e c w0) s =
     .next (((((((s.cplRx r.port 8).dropReqTag r.tag).sendHeld r.port).wakeEvents e c w0).raise E.CTX_BIND_ERR e).loadEnds e c false).rest e)) ∧
  (∀ (e : Fin 32) (c : Nat) (ws : List Nat) (r : HostReq) (l : Load) (s : State), s.reqFor e (.record c) = some r → (s.eng e).loads.find? (·.ctx == c) = some l → exec (.ctxLoadDone e c ws) s =
     .next ((((((((s.cplRx r.port 504).dropReqTag r.tag).sendHeld r.port).loaded e c (l.w0 :: ws.map (· % 2 ^ 64))).each (List.range 8) fun s q => s.addJob e (.poll c q)).rematch e c).pagesDue e c).rest e)) ∧
  (∀ (e : Fin 32) (c : Nat) (r : HostReq) (s : State), (s.reqFor e (.word0 c) <|> s.reqFor e (.record c)) = some r → exec (.ctxLoadFail e c) s =
     .next (((((s.cplRx r.port 0).dropReqTag r.tag).sendHeld r.port).loadEnds e c true).rest e)) ∧
  (∀ (e : Fin 32) (c : Nat) (s : State), (s.eng e).cmd.isSome = false → exec (.evict e c) s =
     .next ((s.setCtxCmd e 1 (s.get F.CTX_CMD_RANGE e) c).ctxCmd e 1 [c % 2 ^ 20])) ∧
  (∀ (e : Fin 32) (c : Nat) (s : State), (s.eng e).cmd.isSome = false → ((s.setCtxCmd e 2 (s.get F.CTX_CMD_RANGE e) (c % 2 ^ 20)).ctx e (c % 2 ^ 20)).isSome = true → exec (.close e c) s =
     .next ((((s.setCtxCmd e 2 (s.get F.CTX_CMD_RANGE e) (c % 2 ^ 20)).dropPulls e (c % 2 ^ 20)).ctxCmd e 2 [c % 2 ^ 20]).rest e)) ∧
  (∀ (e : Fin 32) (n : Fin 2) (s : State), (s.eng e).cmd.isSome = false → exec (.evictRange e n) s =
     .next ((s.setCtxCmd e 3 n (s.get F.CTX_CMD_CTX e)).ctxCmd e 3 (((s.cached e).filter (·.rng == n.val)).map (·.num)))) ∧
  (∀ (e : Fin 32) (op : Nat) (l : List Nat) (s : State), (s.eng e).cmd = some (op, l) → (l.filter fun c => ((s.each l fun s c => s.cmdDrop e op c).ctx e c).isSome).isEmpty = true → exec (.ctxCmdEnd e) s =
     .next (((s.each l fun s c => s.cmdDrop e op c).cmdDone e).rest e)) ∧
  (∀ (e : Fin 32) (c : Nat) (port : Fin 64) (func off len : Nat) (val : Option Nat) (k : Ctx) (s : State), (s.rangeOf e c).isSome = true → s.inFlr ⟨off % 4096, len, val, .fn port func⟩ = none → s.safe = false → s.ctx e c = some k → exec (.userPageAccess e c port func off len val) s =
     .next ((s.pageApply e k ⟨off % 4096, len, val, .fn port func⟩).rest e))

/-- Queues, entries and records (R303 to R326, R477). -/
def Obligations.QueueCommands : Prop :=
  (∀ (e : Fin 32) (c : Nat) (q : Fin 8) (port : Fin 64) (func : Nat) (k : Ctx) (s : State), s.ctx e c = some k → s.inFlr ⟨8 * q.val, 8, some 0, .fn port func⟩ = none → s.safe = false → exec (.nudge e c q port func) s =
     .next ((s.pageApply e k ⟨8 * q.val, 8, some 0, .fn port func⟩).rest e)) ∧
  (∀ (e : Fin 32) (c : Nat) (q : Fin 8) (index : Nat) (port : Fin 64) (func : Nat) (k : Ctx) (s : State), s.ctx e c = some k → s.inFlr ⟨0x40 + 8 * q.val, 8, some (index % 2 ^ 32), .fn port func⟩ = none → s.safe = false → exec (.wqInval e c q index port func) s =
     .next ((s.pageApply e k ⟨0x40 + 8 * q.val, 8, some (index % 2 ^ 32), .fn port func⟩).rest e)) ∧
  (∀ (e : Fin 32) (c : Nat) (q : Fin 8) (index : Nat) (port : Fin 64) (func : Nat) (k : Ctx) (s : State), s.ctx e c = some k → s.inFlr ⟨0xC0 + 8 * q.val, 8, some (index % 2 ^ 32 + 2 ^ 32), .fn port func⟩ = none → s.safe = false → exec (.wqCtlReset e c q index port func) s =
     .next ((s.pageApply e k ⟨0xC0 + 8 * q.val, 8, some (index % 2 ^ 32 + 2 ^ 32), .fn port func⟩).rest e)) ∧
  (∀ (e : Fin 32) (c : Nat) (port : Fin 64) (func : Nat) (k : Ctx) (s : State), s.ctx e c = some k → s.inFlr ⟨0x110, 8, some 0, .fn port func⟩ = none → s.safe = false → exec (.evqArm e c port func) s =
     .next ((s.pageApply e k ⟨0x110, 8, some 0, .fn port func⟩).rest e)) ∧
  (∀ (e : Fin 32) (c : Nat) (q : Fin 8) (k : Ctx) (s : State), s.ctx e c = some k → (k.q q).st = 3 → (k.q q).live = [] → exec (.queueDrainDone e c q) s =
     .next ((s.modQ e c q fun w => { w with st := 1, start := w.ctl, done := w.ctl, compNow := !k.faulted, pollAt := s.now, drop := w.out.isSome, bad := none }).rest e)) ∧
  (∀ (e : Fin 32) (c : Nat) (q : Fin 8) (k : Ctx) (s : State), s.ctx e c = some k → s.pollable e k q = true → (k.q q).pollAt ≤ s.now → exec (.queuePoll e c q) s =
     .next ((s.addJob e (.poll c q)).rest e)) ∧
  (∀ (e : Fin 32) (c : Nat) (q : Fin 8) (k : Ctx) (d : Desc) (l : List Desc) (s : State), s.nextQueue e = some (c, q.val) → s.ctx e c = some k → (k.q q).cache = d :: l → exec (.entryStart e) s =
     .next ((s.startEntry e k q d).rest e)) ∧
  (∀ (e : Fin 32) (c : Nat) (q : Fin 8) (b : Begun) (s : State), s.begunEntry e c q 0x0E = some b → exec (.nop e c q) s =
     .next (((s.dropBegun e b).endEntry e c q b.idx b.desc { status := 0 }).rest e)) ∧
  (∀ (e : Fin 32) (c : Nat) (q : Fin 8) (b : Begun) (s : State), s.begunEntry e c q 8 = some b → exec (.fence e c q) s =
     .next ((s.dropBegun e b).modQ e c q fun w => { w with fence := some (b.idx, b.desc) })) ∧
  (∀ (e : Fin 32) (c : Nat) (q : Fin 8) (k : Ctx) (idx : Nat) (d : Desc) (s : State), s.ctx e c = some k → (k.q q).fence = some (idx, d) → (k.q q).live.head? = some idx → dFlag d 11 = false → exec (.fenceFinish e c q) s =
     .next ((s.fenceEnd e c q idx d { status := 0 }).rest e)) ∧
  (∀ (e : Fin 32) (c : Nat) (q : Fin 8) (k : Ctx) (s : State), s.ctx e c = some k → (k.q q).compNow = true → exec (.completionRecordWrite e c q) s =
     .next ((s.addJob e (.comp c q)).rest e)) ∧
  (∀ (e : Fin 32) (c : Nat) (q : Fin 8) (k : Ctx) (t : Nat) (s : State), s.ctx e c = some k → (k.q q).compFrom = some t → s.passed t (k.qCoal q) = true → exec (.completionRecordWrite e c q) s =
     .next ((s.addJob e (.comp c q)).rest e)) ∧
  (∀ (e : Fin 32) (c : Nat) (k : Ctx) (s : State), s.ctx e c = some k → k.evUsed < 2 ^ k.ringLog 3 → exec (.eventRecordWrite e c) s =
     .next ((s.addJob e (.event c)).rest e)) ∧
  (∀ (e : Fin 32) (c : Nat) (k : Ctx) (s : State), s.ctx e c = some k → k.errUsed < 2 ^ k.ringLog 4 → exec (.errorRecordWrite e c) s =
     .next ((s.addJob e (.error c)).rest e)) ∧
  (∀ (e : Fin 32) (c : Nat) (k : Ctx) (s : State), s.ctx e c = some k → 2 ^ k.ringLog 4 ≤ k.errUsed → exec (.errorRecordWrite e c) s =
     .next ((s.loseError e c).rest e))

/-- Issue of operations (R334, R340, R367, R373, R394, R524). -/
def Obligations.OperationIssueCommands : Prop :=
  (∀ (e : Fin 32) (slot : Fin 2048) (o : Op) (s : State), s.op e slot = some o → o.kind = 1 → o.begun = false → o.held = none → exec (.put e slot) s =
     .next (((s.modOp e slot fun o => { o with begun := true, unsent := o.all 0 }).pump e slot).rest e)) ∧
  (∀ (e : Fin 32) (slot : Fin 2048) (o : Op) (s : State), s.op e slot = some o → o.kind = 2 → o.begun = false → o.held = none → exec (.putFlag e slot) s =
     .next (((s.modOp e slot fun o => { o with begun := true, unsent := o.all 0 }).pump e slot).rest e)) ∧
  (∀ (e : Fin 32) (slot : Fin 2048) (o : Op) (s : State), s.op e slot = some o → o.kind = 4 → o.begun = false → o.held = none → exec (.send e slot) s =
     .next (((s.modOp e slot fun o => { o with begun := true, unsent := o.all 0 }).pump e slot).rest e)) ∧
  (∀ (e : Fin 32) (slot : Fin 2048) (o : Op) (s : State), s.op e slot = some o → o.kind = 5 → o.begun = false → o.held = none → exec (.atomicAdd e slot) s =
     .next (((s.modOp e slot fun o => { o with begun := true, unsent := o.all 0 }).pump e slot).rest e)) ∧
  (∀ (e : Fin 32) (slot : Fin 2048) (o : Op) (s : State), s.op e slot = some o → o.kind = 6 → o.begun = false → o.held = none → exec (.atomicFadd e slot) s =
     .next (((s.modOp e slot fun o => { o with begun := true, unsent := o.all 0 }).pump e slot).rest e)) ∧
  (∀ (e : Fin 32) (slot : Fin 2048) (o : Op) (s : State), s.op e slot = some o → o.kind = 7 → o.begun = false → o.held = none → exec (.atomicCas e slot) s =
     .next (((s.modOp e slot fun o => { o with begun := true, unsent := o.all 0 }).pump e slot).rest e)) ∧
  (∀ (e : Fin 32) (slot : Fin 2048) (o : Op) (s : State), s.op e slot = some o → o.kind = 9 → o.begun = false → o.held = none → exec (.lockAcq e slot) s =
     .next (((s.modOp e slot fun o => { o with begun := true, unsent := o.all 0 }).pump e slot).rest e)) ∧
  (∀ (e : Fin 32) (slot : Fin 2048) (o : Op) (s : State), s.op e slot = some o → o.kind = 10 → o.begun = false → o.held = none → exec (.lockRel e slot) s =
     .next (((s.modOp e slot fun o => { o with begun := true, unsent := o.all 0 }).pump e slot).rest e)) ∧
  (∀ (e : Fin 32) (slot : Fin 2048) (o : Op) (s : State), s.op e slot = some o → o.kind = 11 → o.begun = false → o.held = none → exec (.lockRenew e slot) s =
     .next (((s.modOp e slot fun o => { o with begun := true, unsent := o.all 0 }).pump e slot).rest e)) ∧
  (∀ (e : Fin 32) (slot : Fin 2048) (o : Op) (s : State), s.op e slot = some o → o.kind = 3 → o.begun = false → o.held = none → exec (.get e slot) s =
     .next (((s.modOp e slot fun o => { o with begun := true, unsent := o.all 0 }).issueSegment e slot).rest e)) ∧
  (∀ (e : Fin 32) (slot : Fin 2048) (s : State), exec (.getSegmentIssue e slot) s =
     .next (((s.issueSegment e slot).pump e slot).rest e))

/-- Arriving requests (R347, R365, R370, R479). -/
def Obligations.RmaRequestCommands : Prop :=
  (∀ (e : Fin 32) (q : Packet) (s : State), (s.arrived e q 0 [1, 2]).2 = true → exec (.putPacketRx e q) s =
     .next (((s.arrived e q 0 [1, 2]).1.addJob e (.req q)).rest e)) ∧
  (∀ (e : Fin 32) (q : Packet) (s : State), (s.arrived e q 0 [3]).2 = true → exec (.getReqRx e q) s =
     .next (((s.arrived e q 0 [3]).1.addJob e (.req q)).rest e)) ∧
  (∀ (e : Fin 32) (q : Packet) (s : State), (s.arrived e q 0 [5, 6, 7]).2 = true → ((s.arrived e q 0 [5, 6, 7]).1.dupLookup e q).2 = .new → exec (.atomicRequestRx e q) s =
     .next (((((s.arrived e q 0 [5, 6, 7]).1.dupLookup e q).1.dupPend e q).addJob e (.req q)).rest e)) ∧
  (∀ (e : Fin 32) (q : Packet) (k : Ctx) (s : State), (s.arrived e q 0 [0x20]).2 = true → (s.arrived e q 0 [0x20]).1.ctx e (pTctx q) = some k → exec (.flushRx e q) s =
     .next (((s.arrived e q 0 [0x20]).1.flushRead e k 0 false (.ack q)).rest e))

/-- Host completions (R303, R374, R475, R481, R499, R505, R575). -/
def Obligations.HostReturnCommands : Prop :=
  (∀ (e : Fin 32) (tag : Nat) (ok : Bool) (data : List Byte) (r : HostReq) (c q first n : Nat) (s : State), s.reqOf tag = some r → r.eng = e.val → r.why = .poll c q first n → s.unsentTag tag = false → r.ended = false → r.closed = false → exec (.pollReadReturn e tag ok data) s =
     .next (((s.cplRx r.port data.length).endReq r ok data).sendHeld r.port)) ∧
  (∀ (e : Fin 32) (tag : Nat) (ok : Bool) (data : Nat) (r : HostReq) (c page : Nat) (s : State), s.reqOf tag = some r → r.eng = e.val → r.why = .walk c page → s.unsentTag tag = false → r.ended = false → r.closed = false → exec (.walkReadReturn e tag ok data) s =
     .next (((s.cplRx r.port (leBytes 8 data).length).endReq r ok (leBytes 8 data)).sendHeld r.port)) ∧
  (∀ (e : Fin 32) (tag : Nat) (ok : Bool) (data : Nat) (r : HostReq) (c page : Nat) (s : State), s.reqOf tag = some r → r.eng = e.val → r.why = .cas c page → s.unsentTag tag = false → r.ended = false → r.closed = false → exec (.adCasReturn e tag ok data) s =
     .next (((s.cplRx r.port (leBytes 8 data).length).endReq r ok (leBytes 8 data)).sendHeld r.port)) ∧
  (∀ (e : Fin 32) (tag : Nat) (ok : Bool) (r : HostReq) (f : FlushFor) (s : State), s.reqOf tag = some r → r.eng = e.val → r.why = .flush f → s.unsentTag tag = false → r.ended = false → r.closed = false → exec (.flushReadComplete e tag ok) s =
     .next (((s.cplRx r.port 0).endReq r ok []).sendHeld r.port)) ∧
  (∀ (e : Fin 32) (tag : Nat) (ok : Bool) (data : List Byte) (r : HostReq) (p : Packet) (s : State), s.reqOf tag = some r → r.eng = e.val → r.why = .atomicOp p → s.unsentTag tag = false → r.ended = false → r.closed = false → exec (.atomicopCompletion e tag ok data) s =
     .next (((s.cplRx r.port data.length).endReq r ok data).sendHeld r.port)) ∧
  (∀ (e : Fin 32) (tag : Nat) (ok : Bool) (data : List Byte) (r : HostReq) (slot gen poff : Nat) (s : State), s.reqOf tag = some r → r.eng = e.val → r.why = .payload slot gen poff → s.unsentTag tag = false → r.ended = false → r.closed = false → exec (.hostReadCompletion e tag ok data) s =
     .next (((s.cplRx r.port data.length).endReq r ok data).sendHeld r.port)) ∧
  (∀ (e : Fin 32) (tag : Nat) (ok : Bool) (data : List Byte) (r : HostReq) (slot gen poff : Nat) (s : State), s.reqOf tag = some r → r.eng = e.val → r.why = .payload slot gen poff → s.unsentTag tag = false → r.closed = true → exec (.hostReadCompletion e tag ok data) s =
     .next ((((s.cplRx r.port data.length).dropReqTag tag).inc F.HPT_CNT_C_LATE_CPL r.port).sendHeld r.port))

/-- Responses (R344 to R371). -/
def Obligations.RmaResponseCommands : Prop :=
  (∀ (e : Fin 32) (q : Packet) (slot : Nat) (o : Op) (s : State), (s.response e q 0x40).2 = some (slot, o) → o.held = none → ackEnds o.kind = true → exec (.ackRx e q) s =
     .next ((((s.response e q 0x40).1.gather e o.dest (pPkts q) (pMarks q)).endOp e slot { status := 0, info := if o.kind = 6 then q.w6 % 2 ^ 64 else if o.kind = 7 then q.w6 % 2 ^ 64 + q.w7 % 2 ^ 64 * 2 ^ 64 else 0 }).rest e)) ∧
  (∀ (e : Fin 32) (q : Packet) (slot : Nat) (o : Op) (s : State), (s.response e q 0x41).2 = some (slot, o) → o.held = none → pAttempt q = o.attempt → (o.kind = 1 ∨ o.kind = 2 ∨ o.kind = 4 ∧ o.rdv = false) → ((s.response e q 0x41).1.gather e o.dest (pPkts q) (pMarks q)).holeOpen e o = true → exec (.sackRx e q) s =
     .next ((((((s.response e q 0x41).1.gather e o.dest (pPkts q) (pMarks q)).modOp e slot fun x => { x with timer := some ((s.response e q 0x41).1.gather e o.dest (pPkts q) (pMarks q)).now }).queueSegs e slot
       (((s.response e q 0x41).1.gather e o.dest (pPkts q) (pMarks q)).unasked e slot o ((pieces 0 o.total 2).filter fun g => (sackRanges q).any fun r => decide (r.1 ≤ g.poff ∧ g.poff < r.1 + r.2)))).pump e slot).rest e)) ∧
  (∀ (e : Fin 32) (q : Packet) (slot : Nat) (o : Op) (s : State), (s.response e q 0x42).2 = some (slot, o) → o.held = none → pAttempt q = o.attempt → (((s.response e q 0x42).1.count 21 e 0x44).modOp e slot fun x => { x with busyN := o.busyN + 1 }).get F.RMA_BUSY_MAX_TRIES e ≤ o.busyN + 1 → exec (.nackBusyRx e q) s =
     .next (((((s.response e q 0x42).1.count 21 e 0x44).modOp e slot fun x => { x with busyN := o.busyN + 1 }).exhaust e slot).rest e)) ∧
  (∀ (e : Fin 32) (q : Packet) (slot : Nat) (o : Op) (s : State), (s.response e q 0x42).2 = some (slot, o) → o.held = none → pAttempt q = o.attempt → o.busyN + 1 < (((s.response e q 0x42).1.count 21 e 0x44).modOp e slot fun x => { x with busyN := o.busyN + 1 }).get F.RMA_BUSY_MAX_TRIES e → exec (.nackBusyRx e q) s =
     .next (((((s.response e q 0x42).1.count 21 e 0x44).modOp e slot fun x => { x with busyN := o.busyN + 1 }).drawn.modOp e slot fun x => { x with backoff := x.backoff ++ [(pNackPoff q, (((s.response e q 0x42).1.count 21 e 0x44).modOp e slot fun x => { x with busyN := o.busyN + 1 }).now + (((s.response e q 0x42).1.count 21 e 0x44).modOp e slot fun x => { x with busyN := o.busyN + 1 }).busyWait e (o.busyN + 1) o)] }).rest e)) ∧
  (∀ (e : Fin 32) (q : Packet) (slot : Nat) (o : Op) (s : State), (s.response e q 0x43).2 = some (slot, o) → o.held = none → pAttempt q = o.attempt → exec (.nackAccessRx e q) s =
     .next (((s.response e q 0x43).1.endOp e slot { status := 1, detail := pCode q, addr := dw o.desc 2 + pNackPoff q }).rest e)) ∧
  (∀ (e : Fin 32) (q : Packet) (slot : Nat) (o : Op) (s : State), (s.response e q 0x44).2 = some (slot, o) → o.held = none → (o.kind = 3 ∨ o.kind = 0x109) → pAttempt q = o.attempt → o.segs.any (fun g => decide (g.poff ≤ pPoff q ∧ pPoff q < g.poff + g.len) && !g.got.contains (pPoff q)) = true → exec (.getDataRx e q) s =
     .next ((((((s.response e q 0x44).1.gather e o.dest 1 (b2n q.ce)).modOp e slot fun o => { o with segs := updWhere (fun g => decide (g.poff ≤ pPoff q ∧ pPoff q < g.poff + g.len)) (fun g => { g with got := g.got ++ [pPoff q], last := (s.response e q 0x44).1.now }) o.segs, timer := some (s.response e q 0x44).1.now }).addJob e (.getData slot o.gen q))).rest e)) ∧
  (∀ (e : Fin 32) (q : Packet) (slot : Nat) (o : Op) (s : State), (s.response e q 0x44).2 = some (slot, o) → o.held = none → (o.kind = 3 ∨ o.kind = 0x109) → pAttempt q ≠ o.attempt → exec (.getDataRx e q) s =
     .next (((s.response e q 0x44).1.stale e).rest e))

/-- Timers and caches (R342 to R379). -/
def Obligations.RmaTimerCommands : Prop :=
  (∀ (e : Fin 32) (slot : Fin 2048) (poff : Nat) (o : Op) (s : State), s.op e slot = some o → o.backoff.any (fun b => b.1 == poff && decide (b.2 ≤ s.now)) = true → exec (.busyBackoffExpiry e slot poff) s =
     .next (let u := s.modOp e slot fun o => { o with backoff := o.backoff.filter fun b => !(b.1 == poff && decide (b.2 ≤ s.now)) }
       let x := (u.op e slot).getD o
       ((u.queueSegs e slot (u.unasked e slot x (x.pieceAt poff))).pump e slot).rest e)) ∧
  (∀ (e : Fin 32) (src opid : Nat) (t : Tracker) (s : State), s.tracker e src opid = some t → exec (.holeTimeout e false src opid) s =
     .next ((s.trackerTimeout e t).rest e)) ∧
  (∀ (e : Fin 32) (src opid : Nat) (o : Op) (s : State), s.opGen e (opid % 2048) (opid / 2048) = some o → (o.kind = 3 ∨ o.kind = 0x109) → exec (.holeTimeout e true src opid) s =
     .next ((s.getTimeout e (opid % 2048) o).rest e)) ∧
  (∀ (e : Fin 32) (slot : Fin 2048) (o : Op) (t : Nat) (s : State), s.op e slot = some o → o.timer = some t → o.held = none → s.past t (s.tR e o.dest o.tu) = true → o.tries < s.get F.RMA_RTX_MAX_RETRY e + b2n o.probe → exec (.retryTimeout e slot) s =
     .next ((s.newAttempt e slot).rest e)) ∧
  (∀ (e : Fin 32) (slot : Fin 2048) (o : Op) (t : Nat) (s : State), s.op e slot = some o → o.timer = some t → o.held = none → s.past t (s.tR e o.dest o.tu) = true → s.get F.RMA_RTX_MAX_RETRY e + b2n o.probe ≤ o.tries → exec (.retryTimeout e slot) s =
     .next ((s.exhaust e slot).rest e)) ∧
  (∀ (e : Fin 32) (slot : Fin 2048) (o : Op) (x : Ending) (s : State), s.op e slot = some o → o.held = some x → s.holdOver e slot o = true → exec (.completionHoldEnd e slot) s =
     .next ((s.conclude e slot o x).rest e)) ∧
  (∀ (u : Fin 8) (src opid : Nat) (d : Dup) (s : State), s.dupFind u src opid = some d → d.expiry ≤ s.now → d.done = true → exec (.dupExpiry u src opid) s =
     .next ((s.modUnit u fun x => { x with dup := x.dup.erase d }).each ((List.range 4).map (4 * u.val + ·)) fun s e => (s.pullsWaiting e).rest e)) ∧
  (∀ (e : Fin 32) (v : Nat) (hit : Nat → Nat → Bool) (s : State), bit v 48 = true → hit = (fun a b => if bits v 40 2 = 0 then a == bits v 0 20 && b == bits v 20 20 else if bits v 40 2 = 1 then a == bits v 0 20 else bits v 40 2 == 2) → exec (.regInval e v) s =
     .next ((((((s.set F.RMA_REG_INVAL_CTX (bits v 0 20) e).set F.RMA_REG_INVAL_REGION (bits v 20 20) e).set F.RMA_REG_INVAL_SCOPE (bits v 40 2) e).modEng e fun x => { x with regions := x.regions.filter fun y => !hit y.ctx y.reg }).rereadRegions e hit).rest e)) ∧
  (∀ (e : Fin 32) (v : Nat) (s : State), bit v 48 = true → exec (.acacheFlush e v) s =
     .next (((s.set F.RMA_ACACHE_CTX (bits v 0 20) e).set F.RMA_ACACHE_ALL (bits v 20 1) e).writeBackLines e fun l => bit v 20 || l.users.any (·.1 == bits v 0 20))) ∧
  (∀ (e : Fin 32) (s : State), s.past (Tab.get s.clk.base s.marks (markRate e)) (64 * s.get F.RMA_CC_INC_PERIOD e) = true → exec (.rateIncrease e) s =
     .next (State.modEng { s with marks := s.marks.insert (markRate e) (s.clk.base + (s.now - s.clk.base) / ns 64 * ns 64) } e fun y => { y with cc := (y.cc.map fun x => if x.dec then { x with dec := false } else { x with rate := min (s.get F.RMA_CC_RATE_LINE e) (x.rate + s.get F.RMA_CC_RATE_STEP e) }).filter fun x => x.rate < s.get F.RMA_CC_RATE_LINE e })) ∧
  (∀ (e : Fin 32) (dest : Nat) (s : State), s.decOpen e (s.gathered e dest) = true → exec (.decGapExpiry e dest) s =
     .next (s.decrease e dest (s.gathered e dest)))

/-- Matching and ordered streams (R392 to R411). -/
def Obligations.MatchingCommands : Prop :=
  (∀ (e : Fin 32) (c : Nat) (q : Fin 8) (b : Begun) (k : Ctx) (s : State), s.recvEntry e c q 0 = some b → s.ctx e c = some k → s.postWaits e k b.desc = false → exec (.recvPost e c q) s =
     .next (((s.dropBegun e b).post0 e k q b.idx b.desc).rest e)) ∧
  (∀ (e : Fin 32) (c : Nat) (q : Fin 8) (b : Begun) (k : Ctx) (s : State), s.recvEntry e c q 1 = some b → s.ctx e c = some k → exec (.recvClaim e c q) s =
     .next ((((s.dropBegun e b).endEntry e c q b.idx b.desc { status := 0 }).claim1 e k q b.idx b.desc).rest e)) ∧
  (∀ (e : Fin 32) (c : Nat) (q : Fin 8) (b : Begun) (s : State), s.recvEntry e c q 2 = some b → exec (.recvResume e c q) s =
     .next ((((s.dropBegun e b).endEntry e c q b.idx b.desc { status := 0 }).modCtx e c fun k => { k with ovf := false }).rest e)) ∧
  (∀ (e : Fin 32) (q : Packet) (k : Ctx) (s : State), (s.arrived e q 0 [4]).2 = true → (s.arrived e q 0 [4]).1.ctx e (pTctx q) = some k → exec (.sendPacketRx e q) s =
     .next (((s.arrived e q 0 [4]).1.sendRx e k q).rest e)) ∧
  (∀ (e : Fin 32) (q : Packet) (k : Ctx) (s : State), (s.arrived e q 0 [8]).2 = true → (s.arrived e q 0 [8]).1.ctx e (pTctx q) = some k → exec (.rtsRx e q) s =
     .next (((s.arrived e q 0 [8]).1.sendRx e k q).rest e)) ∧
  (∀ (e : Fin 32) (q : Packet) (s : State), (s.arrived e q 0 [9]).2 = true → exec (.rdvGetRx e q) s =
     .next (((s.arrived e q 0 [9]).1.addJob e (.rdv q)).rest e)) ∧
  (∀ (e : Fin 32) (q : Packet) (slot : Nat) (o : Op) (s : State), (s.response e q 0x45).2 = some (slot, o) → o.held = none → o.kind = 4 → exec (.rdvAcceptRx e q) s =
     .next (((s.response e q 0x45).1.modOp e slot fun o => { o with rdv := true, probe := true, tries := 0, unsent := [], buf := none, backoff := [] }).rest e)) ∧
  (∀ (e : Fin 32) (src sctx sq tctx : Nat) (m : Msg) (t : RxStream) (k : Known) (s : State), m = ⟨tctx, src, sctx, 0, 0, 0, 0, false, false⟩ → (s.eng e).rx.find? (fun t => t.is m sq) = some t → (s.heldOf e m sq).any (fun k => s.past k.at_ (s.tWindow e t.tu)) = true → lowestFrom t.expect (s.heldOf e m sq) = some k → exec (.gapWindowExpiry e src sctx sq tctx) s =
     .next ((((((s.inc F.MAT_CNT_C_GAP_SKIP e).raise E.MAT_GAP_SKIP e).count 22 e 0x46).modRx e m sq fun t => { t with expect := k.sseq }).releaseRun e m sq true ((s.heldOf e m sq).length + 1)).rest e)) ∧
  (∀ (e : Fin 32) (c : Nat) (q : Fin 8) (dest tctx : Nat) (s : State), exec (.streamEntryExpiry e c q dest tctx) s =
     .next (s.modEng e fun x => { x with tx := x.tx.filter fun t =>
                 !(t.ctx == c && t.q == q.val && t.dest == dest && t.tctx == tctx && t.inflight.isEmpty && s.past t.last (s.tWindow e false)) }))

/-- Collectives (R431 to R461). -/
def Obligations.CollectiveCommands : Prop :=
  (∀ (u : Fin 8) (g : Fin 4096) (seq : Nat) (s : State), (s.setColCmd u 1 g seq).setupErr u g = 0 → exec (.setup u g seq) s =
     .next (((s.setColCmd u 1 g seq).setupGroup u g (seq % 2 ^ 16)).colErr u 0)) ∧
  (∀ (u : Fin 8) (g : Fin 4096) (seq : Nat) (s : State), (s.setColCmd u 1 g seq).setupErr u g ≠ 0 → exec (.setup u g seq) s =
     .next ((s.setColCmd u 1 g seq).colErr u ((s.setColCmd u 1 g seq).setupErr u g))) ∧
  (∀ (u : Fin 8) (g : Fin 4096) (s : State), (s.setColCmd u 2 g (s.get F.COL_CMD_SEQ u)).releaseErr u g = 0 → exec (.release u g) s =
     .next (((s.setColCmd u 2 g (s.get F.COL_CMD_SEQ u)).releaseGroup u g).colErr u 0)) ∧
  (∀ (u : Fin 8) (g : Fin 4096) (s : State), (s.setColCmd u 2 g (s.get F.COL_CMD_SEQ u)).releaseErr u g ≠ 0 → exec (.release u g) s =
     .next ((s.setColCmd u 2 g (s.get F.COL_CMD_SEQ u)).colErr u ((s.setColCmd u 2 g (s.get F.COL_CMD_SEQ u)).releaseErr u g))) ∧
  (∀ (u : Fin 8) (g : Fin 4096) (seq : Nat) (s : State), (s.setColCmd u 3 g seq).releaseErr u g = 0 → exec (.reset u g seq) s =
     .next ((((s.setColCmd u 3 g seq).releaseGroup u g).setupGroup u g (seq % 2 ^ 16)).colErr u 0)) ∧
  (∀ (u : Fin 8) (g : Fin 4096) (seq : Nat) (s : State), (s.setColCmd u 3 g seq).releaseErr u g ≠ 0 → exec (.reset u g seq) s =
     .next ((s.setColCmd u 3 g seq).colErr u ((s.setColCmd u 3 g seq).releaseErr u g))) ∧
  (∀ (e : Fin 32) (c : Nat) (q : Fin 8) (b : Begun) (s : State), s.begunEntry e c q 0x0C = some b → (s.dropBegun e b).collRefused e c b.desc = false → exec (.coll e c q) s =
     .next ((((s.dropBegun e b).modEng e fun x => { x with colls := x.colls ++ [(s.dropBegun e b).newColl b] }).collPump e c q b.idx).rest e)) ∧
  (∀ (e : Fin 32) (c : Nat) (q : Fin 8) (b : Begun) (s : State), s.begunEntry e c q 0x0C = some b → (s.dropBegun e b).collRefused e c b.desc = true → exec (.coll e c q) s =
     .next (((s.dropBegun e b).endEntry e c q b.idx b.desc { status := 1, peer := dDest b.desc }).rest e)) ∧
  (∀ (u : Fin 8) (q : Packet) (s : State), s.colHanded (4 * u.val) q 0x10 = true → (s.unhand (4 * u.val) q).unitOut u = false → exec (.contribRx u q) s =
     .next ((s.unhand (4 * u.val) q).contrib u (s.handedPort (4 * u.val) q) q)) ∧
  (∀ (u : Fin 8) (q : Packet) (s : State), s.colHanded (4 * u.val) q 0x13 = true → (s.unhand (4 * u.val) q).unitOut u = false → exec (.fencedRx u q) s =
     .next ((s.unhand (4 * u.val) q).fencedRx u q)) ∧
  (∀ (e : Fin 32) (q : Packet) (s : State), s.colHanded e q 0x11 = true → e.val % 4 = 0 → (s.unhand e q).unitOut (unitOf e) = false → exec (.resultRx e q) s =
     .next (((((s.unhand e q).count 17 (unitOf e) 0x43).resultAtUnit (unitOf e) q).resultAtEngine e q).rest e)) ∧
  (∀ (e : Fin 32) (q : Packet) (s : State), s.colHanded e q 0x11 = true → e.val % 4 ≠ 0 → exec (.resultRx e q) s =
     .next (((s.unhand e q).resultAtEngine e q).rest e)) ∧
  (∀ (e : Fin 32) (q : Packet) (s : State), s.colHanded e q 0x12 = true → e.val % 4 = 0 → (s.unhand e q).unitOut (unitOf e) = false → exec (.reissueRx e q) s =
     .next ((((s.unhand e q).reissueAtUnit (unitOf e) q).reissueAtEngine e q).rest e)) ∧
  (∀ (e : Fin 32) (q : Packet) (s : State), s.colHanded e q 0x12 = true → e.val % 4 ≠ 0 → exec (.reissueRx e q) s =
     .next (((s.unhand e q).reissueAtEngine e q).rest e)) ∧
  (∀ (u : Fin 8) (v g m out : Nat) (l : List (Nat × Nat × Nat × Nat)) (s : State), takeFirst (fun n => n.1 == u.val) s.core.prunes = some ((v, g, m, out), l) → s.unitOut u = false → exec (.pruneNotice u) s =
     .next (State.pruned { s with core := { s.core with prunes := l } } u g m out)) ∧
  (∀ (u : Fin 8) (g : Fin 4096) (x : Sequence) (s : State), s.seqOf u g = some x → s.unitOut u = false → s.gRoot g = true → s.past x.timer (64 * s.get F.COL_CTL_TIMEOUT u) = true → exec (.colTimeout u g) s =
     .next (s.seqTimeout u g x)) ∧
  (∀ (e : Fin 32) (c : Nat) (q : Fin 8) (x : Coll) (s : State), (s.collsOf e c q).find? (fun x => s.past x.last (64 * s.get F.COL_CTL_TIMEOUT (s.gUnit x.g) * (s.get F.COL_CTL_RETRY (s.gUnit x.g) + 2))) = some x → exec (.collWaitTimeout e c q) s =
     .next ((s.collEnd e x 2 0 0).rest e))

/-- Invalidation of translations (R513 to R515). -/
def Obligations.TranslationCommands : Prop :=
  (∀ (e : Fin 32) (c : Nat) (q : Fin 8) (b : Begun) (k : Ctx) (scope : Nat) (mine : Nat → Nat → Bool) (s : State), s.begunEntry e c q 0x10 = some b → s.ctx e c = some k → scope = bits (dw b.desc 1) 20 2 → mine = (fun f x => (match s.ctx f x with
         | some y => y.port == k.port && y.func == k.func
         | none => false) && (scope == 2 || (scope != 3 && x == bits (dw b.desc 1) 0 20))) → exec (.xltInval e c q) s =
     .next (let u := (s.dropBegun e b).each ((List.range 8).map (8 * dieOfEng e + ·)) fun s f =>
         s.invalidate f (mine f) (invalRange scope (dw b.desc 3) (dLen b.desc)) (bit (dw b.desc 1) 22)
       (u.modEng e fun x => { x with invals := x.invals ++ [⟨some (c, q, b.idx, b.desc), ((List.range 8).map (8 * dieOfEng e + ·)).flatMap fun f => s.walksIn f (mine f),
         ((List.range 8).map (8 * dieOfEng e + ·)).flatMap fun f => u.heldIn f (mine f)⟩] }).rest e)) ∧
  (∀ (e : Fin 32) (v : Nat) (p : Nat → Bool) (s : State), s.invalBusy e = false → bit v 48 = true → p = (fun x => bits v 20 2 == 2 || (bits v 20 2 != 3 && x == bits v 0 20)) → exec (.xltInvalCmd e v) s =
     .next (let u := (((s.set F.XLT_INVAL_CTX (bits v 0 20) e).set F.XLT_INVAL_SCOPE (bits v 20 2) e).set F.XLT_INVAL_REG (bits v 22 1) e).invalidate e p (invalRange (bits v 20 2) ((((s.set F.XLT_INVAL_CTX (bits v 0 20) e).set F.XLT_INVAL_SCOPE (bits v 20 2) e).set F.XLT_INVAL_REG (bits v 22 1) e).get F.XLT_INVAL_ADDR_VA e * 4096) ((((s.set F.XLT_INVAL_CTX (bits v 0 20) e).set F.XLT_INVAL_SCOPE (bits v 20 2) e).set F.XLT_INVAL_REG (bits v 22 1) e).get F.XLT_INVAL_LEN_LEN e)) (bit v 22)
       (u.modEng e fun x => { x with invals := x.invals ++ [⟨none, (((s.set F.XLT_INVAL_CTX (bits v 0 20) e).set F.XLT_INVAL_SCOPE (bits v 20 2) e).set F.XLT_INVAL_REG (bits v 22 1) e).walksIn e p, u.heldIn e p⟩] }).rest e)) ∧
  (∀ (e : Fin 32) (i : Inval) (l : List Inval) (s : State), takeFirst s.invalOver (s.eng e).invals = some (i, l) → i.entry = none → exec (.invalComplete e) s =
     .next (((s.modEng e fun x => { x with invals := l }).count 23 e 0x47).raise E.XLT_INVAL_DONE e)) ∧
  (∀ (e : Fin 32) (i : Inval) (l : List Inval) (c q idx : Nat) (d : Desc) (s : State), takeFirst s.invalOver (s.eng e).invals = some (i, l) → i.entry = some (c, q, idx, d) → exec (.invalComplete e) s =
     .next ((((s.modEng e fun x => { x with invals := l }).count 23 e 0x47).endEntry e c q idx d { status := 0 }).rest e))

/-- Locks and boosts (R529 to R546). -/
def Obligations.LockUnitCommands : Prop :=
  (∀ (e : Fin 32) (q : Packet) (s : State), (s.lockArrived e q 0x28).2 = true → exec (.lockAcqRx e q) s =
     .next ((s.lockArrived e q 0x28).1.lockAcq (unitOf e) q)) ∧
  (∀ (e : Fin 32) (q : Packet) (s : State), (s.lockArrived e q 0x29).2 = true → exec (.lockRelRx e q) s =
     .next ((s.lockArrived e q 0x29).1.lockRel (unitOf e) q)) ∧
  (∀ (e : Fin 32) (q : Packet) (s : State), (s.lockArrived e q 0x2A).2 = true → exec (.lockRenewRx e q) s =
     .next ((s.lockArrived e q 0x2A).1.lockRenew (unitOf e) q)) ∧
  (∀ (e : Fin 32) (q : Packet) (slot : Nat) (o : Op) (s : State), (s.response e q 0x46).2 = some (slot, o) → o.held = none → 9 ≤ o.kind → o.kind ≤ 11 → bits q.w5 0 8 = 3 → exec (.lockRspRx e q) s =
     .next (((s.response e q 0x46).1.modOp e slot fun o => { o with probe := true, tries := 0 }).rest e)) ∧
  (∀ (e : Fin 32) (q : Packet) (slot : Nat) (o : Op) (s : State), (s.response e q 0x46).2 = some (slot, o) → o.held = none → 9 ≤ o.kind → o.kind ≤ 11 → bits q.w5 0 8 ≠ 3 → exec (.lockRspRx e q) s =
     .next (((s.response e q 0x46).1.endOp e slot { status := lstatStatus (bits q.w5 0 8), info := if bits q.w5 0 8 ≤ 2 ∨ bits q.w5 0 8 = 6 then q.w6 % 2 ^ 64 else 0 }).rest e)) ∧
  (∀ (u : Fin 8) (l : Fin 8192) (s : State), s.leaseOver u l = true → s.savedInTime u l = false → exec (.leaseExpiry u l) s =
     .next ((((s.inc F.LCK_CNT_A_LAPSES u).raise E.LCK_LAPSE u).count 24 u 0x42).pass u l 1)) ∧
  (∀ (u : Fin 8) (src opid : Nat) (w : Waiter) (s : State), (s.cunit u).waiters.find? (fun w => w.src == src && w.opid == opid) = some w → s.waiterGone u w = true → exec (.waiterExpiry u src opid) s =
     .next (((((s.inc F.LCK_CNT_C_DROPPED u).raise E.LCK_WAITER_DROP u).count 24 u 0x45).setWaiters u w.lock
         (((((s.inc F.LCK_CNT_C_DROPPED u).raise E.LCK_WAITER_DROP u).count 24 u 0x45).cunit u).waiters.erase w)).boost u w.lock)) ∧
  (∀ (u : Fin 8) (l : Fin 8192) (s : State), s.lBoosted u l = true → s.past (Tab.get ⟨0, 0, 0, false⟩ (s.cunit u).holders l).boostAt (64 * s.get F.LCK_TIME_BOOST_REFRESH u) = true → exec (.boostRefresh u l) s =
     .next ((s.modUnit u fun x => { x with holders := Tab.modify ⟨0, 0, 0, false⟩ x.holders l fun h => { h with boostAt := s.now } }).sendBoost u l ((s.modUnit u fun x => { x with holders := Tab.modify ⟨0, 0, 0, false⟩ x.holders l fun h => { h with boostAt := s.now } }).lBoost u l) true)) ∧
  (∀ (e : Fin 32) (q : Packet) (s : State), s.handed e q = true → q.cls = 0 → pKind q = 0x2B → (s.unhand e q).tooOld q = false → exec (.boostRx e q) s =
     .next ((s.unhand e q).boostRx e q)) ∧
  (∀ (e : Fin 32) (s : State), exec (.boostExpiry e) s =
     .next (s.modEng e fun x => { x with boosts := x.boosts.filter fun b => s.now < b.expiry }))

/-- Host links and requests (R553 to R585). -/
def Obligations.HostLinkCommands : Prop :=
  (∀ (h : Fin 64) (gen width : Nat) (s : State), (s.hport h).formed = true → (s.hport h).perst = false → (s.hport h).fenced = false → 2 ≤ s.boot.stage → s.linkUp h = false → s.get F.PWR_STAT_RUNG = 0 → exec (.hostLinkUp h gen width) s =
     .next (let u := ((((s.set F.HPT_STAT_PM 0 h).set F.HPT_STAT_UP 1 h).set F.HPT_STAT_GEN (min (max 1 gen) (s.get F.HPT_CTL_MAX_GEN h)) h).set F.HPT_STAT_WIDTH (2 ^ (min width (s.hport h).width).log2) h)
       ((u.modHport h fun x => { x with idleFrom := u.now }).raise E.HPT_LINK_UP h).raiseIf (decide ((min (max 1 gen) (s.get F.HPT_CTL_MAX_GEN h)) < s.get F.HPT_CTL_MAX_GEN h ∨ (2 ^ (min width (s.hport h).width).log2) < (s.hport h).width)) E.HPT_DEGRADED h)) ∧
  (∀ (h : Fin 64) (gen width : Nat) (s : State), (s.hport h).formed = true → (s.hport h).perst = false → (s.hport h).fenced = false → 2 ≤ s.boot.stage → s.linkUp h = true → s.get F.PWR_STAT_RUNG = 0 → (s.get F.HPT_STAT_GEN h ≠ (min (max 1 gen) (s.get F.HPT_CTL_MAX_GEN h)) ∨ s.get F.HPT_STAT_WIDTH h ≠ (2 ^ (min width (s.hport h).width).log2)) → exec (.hostLinkUp h gen width) s =
     .next (let u := ((((if s.get F.HPT_STAT_PM h = 0 then s.inc F.HPT_CNT_A_RECOVERY h else s.exitL1 h).set F.HPT_STAT_UP 1 h).set F.HPT_STAT_GEN (min (max 1 gen) (s.get F.HPT_CTL_MAX_GEN h)) h).set F.HPT_STAT_WIDTH (2 ^ (min width (s.hport h).width).log2) h)
       (u.modHport h fun x => { x with idleFrom := u.now }).raiseIf (decide ((min (max 1 gen) (s.get F.HPT_CTL_MAX_GEN h)) < s.get F.HPT_CTL_MAX_GEN h ∨ (2 ^ (min width (s.hport h).width).log2) < (s.hport h).width)) E.HPT_DEGRADED h)) ∧
  (∀ (h : Fin 64) (s : State), s.linkUp h = true → exec (.hostLinkDown h) s =
     .next ((((((((s.set F.HPT_STAT_UP 0 h).set F.HPT_STAT_GEN 0 h).set F.HPT_STAT_WIDTH 0 h).set F.HPT_STAT_PM 0 h).timeOutAll h).each (((((s.set F.HPT_STAT_UP 0 h).set F.HPT_STAT_GEN 0 h).set F.HPT_STAT_WIDTH 0 h).set F.HPT_STAT_PM 0 h).timeOutAll h |>.funcsOf h) fun s f => s.clearFn h f).raise E.HPT_LINK_DOWN h).settleAll)) ∧
  (∀ (p : Fin 16) (s : State), exec (.perstAssert p) s =
     .next ((s.each ((List.range 4).map (4 * p.val + ·)) fun s h =>
         if (s.hport h).perst then s
         else if ((((s.hostLinkDown h).each ((s.hostLinkDown h).funcsOf h) fun s f => s.clearFn h f).modHport h fun x => { x with perst := true }).hport h).formed
           then (((s.hostLinkDown h).each ((s.hostLinkDown h).funcsOf h) fun s f => s.clearFn h f).modHport h fun x => { x with perst := true }).raise E.HPT_PERST h
           else ((s.hostLinkDown h).each ((s.hostLinkDown h).funcsOf h) fun s f => s.clearFn h f).modHport h fun x => { x with perst := true }))) ∧
  (∀ (p : Fin 16) (s : State), (s.hport (4 * p.val)).perst = true → 2 ≤ (s.each ((List.range 4).map (4 * p.val + ·)) fun s h => s.modHport h fun x => { x with perst := false, wake := false }).boot.stage → exec (.perstDeassert p) s =
     .next ((s.each ((List.range 4).map (4 * p.val + ·)) fun s h => s.modHport h fun x => { x with perst := false, wake := false }).formPort p)) ∧
  (∀ (h : Fin 64) (s : State), s.linkUp h = true → bit (s.fn h 0).l1 0 = true → s.get F.HPT_STAT_PM h = 0 → s.parked.any (·.1 == h.val) = false → s.npOut h = 0 → s.over (s.hport h).idleFrom (1000 * s.get F.HPT_CTL_L1_IDLE h) 1000 = true → bit (s.fn h 0).l1 2 = true → exec (.l1Entry h) s =
     .next ((s.emitMsg h (.ltr h (s.get F.HPT_CTL_LTR_NS h))).set F.HPT_STAT_PM 3 h)) ∧
  (∀ (h : Fin 64) (s : State), s.linkUp h = true → bit (s.fn h 0).l1 0 = true → s.get F.HPT_STAT_PM h = 0 → s.parked.any (·.1 == h.val) = false → s.npOut h = 0 → s.over (s.hport h).idleFrom (1000 * s.get F.HPT_CTL_L1_IDLE h) 1000 = true → bit (s.fn h 0).l1 2 = false → bit (s.fn h 0).l1 1 = true → exec (.l1Entry h) s =
     .next (s.set F.HPT_STAT_PM 2 h)) ∧
  (∀ (h : Fin 64) (s : State), s.linkUp h = true → bit (s.fn h 0).l1 0 = true → s.get F.HPT_STAT_PM h = 0 → s.parked.any (·.1 == h.val) = false → s.npOut h = 0 → s.over (s.hport h).idleFrom (1000 * s.get F.HPT_CTL_L1_IDLE h) 1000 = true → bit (s.fn h 0).l1 2 = false → bit (s.fn h 0).l1 1 = false → exec (.l1Entry h) s =
     .next (s.set F.HPT_STAT_PM 1 h)) ∧
  (∀ (h : Fin 64) (s : State), s.get F.HPT_STAT_PM h ≠ 0 → exec (.l1Exit h) s =
     .next (((((s.set F.HPT_STAT_PM 0 h).inc F.HPT_CNT_A_RECOVERY h).modHport h fun x => { x with idleFrom := s.now }).sendHeld h true).settleAll)) ∧
  (∀ (tag : Nat) (r : HostReq) (s : State), s.reqOf tag = some r → r.closed = false → r.ended = false → s.waitsBme r = false → s.passed r.since (1000 * ctoMicros (s.fn r.port r.func).cto) = true → exec (.completionTimeout tag) s =
     .next (((State.hostReturn (State.cplTimeout { s with parked := s.parked.filter fun x => x.2.2.tagOf != some tag, reqs := updWhere (·.tag == tag) (fun r => { r with closed := true }) s.reqs } r.port r.func) r false []).rest r.eng).sendHeld r.port)) ∧
  (∀ (tag : Nat) (r : HostReq) (s : State), s.reqOf tag = some r → r.why.fabric = true → r.ended = false → r.closed = false → s.waitsBme r = false → 64 * s.get F.HPT_CTL_FAB_TO r.port < 1000 * ctoMicros (s.fn r.port r.func).cto → s.over r.since (64 * s.get F.HPT_CTL_FAB_TO r.port) 64 = true → exec (.fabTimeout tag) s =
     .next ((State.hostReturn ((State.inc { s with reqs := updWhere (·.tag == tag) (fun r => { r with ended := true }) s.reqs } F.HPT_CNT_C_FAB_TO r.port).raise E.HPT_FAB_TIMEOUT r.port) r false []).rest r.eng)) ∧
  (∀ (h : Fin 64) (s : State), s.capturePending (pageNo 27 h) = false → exec (.winCommit h) s =
     .next ((s.disarm (pageNo 27 h)).capture (pageNo 27 h))) ∧
  (∀ (h : Fin 64) (s : State), s.capturePending (pageNo 27 h) = true → exec (.winCommitInForce h) s =
     .next ((((s.applyCapture (pageNo 27 h)).set F.WIN_COMMIT_COUNT (((s.applyCapture (pageNo 27 h)).get F.WIN_COMMIT_COUNT h + 1) % 2 ^ 16) h).raise E.WIN_COMMIT_DONE h).count 27 h 0x42)) ∧
  (∀ (h : Fin 64) (f : Fin 264) (q : Tlp) (s : State), s.linkUp h = true → s.get F.HPT_STAT_PM h = 0 → exec (.inboundRequest h f q true) s =
     .next (((((s.modHport h fun x => { x with idleFrom := s.now }).count 26 h 0x43).count 26 h 0x45 (divUp q.bytes 64)).raise E.HPT_POISON_RX h).aer h f 12)) ∧
  (∀ (h : Fin 64) (f : Fin 264) (q : Tlp) (s : State), s.linkUp h = true → s.get F.HPT_STAT_PM h = 0 → (((s.modHport h fun x => { x with idleFrom := s.now }).count 26 h 0x43).count 26 h 0x45 (divUp q.bytes 64)).answers h f = false → exec (.inboundRequest h f q false) s =
     .next ((((s.modHport h fun x => { x with idleFrom := s.now }).count 26 h 0x43).count 26 h 0x45 (divUp q.bytes 64)).unsupported h f q.posted)) ∧
  (∀ (h : Fin 64) (f : Fin 264) (q : Tlp) (s : State), s.linkUp h = true → s.get F.HPT_STAT_PM h = 0 → (((s.modHport h fun x => { x with idleFrom := s.now }).count 26 h 0x43).count 26 h 0x45 (divUp q.bytes 64)).answers h f = true → (q.isCfg = true ∧ (((((s.modHport h fun x => { x with idleFrom := s.now }).count 26 h 0x43).count 26 h 0x45 (divUp q.bytes 64)).fn h f).flrAt.isSome = true ∨ (((s.modHport h fun x => { x with idleFrom := s.now }).count 26 h 0x43).count 26 h 0x45 (divUp q.bytes 64)).boot.stage < 3)) → exec (.inboundRequest h f q false) s =
     .next ((((s.modHport h fun x => { x with idleFrom := s.now }).count 26 h 0x43).count 26 h 0x45 (divUp q.bytes 64)).emit (.retryStatus h f))) ∧
  (∀ (h : Fin 64) (f : Fin 264) (q : Tlp) (s : State), s.linkUp h = true → s.get F.HPT_STAT_PM h = 0 → (((s.modHport h fun x => { x with idleFrom := s.now }).count 26 h 0x43).count 26 h 0x45 (divUp q.bytes 64)).answers h f = true → q.isCfg = false → ((((s.modHport h fun x => { x with idleFrom := s.now }).count 26 h 0x43).count 26 h 0x45 (divUp q.bytes 64)).fn h f).flrAt.isSome = true → exec (.inboundRequest h f q false) s =
     .next ((((s.modHport h fun x => { x with idleFrom := s.now }).count 26 h 0x43).count 26 h 0x45 (divUp q.bytes 64)).unsupported h f q.posted)) ∧
  (∀ (h : Fin 64) (f : Fin 264) (q : Tlp) (s : State), s.linkUp h = true → s.get F.HPT_STAT_PM h = 0 → (((s.modHport h fun x => { x with idleFrom := s.now }).count 26 h 0x43).count 26 h 0x45 (divUp q.bytes 64)).answers h f = true → ((((s.modHport h fun x => { x with idleFrom := s.now }).count 26 h 0x43).count 26 h 0x45 (divUp q.bytes 64)).fn h f).flrAt.isSome = false → (3 ≤ (((s.modHport h fun x => { x with idleFrom := s.now }).count 26 h 0x43).count 26 h 0x45 (divUp q.bytes 64)).boot.stage ∨ q.isCfg = false) → exec (.inboundRequest h f q false) s =
     .next ((((s.modHport h fun x => { x with idleFrom := s.now }).count 26 h 0x43).count 26 h 0x45 (divUp q.bytes 64)).serveTlp h f q)) ∧
  (∀ (h : Fin 64) (f : Fin 264) (q : Tlp) (s : State), s.linkUp h = true → s.get F.HPT_STAT_PM h ≠ 0 → exec (.inboundRequest h f q true) s =
     .next ((((((s.exitL1 h).modHport h fun x => { x with idleFrom := s.now }).count 26 h 0x43).count 26 h 0x45 (divUp q.bytes 64)).raise E.HPT_POISON_RX h).aer h f 12)) ∧
  (∀ (h : Fin 64) (f : Fin 264) (q : Tlp) (s : State), s.linkUp h = true → s.get F.HPT_STAT_PM h ≠ 0 → ((((s.exitL1 h).modHport h fun x => { x with idleFrom := s.now }).count 26 h 0x43).count 26 h 0x45 (divUp q.bytes 64)).answers h f = false → exec (.inboundRequest h f q false) s =
     .next (((((s.exitL1 h).modHport h fun x => { x with idleFrom := s.now }).count 26 h 0x43).count 26 h 0x45 (divUp q.bytes 64)).unsupported h f q.posted)) ∧
  (∀ (h : Fin 64) (f : Fin 264) (q : Tlp) (s : State), s.linkUp h = true → s.get F.HPT_STAT_PM h ≠ 0 → ((((s.exitL1 h).modHport h fun x => { x with idleFrom := s.now }).count 26 h 0x43).count 26 h 0x45 (divUp q.bytes 64)).answers h f = true → (q.isCfg = true ∧ ((((((s.exitL1 h).modHport h fun x => { x with idleFrom := s.now }).count 26 h 0x43).count 26 h 0x45 (divUp q.bytes 64)).fn h f).flrAt.isSome = true ∨ ((((s.exitL1 h).modHport h fun x => { x with idleFrom := s.now }).count 26 h 0x43).count 26 h 0x45 (divUp q.bytes 64)).boot.stage < 3)) → exec (.inboundRequest h f q false) s =
     .next (((((s.exitL1 h).modHport h fun x => { x with idleFrom := s.now }).count 26 h 0x43).count 26 h 0x45 (divUp q.bytes 64)).emit (.retryStatus h f))) ∧
  (∀ (h : Fin 64) (f : Fin 264) (q : Tlp) (s : State), s.linkUp h = true → s.get F.HPT_STAT_PM h ≠ 0 → ((((s.exitL1 h).modHport h fun x => { x with idleFrom := s.now }).count 26 h 0x43).count 26 h 0x45 (divUp q.bytes 64)).answers h f = true → q.isCfg = false → (((((s.exitL1 h).modHport h fun x => { x with idleFrom := s.now }).count 26 h 0x43).count 26 h 0x45 (divUp q.bytes 64)).fn h f).flrAt.isSome = true → exec (.inboundRequest h f q false) s =
     .next (((((s.exitL1 h).modHport h fun x => { x with idleFrom := s.now }).count 26 h 0x43).count 26 h 0x45 (divUp q.bytes 64)).unsupported h f q.posted)) ∧
  (∀ (h : Fin 64) (f : Fin 264) (q : Tlp) (s : State), s.linkUp h = true → s.get F.HPT_STAT_PM h ≠ 0 → ((((s.exitL1 h).modHport h fun x => { x with idleFrom := s.now }).count 26 h 0x43).count 26 h 0x45 (divUp q.bytes 64)).answers h f = true → (((((s.exitL1 h).modHport h fun x => { x with idleFrom := s.now }).count 26 h 0x43).count 26 h 0x45 (divUp q.bytes 64)).fn h f).flrAt.isSome = false → (3 ≤ ((((s.exitL1 h).modHport h fun x => { x with idleFrom := s.now }).count 26 h 0x43).count 26 h 0x45 (divUp q.bytes 64)).boot.stage ∨ q.isCfg = false) → exec (.inboundRequest h f q false) s =
     .next (((((s.exitL1 h).modHport h fun x => { x with idleFrom := s.now }).count 26 h 0x43).count 26 h 0x45 (divUp q.bytes 64)).serveTlp h f q))

/-- Functions (R577 to R585). -/
def Obligations.HostFunctionCommands : Prop :=
  (∀ (h : Fin 64) (f : Fin 264) (s : State), s.linkUp h = true → s.funcExists h f = true → f.val < 8 → exec (.flr h f) s =
     .next ((((((s.clearFn h f).modFn h f fun x => { x with flrAt := some s.now }).each (((s.clearFn h f).modFn h f fun x => { x with flrAt := some s.now }).vfsOf h f) fun s v => s.clearFn h v).raise E.FUN_FLR h).count 28 h 0x42).settleAll)) ∧
  (∀ (h : Fin 64) (f : Fin 264) (s : State), s.linkUp h = true → s.funcExists h f = true → 8 ≤ f.val → exec (.flr h f) s =
     .next (((((s.clearFn h f).modFn h f fun x => { x with flrAt := some s.now }).raise E.FUN_FLR h).count 28 h 0x42).settleAll)) ∧
  (∀ (h : Fin 64) (f : Fin 264) (s : State), exec (.flrComplete h f) s =
     .next (s.modFn h f fun x => { x with flrAt := none })) ∧
  (∀ (h : Fin 64) (f : Fin 264) (s : State), s.linkUp h = true → s.funcExists h f = true → (s.fn h f).d3 = false → exec (.d3hotEntry h f) s =
     .next (((s.dropWork h f).modFn h f fun x => { x with d3 := true, gone := true }).settleAll)) ∧
  (∀ (h : Fin 64) (f : Fin 264) (s : State), (s.fn h f).d3 = true → exec (.d0Return h f) s =
     .next (s.clearAll h f).settleAll) ∧
  (∀ (h : Fin 64) (f : Fin 264) (on : Bool) (s : State), s.funcExists h f = true → exec (.bmeWrite h f on) s =
     .next ((s.modFn h f fun x => { x with bme := on, gone := x.gone && !(on && s.linkUp h) }).sendHeld h).settleAll) ∧
  (∀ (h : Fin 64) (f : Fin 264) (v : Fin 2048) (s : State), (s.vec h f v).pending = true → s.vecOpen h f v = true → exec (.msixPendingSend h f v) s =
     .next ((s.modVec h f v fun x => { x with pending := false }).issue h f (.msix h f (s.vec h f v).addr (s.vec h f v).data)))

/-- Raising an event (R597). -/
def Obligations.RaisedEventSetsItsBitAndReachesTheCollectorWhenEnabled : Prop :=
  ∀ (s : State) (cls i b : Nat) (c : Capture), b < 64 → (s.raiseAt cls i b c).getBit (F.EVT_STAT_EVT.of cls) b i = true ∧
    ∀ a ∈ (s.raiseAt cls i b c).flt.arrivals, a ∈ s.flt.arrivals ∨ s.getBit (F.EVT_EN_EN.of (a.slot / 64)) (a.slot % 64) a.inst = true

/-- Bursts against the direction (R606). -/
def Obligations.BurstAgainstTheDirectionHasNoEffect : Prop :=
  (∀ (m : Master) (off : Nat) (data : List Byte) (s : State), s.blockFenced 6 = false → s.flag F.DPT_CTL_DIR = false →
     ∃ t, exec (.dptBurstWrite m off data) s = .next t ∧ t = { s with rf := t.rf, flt := { s.flt with arrivals := t.flt.arrivals } } ∧
       t.get F.DPT_ADDR_ADDR = s.get F.DPT_ADDR_ADDR ∧ t.get F.DPT_STAT_WORDS = s.get F.DPT_STAT_WORDS ∧ t.get F.DPT_STAT_DIR_ERR = 1 ∧
       t.getBit (F.EVT_STAT_EVT.of 6) E.DPT_ERR.bit = true) ∧
  (∀ (m : Master) (off len : Nat) (s : State), s.blockFenced 6 = false → s.flag F.DPT_CTL_DIR = true →
     ∃ t : State, exec (.dptBurstRead m off len) s = .next (t.emitData m len (.burst m (List.replicate (divUp len 8) 0))) ∧
       t = { s with rf := t.rf, flt := { s.flt with arrivals := t.flt.arrivals } } ∧
       t.get F.DPT_ADDR_ADDR = s.get F.DPT_ADDR_ADDR ∧ t.get F.DPT_STAT_WORDS = s.get F.DPT_STAT_WORDS ∧ t.get F.DPT_STAT_DIR_ERR = 1 ∧
       t.getBit (F.EVT_STAT_EVT.of 6) E.DPT_ERR.bit = true)

/-- Instances beyond a class's range (R593, with R15 and R16). -/
def Obligations.InstancesBeyondAClassReadZero : Prop :=
  ∀ (m : Master) (off v : Nat) (h : Half) (s : State), implemented (offCls (off % 2 ^ 28)) (offInst (off % 2 ^ 28)) = false →
    exec (.regWrite m off h v) s = .next s ∧ s.regRead (off % 2 ^ 28) h = (s, 0)

/-- The DEV page (R612). -/
def Obligations.DevicePageAndItsReset : Prop :=
  ((F.DEV_INFO_PART.cls, F.DEV_INFO_PART.off) = (0, 0x100) ∧ (F.DEV_SERIAL_SN.cls, F.DEV_SERIAL_SN.off) = (0, 0x110) ∧
     (F.DEV_RESET_KEY.cls, F.DEV_RESET_KEY.off) = (0, 0x108) ∧ (F.DEV_SELF_GROUP.cls, F.DEV_SELF_GROUP.off) = (0, 0x140)) ∧
  (∀ (key : Nat) (s : State), exec (.devReset key) s = .next (if key % 2 ^ 16 = 0x5752 then s.warmReset false else s)) ∧
  (∀ (m : Master) (key : Nat) (s : State), s.blockFenced 0 = false →
     exec (.regWrite m (regOffset 0 0 0x108) .whole key) s = .next (if key % 2 ^ 16 = 0x5752 then s.warmReset false else s))

/-- THERM_TRIP_N (R643). -/
def Obligations.ThermTripAssertsItsPin : Prop :=
  (∀ (temp : Nat) (s : State), 115 ≤ temp → ∃ t, exec (.thermTrip temp) s = .next t ∧ t.pins.thermTrip = true) ∧
  (∀ (m : Master) (s : State), s.blockFenced 2 = false →
     ∃ t, exec (.evtForce m 2 0 (2 ^ E.FLT_THERM_TRIP.bit)) s = .next t ∧ t.pins.thermTrip = true)

/-- The boost table (R546). -/
def Obligations.BoostTableFollowsItsPackets : Prop :=
  (∀ (e : Fin 32) (q : Packet) (s u : State) (mine : Boost → Bool), s.handed e q = true → q.cls = 0 → pKind q = 0x2B → u = s.unhand e q → u.tooOld q = false → mine = (fun b : Boost => b.dev == q.src / 32 && b.unit == bits q.w4 13 3 && b.lock == bits q.w4 0 13) →
     ∃ t, exec (.boostRx e q) s = .next t ∧ (t.eng e).boosts.filter (fun b => !mine b) = (s.eng e).boosts.filter (fun b => !mine b) ∧
       ((s.eng e).boosts.length ≤ 64 → (t.eng e).boosts.length ≤ 64) ∧
       (bit q.w5 4 = false → ∀ b ∈ (t.eng e).boosts, mine b = false) ∧
       (bit q.w5 4 = true → (s.eng e).boosts.any mine = true ∨ (s.eng e).boosts.length < 64 →
         ⟨q.src / 32, bits q.w4 13 3, bits q.w4 0 13, pTctx q, bits q.w5 0 4, s.now + ns (4 * 64 * u.get F.LCK_TIME_BOOST_REFRESH (unitOf e))⟩ ∈ (t.eng e).boosts ∧ ∀ b ∈ (t.eng e).boosts, mine b = true → b = ⟨q.src / 32, bits q.w4 13 3, bits q.w4 0 13, pTctx q, bits q.w5 0 4, s.now + ns (4 * 64 * u.get F.LCK_TIME_BOOST_REFRESH (unitOf e))⟩) ∧
       (bit q.w5 4 = true → (s.eng e).boosts.any mine = false → 64 ≤ (s.eng e).boosts.length →
         (t.eng e).boosts = (s.eng e).boosts ∧ t.get F.ENG_BOOST_IGNORED e = if u.rf.wrote.contains (F.ENG_BOOST_IGNORED.key e 0 0) then u.get F.ENG_BOOST_IGNORED e
           else satAdd (u.get F.ENG_BOOST_IGNORED e) 1 F.ENG_BOOST_IGNORED.w)) ∧
  (∀ (e : Fin 32) (s : State), ∃ t, exec (.boostExpiry e) s = .next t ∧ ∀ b : Boost, b ∈ (t.eng e).boosts ↔ b ∈ (s.eng e).boosts ∧ s.now < b.expiry)

/-- Rates (R379). -/
def Obligations.RatesRiseOncePerPeriod : Prop :=
  ∀ (e : Fin 32) (s : State), s.past (Tab.get s.clk.base s.marks (markRate e)) (64 * s.get F.RMA_CC_INC_PERIOD e) = true → ∃ t, exec (.rateIncrease e) s = .next t ∧
    (∀ x ∈ (s.eng e).cc, x.dec = false → { x with rate := min (s.get F.RMA_CC_RATE_LINE e) (x.rate + s.get F.RMA_CC_RATE_STEP e) } ∈ (t.eng e).cc ∨
      s.get F.RMA_CC_RATE_LINE e ≤ x.rate + s.get F.RMA_CC_RATE_STEP e) ∧
    (∀ y ∈ (t.eng e).cc, ∃ x ∈ (s.eng e).cc, y.dest = x.dest ∧
      (x.dec = true ∧ y.rate = x.rate ∨ x.dec = false ∧ y.rate = x.rate + s.get F.RMA_CC_RATE_STEP e ∧ y.rate < s.get F.RMA_CC_RATE_LINE e))

/-- Age (R183). -/
def Obligations.AgeIsReadModuloTheStamp : Prop :=
  ∀ (s : State) (birth : Nat), s.age birth = (let a := (bits s.mtNs 4 32 + (2 ^ 32 - birth % 2 ^ 32)) % 2 ^ 32; if a < 2 ^ 31 then a else 0) ∧
    ∀ q : Packet, s.isUnsure = false → q.tu = false → (s.tooOld q = true ↔ s.get F.CORE_AGE_LIMIT 0 q.cls < s.age q.birth)

/-- Where a data-port write lands (R605, R608 to R610). -/
def Obligations.DataPortWordStoresOnlyThere : Prop :=
  ∀ (m : Master) (off : Nat) (data : List Byte) (s : State) (a : Nat) (keys : List Nat), s.blockFenced 6 = false → badBurst off data.length = false →
    s.flag F.DPT_CTL_DIR = true → data.length = 8 → a = burstAddr (s.get F.DPT_ADDR_ADDR) (s.get F.DPT_CTL_STRIDE) 0 →
    keys = (match tabAt a with
      | some (.banked ts r) => ts.map fun t => bankKey (s.physBank (s.get F.DPT_CTL_BANK) t) (groupAddr t 0 + r)
      | some (.colg _ _) => [a]
      | some (.child _) => [a]
      | some (.member _) => [a]
      | some (.lock _ _ _) => [a]
      | _ => []) →
    ∃ t, exec (.dptBurstWrite m off data) s = .next t ∧ ∀ x, (∀ k ∈ keys, x < k ∨ k + 8 ≤ x) → Memory.read t.mem x = Memory.read s.mem x

/-- The layout of a frame loses no field (R115, R118, R120, Tables 4.1 and 4.2). -/
def Obligations.FramesReadBackAsTheyAreLaidOut : Prop :=
  ∀ f : Frame, f.wf = true → frameOf f.bytes = some f
end

