-- ==== Sys2Proof/Laws/Fields.lean ====
section
/-!
SUPPORT. Sparse tables and register fields: what a read gives after a write (R8, R10).
-/
namespace Sys2Proof

theorem Tab.get_insert_same {α : Type} (d : α) (t : Tab α) (n : Nat) (v : α) : Tab.get d (Tab.insert t n v) n = v := by
  induction t with
  | nil => simp [Tab.insert, Tab.get]
  | cons p t ih =>
    obtain ⟨k, w⟩ := p
    unfold Tab.insert
    split
    · simp [Tab.get]
    · split
      · simp [Tab.get]
      · rename_i h1 h2
        have : k ≠ n := fun h => h2 h.symm
        simp [Tab.get, this, ih]

theorem Tab.get_insert_ne {α : Type} (d : α) (t : Tab α) {n m : Nat} (v : α) (h : m ≠ n) :
    Tab.get d (Tab.insert t n v) m = Tab.get d t m := by
  induction t with
  | nil => simp [Tab.insert, Tab.get, Ne.symm h]
  | cons p t ih =>
    obtain ⟨k, w⟩ := p
    unfold Tab.insert
    split
    · simp [Tab.get, Ne.symm h]
    · split
      · rename_i h1 h2
        subst h2
        simp [Tab.get, Ne.symm h]
      · simp only [Tab.get, ih]

theorem Tab.get_insert {α : Type} (d : α) (t : Tab α) (n m : Nat) (v : α) :
    Tab.get d (Tab.insert t n v) m = if m = n then v else Tab.get d t m := by
  split
  · rename_i h
    rw [h]
    exact Tab.get_insert_same d t n v
  · exact Tab.get_insert_ne d t v ‹_›

theorem Tab.get_modify_same {α : Type} (d : α) (t : Tab α) (n : Nat) (f : α → α) :
    Tab.get d (Machine.Tab.modify d t n f) n = f (Tab.get d t n) := Tab.get_insert_same d t n _

theorem Tab.get_modify_ne {α : Type} (d : α) (t : Tab α) {n m : Nat} (f : α → α) (h : m ≠ n) :
    Tab.get d (Machine.Tab.modify d t n f) m = Tab.get d t m := Tab.get_insert_ne d t _ h

end Sys2Proof

namespace Sys2Proof.Machine
open Sys2Proof

/-- The place of a field within its page: offset and lowest bit. -/
def Fld.low (f : Fld) (n k : Nat) : Nat := (f.off + f.stride * n) * 64 + f.lo + f.sub * k

theorem place_split (c o a l b : Nat) : (c * 4096 + o + a) * 64 + l + b = c * 262144 + ((o + a) * 64 + l + b) := by omega

theorem Fld.key_eq (f : Fld) (i n k : Nat) : f.key i n k = (f.cls * 1024 + i) * 262144 + f.low n k := place_split _ _ _ _ _

theorem key_ne_of_low (c d a b : Nat) (ha : a < 262144) (hb : b < 262144) (h : a ≠ b) : c * 262144 + a ≠ d * 262144 + b := by omega

theorem key_ne_of_page (c d a b : Nat) (ha : a < 262144) (hb : b < 262144) (h : c ≠ d) : c * 262144 + a ≠ d * 262144 + b := by omega

/-- Fields at different places of their pages, or of different pages, have different keys. -/
theorem Fld.key_ne_of_low {f g : Fld} {i n k j m l : Nat} (hf : f.low n k < 262144) (hg : g.low m l < 262144)
    (h : f.low n k ≠ g.low m l) : f.key i n k ≠ g.key j m l := by
  have e := Machine.key_ne_of_low (f.cls * 1024 + i) (g.cls * 1024 + j) _ _ hf hg h
  rwa [← Fld.key_eq, ← Fld.key_eq] at e

theorem Fld.key_ne_of_page {f g : Fld} {i n k j m l : Nat} (hf : f.low n k < 262144) (hg : g.low m l < 262144)
    (h : f.cls * 1024 + i ≠ g.cls * 1024 + j) : f.key i n k ≠ g.key j m l := by
  have e := Machine.key_ne_of_page (f.cls * 1024 + i) (g.cls * 1024 + j) _ _ hf hg h
  rwa [← Fld.key_eq, ← Fld.key_eq] at e

theorem State.get_set_same (s : State) (f : Fld) (v i n k : Nat) : (s.set f v i n k).get f i n k = v % 2 ^ f.w := by
  unfold State.get State.set RegFile.set RegFile.tab
  cases h1 : f.st <;> cases h2 : f.al <;> simp [Tab.get_insert_same]

theorem State.get_set_ne (s : State) (f g : Fld) (v i n k j m l : Nat) (h : g.key j m l ≠ f.key i n k) :
    (s.set f v i n k).get g j m l = s.get g j m l := by
  unfold State.get State.set RegFile.set RegFile.tab
  cases f.st <;> cases f.al <;> cases g.st <;> cases g.al <;> simp [Tab.get_insert_ne _ _ _ h]

/-- A read after a write of another place of a page. -/
theorem State.get_set_low (s : State) (f g : Fld) (v i n k j m l : Nat) (hf : f.low n k < 262144) (hg : g.low m l < 262144)
    (h : g.low m l ≠ f.low n k) : (s.set f v i n k).get g j m l = s.get g j m l :=
  s.get_set_ne f g v i n k j m l (Fld.key_ne_of_low hg hf h)

/-- A read after a write of another page. -/
theorem State.get_set_page (s : State) (f g : Fld) (v i n k j m l : Nat) (hf : f.low n k < 262144) (hg : g.low m l < 262144)
    (h : g.cls * 1024 + j ≠ f.cls * 1024 + i) : (s.set f v i n k).get g j m l = s.get g j m l :=
  s.get_set_ne f g v i n k j m l (Fld.key_ne_of_page hg hf h)

/-- A hardware event sets its bit like a write of the field. -/
theorem State.get_event (s : State) (f g : Fld) (b i n j m l : Nat) :
    (s.event f b i n).get g j m l = (s.set f (setBits (s.get f i n) b 1 1) i n).get g j m l := rfl

/-- A hardware update of another place of a page. -/
theorem State.get_hw_low (s : State) (f g : Fld) (v i n k j m l : Nat) (hf : f.low n k < 262144) (hg : g.low m l < 262144)
    (h : g.low m l ≠ f.low n k) : (s.hw f v i n k).get g j m l = s.get g j m l := by
  unfold State.hw
  split
  · rfl
  · exact s.get_set_low f g v i n k j m l hf hg h

@[simp] theorem State.setFlag_eq (s : State) (f : Fld) (b : Bool) (i n k : Nat) : s.setFlag f b i n k = s.set f (b2n b) i n k := rfl

@[simp] theorem State.inc_eq (s : State) (f : Fld) (i n k d : Nat) : s.inc f i n k d = s.hw f (satAdd (s.get f i n k) d f.w) i n k := rfl

@[simp] theorem State.setBit_eq (s : State) (f : Fld) (b : Nat) (v : Bool) (i n : Nat) :
    s.setBit f b v i n = s.set f (setBits (s.get f i n) b 1 (b2n v)) i n := rfl

end Sys2Proof.Machine
end

