-- ==== Sys2Proof/Laws/Events.lean ====
section
/-!
SUPPORT. What raising and counting events can do (R268, R597, R599): it changes header fields of a page and the list of arrivals at the
collector, and nothing else.
-/
namespace Sys2Proof.Machine
open Sys2Proof

/-- `t` is `s` but for header fields of pages and the events on their way to the collector. -/
def HdrOnly (s t : State) : Prop :=
  (∃ a b c d, t = { s with rf := { s.rf with regs := a, sticky := b, fired := d }, flt := { s.flt with arrivals := c } }) ∧
    ∀ (g : Fld) (j m l : Nat), 16384 ≤ g.low m l → g.low m l < 262144 → t.get g j m l = s.get g j m l

theorem HdrOnly.refl (s : State) : HdrOnly s s := ⟨⟨_, _, _, _, rfl⟩, fun _ _ _ _ _ _ => rfl⟩

theorem HdrOnly.trans {s t u : State} (h : HdrOnly s t) (h' : HdrOnly t u) : HdrOnly s u := by
  obtain ⟨⟨a, b, c, d, rfl⟩, g⟩ := h
  obtain ⟨⟨a', b', c', d', rfl⟩, g'⟩ := h'
  exact ⟨⟨_, _, _, _, rfl⟩, fun f j m l h1 h2 => (g' f j m l h1 h2).trans (g f j m l h1 h2)⟩

/-- A header field without AL set. -/
theorem HdrOnly.set (s : State) (f : Fld) (v i n k : Nat) (hl : f.low n k < 16384) (ha : f.al = false) : HdrOnly s (s.set f v i n k) := by
  refine ⟨?_, fun g j m l h1 h2 => s.get_set_low f g v i n k j m l (Nat.lt_trans hl (by decide)) h2 (Nat.ne_of_gt (Nat.lt_of_lt_of_le hl h1))⟩
  unfold State.set RegFile.set
  rw [ha]
  cases f.st
  · exact ⟨_, _, _, _, rfl⟩
  · exact ⟨_, _, _, _, rfl⟩

/-- Bits of the same clock marked as set by hardware. -/
theorem HdrOnly.fire (s : State) (l : List Nat) : HdrOnly s { s with rf := { s.rf with fired := l } } :=
  ⟨⟨_, _, _, _, rfl⟩, fun _ _ _ _ _ _ => rfl⟩

/-- A bit of a header field set by hardware. -/
theorem HdrOnly.event (s : State) (f : Fld) (b i n : Nat) (hl : f.low n 0 < 16384) (ha : f.al = false) : HdrOnly s (s.event f b i n) :=
  (HdrOnly.set s f (setBits (s.get f i n) b 1 1) i n 0 hl ha).trans (HdrOnly.fire _ _)

/-- A header field updated by hardware. -/
theorem HdrOnly.hw (s : State) (f : Fld) (v i n k : Nat) (hl : f.low n k < 16384) (ha : f.al = false) : HdrOnly s (s.hw f v i n k) := by
  unfold State.hw
  split
  · exact HdrOnly.refl s
  · exact HdrOnly.set s f v i n k hl ha

theorem HdrOnly.arrive (s : State) (c : List Arrival) : HdrOnly s { s with flt := { s.flt with arrivals := c } } :=
  ⟨⟨_, _, _, _, rfl⟩, fun _ _ _ _ _ _ => rfl⟩

theorem HdrOnly.fold {α : Type} (f : State → α → State) (l : List α) (h : ∀ s a, a ∈ l → HdrOnly s (f s a)) (s : State) :
    HdrOnly s (l.foldl f s) := by
  induction l generalizing s with
  | nil => exact HdrOnly.refl s
  | cons a l ih =>
    exact (h s a (List.mem_cons_self ..)).trans (ih (fun s b hb => h s b (List.mem_cons_of_mem _ hb)) (f s a))

theorem low_STAT_CAP_OVF (cls : Nat) : (F.STAT_CAP_OVF.of cls).low 0 0 < 16384 := by simp only [Fld.low, Fld.of, F.STAT_CAP_OVF]; decide
theorem low_CAP_ADDR_ADDR (cls : Nat) : (F.CAP_ADDR_ADDR.of cls).low 0 0 < 16384 := by simp only [Fld.low, Fld.of, F.CAP_ADDR_ADDR]; decide
theorem low_CAP_INFO_EVT (cls : Nat) : (F.CAP_INFO_EVT.of cls).low 0 0 < 16384 := by simp only [Fld.low, Fld.of, F.CAP_INFO_EVT]; decide
theorem low_CAP_INFO_SPACE (cls : Nat) : (F.CAP_INFO_SPACE.of cls).low 0 0 < 16384 := by simp only [Fld.low, Fld.of, F.CAP_INFO_SPACE]; decide
theorem low_CAP_INFO_MKIND (cls : Nat) : (F.CAP_INFO_MKIND.of cls).low 0 0 < 16384 := by simp only [Fld.low, Fld.of, F.CAP_INFO_MKIND]; decide
theorem low_CAP_INFO_MASTER (cls : Nat) : (F.CAP_INFO_MASTER.of cls).low 0 0 < 16384 := by simp only [Fld.low, Fld.of, F.CAP_INFO_MASTER]; decide
theorem low_CAP_INFO_ACC (cls : Nat) : (F.CAP_INFO_ACC.of cls).low 0 0 < 16384 := by simp only [Fld.low, Fld.of, F.CAP_INFO_ACC]; decide
theorem low_CAP_TIME_MT (cls : Nat) : (F.CAP_TIME_MT.of cls).low 0 0 < 16384 := by simp only [Fld.low, Fld.of, F.CAP_TIME_MT]; decide
theorem low_STAT_CAP_VALID (cls : Nat) : (F.STAT_CAP_VALID.of cls).low 0 0 < 16384 := by simp only [Fld.low, Fld.of, F.STAT_CAP_VALID]; decide
theorem low_EVT_STAT_EVT (cls : Nat) : (F.EVT_STAT_EVT.of cls).low 0 0 < 16384 := by simp only [Fld.low, Fld.of, F.EVT_STAT_EVT]; decide

theorem pageCapture_hdr (s : State) (cls i b : Nat) (c : Capture) : HdrOnly s (s.pageCapture cls i b c) := by
  unfold State.pageCapture
  split
  · exact HdrOnly.event _ _ _ _ _ (low_STAT_CAP_OVF cls) rfl
  · refine HdrOnly.trans (HdrOnly.set _ _ _ _ _ _ (low_CAP_ADDR_ADDR cls) rfl) (HdrOnly.trans (HdrOnly.set _ _ _ _ _ _ (low_CAP_INFO_EVT cls) rfl)
      (HdrOnly.trans (HdrOnly.set _ _ _ _ _ _ (low_CAP_INFO_SPACE cls) rfl) (HdrOnly.trans (HdrOnly.set _ _ _ _ _ _ (low_CAP_INFO_MKIND cls) rfl)
      (HdrOnly.trans (HdrOnly.set _ _ _ _ _ _ (low_CAP_INFO_MASTER cls) rfl) (HdrOnly.trans (HdrOnly.set _ _ _ _ _ _ (low_CAP_INFO_ACC cls) rfl)
      (HdrOnly.trans (HdrOnly.set _ _ _ _ _ _ (low_CAP_TIME_MT cls) rfl) (HdrOnly.event _ _ _ _ _ (low_STAT_CAP_VALID cls) rfl)))))))

theorem report_hdr (s : State) (cls i b : Nat) (c : Capture) : HdrOnly s (s.report cls i b c) := by
  unfold State.report
  split
  · dsimp only
    have h : HdrOnly s (if 2 ≤ s.severity (64 * cls + b) then s.pageCapture cls i b c else s) := by
      split
      · exact pageCapture_hdr s cls i b c
      · exact HdrOnly.refl s
    generalize (if 2 ≤ s.severity (64 * cls + b) then s.pageCapture cls i b c else s) = t at h ⊢
    split
    · exact h
    · exact h.trans (HdrOnly.arrive t _)
  · exact HdrOnly.refl s

theorem raiseBit_hdr (s : State) (cls i b : Nat) (c : Capture) : HdrOnly s (s.raiseBit cls i b c) :=
  (HdrOnly.event s _ _ _ _ (low_EVT_STAT_EVT cls) rfl).trans (report_hdr _ cls i b c)

theorem pmcAdd_hdr (s : State) (cls i k d : Nat) (hk : k < 8) : HdrOnly s (s.pmcAdd cls i k d) := by
  have h1 : (F.PMC_COUNT.of cls).low k 0 < 16384 := by simp only [Fld.low, Fld.of, F.PMC_COUNT]; omega
  have h2 : (F.PMC_SAT.of cls).low k 0 < 16384 := by simp only [Fld.low, Fld.of, F.PMC_SAT]; omega
  unfold State.pmcAdd
  dsimp only
  split
  · exact HdrOnly.hw _ _ _ _ _ _ h1 rfl
  · exact (HdrOnly.hw _ _ _ _ _ _ h1 rfl).trans (HdrOnly.hw _ _ _ _ _ _ h2 rfl)

theorem pmcNum_le (cls : Nat) : pmcNum cls ≤ 8 := by
  unfold pmcNum
  split <;> decide

theorem pmc_filter_lt (cls : Nat) (p : Nat → Bool) : ∀ k ∈ (List.range (pmcNum cls)).filter p, k < 8 := fun _ hk =>
  Nat.lt_of_lt_of_le (List.mem_range.1 (List.mem_filter.1 hk).1) (pmcNum_le cls)

theorem pmcAdds_hdr (s : State) (cls i : Nat) (l : List Nat) (hl : ∀ k ∈ l, k < 8) : HdrOnly s (l.foldl (fun t k => t.pmcAdd cls i k 1) s) :=
  HdrOnly.fold _ _ (fun t k hk => pmcAdd_hdr t cls i k 1 (hl k hk)) s

/-- What PMC_SAT can do. -/
theorem raiseSat_hdr (s : State) (cls i : Nat) : HdrOnly s (s.raiseSat cls i) := by
  unfold State.raiseSat
  dsimp only
  have h1 := raiseBit_hdr s cls i E.bitPmcSat (blockCapture cls i)
  split
  · exact h1
  · split
    · exact (h1.trans (pmcAdds_hdr _ cls i _ (pmc_filter_lt cls _))).trans (raiseBit_hdr _ cls i _ _)
    · exact h1.trans (pmcAdds_hdr _ cls i _ (pmc_filter_lt cls _))

theorem countIn_hdr (s : State) (cls i d k : Nat) (hk : k < 8) : HdrOnly s (s.countIn cls i d k) := by
  unfold State.countIn
  dsimp only
  split
  · exact (pmcAdd_hdr s cls i k d hk).trans (raiseSat_hdr _ cls i)
  · exact pmcAdd_hdr s cls i k d hk

/-- What counting an event can do. -/
theorem count_hdr (s : State) (cls i ev d : Nat) (ctx : Option Nat) : HdrOnly s (s.count cls i ev d ctx) := by
  unfold State.count
  split
  · exact HdrOnly.refl s
  · exact HdrOnly.fold _ _ (fun t k hk => countIn_hdr t cls i d k (pmc_filter_lt cls _ k hk)) s

/-- What raising an event can do. -/
theorem raiseAt_hdr (s : State) (cls i b : Nat) (c : Capture) : HdrOnly s (s.raiseAt cls i b c) := by
  unfold State.raiseAt
  split
  · exact raiseBit_hdr s cls i b c
  · exact (raiseBit_hdr s cls i b c).trans (count_hdr _ cls i 4 1 none)

theorem raise_hdr (s : State) (e : Evt) (i : Nat) : HdrOnly s (s.raise e i) := raiseAt_hdr s _ _ _ _
theorem raiseCap_hdr (s : State) (e : Evt) (i : Nat) (c : Capture) : HdrOnly s (s.raiseCap e i c) := raiseAt_hdr s _ _ _ _
theorem raiseIf_hdr (s : State) (b : Bool) (e : Evt) (i : Nat) : HdrOnly s (s.raiseIf b e i) := by
  unfold State.raiseIf
  split
  · exact raise_hdr s e i
  · exact HdrOnly.refl s

/-- A field above the header after an event has been raised or counted. -/
theorem State.get_raise (s : State) (e : Evt) (i : Nat) (g : Fld) (j m l : Nat) (h1 : 16384 ≤ g.low m l) (h2 : g.low m l < 262144) :
    (s.raise e i).get g j m l = s.get g j m l := (raise_hdr s e i).2 g j m l h1 h2
theorem State.get_raiseCap (s : State) (e : Evt) (i : Nat) (c : Capture) (g : Fld) (j m l : Nat) (h1 : 16384 ≤ g.low m l)
    (h2 : g.low m l < 262144) : (s.raiseCap e i c).get g j m l = s.get g j m l := (raiseCap_hdr s e i c).2 g j m l h1 h2
theorem State.get_raiseIf (s : State) (b : Bool) (e : Evt) (i : Nat) (g : Fld) (j m l : Nat) (h1 : 16384 ≤ g.low m l)
    (h2 : g.low m l < 262144) : (s.raiseIf b e i).get g j m l = s.get g j m l := (raiseIf_hdr s b e i).2 g j m l h1 h2
theorem State.get_count (s : State) (cls i ev d : Nat) (ctx : Option Nat) (g : Fld) (j m l : Nat) (h1 : 16384 ≤ g.low m l)
    (h2 : g.low m l < 262144) : (s.count cls i ev d ctx).get g j m l = s.get g j m l := (count_hdr s cls i ev d ctx).2 g j m l h1 h2

theorem HdrOnly.clk {s t : State} (h : HdrOnly s t) : t.clk = s.clk := by
  obtain ⟨⟨_, _, _, _, rfl⟩, _⟩ := h
  rfl
theorem HdrOnly.servo {s t : State} (h : HdrOnly s t) : t.servo = s.servo := by
  obtain ⟨⟨_, _, _, _, rfl⟩, _⟩ := h
  rfl
theorem HdrOnly.xfer {s t : State} (h : HdrOnly s t) : t.xfer = s.xfer := by
  obtain ⟨⟨_, _, _, _, rfl⟩, _⟩ := h
  rfl
theorem HdrOnly.core {s t : State} (h : HdrOnly s t) : t.core = s.core := by
  obtain ⟨⟨_, _, _, _, rfl⟩, _⟩ := h
  rfl
theorem HdrOnly.tiles {s t : State} (h : HdrOnly s t) : t.tiles = s.tiles := by
  obtain ⟨⟨_, _, _, _, rfl⟩, _⟩ := h
  rfl
theorem HdrOnly.rte {s t : State} (h : HdrOnly s t) : t.rte = s.rte := by
  obtain ⟨⟨_, _, _, _, rfl⟩, _⟩ := h
  rfl
theorem HdrOnly.sched {s t : State} (h : HdrOnly s t) : t.sched = s.sched := by
  obtain ⟨⟨_, _, _, _, rfl⟩, _⟩ := h
  rfl
theorem HdrOnly.telSeq {s t : State} (h : HdrOnly s t) : t.telSeq = s.telSeq := by
  obtain ⟨⟨_, _, _, _, rfl⟩, _⟩ := h
  rfl
theorem HdrOnly.links {s t : State} (h : HdrOnly s t) : t.links = s.links := by
  obtain ⟨⟨_, _, _, _, rfl⟩, _⟩ := h
  rfl
theorem HdrOnly.lanes {s t : State} (h : HdrOnly s t) : t.lanes = s.lanes := by
  obtain ⟨⟨_, _, _, _, rfl⟩, _⟩ := h
  rfl
theorem HdrOnly.opts {s t : State} (h : HdrOnly s t) : t.opts = s.opts := by
  obtain ⟨⟨_, _, _, _, rfl⟩, _⟩ := h
  rfl
theorem HdrOnly.ports {s t : State} (h : HdrOnly s t) : t.ports = s.ports := by
  obtain ⟨⟨_, _, _, _, rfl⟩, _⟩ := h
  rfl
theorem HdrOnly.funcs {s t : State} (h : HdrOnly s t) : t.funcs = s.funcs := by
  obtain ⟨⟨_, _, _, _, rfl⟩, _⟩ := h
  rfl
theorem HdrOnly.hports {s t : State} (h : HdrOnly s t) : t.hports = s.hports := by
  obtain ⟨⟨_, _, _, _, rfl⟩, _⟩ := h
  rfl
theorem HdrOnly.engs {s t : State} (h : HdrOnly s t) : t.engs = s.engs := by
  obtain ⟨⟨_, _, _, _, rfl⟩, _⟩ := h
  rfl
theorem HdrOnly.ctxs {s t : State} (h : HdrOnly s t) : t.ctxs = s.ctxs := by
  obtain ⟨⟨_, _, _, _, rfl⟩, _⟩ := h
  rfl
theorem HdrOnly.ops {s t : State} (h : HdrOnly s t) : t.ops = s.ops := by
  obtain ⟨⟨_, _, _, _, rfl⟩, _⟩ := h
  rfl
theorem HdrOnly.gens {s t : State} (h : HdrOnly s t) : t.gens = s.gens := by
  obtain ⟨⟨_, _, _, _, rfl⟩, _⟩ := h
  rfl
theorem HdrOnly.genBase {s t : State} (h : HdrOnly s t) : t.genBase = s.genBase := by
  obtain ⟨⟨_, _, _, _, rfl⟩, _⟩ := h
  rfl
theorem HdrOnly.units {s t : State} (h : HdrOnly s t) : t.units = s.units := by
  obtain ⟨⟨_, _, _, _, rfl⟩, _⟩ := h
  rfl
theorem HdrOnly.reqs {s t : State} (h : HdrOnly s t) : t.reqs = s.reqs := by
  obtain ⟨⟨_, _, _, _, rfl⟩, _⟩ := h
  rfl
theorem HdrOnly.nextTag {s t : State} (h : HdrOnly s t) : t.nextTag = s.nextTag := by
  obtain ⟨⟨_, _, _, _, rfl⟩, _⟩ := h
  rfl
theorem HdrOnly.parked {s t : State} (h : HdrOnly s t) : t.parked = s.parked := by
  obtain ⟨⟨_, _, _, _, rfl⟩, _⟩ := h
  rfl
theorem HdrOnly.marks {s t : State} (h : HdrOnly s t) : t.marks = s.marks := by
  obtain ⟨⟨_, _, _, _, rfl⟩, _⟩ := h
  rfl
theorem HdrOnly.mem {s t : State} (h : HdrOnly s t) : t.mem = s.mem := by
  obtain ⟨⟨_, _, _, _, rfl⟩, _⟩ := h
  rfl
theorem HdrOnly.pins {s t : State} (h : HdrOnly s t) : t.pins = s.pins := by
  obtain ⟨⟨_, _, _, _, rfl⟩, _⟩ := h
  rfl
theorem HdrOnly.boot {s t : State} (h : HdrOnly s t) : t.boot = s.boot := by
  obtain ⟨⟨_, _, _, _, rfl⟩, _⟩ := h
  rfl
theorem HdrOnly.ladder {s t : State} (h : HdrOnly s t) : t.ladder = s.ladder := by
  obtain ⟨⟨_, _, _, _, rfl⟩, _⟩ := h
  rfl
theorem HdrOnly.almanac {s t : State} (h : HdrOnly s t) : t.almanac = s.almanac := by
  obtain ⟨⟨_, _, _, _, rfl⟩, _⟩ := h
  rfl
theorem HdrOnly.presence {s t : State} (h : HdrOnly s t) : t.presence = s.presence := by
  obtain ⟨⟨_, _, _, _, rfl⟩, _⟩ := h
  rfl
theorem HdrOnly.cps {s t : State} (h : HdrOnly s t) : t.cps = s.cps := by
  obtain ⟨⟨_, _, _, _, rfl⟩, _⟩ := h
  rfl
theorem HdrOnly.mgmt {s t : State} (h : HdrOnly s t) : t.mgmt = s.mgmt := by
  obtain ⟨⟨_, _, _, _, rfl⟩, _⟩ := h
  rfl
theorem HdrOnly.free {s t : State} (h : HdrOnly s t) : t.free = s.free := by
  obtain ⟨⟨_, _, _, _, rfl⟩, _⟩ := h
  rfl
theorem HdrOnly.out {s t : State} (h : HdrOnly s t) : t.out = s.out := by
  obtain ⟨⟨_, _, _, _, rfl⟩, _⟩ := h
  rfl
theorem HdrOnly.pending {s t : State} (h : HdrOnly s t) : t.pending = s.pending := by
  obtain ⟨⟨_, _, _, _, rfl⟩, _⟩ := h
  rfl

@[simp] theorem State.raise_clk (s : State) (e : Evt) (i : Nat) : (s.raise e i).clk = s.clk := (raise_hdr s e i).clk
@[simp] theorem State.raise_servo (s : State) (e : Evt) (i : Nat) : (s.raise e i).servo = s.servo := (raise_hdr s e i).servo
@[simp] theorem State.raise_xfer (s : State) (e : Evt) (i : Nat) : (s.raise e i).xfer = s.xfer := (raise_hdr s e i).xfer
@[simp] theorem State.raise_core (s : State) (e : Evt) (i : Nat) : (s.raise e i).core = s.core := (raise_hdr s e i).core
@[simp] theorem State.raise_tiles (s : State) (e : Evt) (i : Nat) : (s.raise e i).tiles = s.tiles := (raise_hdr s e i).tiles
@[simp] theorem State.raise_rte (s : State) (e : Evt) (i : Nat) : (s.raise e i).rte = s.rte := (raise_hdr s e i).rte
@[simp] theorem State.raise_sched (s : State) (e : Evt) (i : Nat) : (s.raise e i).sched = s.sched := (raise_hdr s e i).sched
@[simp] theorem State.raise_telSeq (s : State) (e : Evt) (i : Nat) : (s.raise e i).telSeq = s.telSeq := (raise_hdr s e i).telSeq
@[simp] theorem State.raise_links (s : State) (e : Evt) (i : Nat) : (s.raise e i).links = s.links := (raise_hdr s e i).links
@[simp] theorem State.raise_lanes (s : State) (e : Evt) (i : Nat) : (s.raise e i).lanes = s.lanes := (raise_hdr s e i).lanes
@[simp] theorem State.raise_opts (s : State) (e : Evt) (i : Nat) : (s.raise e i).opts = s.opts := (raise_hdr s e i).opts
@[simp] theorem State.raise_ports (s : State) (e : Evt) (i : Nat) : (s.raise e i).ports = s.ports := (raise_hdr s e i).ports
@[simp] theorem State.raise_funcs (s : State) (e : Evt) (i : Nat) : (s.raise e i).funcs = s.funcs := (raise_hdr s e i).funcs
@[simp] theorem State.raise_hports (s : State) (e : Evt) (i : Nat) : (s.raise e i).hports = s.hports := (raise_hdr s e i).hports
@[simp] theorem State.raise_engs (s : State) (e : Evt) (i : Nat) : (s.raise e i).engs = s.engs := (raise_hdr s e i).engs
@[simp] theorem State.raise_ctxs (s : State) (e : Evt) (i : Nat) : (s.raise e i).ctxs = s.ctxs := (raise_hdr s e i).ctxs
@[simp] theorem State.raise_ops (s : State) (e : Evt) (i : Nat) : (s.raise e i).ops = s.ops := (raise_hdr s e i).ops
@[simp] theorem State.raise_gens (s : State) (e : Evt) (i : Nat) : (s.raise e i).gens = s.gens := (raise_hdr s e i).gens
@[simp] theorem State.raise_genBase (s : State) (e : Evt) (i : Nat) : (s.raise e i).genBase = s.genBase := (raise_hdr s e i).genBase
@[simp] theorem State.raise_units (s : State) (e : Evt) (i : Nat) : (s.raise e i).units = s.units := (raise_hdr s e i).units
@[simp] theorem State.raise_reqs (s : State) (e : Evt) (i : Nat) : (s.raise e i).reqs = s.reqs := (raise_hdr s e i).reqs
@[simp] theorem State.raise_nextTag (s : State) (e : Evt) (i : Nat) : (s.raise e i).nextTag = s.nextTag := (raise_hdr s e i).nextTag
@[simp] theorem State.raise_parked (s : State) (e : Evt) (i : Nat) : (s.raise e i).parked = s.parked := (raise_hdr s e i).parked
@[simp] theorem State.raise_marks (s : State) (e : Evt) (i : Nat) : (s.raise e i).marks = s.marks := (raise_hdr s e i).marks
@[simp] theorem State.raise_mem (s : State) (e : Evt) (i : Nat) : (s.raise e i).mem = s.mem := (raise_hdr s e i).mem
@[simp] theorem State.raise_pins (s : State) (e : Evt) (i : Nat) : (s.raise e i).pins = s.pins := (raise_hdr s e i).pins
@[simp] theorem State.raise_boot (s : State) (e : Evt) (i : Nat) : (s.raise e i).boot = s.boot := (raise_hdr s e i).boot
@[simp] theorem State.raise_ladder (s : State) (e : Evt) (i : Nat) : (s.raise e i).ladder = s.ladder := (raise_hdr s e i).ladder
@[simp] theorem State.raise_almanac (s : State) (e : Evt) (i : Nat) : (s.raise e i).almanac = s.almanac := (raise_hdr s e i).almanac
@[simp] theorem State.raise_presence (s : State) (e : Evt) (i : Nat) : (s.raise e i).presence = s.presence := (raise_hdr s e i).presence
@[simp] theorem State.raise_cps (s : State) (e : Evt) (i : Nat) : (s.raise e i).cps = s.cps := (raise_hdr s e i).cps
@[simp] theorem State.raise_mgmt (s : State) (e : Evt) (i : Nat) : (s.raise e i).mgmt = s.mgmt := (raise_hdr s e i).mgmt
@[simp] theorem State.raise_free (s : State) (e : Evt) (i : Nat) : (s.raise e i).free = s.free := (raise_hdr s e i).free
@[simp] theorem State.raise_out (s : State) (e : Evt) (i : Nat) : (s.raise e i).out = s.out := (raise_hdr s e i).out
@[simp] theorem State.raise_pending (s : State) (e : Evt) (i : Nat) : (s.raise e i).pending = s.pending := (raise_hdr s e i).pending

@[simp] theorem State.raiseCap_clk (s : State) (e : Evt) (i : Nat) (c : Capture) : (s.raiseCap e i c).clk = s.clk := (raiseCap_hdr s e i c).clk
@[simp] theorem State.raiseCap_servo (s : State) (e : Evt) (i : Nat) (c : Capture) : (s.raiseCap e i c).servo = s.servo := (raiseCap_hdr s e i c).servo
@[simp] theorem State.raiseCap_xfer (s : State) (e : Evt) (i : Nat) (c : Capture) : (s.raiseCap e i c).xfer = s.xfer := (raiseCap_hdr s e i c).xfer
@[simp] theorem State.raiseCap_core (s : State) (e : Evt) (i : Nat) (c : Capture) : (s.raiseCap e i c).core = s.core := (raiseCap_hdr s e i c).core
@[simp] theorem State.raiseCap_tiles (s : State) (e : Evt) (i : Nat) (c : Capture) : (s.raiseCap e i c).tiles = s.tiles := (raiseCap_hdr s e i c).tiles
@[simp] theorem State.raiseCap_rte (s : State) (e : Evt) (i : Nat) (c : Capture) : (s.raiseCap e i c).rte = s.rte := (raiseCap_hdr s e i c).rte
@[simp] theorem State.raiseCap_sched (s : State) (e : Evt) (i : Nat) (c : Capture) : (s.raiseCap e i c).sched = s.sched := (raiseCap_hdr s e i c).sched
@[simp] theorem State.raiseCap_telSeq (s : State) (e : Evt) (i : Nat) (c : Capture) : (s.raiseCap e i c).telSeq = s.telSeq := (raiseCap_hdr s e i c).telSeq
@[simp] theorem State.raiseCap_links (s : State) (e : Evt) (i : Nat) (c : Capture) : (s.raiseCap e i c).links = s.links := (raiseCap_hdr s e i c).links
@[simp] theorem State.raiseCap_lanes (s : State) (e : Evt) (i : Nat) (c : Capture) : (s.raiseCap e i c).lanes = s.lanes := (raiseCap_hdr s e i c).lanes
@[simp] theorem State.raiseCap_opts (s : State) (e : Evt) (i : Nat) (c : Capture) : (s.raiseCap e i c).opts = s.opts := (raiseCap_hdr s e i c).opts
@[simp] theorem State.raiseCap_ports (s : State) (e : Evt) (i : Nat) (c : Capture) : (s.raiseCap e i c).ports = s.ports := (raiseCap_hdr s e i c).ports
@[simp] theorem State.raiseCap_funcs (s : State) (e : Evt) (i : Nat) (c : Capture) : (s.raiseCap e i c).funcs = s.funcs := (raiseCap_hdr s e i c).funcs
@[simp] theorem State.raiseCap_hports (s : State) (e : Evt) (i : Nat) (c : Capture) : (s.raiseCap e i c).hports = s.hports := (raiseCap_hdr s e i c).hports
@[simp] theorem State.raiseCap_engs (s : State) (e : Evt) (i : Nat) (c : Capture) : (s.raiseCap e i c).engs = s.engs := (raiseCap_hdr s e i c).engs
@[simp] theorem State.raiseCap_ctxs (s : State) (e : Evt) (i : Nat) (c : Capture) : (s.raiseCap e i c).ctxs = s.ctxs := (raiseCap_hdr s e i c).ctxs
@[simp] theorem State.raiseCap_ops (s : State) (e : Evt) (i : Nat) (c : Capture) : (s.raiseCap e i c).ops = s.ops := (raiseCap_hdr s e i c).ops
@[simp] theorem State.raiseCap_gens (s : State) (e : Evt) (i : Nat) (c : Capture) : (s.raiseCap e i c).gens = s.gens := (raiseCap_hdr s e i c).gens
@[simp] theorem State.raiseCap_genBase (s : State) (e : Evt) (i : Nat) (c : Capture) : (s.raiseCap e i c).genBase = s.genBase := (raiseCap_hdr s e i c).genBase
@[simp] theorem State.raiseCap_units (s : State) (e : Evt) (i : Nat) (c : Capture) : (s.raiseCap e i c).units = s.units := (raiseCap_hdr s e i c).units
@[simp] theorem State.raiseCap_reqs (s : State) (e : Evt) (i : Nat) (c : Capture) : (s.raiseCap e i c).reqs = s.reqs := (raiseCap_hdr s e i c).reqs
@[simp] theorem State.raiseCap_nextTag (s : State) (e : Evt) (i : Nat) (c : Capture) : (s.raiseCap e i c).nextTag = s.nextTag := (raiseCap_hdr s e i c).nextTag
@[simp] theorem State.raiseCap_parked (s : State) (e : Evt) (i : Nat) (c : Capture) : (s.raiseCap e i c).parked = s.parked := (raiseCap_hdr s e i c).parked
@[simp] theorem State.raiseCap_marks (s : State) (e : Evt) (i : Nat) (c : Capture) : (s.raiseCap e i c).marks = s.marks := (raiseCap_hdr s e i c).marks
@[simp] theorem State.raiseCap_mem (s : State) (e : Evt) (i : Nat) (c : Capture) : (s.raiseCap e i c).mem = s.mem := (raiseCap_hdr s e i c).mem
@[simp] theorem State.raiseCap_pins (s : State) (e : Evt) (i : Nat) (c : Capture) : (s.raiseCap e i c).pins = s.pins := (raiseCap_hdr s e i c).pins
@[simp] theorem State.raiseCap_boot (s : State) (e : Evt) (i : Nat) (c : Capture) : (s.raiseCap e i c).boot = s.boot := (raiseCap_hdr s e i c).boot
@[simp] theorem State.raiseCap_ladder (s : State) (e : Evt) (i : Nat) (c : Capture) : (s.raiseCap e i c).ladder = s.ladder := (raiseCap_hdr s e i c).ladder
@[simp] theorem State.raiseCap_almanac (s : State) (e : Evt) (i : Nat) (c : Capture) : (s.raiseCap e i c).almanac = s.almanac := (raiseCap_hdr s e i c).almanac
@[simp] theorem State.raiseCap_presence (s : State) (e : Evt) (i : Nat) (c : Capture) : (s.raiseCap e i c).presence = s.presence := (raiseCap_hdr s e i c).presence
@[simp] theorem State.raiseCap_cps (s : State) (e : Evt) (i : Nat) (c : Capture) : (s.raiseCap e i c).cps = s.cps := (raiseCap_hdr s e i c).cps
@[simp] theorem State.raiseCap_mgmt (s : State) (e : Evt) (i : Nat) (c : Capture) : (s.raiseCap e i c).mgmt = s.mgmt := (raiseCap_hdr s e i c).mgmt
@[simp] theorem State.raiseCap_free (s : State) (e : Evt) (i : Nat) (c : Capture) : (s.raiseCap e i c).free = s.free := (raiseCap_hdr s e i c).free
@[simp] theorem State.raiseCap_out (s : State) (e : Evt) (i : Nat) (c : Capture) : (s.raiseCap e i c).out = s.out := (raiseCap_hdr s e i c).out
@[simp] theorem State.raiseCap_pending (s : State) (e : Evt) (i : Nat) (c : Capture) : (s.raiseCap e i c).pending = s.pending := (raiseCap_hdr s e i c).pending

@[simp] theorem State.raiseIf_clk (s : State) (b : Bool) (e : Evt) (i : Nat) : (s.raiseIf b e i).clk = s.clk := (raiseIf_hdr s b e i).clk
@[simp] theorem State.raiseIf_servo (s : State) (b : Bool) (e : Evt) (i : Nat) : (s.raiseIf b e i).servo = s.servo := (raiseIf_hdr s b e i).servo
@[simp] theorem State.raiseIf_xfer (s : State) (b : Bool) (e : Evt) (i : Nat) : (s.raiseIf b e i).xfer = s.xfer := (raiseIf_hdr s b e i).xfer
@[simp] theorem State.raiseIf_core (s : State) (b : Bool) (e : Evt) (i : Nat) : (s.raiseIf b e i).core = s.core := (raiseIf_hdr s b e i).core
@[simp] theorem State.raiseIf_tiles (s : State) (b : Bool) (e : Evt) (i : Nat) : (s.raiseIf b e i).tiles = s.tiles := (raiseIf_hdr s b e i).tiles
@[simp] theorem State.raiseIf_rte (s : State) (b : Bool) (e : Evt) (i : Nat) : (s.raiseIf b e i).rte = s.rte := (raiseIf_hdr s b e i).rte
@[simp] theorem State.raiseIf_sched (s : State) (b : Bool) (e : Evt) (i : Nat) : (s.raiseIf b e i).sched = s.sched := (raiseIf_hdr s b e i).sched
@[simp] theorem State.raiseIf_telSeq (s : State) (b : Bool) (e : Evt) (i : Nat) : (s.raiseIf b e i).telSeq = s.telSeq := (raiseIf_hdr s b e i).telSeq
@[simp] theorem State.raiseIf_links (s : State) (b : Bool) (e : Evt) (i : Nat) : (s.raiseIf b e i).links = s.links := (raiseIf_hdr s b e i).links
@[simp] theorem State.raiseIf_lanes (s : State) (b : Bool) (e : Evt) (i : Nat) : (s.raiseIf b e i).lanes = s.lanes := (raiseIf_hdr s b e i).lanes
@[simp] theorem State.raiseIf_opts (s : State) (b : Bool) (e : Evt) (i : Nat) : (s.raiseIf b e i).opts = s.opts := (raiseIf_hdr s b e i).opts
@[simp] theorem State.raiseIf_ports (s : State) (b : Bool) (e : Evt) (i : Nat) : (s.raiseIf b e i).ports = s.ports := (raiseIf_hdr s b e i).ports
@[simp] theorem State.raiseIf_funcs (s : State) (b : Bool) (e : Evt) (i : Nat) : (s.raiseIf b e i).funcs = s.funcs := (raiseIf_hdr s b e i).funcs
@[simp] theorem State.raiseIf_hports (s : State) (b : Bool) (e : Evt) (i : Nat) : (s.raiseIf b e i).hports = s.hports := (raiseIf_hdr s b e i).hports
@[simp] theorem State.raiseIf_engs (s : State) (b : Bool) (e : Evt) (i : Nat) : (s.raiseIf b e i).engs = s.engs := (raiseIf_hdr s b e i).engs
@[simp] theorem State.raiseIf_ctxs (s : State) (b : Bool) (e : Evt) (i : Nat) : (s.raiseIf b e i).ctxs = s.ctxs := (raiseIf_hdr s b e i).ctxs
@[simp] theorem State.raiseIf_ops (s : State) (b : Bool) (e : Evt) (i : Nat) : (s.raiseIf b e i).ops = s.ops := (raiseIf_hdr s b e i).ops
@[simp] theorem State.raiseIf_gens (s : State) (b : Bool) (e : Evt) (i : Nat) : (s.raiseIf b e i).gens = s.gens := (raiseIf_hdr s b e i).gens
@[simp] theorem State.raiseIf_genBase (s : State) (b : Bool) (e : Evt) (i : Nat) : (s.raiseIf b e i).genBase = s.genBase := (raiseIf_hdr s b e i).genBase
@[simp] theorem State.raiseIf_units (s : State) (b : Bool) (e : Evt) (i : Nat) : (s.raiseIf b e i).units = s.units := (raiseIf_hdr s b e i).units
@[simp] theorem State.raiseIf_reqs (s : State) (b : Bool) (e : Evt) (i : Nat) : (s.raiseIf b e i).reqs = s.reqs := (raiseIf_hdr s b e i).reqs
@[simp] theorem State.raiseIf_nextTag (s : State) (b : Bool) (e : Evt) (i : Nat) : (s.raiseIf b e i).nextTag = s.nextTag := (raiseIf_hdr s b e i).nextTag
@[simp] theorem State.raiseIf_parked (s : State) (b : Bool) (e : Evt) (i : Nat) : (s.raiseIf b e i).parked = s.parked := (raiseIf_hdr s b e i).parked
@[simp] theorem State.raiseIf_marks (s : State) (b : Bool) (e : Evt) (i : Nat) : (s.raiseIf b e i).marks = s.marks := (raiseIf_hdr s b e i).marks
@[simp] theorem State.raiseIf_mem (s : State) (b : Bool) (e : Evt) (i : Nat) : (s.raiseIf b e i).mem = s.mem := (raiseIf_hdr s b e i).mem
@[simp] theorem State.raiseIf_pins (s : State) (b : Bool) (e : Evt) (i : Nat) : (s.raiseIf b e i).pins = s.pins := (raiseIf_hdr s b e i).pins
@[simp] theorem State.raiseIf_boot (s : State) (b : Bool) (e : Evt) (i : Nat) : (s.raiseIf b e i).boot = s.boot := (raiseIf_hdr s b e i).boot
@[simp] theorem State.raiseIf_ladder (s : State) (b : Bool) (e : Evt) (i : Nat) : (s.raiseIf b e i).ladder = s.ladder := (raiseIf_hdr s b e i).ladder
@[simp] theorem State.raiseIf_almanac (s : State) (b : Bool) (e : Evt) (i : Nat) : (s.raiseIf b e i).almanac = s.almanac := (raiseIf_hdr s b e i).almanac
@[simp] theorem State.raiseIf_presence (s : State) (b : Bool) (e : Evt) (i : Nat) : (s.raiseIf b e i).presence = s.presence := (raiseIf_hdr s b e i).presence
@[simp] theorem State.raiseIf_cps (s : State) (b : Bool) (e : Evt) (i : Nat) : (s.raiseIf b e i).cps = s.cps := (raiseIf_hdr s b e i).cps
@[simp] theorem State.raiseIf_mgmt (s : State) (b : Bool) (e : Evt) (i : Nat) : (s.raiseIf b e i).mgmt = s.mgmt := (raiseIf_hdr s b e i).mgmt
@[simp] theorem State.raiseIf_free (s : State) (b : Bool) (e : Evt) (i : Nat) : (s.raiseIf b e i).free = s.free := (raiseIf_hdr s b e i).free
@[simp] theorem State.raiseIf_out (s : State) (b : Bool) (e : Evt) (i : Nat) : (s.raiseIf b e i).out = s.out := (raiseIf_hdr s b e i).out
@[simp] theorem State.raiseIf_pending (s : State) (b : Bool) (e : Evt) (i : Nat) : (s.raiseIf b e i).pending = s.pending := (raiseIf_hdr s b e i).pending

@[simp] theorem State.count_clk (s : State) (cls i ev d : Nat) (ctx : Option Nat) : (s.count cls i ev d ctx).clk = s.clk := (count_hdr s cls i ev d ctx).clk
@[simp] theorem State.count_servo (s : State) (cls i ev d : Nat) (ctx : Option Nat) : (s.count cls i ev d ctx).servo = s.servo := (count_hdr s cls i ev d ctx).servo
@[simp] theorem State.count_xfer (s : State) (cls i ev d : Nat) (ctx : Option Nat) : (s.count cls i ev d ctx).xfer = s.xfer := (count_hdr s cls i ev d ctx).xfer
@[simp] theorem State.count_core (s : State) (cls i ev d : Nat) (ctx : Option Nat) : (s.count cls i ev d ctx).core = s.core := (count_hdr s cls i ev d ctx).core
@[simp] theorem State.count_tiles (s : State) (cls i ev d : Nat) (ctx : Option Nat) : (s.count cls i ev d ctx).tiles = s.tiles := (count_hdr s cls i ev d ctx).tiles
@[simp] theorem State.count_rte (s : State) (cls i ev d : Nat) (ctx : Option Nat) : (s.count cls i ev d ctx).rte = s.rte := (count_hdr s cls i ev d ctx).rte
@[simp] theorem State.count_sched (s : State) (cls i ev d : Nat) (ctx : Option Nat) : (s.count cls i ev d ctx).sched = s.sched := (count_hdr s cls i ev d ctx).sched
@[simp] theorem State.count_telSeq (s : State) (cls i ev d : Nat) (ctx : Option Nat) : (s.count cls i ev d ctx).telSeq = s.telSeq := (count_hdr s cls i ev d ctx).telSeq
@[simp] theorem State.count_links (s : State) (cls i ev d : Nat) (ctx : Option Nat) : (s.count cls i ev d ctx).links = s.links := (count_hdr s cls i ev d ctx).links
@[simp] theorem State.count_lanes (s : State) (cls i ev d : Nat) (ctx : Option Nat) : (s.count cls i ev d ctx).lanes = s.lanes := (count_hdr s cls i ev d ctx).lanes
@[simp] theorem State.count_opts (s : State) (cls i ev d : Nat) (ctx : Option Nat) : (s.count cls i ev d ctx).opts = s.opts := (count_hdr s cls i ev d ctx).opts
@[simp] theorem State.count_ports (s : State) (cls i ev d : Nat) (ctx : Option Nat) : (s.count cls i ev d ctx).ports = s.ports := (count_hdr s cls i ev d ctx).ports
@[simp] theorem State.count_funcs (s : State) (cls i ev d : Nat) (ctx : Option Nat) : (s.count cls i ev d ctx).funcs = s.funcs := (count_hdr s cls i ev d ctx).funcs
@[simp] theorem State.count_hports (s : State) (cls i ev d : Nat) (ctx : Option Nat) : (s.count cls i ev d ctx).hports = s.hports := (count_hdr s cls i ev d ctx).hports
@[simp] theorem State.count_engs (s : State) (cls i ev d : Nat) (ctx : Option Nat) : (s.count cls i ev d ctx).engs = s.engs := (count_hdr s cls i ev d ctx).engs
@[simp] theorem State.count_ctxs (s : State) (cls i ev d : Nat) (ctx : Option Nat) : (s.count cls i ev d ctx).ctxs = s.ctxs := (count_hdr s cls i ev d ctx).ctxs
@[simp] theorem State.count_ops (s : State) (cls i ev d : Nat) (ctx : Option Nat) : (s.count cls i ev d ctx).ops = s.ops := (count_hdr s cls i ev d ctx).ops
@[simp] theorem State.count_gens (s : State) (cls i ev d : Nat) (ctx : Option Nat) : (s.count cls i ev d ctx).gens = s.gens := (count_hdr s cls i ev d ctx).gens
@[simp] theorem State.count_genBase (s : State) (cls i ev d : Nat) (ctx : Option Nat) : (s.count cls i ev d ctx).genBase = s.genBase := (count_hdr s cls i ev d ctx).genBase
@[simp] theorem State.count_units (s : State) (cls i ev d : Nat) (ctx : Option Nat) : (s.count cls i ev d ctx).units = s.units := (count_hdr s cls i ev d ctx).units
@[simp] theorem State.count_reqs (s : State) (cls i ev d : Nat) (ctx : Option Nat) : (s.count cls i ev d ctx).reqs = s.reqs := (count_hdr s cls i ev d ctx).reqs
@[simp] theorem State.count_nextTag (s : State) (cls i ev d : Nat) (ctx : Option Nat) : (s.count cls i ev d ctx).nextTag = s.nextTag := (count_hdr s cls i ev d ctx).nextTag
@[simp] theorem State.count_parked (s : State) (cls i ev d : Nat) (ctx : Option Nat) : (s.count cls i ev d ctx).parked = s.parked := (count_hdr s cls i ev d ctx).parked
@[simp] theorem State.count_marks (s : State) (cls i ev d : Nat) (ctx : Option Nat) : (s.count cls i ev d ctx).marks = s.marks := (count_hdr s cls i ev d ctx).marks
@[simp] theorem State.count_mem (s : State) (cls i ev d : Nat) (ctx : Option Nat) : (s.count cls i ev d ctx).mem = s.mem := (count_hdr s cls i ev d ctx).mem
@[simp] theorem State.count_pins (s : State) (cls i ev d : Nat) (ctx : Option Nat) : (s.count cls i ev d ctx).pins = s.pins := (count_hdr s cls i ev d ctx).pins
@[simp] theorem State.count_boot (s : State) (cls i ev d : Nat) (ctx : Option Nat) : (s.count cls i ev d ctx).boot = s.boot := (count_hdr s cls i ev d ctx).boot
@[simp] theorem State.count_ladder (s : State) (cls i ev d : Nat) (ctx : Option Nat) : (s.count cls i ev d ctx).ladder = s.ladder := (count_hdr s cls i ev d ctx).ladder
@[simp] theorem State.count_almanac (s : State) (cls i ev d : Nat) (ctx : Option Nat) : (s.count cls i ev d ctx).almanac = s.almanac := (count_hdr s cls i ev d ctx).almanac
@[simp] theorem State.count_presence (s : State) (cls i ev d : Nat) (ctx : Option Nat) : (s.count cls i ev d ctx).presence = s.presence := (count_hdr s cls i ev d ctx).presence
@[simp] theorem State.count_cps (s : State) (cls i ev d : Nat) (ctx : Option Nat) : (s.count cls i ev d ctx).cps = s.cps := (count_hdr s cls i ev d ctx).cps
@[simp] theorem State.count_mgmt (s : State) (cls i ev d : Nat) (ctx : Option Nat) : (s.count cls i ev d ctx).mgmt = s.mgmt := (count_hdr s cls i ev d ctx).mgmt
@[simp] theorem State.count_free (s : State) (cls i ev d : Nat) (ctx : Option Nat) : (s.count cls i ev d ctx).free = s.free := (count_hdr s cls i ev d ctx).free
@[simp] theorem State.count_out (s : State) (cls i ev d : Nat) (ctx : Option Nat) : (s.count cls i ev d ctx).out = s.out := (count_hdr s cls i ev d ctx).out
@[simp] theorem State.count_pending (s : State) (cls i ev d : Nat) (ctx : Option Nat) : (s.count cls i ev d ctx).pending = s.pending := (count_hdr s cls i ev d ctx).pending

end Sys2Proof.Machine
end

