-- ==== Sys2Proof/Laws/Memory.lean ====
section
/-!
SUPPORT. Table-space memory (R610): every operation keeps the canonical form, and a read after a write.
-/
namespace Sys2Proof.Machine
open Sys2Proof

theorem Memory.above_write (m : Memory) (b a : Nat) (v : Byte) (h : Memory.above b m = true) (hw : Memory.wf m = true) (hb : b < a) :
    Memory.above b (Memory.write m a v) = true := by
  cases m with
  | nil =>
    unfold Memory.write
    split
    · rfl
    · simp [Memory.above, hb]
  | cons p t =>
    obtain ⟨k, w⟩ := p
    simp only [Memory.above, decide_eq_true_eq] at h
    unfold Memory.write
    split
    · split
      · simp [Memory.above, h]
      · simp [Memory.above, hb]
    · split
      · split
        · cases t with
          | nil => rfl
          | cons q t =>
            simp only [Memory.wf, Memory.above, Bool.and_eq_true, decide_eq_true_eq] at hw ⊢
            omega
        · simp [Memory.above, hb]
      · simp [Memory.above, h]

theorem Memory.wf_cons (k : Nat) (w : Byte) (t : Memory) :
    Memory.wf ((k, w) :: t) = true ↔ w ≠ 0 ∧ Memory.above k t = true ∧ Memory.wf t = true := by
  simp only [Memory.wf, Bool.and_eq_true, bne_iff_ne, ne_eq, and_assoc]

/-- A write keeps the canonical form. -/
theorem Memory.write_wf (m : Memory) (a : Nat) (v : Byte) (h : Memory.wf m = true) : Memory.wf (Memory.write m a v) = true := by
  induction m with
  | nil =>
    unfold Memory.write
    split
    · rfl
    · rename_i hv
      exact (Memory.wf_cons _ _ _).2 ⟨hv, rfl, rfl⟩
  | cons p t ih =>
    obtain ⟨k, w⟩ := p
    obtain ⟨hw, ha, ht⟩ := (Memory.wf_cons _ _ _).1 h
    unfold Memory.write
    split
    · rename_i hak
      split
      · exact h
      · rename_i hv
        exact (Memory.wf_cons _ _ _).2 ⟨hv, decide_eq_true hak, h⟩
    · split
      · rename_i hak
        subst hak
        split
        · exact ht
        · rename_i hv
          exact (Memory.wf_cons _ _ _).2 ⟨hv, ha, ht⟩
      · rename_i h1 h2
        have hka : k < a := by omega
        exact (Memory.wf_cons _ _ _).2 ⟨hw, Memory.above_write t k a v ha ht hka, ih ht⟩

theorem Memory.writeBytes_wf (m : Memory) (a : Nat) (l : List Byte) (h : Memory.wf m = true) :
    Memory.wf (Memory.writeBytes m a l) = true := by
  induction l generalizing m a with
  | nil => exact h
  | cons b t ih => exact ih _ _ (Memory.write_wf m a b h)

theorem Memory.setWord_wf (m : Memory) (a v : Nat) (h : Memory.wf m = true) : Memory.wf (m.setWord a v) = true :=
  Memory.writeBytes_wf m a _ h

theorem Memory.above_filter (p : Host.Cell → Bool) (m : Memory) (b : Nat) (h : Memory.above b m = true) (hw : Memory.wf m = true) :
    Memory.above b (m.filter p) = true := by
  induction m generalizing b with
  | nil => rfl
  | cons q t ih =>
    obtain ⟨k, w⟩ := q
    simp only [Memory.wf, Bool.and_eq_true] at hw
    simp only [Memory.above, decide_eq_true_eq] at h
    rw [List.filter_cons]
    split
    · simp [Memory.above, h]
    · refine ih b ?_ hw.2
      cases t with
      | nil => rfl
      | cons q t =>
        have := hw.1.2
        simp only [Memory.above, decide_eq_true_eq] at this ⊢
        omega

/-- Removing entries keeps the canonical form. -/
theorem Memory.filter_wf (p : Host.Cell → Bool) (m : Memory) (h : Memory.wf m = true) : Memory.wf (m.filter p) = true := by
  induction m with
  | nil => rfl
  | cons q t ih =>
    obtain ⟨k, w⟩ := q
    simp only [Memory.wf, Bool.and_eq_true] at h
    rw [List.filter_cons]
    split
    · simp only [Memory.wf, Bool.and_eq_true]
      exact ⟨⟨h.1.1, Memory.above_filter p t k h.1.2 h.2⟩, ih h.2⟩
    · exact ih h.2

theorem Memory.read_above (m : Memory) (b a : Nat) (h : Memory.above b m = true) (hw : Memory.wf m = true) (hb : a ≤ b) :
    Memory.read m a = 0 := by
  induction m generalizing b with
  | nil => rfl
  | cons q t ih =>
    obtain ⟨k, w⟩ := q
    simp only [Memory.wf, Bool.and_eq_true] at hw
    simp only [Memory.above, decide_eq_true_eq] at h
    have : k ≠ a := by omega
    simp only [Memory.read, this, if_false]
    exact ih k hw.1.2 hw.2 (by omega)

/-- A read gives the byte last written. -/
theorem Memory.read_write_same (m : Memory) (a : Nat) (v : Byte) (h : Memory.wf m = true) : Memory.read (Memory.write m a v) a = v := by
  induction m with
  | nil =>
    unfold Memory.write
    split
    · rename_i hv
      simp [Memory.read, hv]
    · simp [Memory.read]
  | cons q t ih =>
    obtain ⟨k, w⟩ := q
    have hw := h
    simp only [Memory.wf, Bool.and_eq_true] at h
    unfold Memory.write
    split
    · rename_i hak
      split
      · rename_i hv
        have : k ≠ a := by omega
        simp only [Memory.read, this, if_false, hv]
        exact Memory.read_above t k a h.1.2 h.2 (by omega)
      · simp [Memory.read]
    · split
      · rename_i hak
        split
        · rename_i hv
          rw [hv, hak]
          exact Memory.read_above t k k h.1.2 h.2 (Nat.le_refl k)
        · simp [Memory.read]
      · rename_i h1 h2
        have : k ≠ a := fun e => h2 e.symm
        simp only [Memory.read, this, if_false]
        exact ih h.2

/-- A write leaves every other byte alone. -/
theorem Memory.read_write_ne (m : Memory) {a b : Nat} (v : Byte) (hab : b ≠ a) : Memory.read (Memory.write m a v) b = Memory.read m b := by
  induction m with
  | nil =>
    unfold Memory.write
    split
    · rfl
    · simp [Memory.read, Ne.symm hab]
  | cons q t ih =>
    obtain ⟨k, w⟩ := q
    unfold Memory.write
    split
    · split
      · rfl
      · simp [Memory.read, Ne.symm hab]
    · split
      · rename_i hak
        subst hak
        split <;> simp [Memory.read, Ne.symm hab]
      · simp only [Memory.read, ih]

theorem Memory.read_writeBytes_ne (m : Memory) (a b : Nat) (l : List Byte) (h : b < a ∨ a + l.length ≤ b) :
    Memory.read (Memory.writeBytes m a l) b = Memory.read m b := by
  induction l generalizing m a with
  | nil => rfl
  | cons x t ih =>
    simp only [List.length_cons] at h
    rw [Memory.writeBytes, ih _ _ (by omega), Memory.read_write_ne _ _ (by omega)]

theorem leBytes_length (n x : Nat) : (leBytes n x).length = n := by
  induction n generalizing x with
  | zero => rfl
  | succ n ih => simp [leBytes, ih]

/-- A word written leaves every byte outside its 8 bytes alone. -/
theorem Memory.read_setWord_ne (m : Memory) (a v b : Nat) (h : b < a ∨ a + 8 ≤ b) : Memory.read (m.setWord a v) b = Memory.read m b :=
  Memory.read_writeBytes_ne m a b _ (by rw [leBytes_length]; exact h)

theorem Memory.read_writeBytes_at (m : Memory) (a : Nat) (l : List Byte) (i : Nat) (hw : Memory.wf m = true) (hi : i < l.length) :
    Memory.read (Memory.writeBytes m a l) (a + i) = l[i] := by
  induction l generalizing m a i with
  | nil => exact absurd hi (Nat.not_lt_zero i)
  | cons b t ih =>
    rw [Memory.writeBytes]
    cases i with
    | zero =>
      rw [Memory.read_writeBytes_ne _ _ _ _ (Or.inl (by omega))]
      exact Memory.read_write_same m a b hw
    | succ i =>
      have e := ih (Memory.write m a b) (a + 1) i (Memory.write_wf m a b hw) (Nat.lt_of_succ_lt_succ hi)
      rw [show a + (i + 1) = a + 1 + i by omega]
      exact e

theorem ofLeBytes_leBytes (n x : Nat) : ofLeBytes (leBytes n x) = x % 256 ^ n := by
  induction n generalizing x with
  | zero => simp [leBytes, ofLeBytes, Nat.mod_one]
  | succ n ih =>
    rw [leBytes, ofLeBytes, ih, Nat.pow_succ, Nat.mul_comm (256 ^ n) 256, Nat.mod_mul]
    simp

/-- A word read back after it has been written. -/
theorem Memory.word_setWord_same (m : Memory) (a v : Nat) (hw : Memory.wf m = true) : (m.setWord a v).word a = v % 2 ^ 64 := by
  have e : Memory.readBytes (m.setWord a v) a 8 = leBytes 8 v := by
    apply List.ext_getElem
    · simp [Memory.readBytes, leBytes_length]
    · intro i h1 h2
      simp only [Memory.readBytes, List.getElem_map, List.getElem_range]
      exact Memory.read_writeBytes_at m a (leBytes 8 v) i hw h2
  have h : 256 ^ 8 = 2 ^ 64 := rfl
  rw [Memory.word, e, ofLeBytes_leBytes, h]

/-- A word elsewhere after a word has been written. -/
theorem Memory.word_setWord_ne (m : Memory) (a v b : Nat) (h : b + 8 ≤ a ∨ a + 8 ≤ b) : (m.setWord a v).word b = m.word b := by
  unfold Memory.word Memory.readBytes
  congr 1
  apply List.map_congr_left
  intro i hi
  have := List.mem_range.1 hi
  exact Memory.read_setWord_ne m a v (b + i) (by omega)

end Sys2Proof.Machine
end

