-- ==== Sys2Proof/Laws/State.lean ====
section
/-!
SUPPORT. What each elementary update of the state leaves as it was: one lemma per field and update.
-/
namespace Sys2Proof.Machine
open Sys2Proof

@[simp] theorem State.set_clk (s : State) (f : Fld) (v i n k : Nat) : (s.set f v i n k).clk = s.clk := rfl
@[simp] theorem State.set_servo (s : State) (f : Fld) (v i n k : Nat) : (s.set f v i n k).servo = s.servo := rfl
@[simp] theorem State.set_xfer (s : State) (f : Fld) (v i n k : Nat) : (s.set f v i n k).xfer = s.xfer := rfl
@[simp] theorem State.set_core (s : State) (f : Fld) (v i n k : Nat) : (s.set f v i n k).core = s.core := rfl
@[simp] theorem State.set_tiles (s : State) (f : Fld) (v i n k : Nat) : (s.set f v i n k).tiles = s.tiles := rfl
@[simp] theorem State.set_rte (s : State) (f : Fld) (v i n k : Nat) : (s.set f v i n k).rte = s.rte := rfl
@[simp] theorem State.set_sched (s : State) (f : Fld) (v i n k : Nat) : (s.set f v i n k).sched = s.sched := rfl
@[simp] theorem State.set_telSeq (s : State) (f : Fld) (v i n k : Nat) : (s.set f v i n k).telSeq = s.telSeq := rfl
@[simp] theorem State.set_links (s : State) (f : Fld) (v i n k : Nat) : (s.set f v i n k).links = s.links := rfl
@[simp] theorem State.set_lanes (s : State) (f : Fld) (v i n k : Nat) : (s.set f v i n k).lanes = s.lanes := rfl
@[simp] theorem State.set_opts (s : State) (f : Fld) (v i n k : Nat) : (s.set f v i n k).opts = s.opts := rfl
@[simp] theorem State.set_ports (s : State) (f : Fld) (v i n k : Nat) : (s.set f v i n k).ports = s.ports := rfl
@[simp] theorem State.set_funcs (s : State) (f : Fld) (v i n k : Nat) : (s.set f v i n k).funcs = s.funcs := rfl
@[simp] theorem State.set_hports (s : State) (f : Fld) (v i n k : Nat) : (s.set f v i n k).hports = s.hports := rfl
@[simp] theorem State.set_engs (s : State) (f : Fld) (v i n k : Nat) : (s.set f v i n k).engs = s.engs := rfl
@[simp] theorem State.set_ctxs (s : State) (f : Fld) (v i n k : Nat) : (s.set f v i n k).ctxs = s.ctxs := rfl
@[simp] theorem State.set_ops (s : State) (f : Fld) (v i n k : Nat) : (s.set f v i n k).ops = s.ops := rfl
@[simp] theorem State.set_gens (s : State) (f : Fld) (v i n k : Nat) : (s.set f v i n k).gens = s.gens := rfl
@[simp] theorem State.set_genBase (s : State) (f : Fld) (v i n k : Nat) : (s.set f v i n k).genBase = s.genBase := rfl
@[simp] theorem State.set_units (s : State) (f : Fld) (v i n k : Nat) : (s.set f v i n k).units = s.units := rfl
@[simp] theorem State.set_reqs (s : State) (f : Fld) (v i n k : Nat) : (s.set f v i n k).reqs = s.reqs := rfl
@[simp] theorem State.set_nextTag (s : State) (f : Fld) (v i n k : Nat) : (s.set f v i n k).nextTag = s.nextTag := rfl
@[simp] theorem State.set_parked (s : State) (f : Fld) (v i n k : Nat) : (s.set f v i n k).parked = s.parked := rfl
@[simp] theorem State.set_marks (s : State) (f : Fld) (v i n k : Nat) : (s.set f v i n k).marks = s.marks := rfl
@[simp] theorem State.set_mem (s : State) (f : Fld) (v i n k : Nat) : (s.set f v i n k).mem = s.mem := rfl
@[simp] theorem State.set_flt (s : State) (f : Fld) (v i n k : Nat) : (s.set f v i n k).flt = s.flt := rfl
@[simp] theorem State.set_pins (s : State) (f : Fld) (v i n k : Nat) : (s.set f v i n k).pins = s.pins := rfl
@[simp] theorem State.set_boot (s : State) (f : Fld) (v i n k : Nat) : (s.set f v i n k).boot = s.boot := rfl
@[simp] theorem State.set_ladder (s : State) (f : Fld) (v i n k : Nat) : (s.set f v i n k).ladder = s.ladder := rfl
@[simp] theorem State.set_almanac (s : State) (f : Fld) (v i n k : Nat) : (s.set f v i n k).almanac = s.almanac := rfl
@[simp] theorem State.set_presence (s : State) (f : Fld) (v i n k : Nat) : (s.set f v i n k).presence = s.presence := rfl
@[simp] theorem State.set_cps (s : State) (f : Fld) (v i n k : Nat) : (s.set f v i n k).cps = s.cps := rfl
@[simp] theorem State.set_mgmt (s : State) (f : Fld) (v i n k : Nat) : (s.set f v i n k).mgmt = s.mgmt := rfl
@[simp] theorem State.set_free (s : State) (f : Fld) (v i n k : Nat) : (s.set f v i n k).free = s.free := rfl
@[simp] theorem State.set_out (s : State) (f : Fld) (v i n k : Nat) : (s.set f v i n k).out = s.out := rfl
@[simp] theorem State.set_pending (s : State) (f : Fld) (v i n k : Nat) : (s.set f v i n k).pending = s.pending := rfl

@[simp] theorem State.write_clk (s : State) (f : Fld) (v i n k : Nat) : (s.write f v i n k).clk = s.clk := rfl
@[simp] theorem State.write_servo (s : State) (f : Fld) (v i n k : Nat) : (s.write f v i n k).servo = s.servo := rfl
@[simp] theorem State.write_xfer (s : State) (f : Fld) (v i n k : Nat) : (s.write f v i n k).xfer = s.xfer := rfl
@[simp] theorem State.write_core (s : State) (f : Fld) (v i n k : Nat) : (s.write f v i n k).core = s.core := rfl
@[simp] theorem State.write_tiles (s : State) (f : Fld) (v i n k : Nat) : (s.write f v i n k).tiles = s.tiles := rfl
@[simp] theorem State.write_rte (s : State) (f : Fld) (v i n k : Nat) : (s.write f v i n k).rte = s.rte := rfl
@[simp] theorem State.write_sched (s : State) (f : Fld) (v i n k : Nat) : (s.write f v i n k).sched = s.sched := rfl
@[simp] theorem State.write_telSeq (s : State) (f : Fld) (v i n k : Nat) : (s.write f v i n k).telSeq = s.telSeq := rfl
@[simp] theorem State.write_links (s : State) (f : Fld) (v i n k : Nat) : (s.write f v i n k).links = s.links := rfl
@[simp] theorem State.write_lanes (s : State) (f : Fld) (v i n k : Nat) : (s.write f v i n k).lanes = s.lanes := rfl
@[simp] theorem State.write_opts (s : State) (f : Fld) (v i n k : Nat) : (s.write f v i n k).opts = s.opts := rfl
@[simp] theorem State.write_ports (s : State) (f : Fld) (v i n k : Nat) : (s.write f v i n k).ports = s.ports := rfl
@[simp] theorem State.write_funcs (s : State) (f : Fld) (v i n k : Nat) : (s.write f v i n k).funcs = s.funcs := rfl
@[simp] theorem State.write_hports (s : State) (f : Fld) (v i n k : Nat) : (s.write f v i n k).hports = s.hports := rfl
@[simp] theorem State.write_engs (s : State) (f : Fld) (v i n k : Nat) : (s.write f v i n k).engs = s.engs := rfl
@[simp] theorem State.write_ctxs (s : State) (f : Fld) (v i n k : Nat) : (s.write f v i n k).ctxs = s.ctxs := rfl
@[simp] theorem State.write_ops (s : State) (f : Fld) (v i n k : Nat) : (s.write f v i n k).ops = s.ops := rfl
@[simp] theorem State.write_gens (s : State) (f : Fld) (v i n k : Nat) : (s.write f v i n k).gens = s.gens := rfl
@[simp] theorem State.write_genBase (s : State) (f : Fld) (v i n k : Nat) : (s.write f v i n k).genBase = s.genBase := rfl
@[simp] theorem State.write_units (s : State) (f : Fld) (v i n k : Nat) : (s.write f v i n k).units = s.units := rfl
@[simp] theorem State.write_reqs (s : State) (f : Fld) (v i n k : Nat) : (s.write f v i n k).reqs = s.reqs := rfl
@[simp] theorem State.write_nextTag (s : State) (f : Fld) (v i n k : Nat) : (s.write f v i n k).nextTag = s.nextTag := rfl
@[simp] theorem State.write_parked (s : State) (f : Fld) (v i n k : Nat) : (s.write f v i n k).parked = s.parked := rfl
@[simp] theorem State.write_marks (s : State) (f : Fld) (v i n k : Nat) : (s.write f v i n k).marks = s.marks := rfl
@[simp] theorem State.write_mem (s : State) (f : Fld) (v i n k : Nat) : (s.write f v i n k).mem = s.mem := rfl
@[simp] theorem State.write_flt (s : State) (f : Fld) (v i n k : Nat) : (s.write f v i n k).flt = s.flt := rfl
@[simp] theorem State.write_pins (s : State) (f : Fld) (v i n k : Nat) : (s.write f v i n k).pins = s.pins := rfl
@[simp] theorem State.write_boot (s : State) (f : Fld) (v i n k : Nat) : (s.write f v i n k).boot = s.boot := rfl
@[simp] theorem State.write_ladder (s : State) (f : Fld) (v i n k : Nat) : (s.write f v i n k).ladder = s.ladder := rfl
@[simp] theorem State.write_almanac (s : State) (f : Fld) (v i n k : Nat) : (s.write f v i n k).almanac = s.almanac := rfl
@[simp] theorem State.write_presence (s : State) (f : Fld) (v i n k : Nat) : (s.write f v i n k).presence = s.presence := rfl
@[simp] theorem State.write_cps (s : State) (f : Fld) (v i n k : Nat) : (s.write f v i n k).cps = s.cps := rfl
@[simp] theorem State.write_mgmt (s : State) (f : Fld) (v i n k : Nat) : (s.write f v i n k).mgmt = s.mgmt := rfl
@[simp] theorem State.write_free (s : State) (f : Fld) (v i n k : Nat) : (s.write f v i n k).free = s.free := rfl
@[simp] theorem State.write_out (s : State) (f : Fld) (v i n k : Nat) : (s.write f v i n k).out = s.out := rfl
@[simp] theorem State.write_pending (s : State) (f : Fld) (v i n k : Nat) : (s.write f v i n k).pending = s.pending := rfl

@[simp] theorem State.event_clk (s : State) (f : Fld) (b i n : Nat) : (s.event f b i n).clk = s.clk := rfl
@[simp] theorem State.event_servo (s : State) (f : Fld) (b i n : Nat) : (s.event f b i n).servo = s.servo := rfl
@[simp] theorem State.event_xfer (s : State) (f : Fld) (b i n : Nat) : (s.event f b i n).xfer = s.xfer := rfl
@[simp] theorem State.event_core (s : State) (f : Fld) (b i n : Nat) : (s.event f b i n).core = s.core := rfl
@[simp] theorem State.event_tiles (s : State) (f : Fld) (b i n : Nat) : (s.event f b i n).tiles = s.tiles := rfl
@[simp] theorem State.event_rte (s : State) (f : Fld) (b i n : Nat) : (s.event f b i n).rte = s.rte := rfl
@[simp] theorem State.event_sched (s : State) (f : Fld) (b i n : Nat) : (s.event f b i n).sched = s.sched := rfl
@[simp] theorem State.event_telSeq (s : State) (f : Fld) (b i n : Nat) : (s.event f b i n).telSeq = s.telSeq := rfl
@[simp] theorem State.event_links (s : State) (f : Fld) (b i n : Nat) : (s.event f b i n).links = s.links := rfl
@[simp] theorem State.event_lanes (s : State) (f : Fld) (b i n : Nat) : (s.event f b i n).lanes = s.lanes := rfl
@[simp] theorem State.event_opts (s : State) (f : Fld) (b i n : Nat) : (s.event f b i n).opts = s.opts := rfl
@[simp] theorem State.event_ports (s : State) (f : Fld) (b i n : Nat) : (s.event f b i n).ports = s.ports := rfl
@[simp] theorem State.event_funcs (s : State) (f : Fld) (b i n : Nat) : (s.event f b i n).funcs = s.funcs := rfl
@[simp] theorem State.event_hports (s : State) (f : Fld) (b i n : Nat) : (s.event f b i n).hports = s.hports := rfl
@[simp] theorem State.event_engs (s : State) (f : Fld) (b i n : Nat) : (s.event f b i n).engs = s.engs := rfl
@[simp] theorem State.event_ctxs (s : State) (f : Fld) (b i n : Nat) : (s.event f b i n).ctxs = s.ctxs := rfl
@[simp] theorem State.event_ops (s : State) (f : Fld) (b i n : Nat) : (s.event f b i n).ops = s.ops := rfl
@[simp] theorem State.event_gens (s : State) (f : Fld) (b i n : Nat) : (s.event f b i n).gens = s.gens := rfl
@[simp] theorem State.event_genBase (s : State) (f : Fld) (b i n : Nat) : (s.event f b i n).genBase = s.genBase := rfl
@[simp] theorem State.event_units (s : State) (f : Fld) (b i n : Nat) : (s.event f b i n).units = s.units := rfl
@[simp] theorem State.event_reqs (s : State) (f : Fld) (b i n : Nat) : (s.event f b i n).reqs = s.reqs := rfl
@[simp] theorem State.event_nextTag (s : State) (f : Fld) (b i n : Nat) : (s.event f b i n).nextTag = s.nextTag := rfl
@[simp] theorem State.event_parked (s : State) (f : Fld) (b i n : Nat) : (s.event f b i n).parked = s.parked := rfl
@[simp] theorem State.event_marks (s : State) (f : Fld) (b i n : Nat) : (s.event f b i n).marks = s.marks := rfl
@[simp] theorem State.event_mem (s : State) (f : Fld) (b i n : Nat) : (s.event f b i n).mem = s.mem := rfl
@[simp] theorem State.event_flt (s : State) (f : Fld) (b i n : Nat) : (s.event f b i n).flt = s.flt := rfl
@[simp] theorem State.event_pins (s : State) (f : Fld) (b i n : Nat) : (s.event f b i n).pins = s.pins := rfl
@[simp] theorem State.event_boot (s : State) (f : Fld) (b i n : Nat) : (s.event f b i n).boot = s.boot := rfl
@[simp] theorem State.event_ladder (s : State) (f : Fld) (b i n : Nat) : (s.event f b i n).ladder = s.ladder := rfl
@[simp] theorem State.event_almanac (s : State) (f : Fld) (b i n : Nat) : (s.event f b i n).almanac = s.almanac := rfl
@[simp] theorem State.event_presence (s : State) (f : Fld) (b i n : Nat) : (s.event f b i n).presence = s.presence := rfl
@[simp] theorem State.event_cps (s : State) (f : Fld) (b i n : Nat) : (s.event f b i n).cps = s.cps := rfl
@[simp] theorem State.event_mgmt (s : State) (f : Fld) (b i n : Nat) : (s.event f b i n).mgmt = s.mgmt := rfl
@[simp] theorem State.event_free (s : State) (f : Fld) (b i n : Nat) : (s.event f b i n).free = s.free := rfl
@[simp] theorem State.event_out (s : State) (f : Fld) (b i n : Nat) : (s.event f b i n).out = s.out := rfl
@[simp] theorem State.event_pending (s : State) (f : Fld) (b i n : Nat) : (s.event f b i n).pending = s.pending := rfl

@[simp] theorem State.hw_clk (s : State) (f : Fld) (v i n k : Nat) : (s.hw f v i n k).clk = s.clk := by unfold State.hw; split <;> rfl
@[simp] theorem State.hw_servo (s : State) (f : Fld) (v i n k : Nat) : (s.hw f v i n k).servo = s.servo := by unfold State.hw; split <;> rfl
@[simp] theorem State.hw_xfer (s : State) (f : Fld) (v i n k : Nat) : (s.hw f v i n k).xfer = s.xfer := by unfold State.hw; split <;> rfl
@[simp] theorem State.hw_core (s : State) (f : Fld) (v i n k : Nat) : (s.hw f v i n k).core = s.core := by unfold State.hw; split <;> rfl
@[simp] theorem State.hw_tiles (s : State) (f : Fld) (v i n k : Nat) : (s.hw f v i n k).tiles = s.tiles := by unfold State.hw; split <;> rfl
@[simp] theorem State.hw_rte (s : State) (f : Fld) (v i n k : Nat) : (s.hw f v i n k).rte = s.rte := by unfold State.hw; split <;> rfl
@[simp] theorem State.hw_sched (s : State) (f : Fld) (v i n k : Nat) : (s.hw f v i n k).sched = s.sched := by unfold State.hw; split <;> rfl
@[simp] theorem State.hw_telSeq (s : State) (f : Fld) (v i n k : Nat) : (s.hw f v i n k).telSeq = s.telSeq := by unfold State.hw; split <;> rfl
@[simp] theorem State.hw_links (s : State) (f : Fld) (v i n k : Nat) : (s.hw f v i n k).links = s.links := by unfold State.hw; split <;> rfl
@[simp] theorem State.hw_lanes (s : State) (f : Fld) (v i n k : Nat) : (s.hw f v i n k).lanes = s.lanes := by unfold State.hw; split <;> rfl
@[simp] theorem State.hw_opts (s : State) (f : Fld) (v i n k : Nat) : (s.hw f v i n k).opts = s.opts := by unfold State.hw; split <;> rfl
@[simp] theorem State.hw_ports (s : State) (f : Fld) (v i n k : Nat) : (s.hw f v i n k).ports = s.ports := by unfold State.hw; split <;> rfl
@[simp] theorem State.hw_funcs (s : State) (f : Fld) (v i n k : Nat) : (s.hw f v i n k).funcs = s.funcs := by unfold State.hw; split <;> rfl
@[simp] theorem State.hw_hports (s : State) (f : Fld) (v i n k : Nat) : (s.hw f v i n k).hports = s.hports := by unfold State.hw; split <;> rfl
@[simp] theorem State.hw_engs (s : State) (f : Fld) (v i n k : Nat) : (s.hw f v i n k).engs = s.engs := by unfold State.hw; split <;> rfl
@[simp] theorem State.hw_ctxs (s : State) (f : Fld) (v i n k : Nat) : (s.hw f v i n k).ctxs = s.ctxs := by unfold State.hw; split <;> rfl
@[simp] theorem State.hw_ops (s : State) (f : Fld) (v i n k : Nat) : (s.hw f v i n k).ops = s.ops := by unfold State.hw; split <;> rfl
@[simp] theorem State.hw_gens (s : State) (f : Fld) (v i n k : Nat) : (s.hw f v i n k).gens = s.gens := by unfold State.hw; split <;> rfl
@[simp] theorem State.hw_genBase (s : State) (f : Fld) (v i n k : Nat) : (s.hw f v i n k).genBase = s.genBase := by unfold State.hw; split <;> rfl
@[simp] theorem State.hw_units (s : State) (f : Fld) (v i n k : Nat) : (s.hw f v i n k).units = s.units := by unfold State.hw; split <;> rfl
@[simp] theorem State.hw_reqs (s : State) (f : Fld) (v i n k : Nat) : (s.hw f v i n k).reqs = s.reqs := by unfold State.hw; split <;> rfl
@[simp] theorem State.hw_nextTag (s : State) (f : Fld) (v i n k : Nat) : (s.hw f v i n k).nextTag = s.nextTag := by unfold State.hw; split <;> rfl
@[simp] theorem State.hw_parked (s : State) (f : Fld) (v i n k : Nat) : (s.hw f v i n k).parked = s.parked := by unfold State.hw; split <;> rfl
@[simp] theorem State.hw_marks (s : State) (f : Fld) (v i n k : Nat) : (s.hw f v i n k).marks = s.marks := by unfold State.hw; split <;> rfl
@[simp] theorem State.hw_mem (s : State) (f : Fld) (v i n k : Nat) : (s.hw f v i n k).mem = s.mem := by unfold State.hw; split <;> rfl
@[simp] theorem State.hw_flt (s : State) (f : Fld) (v i n k : Nat) : (s.hw f v i n k).flt = s.flt := by unfold State.hw; split <;> rfl
@[simp] theorem State.hw_pins (s : State) (f : Fld) (v i n k : Nat) : (s.hw f v i n k).pins = s.pins := by unfold State.hw; split <;> rfl
@[simp] theorem State.hw_boot (s : State) (f : Fld) (v i n k : Nat) : (s.hw f v i n k).boot = s.boot := by unfold State.hw; split <;> rfl
@[simp] theorem State.hw_ladder (s : State) (f : Fld) (v i n k : Nat) : (s.hw f v i n k).ladder = s.ladder := by unfold State.hw; split <;> rfl
@[simp] theorem State.hw_almanac (s : State) (f : Fld) (v i n k : Nat) : (s.hw f v i n k).almanac = s.almanac := by unfold State.hw; split <;> rfl
@[simp] theorem State.hw_presence (s : State) (f : Fld) (v i n k : Nat) : (s.hw f v i n k).presence = s.presence := by unfold State.hw; split <;> rfl
@[simp] theorem State.hw_cps (s : State) (f : Fld) (v i n k : Nat) : (s.hw f v i n k).cps = s.cps := by unfold State.hw; split <;> rfl
@[simp] theorem State.hw_mgmt (s : State) (f : Fld) (v i n k : Nat) : (s.hw f v i n k).mgmt = s.mgmt := by unfold State.hw; split <;> rfl
@[simp] theorem State.hw_free (s : State) (f : Fld) (v i n k : Nat) : (s.hw f v i n k).free = s.free := by unfold State.hw; split <;> rfl
@[simp] theorem State.hw_out (s : State) (f : Fld) (v i n k : Nat) : (s.hw f v i n k).out = s.out := by unfold State.hw; split <;> rfl
@[simp] theorem State.hw_pending (s : State) (f : Fld) (v i n k : Nat) : (s.hw f v i n k).pending = s.pending := by unfold State.hw; split <;> rfl

@[simp] theorem State.setShadow_clk (s : State) (f : Fld) (v i n k : Nat) : (s.setShadow f v i n k).clk = s.clk := rfl
@[simp] theorem State.setShadow_servo (s : State) (f : Fld) (v i n k : Nat) : (s.setShadow f v i n k).servo = s.servo := rfl
@[simp] theorem State.setShadow_xfer (s : State) (f : Fld) (v i n k : Nat) : (s.setShadow f v i n k).xfer = s.xfer := rfl
@[simp] theorem State.setShadow_core (s : State) (f : Fld) (v i n k : Nat) : (s.setShadow f v i n k).core = s.core := rfl
@[simp] theorem State.setShadow_tiles (s : State) (f : Fld) (v i n k : Nat) : (s.setShadow f v i n k).tiles = s.tiles := rfl
@[simp] theorem State.setShadow_rte (s : State) (f : Fld) (v i n k : Nat) : (s.setShadow f v i n k).rte = s.rte := rfl
@[simp] theorem State.setShadow_sched (s : State) (f : Fld) (v i n k : Nat) : (s.setShadow f v i n k).sched = s.sched := rfl
@[simp] theorem State.setShadow_telSeq (s : State) (f : Fld) (v i n k : Nat) : (s.setShadow f v i n k).telSeq = s.telSeq := rfl
@[simp] theorem State.setShadow_links (s : State) (f : Fld) (v i n k : Nat) : (s.setShadow f v i n k).links = s.links := rfl
@[simp] theorem State.setShadow_lanes (s : State) (f : Fld) (v i n k : Nat) : (s.setShadow f v i n k).lanes = s.lanes := rfl
@[simp] theorem State.setShadow_opts (s : State) (f : Fld) (v i n k : Nat) : (s.setShadow f v i n k).opts = s.opts := rfl
@[simp] theorem State.setShadow_ports (s : State) (f : Fld) (v i n k : Nat) : (s.setShadow f v i n k).ports = s.ports := rfl
@[simp] theorem State.setShadow_funcs (s : State) (f : Fld) (v i n k : Nat) : (s.setShadow f v i n k).funcs = s.funcs := rfl
@[simp] theorem State.setShadow_hports (s : State) (f : Fld) (v i n k : Nat) : (s.setShadow f v i n k).hports = s.hports := rfl
@[simp] theorem State.setShadow_engs (s : State) (f : Fld) (v i n k : Nat) : (s.setShadow f v i n k).engs = s.engs := rfl
@[simp] theorem State.setShadow_ctxs (s : State) (f : Fld) (v i n k : Nat) : (s.setShadow f v i n k).ctxs = s.ctxs := rfl
@[simp] theorem State.setShadow_ops (s : State) (f : Fld) (v i n k : Nat) : (s.setShadow f v i n k).ops = s.ops := rfl
@[simp] theorem State.setShadow_gens (s : State) (f : Fld) (v i n k : Nat) : (s.setShadow f v i n k).gens = s.gens := rfl
@[simp] theorem State.setShadow_genBase (s : State) (f : Fld) (v i n k : Nat) : (s.setShadow f v i n k).genBase = s.genBase := rfl
@[simp] theorem State.setShadow_units (s : State) (f : Fld) (v i n k : Nat) : (s.setShadow f v i n k).units = s.units := rfl
@[simp] theorem State.setShadow_reqs (s : State) (f : Fld) (v i n k : Nat) : (s.setShadow f v i n k).reqs = s.reqs := rfl
@[simp] theorem State.setShadow_nextTag (s : State) (f : Fld) (v i n k : Nat) : (s.setShadow f v i n k).nextTag = s.nextTag := rfl
@[simp] theorem State.setShadow_parked (s : State) (f : Fld) (v i n k : Nat) : (s.setShadow f v i n k).parked = s.parked := rfl
@[simp] theorem State.setShadow_marks (s : State) (f : Fld) (v i n k : Nat) : (s.setShadow f v i n k).marks = s.marks := rfl
@[simp] theorem State.setShadow_mem (s : State) (f : Fld) (v i n k : Nat) : (s.setShadow f v i n k).mem = s.mem := rfl
@[simp] theorem State.setShadow_flt (s : State) (f : Fld) (v i n k : Nat) : (s.setShadow f v i n k).flt = s.flt := rfl
@[simp] theorem State.setShadow_pins (s : State) (f : Fld) (v i n k : Nat) : (s.setShadow f v i n k).pins = s.pins := rfl
@[simp] theorem State.setShadow_boot (s : State) (f : Fld) (v i n k : Nat) : (s.setShadow f v i n k).boot = s.boot := rfl
@[simp] theorem State.setShadow_ladder (s : State) (f : Fld) (v i n k : Nat) : (s.setShadow f v i n k).ladder = s.ladder := rfl
@[simp] theorem State.setShadow_almanac (s : State) (f : Fld) (v i n k : Nat) : (s.setShadow f v i n k).almanac = s.almanac := rfl
@[simp] theorem State.setShadow_presence (s : State) (f : Fld) (v i n k : Nat) : (s.setShadow f v i n k).presence = s.presence := rfl
@[simp] theorem State.setShadow_cps (s : State) (f : Fld) (v i n k : Nat) : (s.setShadow f v i n k).cps = s.cps := rfl
@[simp] theorem State.setShadow_mgmt (s : State) (f : Fld) (v i n k : Nat) : (s.setShadow f v i n k).mgmt = s.mgmt := rfl
@[simp] theorem State.setShadow_free (s : State) (f : Fld) (v i n k : Nat) : (s.setShadow f v i n k).free = s.free := rfl
@[simp] theorem State.setShadow_out (s : State) (f : Fld) (v i n k : Nat) : (s.setShadow f v i n k).out = s.out := rfl
@[simp] theorem State.setShadow_pending (s : State) (f : Fld) (v i n k : Nat) : (s.setShadow f v i n k).pending = s.pending := rfl

@[simp] theorem State.setWord_clk (s : State) (a v : Nat) : (s.setWord a v).clk = s.clk := rfl
@[simp] theorem State.setWord_servo (s : State) (a v : Nat) : (s.setWord a v).servo = s.servo := rfl
@[simp] theorem State.setWord_xfer (s : State) (a v : Nat) : (s.setWord a v).xfer = s.xfer := rfl
@[simp] theorem State.setWord_core (s : State) (a v : Nat) : (s.setWord a v).core = s.core := rfl
@[simp] theorem State.setWord_tiles (s : State) (a v : Nat) : (s.setWord a v).tiles = s.tiles := rfl
@[simp] theorem State.setWord_rte (s : State) (a v : Nat) : (s.setWord a v).rte = s.rte := rfl
@[simp] theorem State.setWord_sched (s : State) (a v : Nat) : (s.setWord a v).sched = s.sched := rfl
@[simp] theorem State.setWord_telSeq (s : State) (a v : Nat) : (s.setWord a v).telSeq = s.telSeq := rfl
@[simp] theorem State.setWord_links (s : State) (a v : Nat) : (s.setWord a v).links = s.links := rfl
@[simp] theorem State.setWord_lanes (s : State) (a v : Nat) : (s.setWord a v).lanes = s.lanes := rfl
@[simp] theorem State.setWord_opts (s : State) (a v : Nat) : (s.setWord a v).opts = s.opts := rfl
@[simp] theorem State.setWord_ports (s : State) (a v : Nat) : (s.setWord a v).ports = s.ports := rfl
@[simp] theorem State.setWord_funcs (s : State) (a v : Nat) : (s.setWord a v).funcs = s.funcs := rfl
@[simp] theorem State.setWord_hports (s : State) (a v : Nat) : (s.setWord a v).hports = s.hports := rfl
@[simp] theorem State.setWord_engs (s : State) (a v : Nat) : (s.setWord a v).engs = s.engs := rfl
@[simp] theorem State.setWord_ctxs (s : State) (a v : Nat) : (s.setWord a v).ctxs = s.ctxs := rfl
@[simp] theorem State.setWord_ops (s : State) (a v : Nat) : (s.setWord a v).ops = s.ops := rfl
@[simp] theorem State.setWord_gens (s : State) (a v : Nat) : (s.setWord a v).gens = s.gens := rfl
@[simp] theorem State.setWord_genBase (s : State) (a v : Nat) : (s.setWord a v).genBase = s.genBase := rfl
@[simp] theorem State.setWord_units (s : State) (a v : Nat) : (s.setWord a v).units = s.units := rfl
@[simp] theorem State.setWord_reqs (s : State) (a v : Nat) : (s.setWord a v).reqs = s.reqs := rfl
@[simp] theorem State.setWord_nextTag (s : State) (a v : Nat) : (s.setWord a v).nextTag = s.nextTag := rfl
@[simp] theorem State.setWord_parked (s : State) (a v : Nat) : (s.setWord a v).parked = s.parked := rfl
@[simp] theorem State.setWord_rf (s : State) (a v : Nat) : (s.setWord a v).rf = s.rf := rfl
@[simp] theorem State.setWord_marks (s : State) (a v : Nat) : (s.setWord a v).marks = s.marks := rfl
@[simp] theorem State.setWord_flt (s : State) (a v : Nat) : (s.setWord a v).flt = s.flt := rfl
@[simp] theorem State.setWord_pins (s : State) (a v : Nat) : (s.setWord a v).pins = s.pins := rfl
@[simp] theorem State.setWord_boot (s : State) (a v : Nat) : (s.setWord a v).boot = s.boot := rfl
@[simp] theorem State.setWord_ladder (s : State) (a v : Nat) : (s.setWord a v).ladder = s.ladder := rfl
@[simp] theorem State.setWord_almanac (s : State) (a v : Nat) : (s.setWord a v).almanac = s.almanac := rfl
@[simp] theorem State.setWord_presence (s : State) (a v : Nat) : (s.setWord a v).presence = s.presence := rfl
@[simp] theorem State.setWord_cps (s : State) (a v : Nat) : (s.setWord a v).cps = s.cps := rfl
@[simp] theorem State.setWord_mgmt (s : State) (a v : Nat) : (s.setWord a v).mgmt = s.mgmt := rfl
@[simp] theorem State.setWord_free (s : State) (a v : Nat) : (s.setWord a v).free = s.free := rfl
@[simp] theorem State.setWord_out (s : State) (a v : Nat) : (s.setWord a v).out = s.out := rfl
@[simp] theorem State.setWord_pending (s : State) (a v : Nat) : (s.setWord a v).pending = s.pending := rfl

@[simp] theorem State.emit_clk (s : State) (o : Output) : (s.emit o).clk = s.clk := rfl
@[simp] theorem State.emit_servo (s : State) (o : Output) : (s.emit o).servo = s.servo := rfl
@[simp] theorem State.emit_xfer (s : State) (o : Output) : (s.emit o).xfer = s.xfer := rfl
@[simp] theorem State.emit_core (s : State) (o : Output) : (s.emit o).core = s.core := rfl
@[simp] theorem State.emit_tiles (s : State) (o : Output) : (s.emit o).tiles = s.tiles := rfl
@[simp] theorem State.emit_rte (s : State) (o : Output) : (s.emit o).rte = s.rte := rfl
@[simp] theorem State.emit_sched (s : State) (o : Output) : (s.emit o).sched = s.sched := rfl
@[simp] theorem State.emit_telSeq (s : State) (o : Output) : (s.emit o).telSeq = s.telSeq := rfl
@[simp] theorem State.emit_links (s : State) (o : Output) : (s.emit o).links = s.links := rfl
@[simp] theorem State.emit_lanes (s : State) (o : Output) : (s.emit o).lanes = s.lanes := rfl
@[simp] theorem State.emit_opts (s : State) (o : Output) : (s.emit o).opts = s.opts := rfl
@[simp] theorem State.emit_ports (s : State) (o : Output) : (s.emit o).ports = s.ports := rfl
@[simp] theorem State.emit_funcs (s : State) (o : Output) : (s.emit o).funcs = s.funcs := rfl
@[simp] theorem State.emit_hports (s : State) (o : Output) : (s.emit o).hports = s.hports := rfl
@[simp] theorem State.emit_engs (s : State) (o : Output) : (s.emit o).engs = s.engs := rfl
@[simp] theorem State.emit_ctxs (s : State) (o : Output) : (s.emit o).ctxs = s.ctxs := rfl
@[simp] theorem State.emit_ops (s : State) (o : Output) : (s.emit o).ops = s.ops := rfl
@[simp] theorem State.emit_gens (s : State) (o : Output) : (s.emit o).gens = s.gens := rfl
@[simp] theorem State.emit_genBase (s : State) (o : Output) : (s.emit o).genBase = s.genBase := rfl
@[simp] theorem State.emit_units (s : State) (o : Output) : (s.emit o).units = s.units := rfl
@[simp] theorem State.emit_reqs (s : State) (o : Output) : (s.emit o).reqs = s.reqs := rfl
@[simp] theorem State.emit_nextTag (s : State) (o : Output) : (s.emit o).nextTag = s.nextTag := rfl
@[simp] theorem State.emit_parked (s : State) (o : Output) : (s.emit o).parked = s.parked := rfl
@[simp] theorem State.emit_rf (s : State) (o : Output) : (s.emit o).rf = s.rf := rfl
@[simp] theorem State.emit_marks (s : State) (o : Output) : (s.emit o).marks = s.marks := rfl
@[simp] theorem State.emit_mem (s : State) (o : Output) : (s.emit o).mem = s.mem := rfl
@[simp] theorem State.emit_flt (s : State) (o : Output) : (s.emit o).flt = s.flt := rfl
@[simp] theorem State.emit_pins (s : State) (o : Output) : (s.emit o).pins = s.pins := rfl
@[simp] theorem State.emit_boot (s : State) (o : Output) : (s.emit o).boot = s.boot := rfl
@[simp] theorem State.emit_ladder (s : State) (o : Output) : (s.emit o).ladder = s.ladder := rfl
@[simp] theorem State.emit_almanac (s : State) (o : Output) : (s.emit o).almanac = s.almanac := rfl
@[simp] theorem State.emit_presence (s : State) (o : Output) : (s.emit o).presence = s.presence := rfl
@[simp] theorem State.emit_cps (s : State) (o : Output) : (s.emit o).cps = s.cps := rfl
@[simp] theorem State.emit_mgmt (s : State) (o : Output) : (s.emit o).mgmt = s.mgmt := rfl
@[simp] theorem State.emit_free (s : State) (o : Output) : (s.emit o).free = s.free := rfl
@[simp] theorem State.emit_pending (s : State) (o : Output) : (s.emit o).pending = s.pending := rfl

@[simp] theorem State.mark_clk (s : State) (m p : Nat) : (s.mark m p).clk = s.clk := rfl
@[simp] theorem State.mark_servo (s : State) (m p : Nat) : (s.mark m p).servo = s.servo := rfl
@[simp] theorem State.mark_xfer (s : State) (m p : Nat) : (s.mark m p).xfer = s.xfer := rfl
@[simp] theorem State.mark_core (s : State) (m p : Nat) : (s.mark m p).core = s.core := rfl
@[simp] theorem State.mark_tiles (s : State) (m p : Nat) : (s.mark m p).tiles = s.tiles := rfl
@[simp] theorem State.mark_rte (s : State) (m p : Nat) : (s.mark m p).rte = s.rte := rfl
@[simp] theorem State.mark_sched (s : State) (m p : Nat) : (s.mark m p).sched = s.sched := rfl
@[simp] theorem State.mark_telSeq (s : State) (m p : Nat) : (s.mark m p).telSeq = s.telSeq := rfl
@[simp] theorem State.mark_links (s : State) (m p : Nat) : (s.mark m p).links = s.links := rfl
@[simp] theorem State.mark_lanes (s : State) (m p : Nat) : (s.mark m p).lanes = s.lanes := rfl
@[simp] theorem State.mark_opts (s : State) (m p : Nat) : (s.mark m p).opts = s.opts := rfl
@[simp] theorem State.mark_ports (s : State) (m p : Nat) : (s.mark m p).ports = s.ports := rfl
@[simp] theorem State.mark_funcs (s : State) (m p : Nat) : (s.mark m p).funcs = s.funcs := rfl
@[simp] theorem State.mark_hports (s : State) (m p : Nat) : (s.mark m p).hports = s.hports := rfl
@[simp] theorem State.mark_engs (s : State) (m p : Nat) : (s.mark m p).engs = s.engs := rfl
@[simp] theorem State.mark_ctxs (s : State) (m p : Nat) : (s.mark m p).ctxs = s.ctxs := rfl
@[simp] theorem State.mark_ops (s : State) (m p : Nat) : (s.mark m p).ops = s.ops := rfl
@[simp] theorem State.mark_gens (s : State) (m p : Nat) : (s.mark m p).gens = s.gens := rfl
@[simp] theorem State.mark_genBase (s : State) (m p : Nat) : (s.mark m p).genBase = s.genBase := rfl
@[simp] theorem State.mark_units (s : State) (m p : Nat) : (s.mark m p).units = s.units := rfl
@[simp] theorem State.mark_reqs (s : State) (m p : Nat) : (s.mark m p).reqs = s.reqs := rfl
@[simp] theorem State.mark_nextTag (s : State) (m p : Nat) : (s.mark m p).nextTag = s.nextTag := rfl
@[simp] theorem State.mark_parked (s : State) (m p : Nat) : (s.mark m p).parked = s.parked := rfl
@[simp] theorem State.mark_rf (s : State) (m p : Nat) : (s.mark m p).rf = s.rf := rfl
@[simp] theorem State.mark_mem (s : State) (m p : Nat) : (s.mark m p).mem = s.mem := rfl
@[simp] theorem State.mark_flt (s : State) (m p : Nat) : (s.mark m p).flt = s.flt := rfl
@[simp] theorem State.mark_pins (s : State) (m p : Nat) : (s.mark m p).pins = s.pins := rfl
@[simp] theorem State.mark_boot (s : State) (m p : Nat) : (s.mark m p).boot = s.boot := rfl
@[simp] theorem State.mark_ladder (s : State) (m p : Nat) : (s.mark m p).ladder = s.ladder := rfl
@[simp] theorem State.mark_almanac (s : State) (m p : Nat) : (s.mark m p).almanac = s.almanac := rfl
@[simp] theorem State.mark_presence (s : State) (m p : Nat) : (s.mark m p).presence = s.presence := rfl
@[simp] theorem State.mark_cps (s : State) (m p : Nat) : (s.mark m p).cps = s.cps := rfl
@[simp] theorem State.mark_mgmt (s : State) (m p : Nat) : (s.mark m p).mgmt = s.mgmt := rfl
@[simp] theorem State.mark_free (s : State) (m p : Nat) : (s.mark m p).free = s.free := rfl
@[simp] theorem State.mark_out (s : State) (m p : Nat) : (s.mark m p).out = s.out := rfl
@[simp] theorem State.mark_pending (s : State) (m p : Nat) : (s.mark m p).pending = s.pending := rfl

@[simp] theorem State.drawn_clk (s : State) : (s.drawn).clk = s.clk := rfl
@[simp] theorem State.drawn_servo (s : State) : (s.drawn).servo = s.servo := rfl
@[simp] theorem State.drawn_xfer (s : State) : (s.drawn).xfer = s.xfer := rfl
@[simp] theorem State.drawn_core (s : State) : (s.drawn).core = s.core := rfl
@[simp] theorem State.drawn_tiles (s : State) : (s.drawn).tiles = s.tiles := rfl
@[simp] theorem State.drawn_rte (s : State) : (s.drawn).rte = s.rte := rfl
@[simp] theorem State.drawn_sched (s : State) : (s.drawn).sched = s.sched := rfl
@[simp] theorem State.drawn_telSeq (s : State) : (s.drawn).telSeq = s.telSeq := rfl
@[simp] theorem State.drawn_links (s : State) : (s.drawn).links = s.links := rfl
@[simp] theorem State.drawn_lanes (s : State) : (s.drawn).lanes = s.lanes := rfl
@[simp] theorem State.drawn_opts (s : State) : (s.drawn).opts = s.opts := rfl
@[simp] theorem State.drawn_ports (s : State) : (s.drawn).ports = s.ports := rfl
@[simp] theorem State.drawn_funcs (s : State) : (s.drawn).funcs = s.funcs := rfl
@[simp] theorem State.drawn_hports (s : State) : (s.drawn).hports = s.hports := rfl
@[simp] theorem State.drawn_engs (s : State) : (s.drawn).engs = s.engs := rfl
@[simp] theorem State.drawn_ctxs (s : State) : (s.drawn).ctxs = s.ctxs := rfl
@[simp] theorem State.drawn_ops (s : State) : (s.drawn).ops = s.ops := rfl
@[simp] theorem State.drawn_gens (s : State) : (s.drawn).gens = s.gens := rfl
@[simp] theorem State.drawn_genBase (s : State) : (s.drawn).genBase = s.genBase := rfl
@[simp] theorem State.drawn_units (s : State) : (s.drawn).units = s.units := rfl
@[simp] theorem State.drawn_reqs (s : State) : (s.drawn).reqs = s.reqs := rfl
@[simp] theorem State.drawn_nextTag (s : State) : (s.drawn).nextTag = s.nextTag := rfl
@[simp] theorem State.drawn_parked (s : State) : (s.drawn).parked = s.parked := rfl
@[simp] theorem State.drawn_rf (s : State) : (s.drawn).rf = s.rf := rfl
@[simp] theorem State.drawn_marks (s : State) : (s.drawn).marks = s.marks := rfl
@[simp] theorem State.drawn_mem (s : State) : (s.drawn).mem = s.mem := rfl
@[simp] theorem State.drawn_flt (s : State) : (s.drawn).flt = s.flt := rfl
@[simp] theorem State.drawn_pins (s : State) : (s.drawn).pins = s.pins := rfl
@[simp] theorem State.drawn_boot (s : State) : (s.drawn).boot = s.boot := rfl
@[simp] theorem State.drawn_ladder (s : State) : (s.drawn).ladder = s.ladder := rfl
@[simp] theorem State.drawn_almanac (s : State) : (s.drawn).almanac = s.almanac := rfl
@[simp] theorem State.drawn_presence (s : State) : (s.drawn).presence = s.presence := rfl
@[simp] theorem State.drawn_cps (s : State) : (s.drawn).cps = s.cps := rfl
@[simp] theorem State.drawn_mgmt (s : State) : (s.drawn).mgmt = s.mgmt := rfl
@[simp] theorem State.drawn_out (s : State) : (s.drawn).out = s.out := rfl
@[simp] theorem State.drawn_pending (s : State) : (s.drawn).pending = s.pending := rfl

@[simp] theorem State.almTouch_clk (s : State) : (s.almTouch).clk = s.clk := rfl
@[simp] theorem State.almTouch_servo (s : State) : (s.almTouch).servo = s.servo := rfl
@[simp] theorem State.almTouch_xfer (s : State) : (s.almTouch).xfer = s.xfer := rfl
@[simp] theorem State.almTouch_core (s : State) : (s.almTouch).core = s.core := rfl
@[simp] theorem State.almTouch_tiles (s : State) : (s.almTouch).tiles = s.tiles := rfl
@[simp] theorem State.almTouch_rte (s : State) : (s.almTouch).rte = s.rte := rfl
@[simp] theorem State.almTouch_sched (s : State) : (s.almTouch).sched = s.sched := rfl
@[simp] theorem State.almTouch_telSeq (s : State) : (s.almTouch).telSeq = s.telSeq := rfl
@[simp] theorem State.almTouch_links (s : State) : (s.almTouch).links = s.links := rfl
@[simp] theorem State.almTouch_lanes (s : State) : (s.almTouch).lanes = s.lanes := rfl
@[simp] theorem State.almTouch_opts (s : State) : (s.almTouch).opts = s.opts := rfl
@[simp] theorem State.almTouch_ports (s : State) : (s.almTouch).ports = s.ports := rfl
@[simp] theorem State.almTouch_funcs (s : State) : (s.almTouch).funcs = s.funcs := rfl
@[simp] theorem State.almTouch_hports (s : State) : (s.almTouch).hports = s.hports := rfl
@[simp] theorem State.almTouch_engs (s : State) : (s.almTouch).engs = s.engs := rfl
@[simp] theorem State.almTouch_ctxs (s : State) : (s.almTouch).ctxs = s.ctxs := rfl
@[simp] theorem State.almTouch_ops (s : State) : (s.almTouch).ops = s.ops := rfl
@[simp] theorem State.almTouch_gens (s : State) : (s.almTouch).gens = s.gens := rfl
@[simp] theorem State.almTouch_genBase (s : State) : (s.almTouch).genBase = s.genBase := rfl
@[simp] theorem State.almTouch_units (s : State) : (s.almTouch).units = s.units := rfl
@[simp] theorem State.almTouch_reqs (s : State) : (s.almTouch).reqs = s.reqs := rfl
@[simp] theorem State.almTouch_nextTag (s : State) : (s.almTouch).nextTag = s.nextTag := rfl
@[simp] theorem State.almTouch_parked (s : State) : (s.almTouch).parked = s.parked := rfl
@[simp] theorem State.almTouch_rf (s : State) : (s.almTouch).rf = s.rf := rfl
@[simp] theorem State.almTouch_marks (s : State) : (s.almTouch).marks = s.marks := rfl
@[simp] theorem State.almTouch_mem (s : State) : (s.almTouch).mem = s.mem := rfl
@[simp] theorem State.almTouch_flt (s : State) : (s.almTouch).flt = s.flt := rfl
@[simp] theorem State.almTouch_pins (s : State) : (s.almTouch).pins = s.pins := rfl
@[simp] theorem State.almTouch_boot (s : State) : (s.almTouch).boot = s.boot := rfl
@[simp] theorem State.almTouch_ladder (s : State) : (s.almTouch).ladder = s.ladder := rfl
@[simp] theorem State.almTouch_presence (s : State) : (s.almTouch).presence = s.presence := rfl
@[simp] theorem State.almTouch_cps (s : State) : (s.almTouch).cps = s.cps := rfl
@[simp] theorem State.almTouch_mgmt (s : State) : (s.almTouch).mgmt = s.mgmt := rfl
@[simp] theorem State.almTouch_free (s : State) : (s.almTouch).free = s.free := rfl
@[simp] theorem State.almTouch_out (s : State) : (s.almTouch).out = s.out := rfl
@[simp] theorem State.almTouch_pending (s : State) : (s.almTouch).pending = s.pending := rfl

@[simp] theorem State.modTile_clk (s : State) (t : Nat) (g : Tile → Tile) : (s.modTile t g).clk = s.clk := rfl
@[simp] theorem State.modTile_servo (s : State) (t : Nat) (g : Tile → Tile) : (s.modTile t g).servo = s.servo := rfl
@[simp] theorem State.modTile_xfer (s : State) (t : Nat) (g : Tile → Tile) : (s.modTile t g).xfer = s.xfer := rfl
@[simp] theorem State.modTile_core (s : State) (t : Nat) (g : Tile → Tile) : (s.modTile t g).core = s.core := rfl
@[simp] theorem State.modTile_rte (s : State) (t : Nat) (g : Tile → Tile) : (s.modTile t g).rte = s.rte := rfl
@[simp] theorem State.modTile_sched (s : State) (t : Nat) (g : Tile → Tile) : (s.modTile t g).sched = s.sched := rfl
@[simp] theorem State.modTile_telSeq (s : State) (t : Nat) (g : Tile → Tile) : (s.modTile t g).telSeq = s.telSeq := rfl
@[simp] theorem State.modTile_links (s : State) (t : Nat) (g : Tile → Tile) : (s.modTile t g).links = s.links := rfl
@[simp] theorem State.modTile_lanes (s : State) (t : Nat) (g : Tile → Tile) : (s.modTile t g).lanes = s.lanes := rfl
@[simp] theorem State.modTile_opts (s : State) (t : Nat) (g : Tile → Tile) : (s.modTile t g).opts = s.opts := rfl
@[simp] theorem State.modTile_ports (s : State) (t : Nat) (g : Tile → Tile) : (s.modTile t g).ports = s.ports := rfl
@[simp] theorem State.modTile_funcs (s : State) (t : Nat) (g : Tile → Tile) : (s.modTile t g).funcs = s.funcs := rfl
@[simp] theorem State.modTile_hports (s : State) (t : Nat) (g : Tile → Tile) : (s.modTile t g).hports = s.hports := rfl
@[simp] theorem State.modTile_engs (s : State) (t : Nat) (g : Tile → Tile) : (s.modTile t g).engs = s.engs := rfl
@[simp] theorem State.modTile_ctxs (s : State) (t : Nat) (g : Tile → Tile) : (s.modTile t g).ctxs = s.ctxs := rfl
@[simp] theorem State.modTile_ops (s : State) (t : Nat) (g : Tile → Tile) : (s.modTile t g).ops = s.ops := rfl
@[simp] theorem State.modTile_gens (s : State) (t : Nat) (g : Tile → Tile) : (s.modTile t g).gens = s.gens := rfl
@[simp] theorem State.modTile_genBase (s : State) (t : Nat) (g : Tile → Tile) : (s.modTile t g).genBase = s.genBase := rfl
@[simp] theorem State.modTile_units (s : State) (t : Nat) (g : Tile → Tile) : (s.modTile t g).units = s.units := rfl
@[simp] theorem State.modTile_reqs (s : State) (t : Nat) (g : Tile → Tile) : (s.modTile t g).reqs = s.reqs := rfl
@[simp] theorem State.modTile_nextTag (s : State) (t : Nat) (g : Tile → Tile) : (s.modTile t g).nextTag = s.nextTag := rfl
@[simp] theorem State.modTile_parked (s : State) (t : Nat) (g : Tile → Tile) : (s.modTile t g).parked = s.parked := rfl
@[simp] theorem State.modTile_rf (s : State) (t : Nat) (g : Tile → Tile) : (s.modTile t g).rf = s.rf := rfl
@[simp] theorem State.modTile_marks (s : State) (t : Nat) (g : Tile → Tile) : (s.modTile t g).marks = s.marks := rfl
@[simp] theorem State.modTile_mem (s : State) (t : Nat) (g : Tile → Tile) : (s.modTile t g).mem = s.mem := rfl
@[simp] theorem State.modTile_flt (s : State) (t : Nat) (g : Tile → Tile) : (s.modTile t g).flt = s.flt := rfl
@[simp] theorem State.modTile_pins (s : State) (t : Nat) (g : Tile → Tile) : (s.modTile t g).pins = s.pins := rfl
@[simp] theorem State.modTile_boot (s : State) (t : Nat) (g : Tile → Tile) : (s.modTile t g).boot = s.boot := rfl
@[simp] theorem State.modTile_ladder (s : State) (t : Nat) (g : Tile → Tile) : (s.modTile t g).ladder = s.ladder := rfl
@[simp] theorem State.modTile_almanac (s : State) (t : Nat) (g : Tile → Tile) : (s.modTile t g).almanac = s.almanac := rfl
@[simp] theorem State.modTile_presence (s : State) (t : Nat) (g : Tile → Tile) : (s.modTile t g).presence = s.presence := rfl
@[simp] theorem State.modTile_cps (s : State) (t : Nat) (g : Tile → Tile) : (s.modTile t g).cps = s.cps := rfl
@[simp] theorem State.modTile_mgmt (s : State) (t : Nat) (g : Tile → Tile) : (s.modTile t g).mgmt = s.mgmt := rfl
@[simp] theorem State.modTile_free (s : State) (t : Nat) (g : Tile → Tile) : (s.modTile t g).free = s.free := rfl
@[simp] theorem State.modTile_out (s : State) (t : Nat) (g : Tile → Tile) : (s.modTile t g).out = s.out := rfl
@[simp] theorem State.modTile_pending (s : State) (t : Nat) (g : Tile → Tile) : (s.modTile t g).pending = s.pending := rfl

@[simp] theorem State.modLink_clk (s : State) (p : Nat) (g : LinkSt → LinkSt) : (s.modLink p g).clk = s.clk := rfl
@[simp] theorem State.modLink_servo (s : State) (p : Nat) (g : LinkSt → LinkSt) : (s.modLink p g).servo = s.servo := rfl
@[simp] theorem State.modLink_xfer (s : State) (p : Nat) (g : LinkSt → LinkSt) : (s.modLink p g).xfer = s.xfer := rfl
@[simp] theorem State.modLink_core (s : State) (p : Nat) (g : LinkSt → LinkSt) : (s.modLink p g).core = s.core := rfl
@[simp] theorem State.modLink_tiles (s : State) (p : Nat) (g : LinkSt → LinkSt) : (s.modLink p g).tiles = s.tiles := rfl
@[simp] theorem State.modLink_rte (s : State) (p : Nat) (g : LinkSt → LinkSt) : (s.modLink p g).rte = s.rte := rfl
@[simp] theorem State.modLink_sched (s : State) (p : Nat) (g : LinkSt → LinkSt) : (s.modLink p g).sched = s.sched := rfl
@[simp] theorem State.modLink_telSeq (s : State) (p : Nat) (g : LinkSt → LinkSt) : (s.modLink p g).telSeq = s.telSeq := rfl
@[simp] theorem State.modLink_lanes (s : State) (p : Nat) (g : LinkSt → LinkSt) : (s.modLink p g).lanes = s.lanes := rfl
@[simp] theorem State.modLink_opts (s : State) (p : Nat) (g : LinkSt → LinkSt) : (s.modLink p g).opts = s.opts := rfl
@[simp] theorem State.modLink_ports (s : State) (p : Nat) (g : LinkSt → LinkSt) : (s.modLink p g).ports = s.ports := rfl
@[simp] theorem State.modLink_funcs (s : State) (p : Nat) (g : LinkSt → LinkSt) : (s.modLink p g).funcs = s.funcs := rfl
@[simp] theorem State.modLink_hports (s : State) (p : Nat) (g : LinkSt → LinkSt) : (s.modLink p g).hports = s.hports := rfl
@[simp] theorem State.modLink_engs (s : State) (p : Nat) (g : LinkSt → LinkSt) : (s.modLink p g).engs = s.engs := rfl
@[simp] theorem State.modLink_ctxs (s : State) (p : Nat) (g : LinkSt → LinkSt) : (s.modLink p g).ctxs = s.ctxs := rfl
@[simp] theorem State.modLink_ops (s : State) (p : Nat) (g : LinkSt → LinkSt) : (s.modLink p g).ops = s.ops := rfl
@[simp] theorem State.modLink_gens (s : State) (p : Nat) (g : LinkSt → LinkSt) : (s.modLink p g).gens = s.gens := rfl
@[simp] theorem State.modLink_genBase (s : State) (p : Nat) (g : LinkSt → LinkSt) : (s.modLink p g).genBase = s.genBase := rfl
@[simp] theorem State.modLink_units (s : State) (p : Nat) (g : LinkSt → LinkSt) : (s.modLink p g).units = s.units := rfl
@[simp] theorem State.modLink_reqs (s : State) (p : Nat) (g : LinkSt → LinkSt) : (s.modLink p g).reqs = s.reqs := rfl
@[simp] theorem State.modLink_nextTag (s : State) (p : Nat) (g : LinkSt → LinkSt) : (s.modLink p g).nextTag = s.nextTag := rfl
@[simp] theorem State.modLink_parked (s : State) (p : Nat) (g : LinkSt → LinkSt) : (s.modLink p g).parked = s.parked := rfl
@[simp] theorem State.modLink_rf (s : State) (p : Nat) (g : LinkSt → LinkSt) : (s.modLink p g).rf = s.rf := rfl
@[simp] theorem State.modLink_marks (s : State) (p : Nat) (g : LinkSt → LinkSt) : (s.modLink p g).marks = s.marks := rfl
@[simp] theorem State.modLink_mem (s : State) (p : Nat) (g : LinkSt → LinkSt) : (s.modLink p g).mem = s.mem := rfl
@[simp] theorem State.modLink_flt (s : State) (p : Nat) (g : LinkSt → LinkSt) : (s.modLink p g).flt = s.flt := rfl
@[simp] theorem State.modLink_pins (s : State) (p : Nat) (g : LinkSt → LinkSt) : (s.modLink p g).pins = s.pins := rfl
@[simp] theorem State.modLink_boot (s : State) (p : Nat) (g : LinkSt → LinkSt) : (s.modLink p g).boot = s.boot := rfl
@[simp] theorem State.modLink_ladder (s : State) (p : Nat) (g : LinkSt → LinkSt) : (s.modLink p g).ladder = s.ladder := rfl
@[simp] theorem State.modLink_almanac (s : State) (p : Nat) (g : LinkSt → LinkSt) : (s.modLink p g).almanac = s.almanac := rfl
@[simp] theorem State.modLink_presence (s : State) (p : Nat) (g : LinkSt → LinkSt) : (s.modLink p g).presence = s.presence := rfl
@[simp] theorem State.modLink_cps (s : State) (p : Nat) (g : LinkSt → LinkSt) : (s.modLink p g).cps = s.cps := rfl
@[simp] theorem State.modLink_mgmt (s : State) (p : Nat) (g : LinkSt → LinkSt) : (s.modLink p g).mgmt = s.mgmt := rfl
@[simp] theorem State.modLink_free (s : State) (p : Nat) (g : LinkSt → LinkSt) : (s.modLink p g).free = s.free := rfl
@[simp] theorem State.modLink_out (s : State) (p : Nat) (g : LinkSt → LinkSt) : (s.modLink p g).out = s.out := rfl
@[simp] theorem State.modLink_pending (s : State) (p : Nat) (g : LinkSt → LinkSt) : (s.modLink p g).pending = s.pending := rfl

@[simp] theorem State.modPort_clk (s : State) (p : Nat) (g : PortSt → PortSt) : (s.modPort p g).clk = s.clk := rfl
@[simp] theorem State.modPort_servo (s : State) (p : Nat) (g : PortSt → PortSt) : (s.modPort p g).servo = s.servo := rfl
@[simp] theorem State.modPort_xfer (s : State) (p : Nat) (g : PortSt → PortSt) : (s.modPort p g).xfer = s.xfer := rfl
@[simp] theorem State.modPort_core (s : State) (p : Nat) (g : PortSt → PortSt) : (s.modPort p g).core = s.core := rfl
@[simp] theorem State.modPort_tiles (s : State) (p : Nat) (g : PortSt → PortSt) : (s.modPort p g).tiles = s.tiles := rfl
@[simp] theorem State.modPort_rte (s : State) (p : Nat) (g : PortSt → PortSt) : (s.modPort p g).rte = s.rte := rfl
@[simp] theorem State.modPort_sched (s : State) (p : Nat) (g : PortSt → PortSt) : (s.modPort p g).sched = s.sched := rfl
@[simp] theorem State.modPort_telSeq (s : State) (p : Nat) (g : PortSt → PortSt) : (s.modPort p g).telSeq = s.telSeq := rfl
@[simp] theorem State.modPort_links (s : State) (p : Nat) (g : PortSt → PortSt) : (s.modPort p g).links = s.links := rfl
@[simp] theorem State.modPort_lanes (s : State) (p : Nat) (g : PortSt → PortSt) : (s.modPort p g).lanes = s.lanes := rfl
@[simp] theorem State.modPort_opts (s : State) (p : Nat) (g : PortSt → PortSt) : (s.modPort p g).opts = s.opts := rfl
@[simp] theorem State.modPort_funcs (s : State) (p : Nat) (g : PortSt → PortSt) : (s.modPort p g).funcs = s.funcs := rfl
@[simp] theorem State.modPort_hports (s : State) (p : Nat) (g : PortSt → PortSt) : (s.modPort p g).hports = s.hports := rfl
@[simp] theorem State.modPort_engs (s : State) (p : Nat) (g : PortSt → PortSt) : (s.modPort p g).engs = s.engs := rfl
@[simp] theorem State.modPort_ctxs (s : State) (p : Nat) (g : PortSt → PortSt) : (s.modPort p g).ctxs = s.ctxs := rfl
@[simp] theorem State.modPort_ops (s : State) (p : Nat) (g : PortSt → PortSt) : (s.modPort p g).ops = s.ops := rfl
@[simp] theorem State.modPort_gens (s : State) (p : Nat) (g : PortSt → PortSt) : (s.modPort p g).gens = s.gens := rfl
@[simp] theorem State.modPort_genBase (s : State) (p : Nat) (g : PortSt → PortSt) : (s.modPort p g).genBase = s.genBase := rfl
@[simp] theorem State.modPort_units (s : State) (p : Nat) (g : PortSt → PortSt) : (s.modPort p g).units = s.units := rfl
@[simp] theorem State.modPort_reqs (s : State) (p : Nat) (g : PortSt → PortSt) : (s.modPort p g).reqs = s.reqs := rfl
@[simp] theorem State.modPort_nextTag (s : State) (p : Nat) (g : PortSt → PortSt) : (s.modPort p g).nextTag = s.nextTag := rfl
@[simp] theorem State.modPort_parked (s : State) (p : Nat) (g : PortSt → PortSt) : (s.modPort p g).parked = s.parked := rfl
@[simp] theorem State.modPort_rf (s : State) (p : Nat) (g : PortSt → PortSt) : (s.modPort p g).rf = s.rf := rfl
@[simp] theorem State.modPort_marks (s : State) (p : Nat) (g : PortSt → PortSt) : (s.modPort p g).marks = s.marks := rfl
@[simp] theorem State.modPort_mem (s : State) (p : Nat) (g : PortSt → PortSt) : (s.modPort p g).mem = s.mem := rfl
@[simp] theorem State.modPort_flt (s : State) (p : Nat) (g : PortSt → PortSt) : (s.modPort p g).flt = s.flt := rfl
@[simp] theorem State.modPort_pins (s : State) (p : Nat) (g : PortSt → PortSt) : (s.modPort p g).pins = s.pins := rfl
@[simp] theorem State.modPort_boot (s : State) (p : Nat) (g : PortSt → PortSt) : (s.modPort p g).boot = s.boot := rfl
@[simp] theorem State.modPort_ladder (s : State) (p : Nat) (g : PortSt → PortSt) : (s.modPort p g).ladder = s.ladder := rfl
@[simp] theorem State.modPort_almanac (s : State) (p : Nat) (g : PortSt → PortSt) : (s.modPort p g).almanac = s.almanac := rfl
@[simp] theorem State.modPort_presence (s : State) (p : Nat) (g : PortSt → PortSt) : (s.modPort p g).presence = s.presence := rfl
@[simp] theorem State.modPort_cps (s : State) (p : Nat) (g : PortSt → PortSt) : (s.modPort p g).cps = s.cps := rfl
@[simp] theorem State.modPort_mgmt (s : State) (p : Nat) (g : PortSt → PortSt) : (s.modPort p g).mgmt = s.mgmt := rfl
@[simp] theorem State.modPort_free (s : State) (p : Nat) (g : PortSt → PortSt) : (s.modPort p g).free = s.free := rfl
@[simp] theorem State.modPort_out (s : State) (p : Nat) (g : PortSt → PortSt) : (s.modPort p g).out = s.out := rfl
@[simp] theorem State.modPort_pending (s : State) (p : Nat) (g : PortSt → PortSt) : (s.modPort p g).pending = s.pending := rfl

@[simp] theorem State.modLane_clk (s : State) (l : Nat) (g : LaneSt → LaneSt) : (s.modLane l g).clk = s.clk := rfl
@[simp] theorem State.modLane_servo (s : State) (l : Nat) (g : LaneSt → LaneSt) : (s.modLane l g).servo = s.servo := rfl
@[simp] theorem State.modLane_xfer (s : State) (l : Nat) (g : LaneSt → LaneSt) : (s.modLane l g).xfer = s.xfer := rfl
@[simp] theorem State.modLane_core (s : State) (l : Nat) (g : LaneSt → LaneSt) : (s.modLane l g).core = s.core := rfl
@[simp] theorem State.modLane_tiles (s : State) (l : Nat) (g : LaneSt → LaneSt) : (s.modLane l g).tiles = s.tiles := rfl
@[simp] theorem State.modLane_rte (s : State) (l : Nat) (g : LaneSt → LaneSt) : (s.modLane l g).rte = s.rte := rfl
@[simp] theorem State.modLane_sched (s : State) (l : Nat) (g : LaneSt → LaneSt) : (s.modLane l g).sched = s.sched := rfl
@[simp] theorem State.modLane_telSeq (s : State) (l : Nat) (g : LaneSt → LaneSt) : (s.modLane l g).telSeq = s.telSeq := rfl
@[simp] theorem State.modLane_links (s : State) (l : Nat) (g : LaneSt → LaneSt) : (s.modLane l g).links = s.links := rfl
@[simp] theorem State.modLane_opts (s : State) (l : Nat) (g : LaneSt → LaneSt) : (s.modLane l g).opts = s.opts := rfl
@[simp] theorem State.modLane_ports (s : State) (l : Nat) (g : LaneSt → LaneSt) : (s.modLane l g).ports = s.ports := rfl
@[simp] theorem State.modLane_funcs (s : State) (l : Nat) (g : LaneSt → LaneSt) : (s.modLane l g).funcs = s.funcs := rfl
@[simp] theorem State.modLane_hports (s : State) (l : Nat) (g : LaneSt → LaneSt) : (s.modLane l g).hports = s.hports := rfl
@[simp] theorem State.modLane_engs (s : State) (l : Nat) (g : LaneSt → LaneSt) : (s.modLane l g).engs = s.engs := rfl
@[simp] theorem State.modLane_ctxs (s : State) (l : Nat) (g : LaneSt → LaneSt) : (s.modLane l g).ctxs = s.ctxs := rfl
@[simp] theorem State.modLane_ops (s : State) (l : Nat) (g : LaneSt → LaneSt) : (s.modLane l g).ops = s.ops := rfl
@[simp] theorem State.modLane_gens (s : State) (l : Nat) (g : LaneSt → LaneSt) : (s.modLane l g).gens = s.gens := rfl
@[simp] theorem State.modLane_genBase (s : State) (l : Nat) (g : LaneSt → LaneSt) : (s.modLane l g).genBase = s.genBase := rfl
@[simp] theorem State.modLane_units (s : State) (l : Nat) (g : LaneSt → LaneSt) : (s.modLane l g).units = s.units := rfl
@[simp] theorem State.modLane_reqs (s : State) (l : Nat) (g : LaneSt → LaneSt) : (s.modLane l g).reqs = s.reqs := rfl
@[simp] theorem State.modLane_nextTag (s : State) (l : Nat) (g : LaneSt → LaneSt) : (s.modLane l g).nextTag = s.nextTag := rfl
@[simp] theorem State.modLane_parked (s : State) (l : Nat) (g : LaneSt → LaneSt) : (s.modLane l g).parked = s.parked := rfl
@[simp] theorem State.modLane_rf (s : State) (l : Nat) (g : LaneSt → LaneSt) : (s.modLane l g).rf = s.rf := rfl
@[simp] theorem State.modLane_marks (s : State) (l : Nat) (g : LaneSt → LaneSt) : (s.modLane l g).marks = s.marks := rfl
@[simp] theorem State.modLane_mem (s : State) (l : Nat) (g : LaneSt → LaneSt) : (s.modLane l g).mem = s.mem := rfl
@[simp] theorem State.modLane_flt (s : State) (l : Nat) (g : LaneSt → LaneSt) : (s.modLane l g).flt = s.flt := rfl
@[simp] theorem State.modLane_pins (s : State) (l : Nat) (g : LaneSt → LaneSt) : (s.modLane l g).pins = s.pins := rfl
@[simp] theorem State.modLane_boot (s : State) (l : Nat) (g : LaneSt → LaneSt) : (s.modLane l g).boot = s.boot := rfl
@[simp] theorem State.modLane_ladder (s : State) (l : Nat) (g : LaneSt → LaneSt) : (s.modLane l g).ladder = s.ladder := rfl
@[simp] theorem State.modLane_almanac (s : State) (l : Nat) (g : LaneSt → LaneSt) : (s.modLane l g).almanac = s.almanac := rfl
@[simp] theorem State.modLane_presence (s : State) (l : Nat) (g : LaneSt → LaneSt) : (s.modLane l g).presence = s.presence := rfl
@[simp] theorem State.modLane_cps (s : State) (l : Nat) (g : LaneSt → LaneSt) : (s.modLane l g).cps = s.cps := rfl
@[simp] theorem State.modLane_mgmt (s : State) (l : Nat) (g : LaneSt → LaneSt) : (s.modLane l g).mgmt = s.mgmt := rfl
@[simp] theorem State.modLane_free (s : State) (l : Nat) (g : LaneSt → LaneSt) : (s.modLane l g).free = s.free := rfl
@[simp] theorem State.modLane_out (s : State) (l : Nat) (g : LaneSt → LaneSt) : (s.modLane l g).out = s.out := rfl
@[simp] theorem State.modLane_pending (s : State) (l : Nat) (g : LaneSt → LaneSt) : (s.modLane l g).pending = s.pending := rfl

@[simp] theorem State.modOpt_clk (s : State) (e : Nat) (g : OptSt → OptSt) : (s.modOpt e g).clk = s.clk := rfl
@[simp] theorem State.modOpt_servo (s : State) (e : Nat) (g : OptSt → OptSt) : (s.modOpt e g).servo = s.servo := rfl
@[simp] theorem State.modOpt_xfer (s : State) (e : Nat) (g : OptSt → OptSt) : (s.modOpt e g).xfer = s.xfer := rfl
@[simp] theorem State.modOpt_core (s : State) (e : Nat) (g : OptSt → OptSt) : (s.modOpt e g).core = s.core := rfl
@[simp] theorem State.modOpt_tiles (s : State) (e : Nat) (g : OptSt → OptSt) : (s.modOpt e g).tiles = s.tiles := rfl
@[simp] theorem State.modOpt_rte (s : State) (e : Nat) (g : OptSt → OptSt) : (s.modOpt e g).rte = s.rte := rfl
@[simp] theorem State.modOpt_sched (s : State) (e : Nat) (g : OptSt → OptSt) : (s.modOpt e g).sched = s.sched := rfl
@[simp] theorem State.modOpt_telSeq (s : State) (e : Nat) (g : OptSt → OptSt) : (s.modOpt e g).telSeq = s.telSeq := rfl
@[simp] theorem State.modOpt_links (s : State) (e : Nat) (g : OptSt → OptSt) : (s.modOpt e g).links = s.links := rfl
@[simp] theorem State.modOpt_lanes (s : State) (e : Nat) (g : OptSt → OptSt) : (s.modOpt e g).lanes = s.lanes := rfl
@[simp] theorem State.modOpt_ports (s : State) (e : Nat) (g : OptSt → OptSt) : (s.modOpt e g).ports = s.ports := rfl
@[simp] theorem State.modOpt_funcs (s : State) (e : Nat) (g : OptSt → OptSt) : (s.modOpt e g).funcs = s.funcs := rfl
@[simp] theorem State.modOpt_hports (s : State) (e : Nat) (g : OptSt → OptSt) : (s.modOpt e g).hports = s.hports := rfl
@[simp] theorem State.modOpt_engs (s : State) (e : Nat) (g : OptSt → OptSt) : (s.modOpt e g).engs = s.engs := rfl
@[simp] theorem State.modOpt_ctxs (s : State) (e : Nat) (g : OptSt → OptSt) : (s.modOpt e g).ctxs = s.ctxs := rfl
@[simp] theorem State.modOpt_ops (s : State) (e : Nat) (g : OptSt → OptSt) : (s.modOpt e g).ops = s.ops := rfl
@[simp] theorem State.modOpt_gens (s : State) (e : Nat) (g : OptSt → OptSt) : (s.modOpt e g).gens = s.gens := rfl
@[simp] theorem State.modOpt_genBase (s : State) (e : Nat) (g : OptSt → OptSt) : (s.modOpt e g).genBase = s.genBase := rfl
@[simp] theorem State.modOpt_units (s : State) (e : Nat) (g : OptSt → OptSt) : (s.modOpt e g).units = s.units := rfl
@[simp] theorem State.modOpt_reqs (s : State) (e : Nat) (g : OptSt → OptSt) : (s.modOpt e g).reqs = s.reqs := rfl
@[simp] theorem State.modOpt_nextTag (s : State) (e : Nat) (g : OptSt → OptSt) : (s.modOpt e g).nextTag = s.nextTag := rfl
@[simp] theorem State.modOpt_parked (s : State) (e : Nat) (g : OptSt → OptSt) : (s.modOpt e g).parked = s.parked := rfl
@[simp] theorem State.modOpt_rf (s : State) (e : Nat) (g : OptSt → OptSt) : (s.modOpt e g).rf = s.rf := rfl
@[simp] theorem State.modOpt_marks (s : State) (e : Nat) (g : OptSt → OptSt) : (s.modOpt e g).marks = s.marks := rfl
@[simp] theorem State.modOpt_mem (s : State) (e : Nat) (g : OptSt → OptSt) : (s.modOpt e g).mem = s.mem := rfl
@[simp] theorem State.modOpt_flt (s : State) (e : Nat) (g : OptSt → OptSt) : (s.modOpt e g).flt = s.flt := rfl
@[simp] theorem State.modOpt_pins (s : State) (e : Nat) (g : OptSt → OptSt) : (s.modOpt e g).pins = s.pins := rfl
@[simp] theorem State.modOpt_boot (s : State) (e : Nat) (g : OptSt → OptSt) : (s.modOpt e g).boot = s.boot := rfl
@[simp] theorem State.modOpt_ladder (s : State) (e : Nat) (g : OptSt → OptSt) : (s.modOpt e g).ladder = s.ladder := rfl
@[simp] theorem State.modOpt_almanac (s : State) (e : Nat) (g : OptSt → OptSt) : (s.modOpt e g).almanac = s.almanac := rfl
@[simp] theorem State.modOpt_presence (s : State) (e : Nat) (g : OptSt → OptSt) : (s.modOpt e g).presence = s.presence := rfl
@[simp] theorem State.modOpt_cps (s : State) (e : Nat) (g : OptSt → OptSt) : (s.modOpt e g).cps = s.cps := rfl
@[simp] theorem State.modOpt_mgmt (s : State) (e : Nat) (g : OptSt → OptSt) : (s.modOpt e g).mgmt = s.mgmt := rfl
@[simp] theorem State.modOpt_free (s : State) (e : Nat) (g : OptSt → OptSt) : (s.modOpt e g).free = s.free := rfl
@[simp] theorem State.modOpt_out (s : State) (e : Nat) (g : OptSt → OptSt) : (s.modOpt e g).out = s.out := rfl
@[simp] theorem State.modOpt_pending (s : State) (e : Nat) (g : OptSt → OptSt) : (s.modOpt e g).pending = s.pending := rfl

@[simp] theorem State.modSched_clk (s : State) (p : Nat) (g : Sched → Sched) : (s.modSched p g).clk = s.clk := rfl
@[simp] theorem State.modSched_servo (s : State) (p : Nat) (g : Sched → Sched) : (s.modSched p g).servo = s.servo := rfl
@[simp] theorem State.modSched_xfer (s : State) (p : Nat) (g : Sched → Sched) : (s.modSched p g).xfer = s.xfer := rfl
@[simp] theorem State.modSched_core (s : State) (p : Nat) (g : Sched → Sched) : (s.modSched p g).core = s.core := rfl
@[simp] theorem State.modSched_tiles (s : State) (p : Nat) (g : Sched → Sched) : (s.modSched p g).tiles = s.tiles := rfl
@[simp] theorem State.modSched_rte (s : State) (p : Nat) (g : Sched → Sched) : (s.modSched p g).rte = s.rte := rfl
@[simp] theorem State.modSched_telSeq (s : State) (p : Nat) (g : Sched → Sched) : (s.modSched p g).telSeq = s.telSeq := rfl
@[simp] theorem State.modSched_links (s : State) (p : Nat) (g : Sched → Sched) : (s.modSched p g).links = s.links := rfl
@[simp] theorem State.modSched_lanes (s : State) (p : Nat) (g : Sched → Sched) : (s.modSched p g).lanes = s.lanes := rfl
@[simp] theorem State.modSched_opts (s : State) (p : Nat) (g : Sched → Sched) : (s.modSched p g).opts = s.opts := rfl
@[simp] theorem State.modSched_ports (s : State) (p : Nat) (g : Sched → Sched) : (s.modSched p g).ports = s.ports := rfl
@[simp] theorem State.modSched_funcs (s : State) (p : Nat) (g : Sched → Sched) : (s.modSched p g).funcs = s.funcs := rfl
@[simp] theorem State.modSched_hports (s : State) (p : Nat) (g : Sched → Sched) : (s.modSched p g).hports = s.hports := rfl
@[simp] theorem State.modSched_engs (s : State) (p : Nat) (g : Sched → Sched) : (s.modSched p g).engs = s.engs := rfl
@[simp] theorem State.modSched_ctxs (s : State) (p : Nat) (g : Sched → Sched) : (s.modSched p g).ctxs = s.ctxs := rfl
@[simp] theorem State.modSched_ops (s : State) (p : Nat) (g : Sched → Sched) : (s.modSched p g).ops = s.ops := rfl
@[simp] theorem State.modSched_gens (s : State) (p : Nat) (g : Sched → Sched) : (s.modSched p g).gens = s.gens := rfl
@[simp] theorem State.modSched_genBase (s : State) (p : Nat) (g : Sched → Sched) : (s.modSched p g).genBase = s.genBase := rfl
@[simp] theorem State.modSched_units (s : State) (p : Nat) (g : Sched → Sched) : (s.modSched p g).units = s.units := rfl
@[simp] theorem State.modSched_reqs (s : State) (p : Nat) (g : Sched → Sched) : (s.modSched p g).reqs = s.reqs := rfl
@[simp] theorem State.modSched_nextTag (s : State) (p : Nat) (g : Sched → Sched) : (s.modSched p g).nextTag = s.nextTag := rfl
@[simp] theorem State.modSched_parked (s : State) (p : Nat) (g : Sched → Sched) : (s.modSched p g).parked = s.parked := rfl
@[simp] theorem State.modSched_rf (s : State) (p : Nat) (g : Sched → Sched) : (s.modSched p g).rf = s.rf := rfl
@[simp] theorem State.modSched_marks (s : State) (p : Nat) (g : Sched → Sched) : (s.modSched p g).marks = s.marks := rfl
@[simp] theorem State.modSched_mem (s : State) (p : Nat) (g : Sched → Sched) : (s.modSched p g).mem = s.mem := rfl
@[simp] theorem State.modSched_flt (s : State) (p : Nat) (g : Sched → Sched) : (s.modSched p g).flt = s.flt := rfl
@[simp] theorem State.modSched_pins (s : State) (p : Nat) (g : Sched → Sched) : (s.modSched p g).pins = s.pins := rfl
@[simp] theorem State.modSched_boot (s : State) (p : Nat) (g : Sched → Sched) : (s.modSched p g).boot = s.boot := rfl
@[simp] theorem State.modSched_ladder (s : State) (p : Nat) (g : Sched → Sched) : (s.modSched p g).ladder = s.ladder := rfl
@[simp] theorem State.modSched_almanac (s : State) (p : Nat) (g : Sched → Sched) : (s.modSched p g).almanac = s.almanac := rfl
@[simp] theorem State.modSched_presence (s : State) (p : Nat) (g : Sched → Sched) : (s.modSched p g).presence = s.presence := rfl
@[simp] theorem State.modSched_cps (s : State) (p : Nat) (g : Sched → Sched) : (s.modSched p g).cps = s.cps := rfl
@[simp] theorem State.modSched_mgmt (s : State) (p : Nat) (g : Sched → Sched) : (s.modSched p g).mgmt = s.mgmt := rfl
@[simp] theorem State.modSched_free (s : State) (p : Nat) (g : Sched → Sched) : (s.modSched p g).free = s.free := rfl
@[simp] theorem State.modSched_out (s : State) (p : Nat) (g : Sched → Sched) : (s.modSched p g).out = s.out := rfl
@[simp] theorem State.modSched_pending (s : State) (p : Nat) (g : Sched → Sched) : (s.modSched p g).pending = s.pending := rfl

@[simp] theorem State.modEng_clk (s : State) (e : Nat) (g : Eng → Eng) : (s.modEng e g).clk = s.clk := rfl
@[simp] theorem State.modEng_servo (s : State) (e : Nat) (g : Eng → Eng) : (s.modEng e g).servo = s.servo := rfl
@[simp] theorem State.modEng_xfer (s : State) (e : Nat) (g : Eng → Eng) : (s.modEng e g).xfer = s.xfer := rfl
@[simp] theorem State.modEng_core (s : State) (e : Nat) (g : Eng → Eng) : (s.modEng e g).core = s.core := rfl
@[simp] theorem State.modEng_tiles (s : State) (e : Nat) (g : Eng → Eng) : (s.modEng e g).tiles = s.tiles := rfl
@[simp] theorem State.modEng_rte (s : State) (e : Nat) (g : Eng → Eng) : (s.modEng e g).rte = s.rte := rfl
@[simp] theorem State.modEng_sched (s : State) (e : Nat) (g : Eng → Eng) : (s.modEng e g).sched = s.sched := rfl
@[simp] theorem State.modEng_telSeq (s : State) (e : Nat) (g : Eng → Eng) : (s.modEng e g).telSeq = s.telSeq := rfl
@[simp] theorem State.modEng_links (s : State) (e : Nat) (g : Eng → Eng) : (s.modEng e g).links = s.links := rfl
@[simp] theorem State.modEng_lanes (s : State) (e : Nat) (g : Eng → Eng) : (s.modEng e g).lanes = s.lanes := rfl
@[simp] theorem State.modEng_opts (s : State) (e : Nat) (g : Eng → Eng) : (s.modEng e g).opts = s.opts := rfl
@[simp] theorem State.modEng_ports (s : State) (e : Nat) (g : Eng → Eng) : (s.modEng e g).ports = s.ports := rfl
@[simp] theorem State.modEng_funcs (s : State) (e : Nat) (g : Eng → Eng) : (s.modEng e g).funcs = s.funcs := rfl
@[simp] theorem State.modEng_hports (s : State) (e : Nat) (g : Eng → Eng) : (s.modEng e g).hports = s.hports := rfl
@[simp] theorem State.modEng_ctxs (s : State) (e : Nat) (g : Eng → Eng) : (s.modEng e g).ctxs = s.ctxs := rfl
@[simp] theorem State.modEng_ops (s : State) (e : Nat) (g : Eng → Eng) : (s.modEng e g).ops = s.ops := rfl
@[simp] theorem State.modEng_gens (s : State) (e : Nat) (g : Eng → Eng) : (s.modEng e g).gens = s.gens := rfl
@[simp] theorem State.modEng_genBase (s : State) (e : Nat) (g : Eng → Eng) : (s.modEng e g).genBase = s.genBase := rfl
@[simp] theorem State.modEng_units (s : State) (e : Nat) (g : Eng → Eng) : (s.modEng e g).units = s.units := rfl
@[simp] theorem State.modEng_reqs (s : State) (e : Nat) (g : Eng → Eng) : (s.modEng e g).reqs = s.reqs := rfl
@[simp] theorem State.modEng_nextTag (s : State) (e : Nat) (g : Eng → Eng) : (s.modEng e g).nextTag = s.nextTag := rfl
@[simp] theorem State.modEng_parked (s : State) (e : Nat) (g : Eng → Eng) : (s.modEng e g).parked = s.parked := rfl
@[simp] theorem State.modEng_rf (s : State) (e : Nat) (g : Eng → Eng) : (s.modEng e g).rf = s.rf := rfl
@[simp] theorem State.modEng_marks (s : State) (e : Nat) (g : Eng → Eng) : (s.modEng e g).marks = s.marks := rfl
@[simp] theorem State.modEng_mem (s : State) (e : Nat) (g : Eng → Eng) : (s.modEng e g).mem = s.mem := rfl
@[simp] theorem State.modEng_flt (s : State) (e : Nat) (g : Eng → Eng) : (s.modEng e g).flt = s.flt := rfl
@[simp] theorem State.modEng_pins (s : State) (e : Nat) (g : Eng → Eng) : (s.modEng e g).pins = s.pins := rfl
@[simp] theorem State.modEng_boot (s : State) (e : Nat) (g : Eng → Eng) : (s.modEng e g).boot = s.boot := rfl
@[simp] theorem State.modEng_ladder (s : State) (e : Nat) (g : Eng → Eng) : (s.modEng e g).ladder = s.ladder := rfl
@[simp] theorem State.modEng_almanac (s : State) (e : Nat) (g : Eng → Eng) : (s.modEng e g).almanac = s.almanac := rfl
@[simp] theorem State.modEng_presence (s : State) (e : Nat) (g : Eng → Eng) : (s.modEng e g).presence = s.presence := rfl
@[simp] theorem State.modEng_cps (s : State) (e : Nat) (g : Eng → Eng) : (s.modEng e g).cps = s.cps := rfl
@[simp] theorem State.modEng_mgmt (s : State) (e : Nat) (g : Eng → Eng) : (s.modEng e g).mgmt = s.mgmt := rfl
@[simp] theorem State.modEng_free (s : State) (e : Nat) (g : Eng → Eng) : (s.modEng e g).free = s.free := rfl
@[simp] theorem State.modEng_out (s : State) (e : Nat) (g : Eng → Eng) : (s.modEng e g).out = s.out := rfl
@[simp] theorem State.modEng_pending (s : State) (e : Nat) (g : Eng → Eng) : (s.modEng e g).pending = s.pending := rfl

@[simp] theorem State.modUnit_clk (s : State) (u : Nat) (g : CUnit → CUnit) : (s.modUnit u g).clk = s.clk := rfl
@[simp] theorem State.modUnit_servo (s : State) (u : Nat) (g : CUnit → CUnit) : (s.modUnit u g).servo = s.servo := rfl
@[simp] theorem State.modUnit_xfer (s : State) (u : Nat) (g : CUnit → CUnit) : (s.modUnit u g).xfer = s.xfer := rfl
@[simp] theorem State.modUnit_core (s : State) (u : Nat) (g : CUnit → CUnit) : (s.modUnit u g).core = s.core := rfl
@[simp] theorem State.modUnit_tiles (s : State) (u : Nat) (g : CUnit → CUnit) : (s.modUnit u g).tiles = s.tiles := rfl
@[simp] theorem State.modUnit_rte (s : State) (u : Nat) (g : CUnit → CUnit) : (s.modUnit u g).rte = s.rte := rfl
@[simp] theorem State.modUnit_sched (s : State) (u : Nat) (g : CUnit → CUnit) : (s.modUnit u g).sched = s.sched := rfl
@[simp] theorem State.modUnit_telSeq (s : State) (u : Nat) (g : CUnit → CUnit) : (s.modUnit u g).telSeq = s.telSeq := rfl
@[simp] theorem State.modUnit_links (s : State) (u : Nat) (g : CUnit → CUnit) : (s.modUnit u g).links = s.links := rfl
@[simp] theorem State.modUnit_lanes (s : State) (u : Nat) (g : CUnit → CUnit) : (s.modUnit u g).lanes = s.lanes := rfl
@[simp] theorem State.modUnit_opts (s : State) (u : Nat) (g : CUnit → CUnit) : (s.modUnit u g).opts = s.opts := rfl
@[simp] theorem State.modUnit_ports (s : State) (u : Nat) (g : CUnit → CUnit) : (s.modUnit u g).ports = s.ports := rfl
@[simp] theorem State.modUnit_funcs (s : State) (u : Nat) (g : CUnit → CUnit) : (s.modUnit u g).funcs = s.funcs := rfl
@[simp] theorem State.modUnit_hports (s : State) (u : Nat) (g : CUnit → CUnit) : (s.modUnit u g).hports = s.hports := rfl
@[simp] theorem State.modUnit_engs (s : State) (u : Nat) (g : CUnit → CUnit) : (s.modUnit u g).engs = s.engs := rfl
@[simp] theorem State.modUnit_ctxs (s : State) (u : Nat) (g : CUnit → CUnit) : (s.modUnit u g).ctxs = s.ctxs := rfl
@[simp] theorem State.modUnit_ops (s : State) (u : Nat) (g : CUnit → CUnit) : (s.modUnit u g).ops = s.ops := rfl
@[simp] theorem State.modUnit_gens (s : State) (u : Nat) (g : CUnit → CUnit) : (s.modUnit u g).gens = s.gens := rfl
@[simp] theorem State.modUnit_genBase (s : State) (u : Nat) (g : CUnit → CUnit) : (s.modUnit u g).genBase = s.genBase := rfl
@[simp] theorem State.modUnit_reqs (s : State) (u : Nat) (g : CUnit → CUnit) : (s.modUnit u g).reqs = s.reqs := rfl
@[simp] theorem State.modUnit_nextTag (s : State) (u : Nat) (g : CUnit → CUnit) : (s.modUnit u g).nextTag = s.nextTag := rfl
@[simp] theorem State.modUnit_parked (s : State) (u : Nat) (g : CUnit → CUnit) : (s.modUnit u g).parked = s.parked := rfl
@[simp] theorem State.modUnit_rf (s : State) (u : Nat) (g : CUnit → CUnit) : (s.modUnit u g).rf = s.rf := rfl
@[simp] theorem State.modUnit_marks (s : State) (u : Nat) (g : CUnit → CUnit) : (s.modUnit u g).marks = s.marks := rfl
@[simp] theorem State.modUnit_mem (s : State) (u : Nat) (g : CUnit → CUnit) : (s.modUnit u g).mem = s.mem := rfl
@[simp] theorem State.modUnit_flt (s : State) (u : Nat) (g : CUnit → CUnit) : (s.modUnit u g).flt = s.flt := rfl
@[simp] theorem State.modUnit_pins (s : State) (u : Nat) (g : CUnit → CUnit) : (s.modUnit u g).pins = s.pins := rfl
@[simp] theorem State.modUnit_boot (s : State) (u : Nat) (g : CUnit → CUnit) : (s.modUnit u g).boot = s.boot := rfl
@[simp] theorem State.modUnit_ladder (s : State) (u : Nat) (g : CUnit → CUnit) : (s.modUnit u g).ladder = s.ladder := rfl
@[simp] theorem State.modUnit_almanac (s : State) (u : Nat) (g : CUnit → CUnit) : (s.modUnit u g).almanac = s.almanac := rfl
@[simp] theorem State.modUnit_presence (s : State) (u : Nat) (g : CUnit → CUnit) : (s.modUnit u g).presence = s.presence := rfl
@[simp] theorem State.modUnit_cps (s : State) (u : Nat) (g : CUnit → CUnit) : (s.modUnit u g).cps = s.cps := rfl
@[simp] theorem State.modUnit_mgmt (s : State) (u : Nat) (g : CUnit → CUnit) : (s.modUnit u g).mgmt = s.mgmt := rfl
@[simp] theorem State.modUnit_free (s : State) (u : Nat) (g : CUnit → CUnit) : (s.modUnit u g).free = s.free := rfl
@[simp] theorem State.modUnit_out (s : State) (u : Nat) (g : CUnit → CUnit) : (s.modUnit u g).out = s.out := rfl
@[simp] theorem State.modUnit_pending (s : State) (u : Nat) (g : CUnit → CUnit) : (s.modUnit u g).pending = s.pending := rfl

@[simp] theorem State.modFn_clk (s : State) (h f : Nat) (g : FuncSt → FuncSt) : (s.modFn h f g).clk = s.clk := rfl
@[simp] theorem State.modFn_servo (s : State) (h f : Nat) (g : FuncSt → FuncSt) : (s.modFn h f g).servo = s.servo := rfl
@[simp] theorem State.modFn_xfer (s : State) (h f : Nat) (g : FuncSt → FuncSt) : (s.modFn h f g).xfer = s.xfer := rfl
@[simp] theorem State.modFn_core (s : State) (h f : Nat) (g : FuncSt → FuncSt) : (s.modFn h f g).core = s.core := rfl
@[simp] theorem State.modFn_tiles (s : State) (h f : Nat) (g : FuncSt → FuncSt) : (s.modFn h f g).tiles = s.tiles := rfl
@[simp] theorem State.modFn_rte (s : State) (h f : Nat) (g : FuncSt → FuncSt) : (s.modFn h f g).rte = s.rte := rfl
@[simp] theorem State.modFn_sched (s : State) (h f : Nat) (g : FuncSt → FuncSt) : (s.modFn h f g).sched = s.sched := rfl
@[simp] theorem State.modFn_telSeq (s : State) (h f : Nat) (g : FuncSt → FuncSt) : (s.modFn h f g).telSeq = s.telSeq := rfl
@[simp] theorem State.modFn_links (s : State) (h f : Nat) (g : FuncSt → FuncSt) : (s.modFn h f g).links = s.links := rfl
@[simp] theorem State.modFn_lanes (s : State) (h f : Nat) (g : FuncSt → FuncSt) : (s.modFn h f g).lanes = s.lanes := rfl
@[simp] theorem State.modFn_opts (s : State) (h f : Nat) (g : FuncSt → FuncSt) : (s.modFn h f g).opts = s.opts := rfl
@[simp] theorem State.modFn_ports (s : State) (h f : Nat) (g : FuncSt → FuncSt) : (s.modFn h f g).ports = s.ports := rfl
@[simp] theorem State.modFn_hports (s : State) (h f : Nat) (g : FuncSt → FuncSt) : (s.modFn h f g).hports = s.hports := rfl
@[simp] theorem State.modFn_engs (s : State) (h f : Nat) (g : FuncSt → FuncSt) : (s.modFn h f g).engs = s.engs := rfl
@[simp] theorem State.modFn_ctxs (s : State) (h f : Nat) (g : FuncSt → FuncSt) : (s.modFn h f g).ctxs = s.ctxs := rfl
@[simp] theorem State.modFn_ops (s : State) (h f : Nat) (g : FuncSt → FuncSt) : (s.modFn h f g).ops = s.ops := rfl
@[simp] theorem State.modFn_gens (s : State) (h f : Nat) (g : FuncSt → FuncSt) : (s.modFn h f g).gens = s.gens := rfl
@[simp] theorem State.modFn_genBase (s : State) (h f : Nat) (g : FuncSt → FuncSt) : (s.modFn h f g).genBase = s.genBase := rfl
@[simp] theorem State.modFn_units (s : State) (h f : Nat) (g : FuncSt → FuncSt) : (s.modFn h f g).units = s.units := rfl
@[simp] theorem State.modFn_reqs (s : State) (h f : Nat) (g : FuncSt → FuncSt) : (s.modFn h f g).reqs = s.reqs := rfl
@[simp] theorem State.modFn_nextTag (s : State) (h f : Nat) (g : FuncSt → FuncSt) : (s.modFn h f g).nextTag = s.nextTag := rfl
@[simp] theorem State.modFn_parked (s : State) (h f : Nat) (g : FuncSt → FuncSt) : (s.modFn h f g).parked = s.parked := rfl
@[simp] theorem State.modFn_rf (s : State) (h f : Nat) (g : FuncSt → FuncSt) : (s.modFn h f g).rf = s.rf := rfl
@[simp] theorem State.modFn_marks (s : State) (h f : Nat) (g : FuncSt → FuncSt) : (s.modFn h f g).marks = s.marks := rfl
@[simp] theorem State.modFn_mem (s : State) (h f : Nat) (g : FuncSt → FuncSt) : (s.modFn h f g).mem = s.mem := rfl
@[simp] theorem State.modFn_flt (s : State) (h f : Nat) (g : FuncSt → FuncSt) : (s.modFn h f g).flt = s.flt := rfl
@[simp] theorem State.modFn_pins (s : State) (h f : Nat) (g : FuncSt → FuncSt) : (s.modFn h f g).pins = s.pins := rfl
@[simp] theorem State.modFn_boot (s : State) (h f : Nat) (g : FuncSt → FuncSt) : (s.modFn h f g).boot = s.boot := rfl
@[simp] theorem State.modFn_ladder (s : State) (h f : Nat) (g : FuncSt → FuncSt) : (s.modFn h f g).ladder = s.ladder := rfl
@[simp] theorem State.modFn_almanac (s : State) (h f : Nat) (g : FuncSt → FuncSt) : (s.modFn h f g).almanac = s.almanac := rfl
@[simp] theorem State.modFn_presence (s : State) (h f : Nat) (g : FuncSt → FuncSt) : (s.modFn h f g).presence = s.presence := rfl
@[simp] theorem State.modFn_cps (s : State) (h f : Nat) (g : FuncSt → FuncSt) : (s.modFn h f g).cps = s.cps := rfl
@[simp] theorem State.modFn_mgmt (s : State) (h f : Nat) (g : FuncSt → FuncSt) : (s.modFn h f g).mgmt = s.mgmt := rfl
@[simp] theorem State.modFn_free (s : State) (h f : Nat) (g : FuncSt → FuncSt) : (s.modFn h f g).free = s.free := rfl
@[simp] theorem State.modFn_out (s : State) (h f : Nat) (g : FuncSt → FuncSt) : (s.modFn h f g).out = s.out := rfl
@[simp] theorem State.modFn_pending (s : State) (h f : Nat) (g : FuncSt → FuncSt) : (s.modFn h f g).pending = s.pending := rfl

@[simp] theorem State.modHport_clk (s : State) (h : Nat) (g : HostPort → HostPort) : (s.modHport h g).clk = s.clk := rfl
@[simp] theorem State.modHport_servo (s : State) (h : Nat) (g : HostPort → HostPort) : (s.modHport h g).servo = s.servo := rfl
@[simp] theorem State.modHport_xfer (s : State) (h : Nat) (g : HostPort → HostPort) : (s.modHport h g).xfer = s.xfer := rfl
@[simp] theorem State.modHport_core (s : State) (h : Nat) (g : HostPort → HostPort) : (s.modHport h g).core = s.core := rfl
@[simp] theorem State.modHport_tiles (s : State) (h : Nat) (g : HostPort → HostPort) : (s.modHport h g).tiles = s.tiles := rfl
@[simp] theorem State.modHport_rte (s : State) (h : Nat) (g : HostPort → HostPort) : (s.modHport h g).rte = s.rte := rfl
@[simp] theorem State.modHport_sched (s : State) (h : Nat) (g : HostPort → HostPort) : (s.modHport h g).sched = s.sched := rfl
@[simp] theorem State.modHport_telSeq (s : State) (h : Nat) (g : HostPort → HostPort) : (s.modHport h g).telSeq = s.telSeq := rfl
@[simp] theorem State.modHport_links (s : State) (h : Nat) (g : HostPort → HostPort) : (s.modHport h g).links = s.links := rfl
@[simp] theorem State.modHport_lanes (s : State) (h : Nat) (g : HostPort → HostPort) : (s.modHport h g).lanes = s.lanes := rfl
@[simp] theorem State.modHport_opts (s : State) (h : Nat) (g : HostPort → HostPort) : (s.modHport h g).opts = s.opts := rfl
@[simp] theorem State.modHport_ports (s : State) (h : Nat) (g : HostPort → HostPort) : (s.modHport h g).ports = s.ports := rfl
@[simp] theorem State.modHport_funcs (s : State) (h : Nat) (g : HostPort → HostPort) : (s.modHport h g).funcs = s.funcs := rfl
@[simp] theorem State.modHport_engs (s : State) (h : Nat) (g : HostPort → HostPort) : (s.modHport h g).engs = s.engs := rfl
@[simp] theorem State.modHport_ctxs (s : State) (h : Nat) (g : HostPort → HostPort) : (s.modHport h g).ctxs = s.ctxs := rfl
@[simp] theorem State.modHport_ops (s : State) (h : Nat) (g : HostPort → HostPort) : (s.modHport h g).ops = s.ops := rfl
@[simp] theorem State.modHport_gens (s : State) (h : Nat) (g : HostPort → HostPort) : (s.modHport h g).gens = s.gens := rfl
@[simp] theorem State.modHport_genBase (s : State) (h : Nat) (g : HostPort → HostPort) : (s.modHport h g).genBase = s.genBase := rfl
@[simp] theorem State.modHport_units (s : State) (h : Nat) (g : HostPort → HostPort) : (s.modHport h g).units = s.units := rfl
@[simp] theorem State.modHport_reqs (s : State) (h : Nat) (g : HostPort → HostPort) : (s.modHport h g).reqs = s.reqs := rfl
@[simp] theorem State.modHport_nextTag (s : State) (h : Nat) (g : HostPort → HostPort) : (s.modHport h g).nextTag = s.nextTag := rfl
@[simp] theorem State.modHport_parked (s : State) (h : Nat) (g : HostPort → HostPort) : (s.modHport h g).parked = s.parked := rfl
@[simp] theorem State.modHport_rf (s : State) (h : Nat) (g : HostPort → HostPort) : (s.modHport h g).rf = s.rf := rfl
@[simp] theorem State.modHport_marks (s : State) (h : Nat) (g : HostPort → HostPort) : (s.modHport h g).marks = s.marks := rfl
@[simp] theorem State.modHport_mem (s : State) (h : Nat) (g : HostPort → HostPort) : (s.modHport h g).mem = s.mem := rfl
@[simp] theorem State.modHport_flt (s : State) (h : Nat) (g : HostPort → HostPort) : (s.modHport h g).flt = s.flt := rfl
@[simp] theorem State.modHport_pins (s : State) (h : Nat) (g : HostPort → HostPort) : (s.modHport h g).pins = s.pins := rfl
@[simp] theorem State.modHport_boot (s : State) (h : Nat) (g : HostPort → HostPort) : (s.modHport h g).boot = s.boot := rfl
@[simp] theorem State.modHport_ladder (s : State) (h : Nat) (g : HostPort → HostPort) : (s.modHport h g).ladder = s.ladder := rfl
@[simp] theorem State.modHport_almanac (s : State) (h : Nat) (g : HostPort → HostPort) : (s.modHport h g).almanac = s.almanac := rfl
@[simp] theorem State.modHport_presence (s : State) (h : Nat) (g : HostPort → HostPort) : (s.modHport h g).presence = s.presence := rfl
@[simp] theorem State.modHport_cps (s : State) (h : Nat) (g : HostPort → HostPort) : (s.modHport h g).cps = s.cps := rfl
@[simp] theorem State.modHport_mgmt (s : State) (h : Nat) (g : HostPort → HostPort) : (s.modHport h g).mgmt = s.mgmt := rfl
@[simp] theorem State.modHport_free (s : State) (h : Nat) (g : HostPort → HostPort) : (s.modHport h g).free = s.free := rfl
@[simp] theorem State.modHport_out (s : State) (h : Nat) (g : HostPort → HostPort) : (s.modHport h g).out = s.out := rfl
@[simp] theorem State.modHport_pending (s : State) (h : Nat) (g : HostPort → HostPort) : (s.modHport h g).pending = s.pending := rfl

end Sys2Proof.Machine
end

