-- ==== Sys2Proof/Laws/MemOps.lean ====
section
/-!
SUPPORT. What the operations of Machine/Ops.lean do to table-space memory: nothing, or they keep its canonical form.
-/
namespace Sys2Proof.Machine
open Sys2Proof

set_option linter.unusedSimpArgs false

/-- Table-space memory and the queue of commands, as one function that the kernel compares by its argument. -/
def State.memq (s : State) : Memory × List Instr := (s.mem, s.pending)

/-- The memory is in canonical form (where `q` asks for it), and the queue is that of `q`. -/
structure State.Ok (q : Bool × List Instr) (x : Memory × List Instr) : Prop where
  wf : q.1 = true → x.1.wf = true
  queue : x.2 = q.2

theorem State.Ok.setWord {q : Bool × List Instr} {s : State} (h : State.Ok q s.memq) (a v : Nat) : State.Ok q (s.mem.setWord a v, s.pending) :=
  ⟨fun b => Memory.setWord_wf _ _ _ (h.wf b), h.queue⟩

theorem State.Ok.write {q : Bool × List Instr} {s : State} (h : State.Ok q s.memq) (a : Nat) (l : List Byte) :
    State.Ok q (s.mem.writeBytes a l, s.pending) := ⟨fun b => Memory.writeBytes_wf _ _ _ (h.wf b), h.queue⟩

theorem State.Ok.filter {q : Bool × List Instr} {s : State} (h : State.Ok q s.memq) (f : Host.Cell → Bool) :
    State.Ok q (s.mem.filter f, s.pending) := ⟨fun b => Memory.filter_wf _ _ (h.wf b), h.queue⟩

@[simp] theorem State.memq_eta (s : State) : (s.mem, s.pending) = s.memq := id rfl

@[simp] theorem State.memq_mk (clk : Clock) (servo : Servo) (xfer : Tab TimeXfer) (core : CoreSt) (tiles : Tab Tile) (rte : RouteSt) (sched : Tab Sched) (telSeq : Tab Nat) (links : Tab LinkSt) (lanes : Tab LaneSt) (opts : Tab OptSt) (ports : Tab PortSt) (funcs : Tab FuncSt) (hports : Tab HostPort) (engs : Tab Eng) (ctxs : Tab Ctx) (ops : Tab Op) (gens : Tab (Nat × Nat × Bool)) (genBase : Tab Nat) (units : Tab CUnit) (reqs : List HostReq) (nextTag : Nat) (parked : List (Nat × Nat × Output)) (rf : RegFile) (marks : Tab Nat) (mem : Memory) (flt : Collector) (pins : Pins) (boot : Boot) (ladder : Ladder) (almanac : Almanac) (presence : Owner) (cps : Cps) (mgmt : Mgmt) (free : Nat) (out : List Output) (pending : List Instr) :
    State.memq ⟨clk, servo, xfer, core, tiles, rte, sched, telSeq, links, lanes, opts, ports, funcs, hports, engs, ctxs, ops, gens, genBase, units, reqs, nextTag, parked, rf, marks, mem, flt, pins, boot, ladder, almanac, presence, cps, mgmt, free, out, pending⟩ = (mem, pending) := id rfl

@[simp] theorem State.set_memq (s : State) (f : Fld) (v i n k : Nat) : (s.set f v i n k).memq = s.memq :=
  by simp only [State.memq, State.set_mem, State.set_pending]

@[simp] theorem State.write_memq (s : State) (f : Fld) (v i n k : Nat) : (s.write f v i n k).memq = s.memq :=
  by simp only [State.memq, State.write_mem, State.write_pending]

@[simp] theorem State.event_memq (s : State) (f : Fld) (b i n : Nat) : (s.event f b i n).memq = s.memq :=
  by simp only [State.memq, State.event_mem, State.event_pending]

@[simp] theorem State.hw_memq (s : State) (f : Fld) (v i n k : Nat) : (s.hw f v i n k).memq = s.memq :=
  by simp only [State.memq, State.hw_mem, State.hw_pending]

@[simp] theorem State.setShadow_memq (s : State) (f : Fld) (v i n k : Nat) : (s.setShadow f v i n k).memq = s.memq :=
  by simp only [State.memq, State.setShadow_mem, State.setShadow_pending]

@[simp] theorem State.emit_memq (s : State) (o : Output) : (s.emit o).memq = s.memq :=
  by simp only [State.memq, State.emit_mem, State.emit_pending]

@[simp] theorem State.mark_memq (s : State) (m p : Nat) : (s.mark m p).memq = s.memq :=
  by simp only [State.memq, State.mark_mem, State.mark_pending]

@[simp] theorem State.drawn_memq (s : State) : (s.drawn).memq = s.memq :=
  by simp only [State.memq, State.drawn_mem, State.drawn_pending]

@[simp] theorem State.almTouch_memq (s : State) : (s.almTouch).memq = s.memq :=
  by simp only [State.memq, State.almTouch_mem, State.almTouch_pending]

@[simp] theorem State.modTile_memq (s : State) (t : Nat) (g : Tile → Tile) : (s.modTile t g).memq = s.memq :=
  by simp only [State.memq, State.modTile_mem, State.modTile_pending]

@[simp] theorem State.modLink_memq (s : State) (p : Nat) (g : LinkSt → LinkSt) : (s.modLink p g).memq = s.memq :=
  by simp only [State.memq, State.modLink_mem, State.modLink_pending]

@[simp] theorem State.modPort_memq (s : State) (p : Nat) (g : PortSt → PortSt) : (s.modPort p g).memq = s.memq :=
  by simp only [State.memq, State.modPort_mem, State.modPort_pending]

@[simp] theorem State.modLane_memq (s : State) (l : Nat) (g : LaneSt → LaneSt) : (s.modLane l g).memq = s.memq :=
  by simp only [State.memq, State.modLane_mem, State.modLane_pending]

@[simp] theorem State.modOpt_memq (s : State) (e : Nat) (g : OptSt → OptSt) : (s.modOpt e g).memq = s.memq :=
  by simp only [State.memq, State.modOpt_mem, State.modOpt_pending]

@[simp] theorem State.modSched_memq (s : State) (p : Nat) (g : Sched → Sched) : (s.modSched p g).memq = s.memq :=
  by simp only [State.memq, State.modSched_mem, State.modSched_pending]

@[simp] theorem State.modEng_memq (s : State) (e : Nat) (g : Eng → Eng) : (s.modEng e g).memq = s.memq :=
  by simp only [State.memq, State.modEng_mem, State.modEng_pending]

@[simp] theorem State.modUnit_memq (s : State) (u : Nat) (g : CUnit → CUnit) : (s.modUnit u g).memq = s.memq :=
  by simp only [State.memq, State.modUnit_mem, State.modUnit_pending]

@[simp] theorem State.modFn_memq (s : State) (h f : Nat) (g : FuncSt → FuncSt) : (s.modFn h f g).memq = s.memq :=
  by simp only [State.memq, State.modFn_mem, State.modFn_pending]

@[simp] theorem State.modHport_memq (s : State) (h : Nat) (g : HostPort → HostPort) : (s.modHport h g).memq = s.memq :=
  by simp only [State.memq, State.modHport_mem, State.modHport_pending]

@[simp] theorem State.raise_memq (s : State) (e : Evt) (i : Nat) : (s.raise e i).memq = s.memq :=
  by simp only [State.memq, State.raise_mem, State.raise_pending]

@[simp] theorem State.raiseCap_memq (s : State) (e : Evt) (i : Nat) (c : Capture) : (s.raiseCap e i c).memq = s.memq :=
  by simp only [State.memq, State.raiseCap_mem, State.raiseCap_pending]

@[simp] theorem State.raiseIf_memq (s : State) (b : Bool) (e : Evt) (i : Nat) : (s.raiseIf b e i).memq = s.memq :=
  by simp only [State.memq, State.raiseIf_mem, State.raiseIf_pending]

@[simp] theorem State.count_memq (s : State) (cls i ev d : Nat) (ctx : Option Nat) : (s.count cls i ev d ctx).memq = s.memq :=
  by simp only [State.memq, State.count_mem, State.count_pending]

@[simp] theorem State.each_memq {α : Type} (l : List α) (f : State → α → State) (s : State) (h : ∀ s a, (f s a).memq = s.memq) :
    (State.each l f s).memq = s.memq := by
  unfold State.each
  induction l generalizing s with
  | nil => rfl
  | cons a l ih => exact (ih (f s a)).trans (h s a)

@[simp] theorem State.fold_memq {α : Type} (l : List α) (f : State → α → State) (s : State) (h : ∀ s a, (f s a).memq = s.memq) :
    (l.foldl f s).memq = s.memq := State.each_memq l f s h

@[simp] theorem State.each_ok {q : Bool × List Instr} {α : Type} (l : List α) (f : State → α → State) (s : State) (h0 : State.Ok q s.memq)
    (h : ∀ s a, State.Ok q s.memq → State.Ok q (f s a).memq) : State.Ok q (State.each l f s).memq := by
  unfold State.each
  induction l generalizing s with
  | nil => exact h0
  | cons a l ih => exact ih (f s a) (h s a h0)

@[simp] theorem State.fold1_memq {α β : Type} (f : State × β → α → State × β) (h : ∀ a x, (f a x).1.memq = a.1.memq) (l : List α) (a : State × β) :
    (l.foldl f a).1.memq = a.1.memq := by
  induction l generalizing a with
  | nil => rfl
  | cons x l ih => exact (ih _).trans (h a x)

@[simp] theorem State.fold2_memq {α β : Type} (f : β × State → α → β × State) (h : ∀ a x, (f a x).2.memq = a.2.memq) (l : List α) (a : β × State) :
    (l.foldl f a).2.memq = a.2.memq := by
  induction l generalizing a with
  | nil => rfl
  | cons x l ih => exact (ih _).trans (h a x)

@[simp] theorem State.fold_ok {q : Bool × List Instr} {α : Type} (l : List α) (f : State → α → State) (s : State) (h0 : State.Ok q s.memq)
    (h : ∀ s a, State.Ok q s.memq → State.Ok q (f s a).memq) : State.Ok q (l.foldl f s).memq := State.each_ok l f s h0 h

theorem State.fold1_ok {q : Bool × List Instr} {α β : Type} (f : State × β → α → State × β)
    (h : ∀ a x, State.Ok q a.1.memq → State.Ok q (f a x).1.memq) (l : List α) (a : State × β) (h0 : State.Ok q a.1.memq) :
    State.Ok q (l.foldl f a).1.memq := by
  induction l generalizing a with
  | nil => exact h0
  | cons x l ih => exact ih _ (h a x h0)

@[simp] theorem State.ite_memq (c : Prop) [Decidable c] (a b : State) : (if c then a else b).memq = if c then a.memq else b.memq :=
  apply_ite State.memq c a b

@[simp] theorem State.setFlag_memq (s : State) (f : Fld) (b : Bool) (i : Nat) (n : Nat) (k : Nat) : State.memq (State.setFlag s f b i n k) = State.memq s := by
  unfold State.setFlag
  simp

@[simp] theorem State.setBit_memq (s : State) (f : Fld) (b : Nat) (v : Bool) (i : Nat) (n : Nat) : State.memq (State.setBit s f b v i n) = State.memq s := by
  unfold State.setBit
  simp

@[simp] theorem State.inc_memq (s : State) (f : Fld) (i : Nat) (n : Nat) (k : Nat) (d : Nat) : State.memq (State.inc s f i n k d) = State.memq s := by
  unfold State.inc
  simp

@[simp] theorem State.raisePeak_memq (s : State) (f : Fld) (used i : Nat) : State.memq (State.raisePeak s f used i) = State.memq s := by
  unfold State.raisePeak
  simp

@[simp] theorem State.asBefore_memq (s : State) : State.memq (State.asBefore s) = State.memq s := by
  unfold State.asBefore
  (try dsimp only)
  (repeat' split)
  all_goals first | (simp only [↓State.ite_memq, ite_self, State.memq_mk, State.memq_eta]; done) | (simp; done) | with_reducible rfl | (simp; apply State.each_memq; intros; (try dsimp only); (repeat' split) <;> simp; done) | ((repeat' first | with_reducible rfl | (simp; done) | refine (State.each_memq _ _ _ fun _ _ => ?_).trans ?_ | refine (State.fold_memq _ _ _ fun _ _ => ?_).trans ?_ | refine (State.fold1_memq _ (fun _ _ => ?_) _ _).trans ?_ | refine (State.fold2_memq _ (fun _ _ => ?_) _ _).trans ?_ | split | simp | dsimp only); done) | ((repeat first | fail | simp only [↓State.ite_memq, ite_self, State.memq_mk, State.memq_eta] | simp); done) | skip

@[simp] theorem State.setWord_ok (s : State) (a v : Nat) {q_ : Bool × List Instr} (hk : State.Ok q_ (State.memq s)) : State.Ok q_ (State.memq (State.setWord s a v)) := by
  exact hk.setWord _ _

end Sys2Proof.Machine
end

