-- ==== Sys2Proof/Laws/MemFlags.lean ====
section
/-!
SUPPORT. What the operations of Machine/Flags.lean do to table-space memory: nothing, or they keep its canonical form.
-/
namespace Sys2Proof.Machine
open Sys2Proof

set_option linter.unusedSimpArgs false

@[simp] theorem State.pmcAdd_memq (s : State) (cls i k d : Nat) : State.memq (State.pmcAdd s cls i k d) = State.memq s := by
  unfold State.pmcAdd
  simp

@[simp] theorem State.pageCapture_memq (s : State) (cls i b : Nat) (c : Capture) : State.memq (State.pageCapture s cls i b c) = State.memq s := by
  unfold State.pageCapture
  simp

@[simp] theorem State.report_memq (s : State) (cls i b : Nat) (c : Capture) : State.memq (State.report s cls i b c) = State.memq s := by
  unfold State.report
  simp

@[simp] theorem State.raiseBit_memq (s : State) (cls i b : Nat) (c : Capture) : State.memq (State.raiseBit s cls i b c) = State.memq s := by
  unfold State.raiseBit
  simp

@[simp] theorem State.raiseSat_memq (s : State) (cls i : Nat) : State.memq (State.raiseSat s cls i) = State.memq s := by
  unfold State.raiseSat
  simp

@[simp] theorem State.countIn_memq (s : State) (cls i d k : Nat) : State.memq (State.countIn s cls i d k) = State.memq s := by
  unfold State.countIn
  simp

@[simp] theorem State.raiseAt_memq (s : State) (cls i b : Nat) (c : Capture) : State.memq (State.raiseAt s cls i b c) = State.memq s := by
  unfold State.raiseAt
  simp

@[simp] theorem State.servoTo_memq (s : State) (st : Nat) : State.memq (State.servoTo s st) = State.memq s := by
  unfold State.servoTo
  simp

@[simp] theorem State.loseSource_memq (s : State) : State.memq (State.loseSource s) = State.memq s := by
  unfold State.loseSource
  simp

@[simp] theorem State.goUnsure_memq (s : State) : State.memq (State.goUnsure s) = State.memq s := by
  unfold State.goUnsure
  simp

@[simp] theorem State.sourcePortDown_memq (s : State) (p : Nat) : State.memq (State.sourcePortDown s p) = State.memq s := by
  unfold State.sourcePortDown
  simp

end Sys2Proof.Machine
end

