-- ==== Sys2Proof/Laws/MemOperands.lean ====
section
/-!
SUPPORT. What the operations of Machine/Operands.lean do to table-space memory: nothing, or they keep its canonical form.
-/
namespace Sys2Proof.Machine
open Sys2Proof

set_option linter.unusedSimpArgs false

end Sys2Proof.Machine
end

