-- ==== Sys2Proof/Laws/MemRoute.lean ====
section
/-!
SUPPORT. What the operations of Machine/Route.lean do to table-space memory: nothing, or they keep its canonical form.
-/
namespace Sys2Proof.Machine
open Sys2Proof

set_option linter.unusedSimpArgs false

@[simp] theorem State.learn_memq (s : State) (p k l : Nat) : State.memq (State.learn s p k l) = State.memq s := by
  unfold State.learn
  simp

@[simp] theorem State.forget_memq (s : State) (p : Nat) : State.memq (State.forget s p) = State.memq s := by
  unfold State.forget
  simp

@[simp] theorem State.dropNoroute_memq (s : State) (t : Nat) : State.memq (State.dropNoroute s t) = State.memq s := by
  unfold State.dropNoroute
  simp only [↓State.inc_memq, ↓State.count_memq, ↓State.raise_memq, ↓State.ite_memq, ite_self, State.memq_mk, State.memq_eta]

@[simp] theorem State.dropHop_memq (s : State) (t : Nat) : State.memq (State.dropHop s t) = State.memq s := by
  unfold State.dropHop
  simp only [↓State.inc_memq, ↓State.raise_memq, ↓State.ite_memq, ite_self, State.memq_mk, State.memq_eta]

@[simp] theorem State.dropFenceIn_memq (s : State) (t : Nat) : State.memq (State.dropFenceIn s t) = State.memq s := by
  unfold State.dropFenceIn
  simp only [↓State.inc_memq, ↓State.count_memq, ↓State.raise_memq, ↓State.ite_memq, ite_self, State.memq_mk, State.memq_eta]

@[simp] theorem State.dropFenceEg_memq (s : State) (t : Nat) : State.memq (State.dropFenceEg s t) = State.memq s := by
  unfold State.dropFenceEg
  simp only [↓State.inc_memq, ↓State.count_memq, ↓State.raise_memq, ↓State.ite_memq, ite_self, State.memq_mk, State.memq_eta]

@[simp] theorem State.dropMcBad_memq (s : State) (t : Nat) : State.memq (State.dropMcBad s t) = State.memq s := by
  unfold State.dropMcBad
  simp only [↓State.inc_memq, ↓State.raise_memq, ↓State.ite_memq, ite_self, State.memq_mk, State.memq_eta]

@[simp] theorem State.dropFlush_memq (s : State) (p cls : Nat) : State.memq (State.dropFlush s p cls) = State.memq s := by
  unfold State.dropFlush
  simp only [↓State.inc_memq, ↓State.ite_memq, ite_self, State.memq_mk, State.memq_eta]

@[simp] theorem State.dropCompat_memq (s : State) (p : Nat) : State.memq (State.dropCompat s p) = State.memq s := by
  unfold State.dropCompat
  simp only [↓State.inc_memq, ↓State.raise_memq, ↓State.ite_memq, ite_self, State.memq_mk, State.memq_eta]

end Sys2Proof.Machine
end

