-- ==== Sys2Proof/Laws/MemSwitch.lean ====
section
/-!
SUPPORT. What the operations of Machine/Switch.lean do to table-space memory: nothing, or they keep its canonical form.
-/
namespace Sys2Proof.Machine
open Sys2Proof

set_option linter.unusedSimpArgs false

@[simp] theorem State.dropAge_memq (s : State) (t cls : Nat) : State.memq (State.dropAge s t cls) = State.memq s := by
  unfold State.dropAge
  simp only [↓State.inc_memq, ↓State.count_memq, ↓State.raise_memq, ↓State.ite_memq, ite_self, State.memq_mk, State.memq_eta]

@[simp] theorem State.setMidSkipped_memq (s : State) (m : Nat) (v : Bool) : State.memq (State.setMidSkipped s m v) = State.memq s := by
  unfold State.setMidSkipped
  simp

@[simp] theorem State.setMidFence_memq (s : State) (m : Nat) (v : Bool) : State.memq (State.setMidFence s m v) = State.memq s := by
  unfold State.setMidFence
  simp

@[simp] theorem State.checkQuota_memq (s : State) (t : Nat) : State.memq (State.checkQuota s t) = State.memq s := by
  unfold State.checkQuota
  simp

@[simp] theorem State.checkOvercommit_memq (s : State) (t : Nat) : State.memq (State.checkOvercommit s t) = State.memq s := by
  unfold State.checkOvercommit
  simp

@[simp] theorem State.modHeld_memq (s : State) (t id : Nat) (f : Held → Held) : State.memq (State.modHeld s t id f) = State.memq s := by
  unfold State.modHeld
  simp

@[simp] theorem State.restamp_memq (s : State) (t : Nat) (h : Held) : State.memq (State.restamp s t h) = State.memq s := by
  unfold State.restamp
  (repeat' split) <;>
    simp

@[simp] theorem State.cancelReq_memq (s : State) (t id : Nat) : State.memq (State.cancelReq s t id) = State.memq s := by
  unfold State.cancelReq
  simp

@[simp] theorem State.removeHeld_memq (s : State) (t id : Nat) : State.memq (State.removeHeld s t id) = State.memq s := by
  unfold State.removeHeld
  (repeat' split) <;>
    simp

@[simp] theorem State.enqueue_memq (s : State) (t : Nat) (h : Held) : State.memq (State.enqueue s t h) = State.memq s := by
  unfold State.enqueue
  simp

@[simp] theorem State.countDrop_memq (s : State) (t cls : Nat) (x0 : Decision) : State.memq (State.countDrop s t cls x0) = State.memq s := by
  unfold State.countDrop
  (repeat' split) <;>
    simp

@[simp] theorem State.routed_memq (s : State) (t : Nat) (old new : Packet) : State.memq (State.routed s t old new) = State.memq s := by
  unfold State.routed
  simp only [↓State.modTile_memq, ↓State.count_memq, ↓State.inc_memq, ↓State.ite_memq, ite_self, State.memq_mk, State.memq_eta]

@[simp] theorem State.mgtDiscard_memq (s : State) : State.memq (State.mgtDiscard s) = State.memq s := by
  unfold State.mgtDiscard
  simp only [↓State.inc_memq, ↓State.raise_memq, ↓State.count_memq, ↓State.ite_memq, ite_self, State.memq_mk, State.memq_eta]

@[simp] theorem State.mgtArrive_memq (s : State) (q : Packet) (p : Nat) : State.memq (State.mgtArrive s q p) = State.memq s := by
  unfold State.mgtArrive
  simp

@[simp] theorem State.place_memq (s : State) (t : Nat) (h : Held) (d : Decision) : State.memq (State.place s t h d) = State.memq s := by
  unfold State.place
  (repeat' split) <;>
    simp

@[simp] theorem State.applyGossip_memq (s : State) (p : Nat) (q : Packet) : State.memq (State.applyGossip s p q) = State.memq s := by
  unfold State.applyGossip
  simp

@[simp] theorem State.arrive_memq (s : State) (t : Nat) (f : Fresh) : State.memq (State.arrive s t f) = State.memq s := by
  unfold State.arrive
  simp

@[simp] theorem State.setTok_memq (s : State) (t j : Nat) (v : Int) : State.memq (State.setTok s t j v) = State.memq s := by
  unfold State.setTok
  simp

@[simp] theorem State.charge_memq (s : State) (t j n : Nat) : State.memq (State.charge s t j n) = State.memq s := by
  unfold State.charge
  simp

@[simp] theorem State.space_memq (s : State) (e dest bytes : Nat) : State.memq (State.space s e dest bytes) = State.memq s := by
  unfold State.space
  simp

@[simp] theorem State.engCharge_memq (s : State) (f : Fresh) : State.memq (State.engCharge s f) = State.memq s := by
  unfold State.engCharge
  (repeat' split) <;>
    simp

@[simp] theorem State.presented_memq (s : State) (t inPort : Nat) (pkt : Packet) : State.memq ((State.presented s t inPort pkt).2) = State.memq s := by
  unfold State.presented
  (repeat' split) <;>
    simp

theorem State.presented_pair {s : State} {t inPort : Nat} {pkt : Packet} {t_ : State} {a_ : Fresh} (h_ : State.presented s t inPort pkt = (a_, t_)) : State.memq t_ = State.memq s := by
  have := State.presented_memq s t inPort pkt
  rwa [h_] at this

theorem execReservationRequest_memq (t out : Fin 72) (port : Fin 1024) (vc : Fin 16) (mc : Bool) (s : State) : ∃ r_, execReservationRequest t out port vc mc s = .next r_ ∧ State.memq r_ = State.memq s := by
  unfold execReservationRequest
  (repeat' split) <;>
    exact ⟨_, rfl, by simp⟩

@[simp] theorem State.prune_memq (s : State) (out p : Nat) (pkt : Packet) : State.memq (State.prune s out p pkt) = State.memq s := by
  unfold State.prune
  simp only [↓State.inc_memq, ↓State.count_memq, ↓State.raise_memq, ↓State.ite_memq, ite_self, State.memq_mk, State.memq_eta]

@[simp] theorem State.spareDrop_memq (s : State) (q : ResReq) (e : Nat) : State.memq (State.spareDrop s q e) = State.memq s := by
  unfold State.spareDrop
  simp only [↓State.removeHeld_memq, ↓State.inc_memq, ↓State.raise_memq, ↓State.ite_memq, ite_self, State.memq_mk, State.memq_eta]

@[simp] theorem State.dropReq_memq (s : State) (out : Nat) (q : ResReq) : State.memq (State.dropReq s out q) = State.memq s := by
  unfold State.dropReq
  simp

@[simp] theorem State.grant_memq (s : State) (out : Nat) (q : ResReq) (h : Held) (members : List Nat) : State.memq (State.grant s out q h members) = State.memq s := by
  unfold State.grant
  simp

theorem execReservationGrant_memq (out : Fin 72) (port : Fin 1024) (vc : Fin 16) (mc : Bool) (s : State) : ∃ r_, execReservationGrant out port vc mc s = .next r_ ∧ State.memq r_ = State.memq s := by
  unfold execReservationGrant
  dsimp only
  (repeat' split) <;>
    exact ⟨_, rfl, by simp⟩

@[simp] theorem State.cellSent_memq (s : State) (i id : Nat) : State.memq (State.cellSent s i id) = State.memq s := by
  unfold State.cellSent
  (repeat' split) <;>
    simp

@[simp] theorem State.pushMid_memq (s : State) (m key : Nat) (c : Cell) : State.memq (State.pushMid s m key c) = State.memq s := by
  unfold State.pushMid
  simp

@[simp] theorem State.stageOne_memq (s : State) (i m : Nat) (c : Option Ready) : State.memq (State.stageOne s i m c) = State.memq s := by
  unfold State.stageOne
  (repeat' split) <;>
    simp

@[simp] theorem State.placeCell_memq (s : State) (out : Nat) (c : Cell) : State.memq (State.placeCell s out c) = State.memq s := by
  unfold State.placeCell
  simp

@[simp] theorem State.stageTwo_memq (s : State) (m out : Nat) : State.memq (State.stageTwo s m out) = State.memq s := by
  unfold State.stageTwo
  (repeat' split) <;>
    simp

@[simp] theorem State.slotAt_memq (s : State) (t m : Nat) : State.memq (State.slotAt s t m) = State.memq s := by
  unfold State.slotAt
  simp

@[simp] theorem State.coreSlot_memq (s : State) : State.memq (State.coreSlot s) = State.memq s := by
  unfold State.coreSlot
  simp

@[simp] theorem State.releaseMember_memq (s : State) (t : Nat) (r : Resv) (acc : List Member) (m : Member) : State.memq ((State.releaseMember s t r acc m).1) = State.memq s := by
  unfold State.releaseMember
  (repeat' split) <;>
    simp

theorem State.releaseMember_pair {s : State} {t : Nat} {r : Resv} {acc : List Member} {m : Member} {t_ : State} {a_ : List Member} (h_ : State.releaseMember s t r acc m = (t_, a_)) : State.memq t_ = State.memq s := by
  have := State.releaseMember_memq s t r acc m
  rwa [h_] at this

@[simp] theorem State.releaseAll_memq (s : State) (t : Nat) (r : Resv) (x0 : List Member) (x1 : List Member) : State.memq ((State.releaseAll s t r x0 x1).1) = State.memq s := by
  induction x0 generalizing s x1 with
  | nil => rfl
  | cons m l ih => rw [State.releaseAll]; simp [ih]

theorem State.releaseAll_pair {s : State} {t : Nat} {r : Resv} {x0 : List Member} {x1 : List Member} {t_ : State} {a_ : List Member} (h_ : State.releaseAll s t r x0 x1 = (t_, a_)) : State.memq t_ = State.memq s := by
  have := State.releaseAll_memq s t r x0 x1
  rwa [h_] at this

@[simp] theorem State.release_memq (s : State) (t : Nat) (r : Resv) : State.memq (State.release s t r) = State.memq s := by
  unfold State.release
  simp

theorem execPacketComplete_memq (t : Fin 72) (res : Fin 65536) (s : State) : ∃ r_, execPacketComplete t res s = .next r_ ∧ State.memq r_ = State.memq s := by
  unfold execPacketComplete
  (repeat' split) <;>
    exact ⟨_, rfl, by simp⟩

theorem execReasmTimeout_memq (t : Fin 72) (res : Fin 65536) (s : State) : ∃ r_, execReasmTimeout t res s = .next r_ ∧ State.memq r_ = State.memq s := by
  unfold execReasmTimeout
  (repeat' split) <;>
    exact ⟨_, rfl, by simp only [↓State.modTile_memq, ↓State.dropAge_memq, ↓State.inc_memq, ↓State.count_memq, ↓State.raise_memq, ↓State.ite_memq, ite_self, State.memq_mk, State.memq_eta]⟩

@[simp] theorem State.dropSent_memq (s : State) (t : Nat) (h : Held) (res : Nat) : State.memq (State.dropSent s t h res) = State.memq s := by
  unfold State.dropSent
  simp

@[simp] theorem State.abortHeld_memq (s : State) (t id : Nat) : State.memq (State.abortHeld s t id) = State.memq s := by
  unfold State.abortHeld
  dsimp only
  (repeat' split) <;>
    simp only [↓State.inc_memq, ↓State.modTile_memq, ↓State.dropSent_memq, ↓State.removeHeld_memq, ↓State.ite_memq, ite_self, State.memq_mk, State.memq_eta]

theorem execPacketAbort_memq (t : Fin 72) (id : Nat) (s : State) : ∃ r_, execPacketAbort t id s = .next r_ ∧ State.memq r_ = State.memq s := by
  unfold execPacketAbort
  (repeat' split) <;>
    exact ⟨_, rfl, by simp⟩

@[simp] theorem State.sweepIn_memq (s : State) (t : Nat) : State.memq (State.sweepIn s t) = State.memq s := by
  unfold State.sweepIn
  (try dsimp only)
  (repeat' split) <;>
    (repeat' first | (simp; done) | refine (State.each_memq _ _ _ fun _ _ => ?_).trans ?_ | split)

@[simp] theorem State.sweepMiss_memq (s : State) (t e : Nat) : State.memq (State.sweepMiss s t e) = State.memq s := by
  unfold State.sweepMiss
  simp

@[simp] theorem State.sweepOut_memq (s : State) (t : Nat) : State.memq (State.sweepOut s t) = State.memq s := by
  unfold State.sweepOut
  simp

theorem execAgeSweep_memq (t : Fin 72) (s : State) : ∃ r_, execAgeSweep t s = .next r_ ∧ State.memq r_ = State.memq s := by
  unfold execAgeSweep
  dsimp only
  (repeat' split) <;>
    exact ⟨_, rfl, by simp⟩

@[simp] theorem State.noteQuiet_memq (s : State) (t : Nat) : State.memq (State.noteQuiet s t) = State.memq s := by
  unfold State.noteQuiet
  simp

@[simp] theorem State.exitTile_memq (s : State) (t : Nat) : State.memq (State.exitTile s t) = State.memq s := by
  unfold State.exitTile
  simp

@[simp] theorem State.skipMid_memq (s : State) (m : Nat) : State.memq (State.skipMid s m) = State.memq s := by
  unfold State.skipMid
  simp

@[simp] theorem State.startDrain_memq (s : State) (m : Nat) : State.memq (State.startDrain s m) = State.memq s := by
  unfold State.startDrain
  simp

@[simp] theorem State.applyCapture_memq (s : State) (page : Nat) : State.memq (State.applyCapture s page) = State.memq s := by
  unfold State.applyCapture
  simp

theorem execMidFenceEffect_memq (s : State) : ∃ r_, execMidFenceEffect s = .next r_ ∧ State.memq r_ = State.memq s := by
  unfold execMidFenceEffect
  dsimp only
  (repeat' split) <;>
    exact ⟨_, rfl, by simp⟩

theorem execMidDrainDone_memq (m : Fin 72) (s : State) : ∃ r_, execMidDrainDone m s = .next r_ ∧ State.memq r_ = State.memq s := by
  unfold execMidDrainDone
  (repeat' split) <;>
    exact ⟨_, rfl, by simp⟩

theorem execMidReturn_memq (m : Fin 72) (s : State) : ∃ r_, execMidReturn m s = .next r_ ∧ State.memq r_ = State.memq s := by
  unfold execMidReturn
  (repeat' split) <;>
    exact ⟨_, rfl, by simp⟩

end Sys2Proof.Machine
end

