-- ==== Sys2Proof/Laws/MemSched.lean ====
section
/-!
SUPPORT. What the operations of Machine/Sched.lean do to table-space memory: nothing, or they keep its canonical form.
-/
namespace Sys2Proof.Machine
open Sys2Proof

set_option linter.unusedSimpArgs false

theorem execShaperRefill_memq (s : State) : ∃ r_, execShaperRefill s = .next r_ ∧ State.memq r_ = State.memq s := by
  unfold execShaperRefill
  exact ⟨_, rfl, by simp⟩

@[simp] theorem State.resetBucket_memq (s : State) (t j : Nat) : State.memq (State.resetBucket s t j) = State.memq s := by
  unfold State.resetBucket
  simp

theorem execShaperCfgWrite_memq (t : Fin 72) (j : Fin 128) (rate : Bool) (v : Nat) (s : State) : ∃ r_, execShaperCfgWrite t j rate v s = .next r_ ∧ State.memq r_ = State.memq s := by
  unfold execShaperCfgWrite
  (repeat' split) <;>
    exact ⟨_, rfl, by simp⟩

@[simp] theorem State.noteIdle_memq (s : State) (p : Nat) : State.memq (State.noteIdle s p) = State.memq s := by
  unfold State.noteIdle
  simp

@[simp] theorem State.dropDead_memq (s : State) (p : Nat) (r : Resv) : State.memq (State.dropDead s p r) = State.memq s := by
  unfold State.dropDead
  simp

@[simp] theorem State.purge_memq (s : State) (p : Nat) : State.memq (State.purge s p) = State.memq s := by
  unfold State.purge
  simp

@[simp] theorem State.histAt_memq (s : State) (t i w : Nat) : State.memq (State.histAt s t i w) = State.memq s := by
  unfold State.histAt
  simp only [↓State.inc_memq, ↓State.count_memq, ↓State.ite_memq, ite_self, State.memq_mk, State.memq_eta]

@[simp] theorem State.modTx_memq (s : State) (t res : Nat) (f : Resv → Resv) : State.memq (State.modTx s t res f) = State.memq s := by
  unfold State.modTx
  simp

@[simp] theorem State.startPacket_memq (s : State) (p : Nat) (r : Resv) : State.memq (State.startPacket s p r) = State.memq s := by
  unfold State.startPacket
  simp only [↓State.histAt_memq, ↓State.modTx_memq, ↓State.inc_memq, ↓State.count_memq, ↓State.charge_memq, ↓State.modSched_memq, ↓State.ite_memq, ite_self, State.memq_mk, State.memq_eta]

@[simp] theorem State.takeCell_memq (s : State) (p : Nat) (r : Resv) : State.memq (State.takeCell s p r) = State.memq s := by
  unfold State.takeCell
  simp

@[simp] theorem State.takeWhole_memq (s : State) (p : Nat) (r : Resv) : State.memq (State.takeWhole s p r) = State.memq s := by
  unfold State.takeWhole
  simp

@[simp] theorem State.drrJoin_memq (s : State) (p : Nat) : State.memq (State.drrJoin s p) = State.memq s := by
  unfold State.drrJoin
  simp

@[simp] theorem State.drr_memq (s : State) (p : Nat) (x0 : Nat) : State.memq ((State.drr s p x0).2) = State.memq s := by
  induction x0 generalizing s with
  | zero => rfl
  | succ n ih =>
    rw [State.drr]
    dsimp only
    (repeat' split) <;> simp [ih]

theorem State.drr_pair {s : State} {p : Nat} {x0 : Nat} {t_ : State} {a_ : Option Nat} (h_ : State.drr s p x0 = (a_, t_)) : State.memq t_ = State.memq s := by
  have := State.drr_memq s p x0
  rwa [h_] at this

@[simp] theorem State.chooseSl_memq (s : State) (p : Nat) : State.memq ((State.chooseSl s p).2) = State.memq s := by
  unfold State.chooseSl
  dsimp only
  (repeat' split) <;>
    simp

theorem State.chooseSl_pair {s : State} {p : Nat} {t_ : State} {a_ : Option Nat} (h_ : State.chooseSl s p = (a_, t_)) : State.memq t_ = State.memq s := by
  have := State.chooseSl_memq s p
  rwa [h_] at this

@[simp] theorem State.joins_memq (s : State) : State.memq (State.joins s) = State.memq s := by
  unfold State.joins
  simp

@[simp] theorem State.chooseCell_memq (s : State) (p : Nat) : State.memq ((State.chooseCell s p).2) = State.memq s := by
  unfold State.chooseCell
  dsimp only
  split
  · simp
  · split
    · split <;> simp
    · split
      · simp
      · have hc := State.chooseSl_memq (s.purge p) p
        (repeat' split) <;> simp_all

theorem State.chooseCell_pair {s : State} {p : Nat} {t_ : State} {a_ : Option Resv} (h_ : State.chooseCell s p = (a_, t_)) : State.memq t_ = State.memq s := by
  have := State.chooseCell_memq s p
  rwa [h_] at this

@[simp] theorem State.sampleTile_memq (s : State) (t : Nat) : State.memq (State.sampleTile s t) = State.memq s := by
  unfold State.sampleTile
  simp

theorem execQueueSample_memq (t : Fin 72) (s : State) : ∃ r_, execQueueSample t s = .next r_ ∧ State.memq r_ = State.memq s := by
  unfold execQueueSample
  dsimp only
  (repeat' split) <;>
    exact ⟨_, rfl, by simp⟩

theorem execHistClr_memq (t : Fin 72) (s : State) : ∃ r_, execHistClr t s = .next r_ ∧ State.memq r_ = State.memq s := by
  unfold execHistClr
  exact ⟨_, rfl, by simp⟩

@[simp] theorem State.telRecord_ok (s : State) (t tag : Nat) (alarm : Bool) {q_ : Bool × List Instr} (hk : State.Ok q_ (State.memq s)) : State.Ok q_ (State.memq (State.telRecord s t tag alarm)) := by
  unfold State.telRecord
  (try dsimp only)
  (repeat' split)
  all_goals first | with_reducible assumption | (simp only [↓State.inc_memq, ↓State.raise_memq, ↓State.count_memq, ↓State.hw_memq, ↓State.set_memq, ↓State.raiseIf_memq, ↓State.ite_memq, ite_self, State.memq_mk, State.memq_eta, hk]; done) | ((repeat' first | with_reducible assumption | fail | fail | with_reducible refine State.each_ok _ _ _ ?_ fun _ _ _ => ?_ | with_reducible refine State.fold1_ok _ (fun _ _ _ => ?_) _ _ ?_ | simp only [↓State.inc_memq, ↓State.raise_memq, ↓State.count_memq, ↓State.hw_memq, ↓State.set_memq, ↓State.raiseIf_memq, ↓State.ite_memq, ite_self, State.memq_mk, State.memq_eta] | split | dsimp only); done) | (simp [hk, State.Ok.write]; done) | (simp +contextual [hk, State.Ok.write]; done) | ((repeat' first | with_reducible assumption | (simp [*, State.Ok.write]; done) | refine State.each_ok _ _ _ ?_ fun _ _ _ => ?_ | refine State.fold_ok _ _ _ ?_ fun _ _ _ => ?_ | split | dsimp only); done) | skip

@[simp] theorem State.telAlarm_ok (s : State) (t tag : Nat) {q_ : Bool × List Instr} (hk : State.Ok q_ (State.memq s)) : State.Ok q_ (State.memq (State.telAlarm s t tag)) := by
  unfold State.telAlarm
  simp [hk]

theorem execTelRecord_ok (t : Fin 72) (s : State) {q_ : Bool × List Instr} (hk : State.Ok q_ (State.memq s)) : ∃ r_, execTelRecord t s = .next r_ ∧ State.Ok q_ (State.memq r_) := by
  unfold execTelRecord
  dsimp only
  (repeat' split) <;>
    exact ⟨_, rfl, by simp [hk]⟩

theorem execPmcWrite_memq (cls : Fin 31) (i : Fin 1024) (k : Fin 8) (v : Nat) (s : State) : ∃ r_, execPmcWrite cls i k v s = .next r_ ∧ State.memq r_ = State.memq s := by
  unfold execPmcWrite
  (repeat' split) <;>
    exact ⟨_, rfl, by simp⟩

@[simp] theorem State.snapshot_ok (s : State) (cls i tag : Nat) {q_ : Bool × List Instr} (hk : State.Ok q_ (State.memq s)) : State.Ok q_ (State.memq (State.snapshot s cls i tag)) := by
  unfold State.snapshot
  (try dsimp only)
  (repeat' split)
  all_goals first | with_reducible assumption | (simp only [↓State.set_memq, ↓State.ite_memq, ite_self, State.memq_mk, State.memq_eta, hk]; done) | ((repeat' first | with_reducible assumption | fail | fail | with_reducible refine State.each_ok _ _ _ ?_ fun _ _ _ => ?_ | with_reducible refine State.fold1_ok _ (fun _ _ _ => ?_) _ _ ?_ | simp only [↓State.set_memq, ↓State.ite_memq, ite_self, State.memq_mk, State.memq_eta] | split | dsimp only); done) | (simp [hk, State.Ok.write]; done) | (simp +contextual [hk, State.Ok.write]; done) | ((repeat' first | with_reducible assumption | (simp [*, State.Ok.write]; done) | refine State.each_ok _ _ _ ?_ fun _ _ _ => ?_ | refine State.fold_ok _ _ _ ?_ fun _ _ _ => ?_ | split | dsimp only); done) | skip

@[simp] theorem State.snapshotAll_ok (s : State) (tag : Nat) {q_ : Bool × List Instr} (hk : State.Ok q_ (State.memq s)) : State.Ok q_ (State.memq (State.snapshotAll s tag)) := by
  unfold State.snapshotAll
  (try dsimp only)
  (repeat' split)
  all_goals first | with_reducible assumption | (simp only [↓State.snapshot_ok, ↓State.ite_memq, ite_self, State.memq_mk, State.memq_eta, hk]; done) | ((repeat' first | with_reducible assumption | with_reducible apply State.snapshot_ok | fail | with_reducible refine State.each_ok _ _ _ ?_ fun _ _ _ => ?_ | with_reducible refine State.fold1_ok _ (fun _ _ _ => ?_) _ _ ?_ | simp only [↓State.ite_memq, ite_self, State.memq_mk, State.memq_eta] | split | dsimp only); done) | (simp [hk, State.Ok.write]; done) | (simp +contextual [hk, State.Ok.write]; done) | ((repeat' first | with_reducible assumption | (simp [*, State.Ok.write]; done) | refine State.each_ok _ _ _ ?_ fun _ _ _ => ?_ | refine State.fold_ok _ _ _ ?_ fun _ _ _ => ?_ | split | dsimp only); done) | skip

theorem execPmcSnapNow_ok (cls : Fin 31) (i : Fin 1024) (s : State) {q_ : Bool × List Instr} (hk : State.Ok q_ (State.memq s)) : ∃ r_, execPmcSnapNow cls i s = .next r_ ∧ State.Ok q_ (State.memq r_) := by
  unfold execPmcSnapNow
  (repeat' split) <;>
    exact ⟨_, rfl, by simp [hk]⟩

theorem execPmnSnapNow_ok (s : State) {q_ : Bool × List Instr} (hk : State.Ok q_ (State.memq s)) : ∃ r_, execPmnSnapNow s = .next r_ ∧ State.Ok q_ (State.memq r_) := by
  unfold execPmnSnapNow
  (repeat' split) <;>
    exact ⟨_, rfl, by simp [hk]⟩

theorem execCntClr_memq (cls : Fin 31) (i : Fin 1024) (s : State) : ∃ r_, execCntClr cls i s = .next r_ ∧ State.memq r_ = State.memq s := by
  unfold execCntClr
  (try dsimp only)
  (repeat' split) <;>
    exact ⟨_, rfl, by repeat' first | (simp; done) | refine (State.each_memq _ _ _ fun _ _ => ?_).trans ?_ | split⟩

end Sys2Proof.Machine
end

