-- ==== Sys2Proof/Laws/MemLink.lean ====
section
/-!
SUPPORT. What the operations of Machine/Link.lean do to table-space memory: nothing, or they keep its canonical form.
-/
namespace Sys2Proof.Machine
open Sys2Proof

set_option linter.unusedSimpArgs false

@[simp] theorem State.modVc_memq (s : State) (p vc : Nat) (f : VcSt → VcSt) : State.memq (State.modVc s p vc f) = State.memq s := by
  unfold State.modVc
  simp

@[simp] theorem State.restartTimer_memq (s : State) (p : Nat) : State.memq (State.restartTimer s p) = State.memq s := by
  unfold State.restartTimer
  simp

@[simp] theorem State.applyCack_memq (s : State) (p cack : Nat) : State.memq (State.applyCack s p cack) = State.memq s := by
  unfold State.applyCack
  simp

@[simp] theorem State.applySack_memq (s : State) (p cack map n : Nat) : State.memq (State.applySack s p cack map n) = State.memq s := by
  unfold State.applySack
  simp

@[simp] theorem State.resendAll_memq (s : State) (p : Nat) (keepMarked : Bool) : State.memq (State.resendAll s p keepMarked) = State.memq s := by
  unfold State.resendAll
  simp

@[simp] theorem State.applyGrant_memq (s : State) (p vc cnt : Nat) : State.memq (State.applyGrant s p vc cnt) = State.memq s := by
  unfold State.applyGrant
  simp

@[simp] theorem State.applyRelease_memq (s : State) (p vc cnt : Nat) : State.memq (State.applyRelease s p vc cnt) = State.memq s := by
  unfold State.applyRelease
  simp

@[simp] theorem State.grantUnit_memq (s : State) (p vc : Nat) : State.memq (State.grantUnit s p vc) = State.memq s := by
  unfold State.grantUnit
  simp

theorem execCreditGrant_memq (p : Fin 1024) (s : State) : ∃ r_, execCreditGrant p s = .next r_ ∧ State.memq r_ = State.memq s := by
  unfold execCreditGrant
  dsimp only
  (repeat' split) <;>
    exact ⟨_, rfl, by simp⟩

theorem execCreditRelease_memq (p : Fin 1024) (vc : Fin 16) (s : State) : ∃ r_, execCreditRelease p vc s = .next r_ ∧ State.memq r_ = State.memq s := by
  unfold execCreditRelease
  dsimp only
  (repeat' split) <;>
    exact ⟨_, rfl, by simp⟩

@[simp] theorem State.checkCredit_memq (s : State) (p : Nat) : State.memq (State.checkCredit s p) = State.memq s := by
  unfold State.checkCredit
  simp

theorem execSlotsWrite_memq (p : Fin 1024) (v : Nat) (s : State) : ∃ r_, execSlotsWrite p v s = .next r_ ∧ State.memq r_ = State.memq s := by
  unfold execSlotsWrite
  dsimp only
  (repeat' split) <;>
    exact ⟨_, rfl, by simp⟩

@[simp] theorem State.appendCell_memq (s : State) (t id : Nat) (cell : List Byte) : State.memq (State.appendCell s t id cell) = State.memq s := by
  unfold State.appendCell
  simp

@[simp] theorem State.present_memq (s : State) (p : Nat) (f : RxFrame) : State.memq (State.present s p f) = State.memq s := by
  unfold State.present
  (repeat' split) <;>
    simp

@[simp] theorem State.presentHeld_memq (s : State) (p : Nat) (x0 : Nat) : State.memq (State.presentHeld s p x0) = State.memq s := by
  induction x0 generalizing s with
  | zero => rfl
  | succ n ih =>
    rw [State.presentHeld]
    dsimp only
    split <;> simp [ih]

@[simp] theorem State.goodFrame_memq (s : State) (lane : Nat) : State.memq (State.goodFrame s lane) = State.memq s := by
  unfold State.goodFrame
  simp

theorem execBadFrameRx_memq (lane : Fin 1024) (b : List Byte) (s : State) : ∃ r_, execBadFrameRx lane b s = .next r_ ∧ State.memq r_ = State.memq s := by
  unfold execBadFrameRx
  dsimp only
  (repeat' split) <;>
    exact ⟨_, rfl, by simp⟩

theorem execLaneDelineated_memq (lane : Fin 1024) (s : State) : ∃ r_, execLaneDelineated lane s = .next r_ ∧ State.memq r_ = State.memq s := by
  unfold execLaneDelineated
  (repeat' split) <;>
    exact ⟨_, rfl, by simp⟩

@[simp] theorem State.truncated_memq (s : State) (p : Nat) : State.memq (State.truncated s p) = State.memq s := by
  unfold State.truncated
  simp

@[simp] theorem State.closeRx_memq (s : State) (p : Nat) : State.memq (State.closeRx s p) = State.memq s := by
  unfold State.closeRx
  simp

@[simp] theorem State.dropMember_memq (s : State) (p res : Nat) : State.memq (State.dropMember s p res) = State.memq s := by
  unfold State.dropMember
  simp

@[simp] theorem State.closeTx_memq (s : State) (p : Nat) : State.memq (State.closeTx s p) = State.memq s := by
  unfold State.closeTx
  simp

@[simp] theorem State.discardLink_memq (s : State) (p : Nat) : State.memq (State.discardLink s p) = State.memq s := by
  unfold State.discardLink
  simp

@[simp] theorem State.newLink_memq (s : State) (p mode : Nat) : State.memq (State.newLink s p mode) = State.memq s := by
  unfold State.newLink
  simp

@[simp] theorem State.turned_memq (s : State) (p k : Nat) : State.memq (State.turned s p k) = State.memq s := by
  unfold State.turned
  simp

@[simp] theorem State.frameSent_memq (s : State) (p : Nat) (isAck : Bool) : State.memq (State.frameSent s p isAck) = State.memq s := by
  unfold State.frameSent
  simp

@[simp] theorem State.applyHead_memq (s : State) (p : Nat) (h : FrameHead) (map n : Nat) : State.memq (State.applyHead s p h map n) = State.memq s := by
  have key : ∀ t, State.applyHead s p h map n = t → State.memq t = State.memq s := by
    intro t ht
    unfold State.applyHead at ht
    dsimp only at ht
    split at ht
    · split at ht
      · rw [← ht, State.inc_memq, State.resendAll_memq, State.applyGrant_memq, State.applyCack_memq]
      · rw [← ht, State.applyGrant_memq, State.applyCack_memq]
    · split at ht
      · rw [← ht, State.learn_memq, State.applyGrant_memq, State.applySack_memq, State.applyCack_memq]
      · rw [← ht, State.applyGrant_memq, State.applySack_memq, State.applyCack_memq]
  exact key _ rfl

@[simp] theorem State.notFence_memq (s : State) (p : Nat) : State.memq (State.notFence s p) = State.memq s := by
  unfold State.notFence
  simp

end Sys2Proof.Machine
end

