-- ==== Sys2Proof/Laws/MemPort.lean ====
section
/-!
SUPPORT. What the operations of Machine/Port.lean do to table-space memory: nothing, or they keep its canonical form.
-/
namespace Sys2Proof.Machine
open Sys2Proof

set_option linter.unusedSimpArgs false

@[simp] theorem State.portTo_memq (s : State) (p st : Nat) : State.memq (State.portTo s p st) = State.memq s := by
  unfold State.portTo
  simp

@[simp] theorem State.setActive_memq (s : State) (p act : Nat) : State.memq (State.setActive s p act) = State.memq s := by
  unfold State.setActive
  simp

@[simp] theorem State.transmit_memq (s : State) (p : Nat) (on : Bool) : State.memq (State.transmit s p on) = State.memq s := by
  unfold State.transmit
  simp

@[simp] theorem State.laneFresh_memq (s : State) (l : Nat) : State.memq (State.laneFresh s l) = State.memq s := by
  unfold State.laneFresh
  dsimp only
  (repeat' split) <;>
    simp

@[simp] theorem State.enterBringup_memq (s : State) (p : Nat) (retrain : Bool) (wait : Nat) (draw : Bool) : State.memq (State.enterBringup s p retrain wait draw) = State.memq s := by
  unfold State.enterBringup
  simp

@[simp] theorem State.holdTraffic_memq (s : State) (p : Nat) : State.memq (State.holdTraffic s p) = State.memq s := by
  unfold State.holdTraffic
  simp

@[simp] theorem State.linkGone_memq (s : State) (p : Nat) : State.memq (State.linkGone s p) = State.memq s := by
  unfold State.linkGone
  simp

@[simp] theorem State.linkLost_memq (s : State) (p : Nat) : State.memq (State.linkLost s p) = State.memq s := by
  unfold State.linkLost
  simp

@[simp] theorem State.linkDown_memq (s : State) (p : Nat) : State.memq (State.linkDown s p) = State.memq s := by
  unfold State.linkDown
  simp

@[simp] theorem State.portFenced_memq (s : State) (p : Nat) : State.memq (State.portFenced s p) = State.memq s := by
  unfold State.portFenced
  simp

@[simp] theorem State.portStart_memq (s : State) (p : Nat) : State.memq (State.portStart s p) = State.memq s := by
  unfold State.portStart
  simp

@[simp] theorem State.flushTx_memq (s : State) (p : Nat) : State.memq (State.flushTx s p) = State.memq s := by
  unfold State.flushTx
  simp

@[simp] theorem State.flushVoq_memq (s : State) (p t : Nat) : State.memq (State.flushVoq s p t) = State.memq s := by
  unfold State.flushVoq
  simp

@[simp] theorem State.flushParked_memq (s : State) (t : Nat) : State.memq (State.flushParked s t) = State.memq s := by
  unfold State.flushParked
  simp

@[simp] theorem State.flushPort_memq (s : State) (p : Nat) : State.memq (State.flushPort s p) = State.memq s := by
  unfold State.flushPort
  simp

@[simp] theorem State.unpark_memq (s : State) (p t : Nat) : State.memq (State.unpark s p t) = State.memq s := by
  unfold State.unpark
  simp

@[simp] theorem State.purgeCompat_memq (s : State) (p : Nat) : State.memq (State.purgeCompat s p) = State.memq s := by
  unfold State.purgeCompat
  simp

@[simp] theorem State.portUp_memq (s : State) (p : Nat) : State.memq (State.portUp s p) = State.memq s := by
  unfold State.portUp
  simp

theorem execFrameLock_memq (p : Fin 1024) (s : State) : ∃ r_, execFrameLock p s = .next r_ ∧ State.memq r_ = State.memq s := by
  unfold execFrameLock
  (repeat' split) <;>
    exact ⟨_, rfl, by simp⟩

@[simp] theorem State.sendCaps_memq (s : State) (p lanes req prop : Nat) (locked : Bool) (ladder : Nat) : State.memq (State.sendCaps s p lanes req prop locked ladder) = State.memq s := by
  unfold State.sendCaps
  simp

@[simp] theorem State.trainFail_memq (s : State) (p : Nat) : State.memq (State.trainFail s p) = State.memq s := by
  unfold State.trainFail
  simp

@[simp] theorem State.tryAgree_memq (s : State) (p : Nat) : State.memq (State.tryAgree s p) = State.memq s := by
  unfold State.tryAgree
  simp

@[simp] theorem State.redraw_memq (s : State) (p : Nat) : State.memq (State.redraw s p) = State.memq s := by
  unfold State.redraw
  simp

@[simp] theorem State.settle_memq (s : State) (p prop : Nat) : State.memq (State.settle s p prop) = State.memq s := by
  unfold State.settle
  dsimp only
  (repeat' split) <;>
    simp

@[simp] theorem State.reagree_memq (s : State) (p : Nat) : State.memq (State.reagree s p) = State.memq s := by
  unfold State.reagree
  simp

@[simp] theorem State.recordPeer_memq (s : State) (p : Nat) (c : CapCell) : State.memq (State.recordPeer s p c) = State.memq s := by
  unfold State.recordPeer
  simp

@[simp] theorem State.misorder_memq (s : State) (l idx : Nat) : State.memq (State.misorder s l idx) = State.memq s := by
  unfold State.misorder
  simp

@[simp] theorem State.capExchange_memq (s : State) (p k : Nat) (c : CapCell) : State.memq (State.capExchange s p k c) = State.memq s := by
  unfold State.capExchange
  simp

@[simp] theorem State.capFrameLock_memq (s : State) (p k : Nat) (c : CapCell) : State.memq (State.capFrameLock s p k c) = State.memq s := by
  unfold State.capFrameLock
  simp

@[simp] theorem State.askWidth_memq (s : State) (p prop : Nat) (widen : Bool) : State.memq (State.askWidth s p prop widen) = State.memq s := by
  unfold State.askWidth
  simp

@[simp] theorem State.narrowed_memq (s : State) (p act peer : Nat) : State.memq (State.narrowed s p act peer) = State.memq s := by
  unfold State.narrowed
  simp

@[simp] theorem State.widened_memq (s : State) (p act : Nat) : State.memq (State.widened s p act) = State.memq s := by
  unfold State.widened
  simp

@[simp] theorem State.degrade_memq (s : State) (p : Nat) : State.memq (State.degrade s p) = State.memq s := by
  unfold State.degrade
  simp

@[simp] theorem State.autoWiden_memq (s : State) (p : Nat) : State.memq (State.autoWiden s p) = State.memq s := by
  unfold State.autoWiden
  simp

@[simp] theorem State.failLane_memq (s : State) (p l : Nat) : State.memq (State.failLane s p l) = State.memq s := by
  unfold State.failLane
  simp

@[simp] theorem State.laneTest_memq (s : State) (l : Nat) : State.memq (State.laneTest s l) = State.memq s := by
  unfold State.laneTest
  (repeat' split) <;>
    simp

@[simp] theorem State.widthReply_memq (s : State) (p : Nat) (c : CapCell) : State.memq (State.widthReply s p c) = State.memq s := by
  unfold State.widthReply
  simp

@[simp] theorem State.widthAsked_memq (s : State) (p : Nat) (c : CapCell) : State.memq (State.widthAsked s p c) = State.memq s := by
  unfold State.widthAsked
  dsimp only
  (repeat' split) <;>
    simp

@[simp] theorem State.widthAnswered_memq (s : State) (p : Nat) (c : CapCell) : State.memq (State.widthAnswered s p c) = State.memq s := by
  unfold State.widthAnswered
  dsimp only
  (repeat' split) <;>
    simp

@[simp] theorem State.retrain_memq (s : State) (p : Nat) : State.memq (State.retrain s p) = State.memq s := by
  unfold State.retrain
  simp

@[simp] theorem State.enterRung_memq (s : State) (p rung deepest : Nat) (cmd : Bool) : State.memq (State.enterRung s p rung deepest cmd) = State.memq s := by
  unfold State.enterRung
  simp

@[simp] theorem State.enterAccepted_memq (s : State) (p rung : Nat) (cmd : Bool) : State.memq (State.enterAccepted s p rung cmd) = State.memq s := by
  unfold State.enterAccepted
  simp

@[simp] theorem State.ladRefused_memq (s : State) (p : Nat) : State.memq (State.ladRefused s p) = State.memq s := by
  unfold State.ladRefused
  simp

@[simp] theorem State.sendAck_memq (s : State) (p k : Nat) : State.memq (State.sendAck s p k) = State.memq s := by
  unfold State.sendAck
  simp

@[simp] theorem State.ackInTurn_memq (s : State) (p : Nat) : State.memq (State.ackInTurn s p) = State.memq s := by
  unfold State.ackInTurn
  simp

@[simp] theorem State.ladAsk_memq (s : State) (p rung : Nat) (cmd : Bool) : State.memq (State.ladAsk s p rung cmd) = State.memq s := by
  unfold State.ladAsk
  simp

@[simp] theorem State.sendAccept_memq (s : State) (p rung : Nat) : State.memq (State.sendAccept s p rung) = State.memq s := by
  unfold State.sendAccept
  simp

@[simp] theorem State.ladAsked_memq (s : State) (p rung : Nat) (cmd : Bool) : State.memq (State.ladAsked s p rung cmd) = State.memq s := by
  unfold State.ladAsked
  (repeat' split) <;>
    simp

@[simp] theorem State.wakePort_memq (s : State) (p : Nat) : State.memq (State.wakePort s p) = State.memq s := by
  unfold State.wakePort
  simp

@[simp] theorem State.capLadder_memq (s : State) (p : Nat) (w : Nat) : State.memq (State.capLadder s p w) = State.memq s := by
  unfold State.capLadder
  (repeat' split) <;>
    simp

@[simp] theorem State.capActive_memq (s : State) (p : Nat) (c : CapCell) : State.memq (State.capActive s p c) = State.memq s := by
  unfold State.capActive
  simp

@[simp] theorem State.wakeSeen_memq (s : State) (p k : Nat) : State.memq (State.wakeSeen s p k) = State.memq s := by
  unfold State.wakeSeen
  simp

@[simp] theorem State.heardNonce_memq (s : State) (p : Nat) (c : CapCell) : State.memq (State.heardNonce s p c) = State.memq s := by
  unfold State.heardNonce
  simp

@[simp] theorem State.capHeard_memq (s : State) (p k : Nat) (h : FrameHead) (c : CapCell) : State.memq (State.capHeard s p k h c) = State.memq s := by
  unfold State.capHeard
  simp

theorem execCapFrameRx_memq (p : Fin 1024) (k : Fin 8) (hd rest : List Byte) (s : State) : ∃ r_, execCapFrameRx p k hd rest s = .next r_ ∧ State.memq r_ = State.memq s := by
  unfold execCapFrameRx
  dsimp only
  (repeat' split) <;>
    exact ⟨_, rfl, by simp⟩

theorem execCapSend_memq (p : Fin 1024) (s : State) : ∃ r_, execCapSend p s = .next r_ ∧ State.memq r_ = State.memq s := by
  unfold execCapSend
  dsimp only
  (repeat' split) <;>
    exact ⟨_, rfl, by simp⟩

theorem execNonceRedraw_memq (p : Fin 1024) (s : State) : ∃ r_, execNonceRedraw p s = .next r_ ∧ State.memq r_ = State.memq s := by
  unfold execNonceRedraw
  dsimp only
  (repeat' split) <;>
    exact ⟨_, rfl, by simp⟩

theorem execTrainRestart_memq (p : Fin 1024) (s : State) : ∃ r_, execTrainRestart p s = .next r_ ∧ State.memq r_ = State.memq s := by
  unfold execTrainRestart
  (repeat' split) <;>
    exact ⟨_, rfl, by simp⟩

@[simp] theorem State.setForm_memq (s : State) (p v : Nat) : State.memq (State.setForm s p v) = State.memq s := by
  unfold State.setForm
  simp

@[simp] theorem State.setModes_memq (s : State) (p v : Nat) : State.memq (State.setModes s p v) = State.memq s := by
  unfold State.setModes
  simp

@[simp] theorem State.own_memq (s : State) (p : Nat) (on : Bool) : State.memq (State.own s p on) = State.memq s := by
  unfold State.own
  simp

@[simp] theorem State.setWindow_memq (s : State) (p : Nat) : State.memq (State.setWindow s p) = State.memq s := by
  unfold State.setWindow
  simp

@[simp] theorem State.enablePort_memq (s : State) (p : Nat) : State.memq (State.enablePort s p) = State.memq s := by
  unfold State.enablePort
  simp

theorem execPortEnable_memq (p : Fin 1024) (v : Nat) (s : State) : ∃ r_, execPortEnable p v s = .next r_ ∧ State.memq r_ = State.memq s := by
  unfold execPortEnable
  dsimp only
  (repeat' split) <;>
    exact ⟨_, rfl, by simp⟩

@[simp] theorem State.disablePort_memq (s : State) (p : Nat) : State.memq (State.disablePort s p) = State.memq s := by
  unfold State.disablePort
  simp

theorem execPortDisable_memq (p : Fin 1024) (v : Nat) (s : State) : ∃ r_, execPortDisable p v s = .next r_ ∧ State.memq r_ = State.memq s := by
  unfold execPortDisable
  dsimp only
  (repeat' split) <;>
    exact ⟨_, rfl, by simp⟩

theorem execLaneSymbolLock_memq (l : Fin 1024) (s : State) : ∃ r_, execLaneSymbolLock l s = .next r_ ∧ State.memq r_ = State.memq s := by
  unfold execLaneSymbolLock
  dsimp only
  (repeat' split) <;>
    exact ⟨_, rfl, by simp⟩

theorem execBringupDone_memq (p : Fin 1024) (s : State) : ∃ r_, execBringupDone p s = .next r_ ∧ State.memq r_ = State.memq s := by
  unfold execBringupDone
  dsimp only
  (repeat' split) <;>
    exact ⟨_, rfl, by simp⟩

theorem execBringupTimeout_memq (p : Fin 1024) (s : State) : ∃ r_, execBringupTimeout p s = .next r_ ∧ State.memq r_ = State.memq s := by
  unfold execBringupTimeout
  (repeat' split) <;>
    exact ⟨_, rfl, by simp⟩

theorem execBringupRateAlternate_memq (p : Fin 1024) (s : State) : ∃ r_, execBringupRateAlternate p s = .next r_ ∧ State.memq r_ = State.memq s := by
  unfold execBringupRateAlternate
  (repeat' split) <;>
    exact ⟨_, rfl, by simp⟩

@[simp] theorem State.lockGone_memq (s : State) (p : Nat) : State.memq (State.lockGone s p) = State.memq s := by
  unfold State.lockGone
  simp

theorem execSymbolLockLoss_memq (l : Fin 1024) (s : State) : ∃ r_, execSymbolLockLoss l s = .next r_ ∧ State.memq r_ = State.memq s := by
  unfold execSymbolLockLoss
  dsimp only
  (repeat' split) <;>
    exact ⟨_, rfl, by simp⟩

theorem execLaneLossExpiry_memq (l : Fin 1024) (s : State) : ∃ r_, execLaneLossExpiry l s = .next r_ ∧ State.memq r_ = State.memq s := by
  unfold execLaneLossExpiry
  (repeat' split) <;>
    exact ⟨_, rfl, by simp⟩

theorem execUncorrWindow_memq (l : Fin 1024) (corr uncorr : Nat) (s : State) : ∃ r_, execUncorrWindow l corr uncorr s = .next r_ ∧ State.memq r_ = State.memq s := by
  unfold execUncorrWindow
  dsimp only
  (repeat' split) <;>
    exact ⟨_, rfl, by simp⟩

theorem execLaneRetryAttempt_memq (l : Fin 1024) (locked : Bool) (idx : Fin 8) (s : State) : ∃ r_, execLaneRetryAttempt l locked idx s = .next r_ ∧ State.memq r_ = State.memq s := by
  unfold execLaneRetryAttempt
  dsimp only
  (repeat' split) <;>
    exact ⟨_, rfl, by simp⟩

theorem execPortRestore_memq (p : Fin 1024) (s : State) : ∃ r_, execPortRestore p s = .next r_ ∧ State.memq r_ = State.memq s := by
  unfold execPortRestore
  dsimp only
  (repeat' split) <;>
    exact ⟨_, rfl, by simp⟩

@[simp] theorem State.askRetrain_memq (s : State) (p : Nat) : State.memq (State.askRetrain s p) = State.memq s := by
  unfold State.askRetrain
  simp

theorem execPortRetrain_memq (p : Fin 1024) (s : State) : ∃ r_, execPortRetrain p s = .next r_ ∧ State.memq r_ = State.memq s := by
  unfold execPortRetrain
  (repeat' split) <;>
    exact ⟨_, rfl, by simp⟩

theorem execPortDown_memq (p : Fin 1024) (s : State) : ∃ r_, execPortDown p s = .next r_ ∧ State.memq r_ = State.memq s := by
  unfold execPortDown
  exact ⟨_, rfl, by simp⟩

theorem execLockLossExpiry_memq (p : Fin 1024) (s : State) : ∃ r_, execLockLossExpiry p s = .next r_ ∧ State.memq r_ = State.memq s := by
  unfold execLockLossExpiry
  dsimp only
  (repeat' split) <;>
    exact ⟨_, rfl, by simp⟩

theorem execGraceExpiry_memq (p : Fin 1024) (s : State) : ∃ r_, execGraceExpiry p s = .next r_ ∧ State.memq r_ = State.memq s := by
  unfold execGraceExpiry
  (repeat' split) <;>
    exact ⟨_, rfl, by simp⟩

theorem execRcalStep_memq (l : Fin 1024) (live : Nat) (drifted : Bool) (s : State) : ∃ r_, execRcalStep l live drifted s = .next r_ ∧ State.memq r_ = State.memq s := by
  unfold execRcalStep
  (repeat' split) <;>
    exact ⟨_, rfl, by simp⟩

@[simp] theorem State.darken_memq (s : State) (lanes : List Nat) : State.memq (State.darken s lanes) = State.memq s := by
  unfold State.darken
  simp

theorem execOptReachWrite_memq (e : Fin 16) (reach : Fin 2) (s : State) : ∃ r_, execOptReachWrite e reach s = .next r_ ∧ State.memq r_ = State.memq s := by
  unfold execOptReachWrite
  (repeat' split) <;>
    exact ⟨_, rfl, by simp⟩

@[simp] theorem State.feedPower_memq (s : State) (e f pwr : Nat) : State.memq (State.feedPower s e f pwr) = State.memq s := by
  unfold State.feedPower
  simp

theorem execFeedLow_memq (e : Fin 16) (f : Fin 8) (pwr : Nat) (s : State) : ∃ r_, execFeedLow e f pwr s = .next r_ ∧ State.memq r_ = State.memq s := by
  unfold execFeedLow
  exact ⟨_, rfl, by simp only [↓State.feedPower_memq, ↓State.ite_memq, ite_self, State.memq_mk, State.memq_eta]⟩

theorem execFeedLost_memq (e : Fin 16) (f : Fin 8) (s : State) : ∃ r_, execFeedLost e f s = .next r_ ∧ State.memq r_ = State.memq s := by
  unfold execFeedLost
  (repeat' split) <;>
    exact ⟨_, rfl, by simp⟩

theorem execLsrcRemoved_memq (e : Fin 16) (s : State) : ∃ r_, execLsrcRemoved e s = .next r_ ∧ State.memq r_ = State.memq s := by
  unfold execLsrcRemoved
  exact ⟨_, rfl, by simp⟩

theorem execLsrcInserted_memq (e : Fin 16) (s : State) : ∃ r_, execLsrcInserted e s = .next r_ ∧ State.memq r_ = State.memq s := by
  unfold execLsrcInserted
  dsimp only
  (repeat' split) <;>
    exact ⟨_, rfl, by simp⟩

@[simp] theorem State.litAgain_memq (s : State) (p : Nat) : State.memq (State.litAgain s p) = State.memq s := by
  unfold State.litAgain
  simp

theorem execFeedQualified_memq (e : Fin 16) (f : Fin 8) (pwr : Nat) (s : State) : ∃ r_, execFeedQualified e f pwr s = .next r_ ∧ State.memq r_ = State.memq s := by
  unfold execFeedQualified
  dsimp only
  (repeat' split) <;>
    exact ⟨_, rfl, by simp⟩

theorem execMonitorRefresh_memq (l : Fin 1024) (rx bias temp feed : Nat) (s : State) : ∃ r_, execMonitorRefresh l rx bias temp feed s = .next r_ ∧ State.memq r_ = State.memq s := by
  unfold execMonitorRefresh
  (repeat' split) <;>
    exact ⟨_, rfl, by simp⟩

@[simp] theorem State.ladCommand_memq (s : State) (p : Nat) : State.memq (State.ladCommand s p) = State.memq s := by
  unfold State.ladCommand
  (repeat' split) <;>
    simp

theorem execPortIdleRequest_memq (p : Fin 1024) (s : State) : ∃ r_, execPortIdleRequest p s = .next r_ ∧ State.memq r_ = State.memq s := by
  unfold execPortIdleRequest
  dsimp only
  (repeat' split) <;>
    exact ⟨_, rfl, by simp⟩

theorem execPortRungCmd_memq (p : Fin 1024) (rung : Fin 8) (s : State) : ∃ r_, execPortRungCmd p rung s = .next r_ ∧ State.memq r_ = State.memq s := by
  unfold execPortRungCmd
  (repeat' split) <;>
    exact ⟨_, rfl, by simp⟩

theorem execLadderReqTimeout_memq (p : Fin 1024) (s : State) : ∃ r_, execLadderReqTimeout p s = .next r_ ∧ State.memq r_ = State.memq s := by
  unfold execLadderReqTimeout
  (repeat' split) <;>
    exact ⟨_, rfl, by simp⟩

theorem execRungStepDown_memq (p : Fin 1024) (s : State) : ∃ r_, execRungStepDown p s = .next r_ ∧ State.memq r_ = State.memq s := by
  unfold execRungStepDown
  dsimp only
  (repeat' split) <;>
    exact ⟨_, rfl, by simp⟩

theorem execPortWake_memq (p : Fin 1024) (light : Bool) (s : State) : ∃ r_, execPortWake p light s = .next r_ ∧ State.memq r_ = State.memq s := by
  unfold execPortWake
  dsimp only
  (repeat' split) <;>
    exact ⟨_, rfl, by simp⟩

theorem execWakeTimeout_memq (p : Fin 1024) (d : Nat) (s : State) : ∃ r_, execWakeTimeout p d s = .next r_ ∧ State.memq r_ = State.memq s := by
  unfold execWakeTimeout
  dsimp only
  (repeat' split) <;>
    exact ⟨_, rfl, by simp⟩

end Sys2Proof.Machine
end

