-- ==== Sys2Proof/Laws/MemFrames.lean ====
section
/-!
SUPPORT. What the operations of Machine/Frames.lean do to table-space memory: nothing, or they keep its canonical form.
-/
namespace Sys2Proof.Machine
open Sys2Proof

set_option linter.unusedSimpArgs false

@[simp] theorem State.modXfer_memq (s : State) (p : Nat) (f : TimeXfer → TimeXfer) : State.memq (State.modXfer s p f) = State.memq s := by
  unfold State.modXfer
  simp

@[simp] theorem State.sendControl_memq (s : State) (p k : Nat) (f : FrameHead → Frame) : State.memq (State.sendControl s p k f) = State.memq s := by
  unfold State.sendControl
  simp

@[simp] theorem State.sendResponse_memq (s : State) (p k : Nat) (q : Nat × Nat × Nat) : State.memq (State.sendResponse s p k q) = State.memq s := by
  unfold State.sendResponse
  simp

@[simp] theorem State.sendRequest_memq (s : State) (p k : Nat) : State.memq (State.sendRequest s p k) = State.memq s := by
  unfold State.sendRequest
  simp

@[simp] theorem State.sendData_memq (s : State) (p k : Nat) (f : TxFrame) (rtx : Bool) : State.memq (State.sendData s p k f rtx) = State.memq s := by
  unfold State.sendData
  simp

@[simp] theorem State.resend_memq (s : State) (p k : Nat) (f : TxFrame) : State.memq (State.resend s p k f) = State.memq s := by
  unfold State.resend
  simp

@[simp] theorem State.sendNew_memq (s : State) (p k : Nat) (r : Resv) : State.memq (State.sendNew s p k r) = State.memq s := by
  unfold State.sendNew
  simp

@[simp] theorem State.countHeldBack_memq (s : State) (p : Nat) : State.memq (State.countHeldBack s p) = State.memq s := by
  unfold State.countHeldBack
  simp

@[simp] theorem State.sendFiller_memq (s : State) (p k : Nat) : State.memq (State.sendFiller s p k) = State.memq s := by
  unfold State.sendFiller
  simp

@[simp] theorem State.sendFresh_memq (s : State) (p k : Nat) : State.memq (State.sendFresh s p k) = State.memq s := by
  unfold State.sendFresh
  split
  · exact State.sendFiller_memq _ _ _
  · split
    · exact (State.sendFiller_memq _ _ _).trans (State.count_memq _ _ _ _ _ _)
    · have hc := State.chooseCell_memq (s.countHeldBack p) p
      rw [State.countHeldBack_memq] at hc
      dsimp only
      generalize (s.countHeldBack p).chooseCell p = x at hc ⊢
      generalize (s.countHeldBack p).noCredit p = b
      obtain ⟨o, t⟩ := x
      cases o with
      | some r => exact (State.sendNew_memq _ _ _ _).trans hc
      | none =>
        refine (State.sendFiller_memq _ _ _).trans ?_
        cases b
        · exact hc
        · exact (State.count_memq _ _ _ _ _ _).trans hc

@[simp] theorem State.dataSlot_memq (s : State) (p k : Nat) : State.memq (State.dataSlot s p k) = State.memq s := by
  unfold State.dataSlot
  (repeat' split) <;>
    simp

@[simp] theorem State.activeSlot_memq (s : State) (p k : Nat) : State.memq (State.activeSlot s p k) = State.memq s := by
  unfold State.activeSlot
  dsimp only
  (repeat' split) <;>
    simp

theorem execFrameSlot_memq (p : Fin 1024) (k : Fin 8) (s : State) : ∃ r_, execFrameSlot p k s = .next r_ ∧ State.memq r_ = State.memq s := by
  unfold execFrameSlot
  dsimp only
  (repeat' split) <;>
    exact ⟨_, rfl, by simp⟩

@[simp] theorem State.heard_memq (s : State) (p k : Nat) : State.memq (State.heard s p k) = State.memq s := by
  unfold State.heard
  simp

@[simp] theorem State.noteRx_memq (s : State) (p vc : Nat) : State.memq (State.noteRx s p vc) = State.memq s := by
  unfold State.noteRx
  simp

@[simp] theorem State.accept_memq (s : State) (p : Nat) (f : RxFrame) : State.memq (State.accept s p f) = State.memq s := by
  unfold State.accept
  simp

@[simp] theorem State.discardData_memq (s : State) (p : Nat) : State.memq (State.discardData s p) = State.memq s := by
  unfold State.discardData
  simp

@[simp] theorem State.creditViolation_memq (s : State) (p : Nat) : State.memq (State.creditViolation s p) = State.memq s := by
  unfold State.creditViolation
  simp

@[simp] theorem State.takeData_memq (s : State) (p : Nat) (f : RxFrame) : State.memq (State.takeData s p f) = State.memq s := by
  unfold State.takeData
  simp

@[simp] theorem State.takeCompat_memq (s : State) (p : Nat) (f : RxFrame) : State.memq (State.takeCompat s p f) = State.memq s := by
  unfold State.takeCompat
  simp

@[simp] theorem State.applyAlways_memq (s : State) (p : Nat) (h : FrameHead) : State.memq (State.applyAlways s p h) = State.memq s := by
  unfold State.applyAlways
  simp

@[simp] theorem State.dataHeard_memq (s : State) (p : Nat) (f : DataFrame) : State.memq (State.dataHeard s p f) = State.memq s := by
  unfold State.dataHeard
  simp

theorem execDataFrameRx_memq (p : Fin 1024) (k : Fin 8) (b : List Byte) (s : State) : ∃ r_, execDataFrameRx p k b s = .next r_ ∧ State.memq r_ = State.memq s := by
  unfold execDataFrameRx
  dsimp only
  (repeat' split) <;>
    exact ⟨_, rfl, by simp⟩

theorem execIdleFrameRx_memq (p : Fin 1024) (k : Fin 8) (b : List Byte) (s : State) : ∃ r_, execIdleFrameRx p k b s = .next r_ ∧ State.memq r_ = State.memq s := by
  unfold execIdleFrameRx
  dsimp only
  (repeat' split) <;>
    exact ⟨_, rfl, by simp⟩

@[simp] theorem State.applyAckCell_memq (s : State) (p : Nat) (c : AckCell) : State.memq (State.applyAckCell s p c) = State.memq s := by
  unfold State.applyAckCell
  simp

@[simp] theorem State.ackHeard_memq (s : State) (p : Nat) (h : FrameHead) (c : AckCell) : State.memq (State.ackHeard s p h c) = State.memq s := by
  unfold State.ackHeard
  simp

theorem execAckFrameRx_memq (p : Fin 1024) (k : Fin 8) (hd rest : List Byte) (s : State) : ∃ r_, execAckFrameRx p k hd rest s = .next r_ ∧ State.memq r_ = State.memq s := by
  unfold execAckFrameRx
  dsimp only
  (repeat' split) <;>
    exact ⟨_, rfl, by simp⟩

@[simp] theorem State.peerFenced_memq (s : State) (p : Nat) : State.memq (State.peerFenced s p) = State.memq s := by
  unfold State.peerFenced
  simp

theorem execFenceFrameRx_memq (p : Fin 1024) (k : Fin 8) (b : List Byte) (s : State) : ∃ r_, execFenceFrameRx p k b s = .next r_ ∧ State.memq r_ = State.memq s := by
  unfold execFenceFrameRx
  dsimp only
  (repeat' split) <;>
    exact ⟨_, rfl, by simp⟩

@[simp] theorem State.replayExpired_memq (s : State) (p : Nat) : State.memq (State.replayExpired s p) = State.memq s := by
  unfold State.replayExpired
  simp

theorem execReplayTimeout_memq (p : Fin 1024) (s : State) : ∃ r_, execReplayTimeout p s = .next r_ ∧ State.memq r_ = State.memq s := by
  unfold execReplayTimeout
  dsimp only
  (repeat' split) <;>
    exact ⟨_, rfl, by simp⟩

end Sys2Proof.Machine
end

