-- ==== Sys2Proof/Laws/MemTime.lean ====
section
/-!
SUPPORT. What the operations of Machine/Time.lean do to table-space memory: nothing, or they keep its canonical form.
-/
namespace Sys2Proof.Machine
open Sys2Proof

set_option linter.unusedSimpArgs false

@[simp] theorem State.clock_memq (s : State) : State.memq (State.clock s) = State.memq s := by
  unfold State.clock
  simp

@[simp] theorem State.stepMt_memq (s : State) (d : Int) : State.memq (State.stepMt s d) = State.memq s := by
  unfold State.stepMt
  simp

theorem execMtNowRead_memq (m : Master) (s : State) : ∃ r_, execMtNowRead m s = .next r_ ∧ State.memq r_ = State.memq s := by
  unfold execMtNowRead
  exact ⟨_, rfl, by simp⟩

@[simp] theorem State.setErr_memq (s : State) (e : Nat) : State.memq (State.setErr s e) = State.memq s := by
  unfold State.setErr
  simp

@[simp] theorem State.train_memq (s : State) : State.memq (State.train s) = State.memq s := by
  unfold State.train
  simp

@[simp] theorem State.slewBy_memq (s : State) (off : Int) : State.memq (State.slewBy s off) = State.memq s := by
  unfold State.slewBy
  simp

@[simp] theorem State.updateLocked_memq (s : State) (off : Int) (err : Nat) : State.memq (State.updateLocked s off err) = State.memq s := by
  unfold State.updateLocked
  simp

@[simp] theorem State.update_memq (s : State) (off : Int) (err : Nat) (qual : Bool) : State.memq (State.update s off err qual) = State.memq s := by
  unfold State.update
  simp

theorem execServoUpdate_memq (offPs : Int) (err : Nat) (qual : Bool) (s : State) : ∃ r_, execServoUpdate offPs err qual s = .next r_ ∧ State.memq r_ = State.memq s := by
  unfold execServoUpdate
  (repeat' split) <;>
    exact ⟨_, rfl, by simp⟩

theorem execSourceLost_memq (s : State) : ∃ r_, execSourceLost s = .next r_ ∧ State.memq r_ = State.memq s := by
  unfold execSourceLost
  (repeat' split) <;>
    exact ⟨_, rfl, by simp⟩

@[simp] theorem State.chooseUpstream_memq (s : State) : State.memq (State.chooseUpstream s) = State.memq s := by
  unfold State.chooseUpstream
  simp

theorem execMtSrcWrite_memq (v : Nat) (s : State) : ∃ r_, execMtSrcWrite v s = .next r_ ∧ State.memq r_ = State.memq s := by
  unfold execMtSrcWrite
  exact ⟨_, rfl, by simp⟩

theorem execHoldoverLimit_memq (s : State) : ∃ r_, execHoldoverLimit s = .next r_ ∧ State.memq r_ = State.memq s := by
  unfold execHoldoverLimit
  (repeat' split) <;>
    exact ⟨_, rfl, by simp⟩

theorem execSettleQualified_memq (s : State) : ∃ r_, execSettleQualified s = .next r_ ∧ State.memq r_ = State.memq s := by
  unfold execSettleQualified
  (repeat' split) <;>
    exact ⟨_, rfl, by simp⟩

theorem execMtTodNextWrite_memq (v : Nat) (s : State) : ∃ r_, execMtTodNextWrite v s = .next r_ ∧ State.memq r_ = State.memq s := by
  unfold execMtTodNextWrite
  exact ⟨_, rfl, by simp⟩

@[simp] theorem State.todDone_memq (s : State) : State.memq (State.todDone s) = State.memq s := by
  unfold State.todDone
  simp

@[simp] theorem State.ppsUpdate_memq (s : State) (ref : Int) (residual : Nat) : State.memq (State.ppsUpdate s ref residual) = State.memq s := by
  unfold State.ppsUpdate
  simp

theorem execPpsInEdge_memq (x : PpsEdge) (s : State) : ∃ r_, execPpsInEdge x s = .next r_ ∧ State.memq r_ = State.memq s := by
  unfold execPpsInEdge
  dsimp only
  (repeat' split) <;>
    exact ⟨_, rfl, by simp⟩

@[simp] theorem State.ptmFailed_memq (s : State) : State.memq (State.ptmFailed s) = State.memq s := by
  unfold State.ptmFailed
  simp

theorem execPtmDialog_memq (s : State) : ∃ r_, execPtmDialog s = .next r_ ∧ State.memq r_ = State.memq s := by
  unfold execPtmDialog
  dsimp only
  (repeat' split) <;>
    exact ⟨_, rfl, by simp⟩

theorem execPtmResponseRx_memq (ok : Bool) (t residual : Nat) (s : State) : ∃ r_, execPtmResponseRx ok t residual s = .next r_ ∧ State.memq r_ = State.memq s := by
  unfold execPtmResponseRx
  (repeat' split) <;>
    exact ⟨_, rfl, by simp⟩

theorem execTimeRequestDue_memq (p : Fin 1024) (s : State) : ∃ r_, execTimeRequestDue p s = .next r_ ∧ State.memq r_ = State.memq s := by
  unfold execTimeRequestDue
  dsimp only
  (repeat' split) <;>
    exact ⟨_, rfl, by simp⟩

@[simp] theorem State.loopSeen_memq (s : State) (p hops : Nat) : State.memq (State.loopSeen s p hops) = State.memq s := by
  unfold State.loopSeen
  simp

@[simp] theorem State.timeUpdate_memq (s : State) (p : Nat) (c : TimeCell) (off : Int) (err : Nat) : State.memq (State.timeUpdate s p c off err) = State.memq s := by
  unfold State.timeUpdate
  simp

@[simp] theorem State.timeRequest_memq (s : State) (p : Nat) (c : TimeCell) (residual : Nat) : State.memq (State.timeRequest s p c residual) = State.memq s := by
  unfold State.timeRequest
  dsimp only
  (repeat' split) <;>
    simp

@[simp] theorem State.timeResponse_memq (s : State) (p : Nat) (c : TimeCell) : State.memq (State.timeResponse s p c) = State.memq s := by
  unfold State.timeResponse
  simp

@[simp] theorem State.timeHeard_memq (s : State) (p : Nat) (h : FrameHead) (c : TimeCell) (residual : Nat) : State.memq (State.timeHeard s p h c residual) = State.memq s := by
  unfold State.timeHeard
  simp

theorem execTimeFrameRx_memq (p : Fin 1024) (k : Fin 8) (hd rest : List Byte) (residual : Nat) (s : State) : ∃ r_, execTimeFrameRx p k hd rest residual s = .next r_ ∧ State.memq r_ = State.memq s := by
  unfold execTimeFrameRx
  dsimp only
  (repeat' split) <;>
    exact ⟨_, rfl, by simp⟩

theorem execPpsOutRise_memq (s : State) : ∃ r_, execPpsOutRise s = .next r_ ∧ State.memq r_ = State.memq s := by
  unfold execPpsOutRise
  (repeat' split) <;>
    exact ⟨_, rfl, by simp⟩

@[simp] theorem State.swapBanks_memq (s : State) (t : Nat) : State.memq (State.swapBanks s t) = State.memq s := by
  unfold State.swapBanks
  simp

@[simp] theorem State.capture_memq (s : State) (page : Nat) : State.memq (State.capture s page) = State.memq s := by
  unfold State.capture
  simp

@[simp] theorem State.freeSlot_memq (s : State) (n : Nat) : State.memq (State.freeSlot s n) = State.memq s := by
  unfold State.freeSlot
  simp

@[simp] theorem State.disarm_memq (s : State) (page : Nat) : State.memq (State.disarm s page) = State.memq s := by
  unfold State.disarm
  (repeat' split) <;>
    simp

@[simp] theorem State.takeSlot_memq (s : State) (n t : Nat) : State.memq (State.takeSlot s n t) = State.memq s := by
  unfold State.takeSlot
  dsimp only
  (repeat' split) <;>
    simp

@[simp] theorem State.swapArmed_memq (s : State) (n : Nat) (late : Bool) : State.memq (State.swapArmed s n late) = State.memq s := by
  unfold State.swapArmed
  simp

@[simp] theorem State.setGroup_memq (s : State) (g : Nat) (on : Bool) : State.memq (State.setGroup s g on) = State.memq s := by
  unfold State.setGroup
  simp

@[simp] theorem State.sampleRings_ok (s : State) (tag : Nat) {q_ : Bool × List Instr} (hk : State.Ok q_ (State.memq s)) : State.Ok q_ (State.memq (State.sampleRings s tag)) := by
  unfold State.sampleRings
  (try dsimp only)
  (repeat' split) <;>
    (repeat' first | with_reducible assumption | with_reducible apply State.telAlarm_ok | fail | with_reducible refine State.each_ok _ _ _ ?_ fun _ _ _ => ?_ | simp only [↓State.ite_memq, ite_self, State.memq_mk, State.memq_eta] | split | dsimp only)

@[simp] theorem State.alarmAction_ok (s : State) (n action arg t : Nat) (late : Bool) {q_ : Bool × List Instr} (hk : State.Ok q_ (State.memq s)) : State.Ok q_ (State.memq (State.alarmAction s n action arg t late)) := by
  unfold State.alarmAction
  (repeat' split) <;>
    simp [hk]

@[simp] theorem State.rearm_memq (s : State) (n t : Nat) (late : Bool) : State.memq (State.rearm s n t late) = State.memq s := by
  unfold State.rearm
  simp

@[simp] theorem State.slotFired_memq (s : State) (n : Nat) : State.memq (State.slotFired s n) = State.memq s := by
  unfold State.slotFired
  simp

theorem State.slotAction_ok (s : State) (n : Nat) (t : State) {q_ : Bool × List Instr} (hk : State.Ok q_ (State.memq t)) : State.Ok q_ (State.memq (State.slotAction s n t)) := by
  unfold State.slotAction
  exact State.alarmAction_ok _ _ _ _ _ _ hk

@[simp] theorem State.fireSlot_ok (s : State) (n : Nat) {q_ : Bool × List Instr} (hk : State.Ok q_ (State.memq s)) : State.Ok q_ (State.memq (State.fireSlot s n)) := by
  unfold State.fireSlot
  simp only [↓State.slotAction_ok, ↓State.slotFired_memq, ↓State.ite_memq, ite_self, State.memq_mk, State.memq_eta, hk]

@[simp] theorem State.fireCaptures_ok (s : State) {q_ : Bool × List Instr} (hk : State.Ok q_ (State.memq s)) : State.Ok q_ (State.memq (State.fireCaptures s)) := by
  unfold State.fireCaptures
  (try dsimp only)
  (repeat' split) <;>
    (repeat' first | with_reducible assumption | with_reducible apply State.slotAction_ok | fail | with_reducible refine State.each_ok _ _ _ ?_ fun _ _ _ => ?_ | simp only [↓State.slotFired_memq, ↓State.ite_memq, ite_self, State.memq_mk, State.memq_eta] | split | dsimp only)

@[simp] theorem State.fireDue_ok (s : State) (n : Nat) {q_ : Bool × List Instr} (hk : State.Ok q_ (State.memq s)) : State.Ok q_ (State.memq (State.fireDue s n)) := by
  unfold State.fireDue
  (repeat' split) <;>
    simp [hk]

theorem execAlarmFire_ok (n : Fin 64) (s : State) {q_ : Bool × List Instr} (hk : State.Ok q_ (State.memq s)) : ∃ r_, execAlarmFire n s = .next r_ ∧ State.Ok q_ (State.memq r_) := by
  unfold execAlarmFire
  (try dsimp only)
  (repeat' split) <;>
    exact ⟨_, rfl, by repeat' first | with_reducible assumption | with_reducible apply State.fireDue_ok | fail | with_reducible refine State.each_ok _ _ _ ?_ fun _ _ _ => ?_ | simp only [↓State.ite_memq, ite_self, State.memq_mk, State.memq_eta] | split | dsimp only⟩

@[simp] theorem State.fireArmed_ok (s : State) (page : Nat) {q_ : Bool × List Instr} (hk : State.Ok q_ (State.memq s)) : State.Ok q_ (State.memq (State.fireArmed s page)) := by
  unfold State.fireArmed
  (repeat' split) <;>
    simp [hk]

theorem execEpochAtWrite_ok (cls : Fin 31) (i : Fin 1024) (t : Nat) (s : State) {q_ : Bool × List Instr} (hk : State.Ok q_ (State.memq s)) : ∃ r_, execEpochAtWrite cls i t s = .next r_ ∧ State.Ok q_ (State.memq r_) := by
  unfold execEpochAtWrite
  dsimp only
  (repeat' split) <;>
    exact ⟨_, rfl, by simp [hk]⟩

theorem execShadowCommit_memq (cls : Fin 31) (i : Fin 1024) (s : State) : ∃ r_, execShadowCommit cls i s = .next r_ ∧ State.memq r_ = State.memq s := by
  unfold execShadowCommit
  dsimp only
  (repeat' split) <;>
    exact ⟨_, rfl, by simp⟩

@[simp] theorem State.copyBank_ok (s : State) (t : Nat) {q_ : Bool × List Instr} (hk : State.Ok q_ (State.memq s)) : State.Ok q_ (State.memq (State.copyBank s t)) := by
  have key : ∀ (l : Memory) (g : Host.Cell → Nat) (m : Memory), m.wf = true → (l.foldl (fun m c => Memory.write m (g c) c.2) m).wf = true := by
    intro l g
    induction l with
    | nil => intro m hm; exact hm
    | cons c l ih => intro m hm; exact ih _ (Memory.write_wf _ _ _ hm)
  exact ⟨fun b => key _ _ _ (Memory.filter_wf _ _ (hk.wf b)), hk.queue⟩

@[simp] theorem State.discardShadow_memq (s : State) (cls i : Nat) : State.memq (State.discardShadow s cls i) = State.memq s := by
  unfold State.discardShadow
  simp

theorem execShadowDiscard_ok (cls : Fin 31) (i : Fin 1024) (s : State) {q_ : Bool × List Instr} (hk : State.Ok q_ (State.memq s)) : ∃ r_, execShadowDiscard cls i s = .next r_ ∧ State.Ok q_ (State.memq r_) := by
  unfold execShadowDiscard
  (repeat' split) <;>
    exact ⟨_, rfl, by simp [hk]⟩

theorem execShadowDisarm_ok (cls : Fin 31) (i : Fin 1024) (s : State) {q_ : Bool × List Instr} (hk : State.Ok q_ (State.memq s)) : ∃ r_, execShadowDisarm cls i s = .next r_ ∧ State.Ok q_ (State.memq r_) := by
  unfold execShadowDisarm
  exact ⟨_, rfl, by simp [hk]⟩

theorem execHoldEnd_memq (t : Fin 72) (s : State) : ∃ r_, execHoldEnd t s = .next r_ ∧ State.memq r_ = State.memq s := by
  unfold execHoldEnd
  (repeat' split) <;>
    exact ⟨_, rfl, by simp⟩

end Sys2Proof.Machine
end

