-- ==== Sys2Proof/Laws/MemFabric.lean ====
section
/-!
SUPPORT. What the operations of Machine/Fabric.lean do to table-space memory: nothing, or they keep its canonical form.
-/
namespace Sys2Proof.Machine
open Sys2Proof

set_option linter.unusedSimpArgs false

@[simp] theorem State.hwFenceOn_memq (s : State) (t mask : Nat) : State.memq (State.hwFenceOn s t mask) = State.memq s := by
  unfold State.hwFenceOn
  simp

@[simp] theorem State.hwFenceOff_memq (s : State) (t mask : Nat) : State.memq (State.hwFenceOff s t mask) = State.memq s := by
  unfold State.hwFenceOff
  simp

@[simp] theorem State.hwFences_memq (s : State) (wrote : List Nat) : State.memq (State.hwFences s wrote) = State.memq s := by
  unfold State.hwFences
  simp

theorem execRteFenceWrite_memq (t : Fin 72) (v : Nat) (s : State) : ∃ r_, execRteFenceWrite t v s = .next r_ ∧ State.memq r_ = State.memq s := by
  unfold execRteFenceWrite
  exact ⟨_, rfl, by simp⟩

theorem execDevSelfWrite_memq (v : Nat) (s : State) : ∃ r_, execDevSelfWrite v s = .next r_ ∧ State.memq r_ = State.memq s := by
  unfold execDevSelfWrite
  exact ⟨_, rfl, by simp⟩

@[simp] theorem State.fenceLoss_memq (s : State) (n : Nat) : State.memq (State.fenceLoss s n) = State.memq s := by
  unfold State.fenceLoss
  simp

@[simp] theorem State.fenceMid_memq (s : State) (m : Nat) : State.memq (State.fenceMid s m) = State.memq s := by
  unfold State.fenceMid
  simp

@[simp] theorem State.dropTile_memq (s : State) (t : Nat) : State.memq (State.dropTile s t) = State.memq s := by
  unfold State.dropTile
  simp

@[simp] theorem State.setFull_memq (s : State) (t v : Nat) (sw : Bool) : State.memq (State.setFull s t v sw) = State.memq s := by
  unfold State.setFull
  simp

@[simp] theorem State.fenceTile_memq (s : State) (t reason : Nat) : State.memq (State.fenceTile s t reason) = State.memq s := by
  unfold State.fenceTile
  simp

theorem execTileFenceFull_memq (t : Fin 72) (s : State) : ∃ r_, execTileFenceFull t s = .next r_ ∧ State.memq r_ = State.memq s := by
  unfold execTileFenceFull
  (repeat' split) <;>
    exact ⟨_, rfl, by simp⟩

@[simp] theorem State.releaseTile_memq (s : State) (t : Nat) (sw : Bool) : State.memq (State.releaseTile s t sw) = State.memq s := by
  unfold State.releaseTile
  simp

theorem execTileFenceRelease_memq (t : Fin 72) (s : State) : ∃ r_, execTileFenceRelease t s = .next r_ ∧ State.memq r_ = State.memq s := by
  unfold execTileFenceRelease
  (repeat' split) <;>
    exact ⟨_, rfl, by simp⟩

@[simp] theorem State.escMove_memq (s : State) (t : Nat) (h : Held) (p : Nat) : State.memq (State.escMove s t h p) = State.memq s := by
  unfold State.escMove
  dsimp only
  (repeat' split) <;>
    simp

theorem execEscMove_memq (t : Fin 72) (id : Nat) (s : State) : ∃ r_, execEscMove t id s = .next r_ ∧ State.memq r_ = State.memq s := by
  unfold execEscMove
  (repeat' split) <;>
    exact ⟨_, rfl, by simp⟩

@[simp] theorem State.sendDirect_memq (s : State) (p : Nat) (pkt : Packet) : State.memq (State.sendDirect s p pkt) = State.memq s := by
  unfold State.sendDirect
  simp

theorem execGossipSend_memq (s : State) : ∃ r_, execGossipSend s = .next r_ ∧ State.memq r_ = State.memq s := by
  unfold execGossipSend
  (repeat' split) <;>
    exact ⟨_, rfl, by simp⟩

theorem execGossipRx_memq (p : Fin 1024) (pkt : Packet) (s : State) : ∃ r_, execGossipRx p pkt s = .next r_ ∧ State.memq r_ = State.memq s := by
  unfold execGossipRx
  (repeat' split) <;>
    exact ⟨_, rfl, by simp⟩

theorem execGossipStale_memq (p : Fin 1024) (s : State) : ∃ r_, execGossipStale p s = .next r_ ∧ State.memq r_ = State.memq s := by
  unfold execGossipStale
  (repeat' split) <;>
    exact ⟨_, rfl, by simp⟩

theorem execLsrcBusPoll_memq (e : Fin 16) (ok : Bool) (id : Nat) (ready : Bool) (s : State) : ∃ r_, execLsrcBusPoll e ok id ready s = .next r_ ∧ State.memq r_ = State.memq s := by
  unfold execLsrcBusPoll
  dsimp only
  (repeat' split) <;>
    exact ⟨_, rfl, by simp⟩

@[simp] theorem State.checkStaging_memq (s : State) (e : Nat) : State.memq (State.checkStaging s e) = State.memq s := by
  unfold State.checkStaging
  simp

@[simp] theorem State.checkPools_memq (s : State) (t : Nat) : State.memq (State.checkPools s t) = State.memq s := by
  unfold State.checkPools
  simp

theorem execBankBitWrite_memq (t : Fin 72) (off : Bool) (n : Fin 2) (v : Nat) (s : State) : ∃ r_, execBankBitWrite t off n v s = .next r_ ∧ State.memq r_ = State.memq s := by
  unfold execBankBitWrite
  dsimp only
  (repeat' split) <;>
    exact ⟨_, rfl, by simp⟩

theorem execBankRungReached_memq (t : Fin 72) (l : Fin 128) (s : State) : ∃ r_, execBankRungReached t l s = .next r_ ∧ State.memq r_ = State.memq s := by
  unfold execBankRungReached
  (repeat' split) <;>
    exact ⟨_, rfl, by simp⟩

end Sys2Proof.Machine
end

