-- ==== Sys2Proof/Laws/MemPcie.lean ====
section
/-!
SUPPORT. What the operations of Machine/Pcie.lean do to table-space memory: nothing, or they keep its canonical form.
-/
namespace Sys2Proof.Machine
open Sys2Proof

set_option linter.unusedSimpArgs false

@[simp] theorem State.modCtx_memq (s : State) (e c : Nat) (f : Ctx → Ctx) : State.memq (State.modCtx s e c f) = State.memq s := by
  unfold State.modCtx
  simp

@[simp] theorem State.modOp_memq (s : State) (e slot : Nat) (f : Op → Op) : State.memq (State.modOp s e slot f) = State.memq s := by
  unfold State.modOp
  simp

@[simp] theorem State.modQ_memq (s : State) (e c q : Nat) (f : WorkQ → WorkQ) : State.memq (State.modQ s e c q f) = State.memq s := by
  unfold State.modQ
  simp

@[simp] theorem State.countTlp_memq (s : State) (h func : Nat) (o : Output) : State.memq (State.countTlp s h func o) = State.memq s := by
  unfold State.countTlp
  (repeat' split) <;>
    simp

@[simp] theorem State.emitMsg_memq (s : State) (h : Nat) (o : Output) : State.memq (State.emitMsg s h o) = State.memq s := by
  unfold State.emitMsg
  simp

@[simp] theorem State.emitData_memq (s : State) (m : Master) (n : Nat) (o : Output) : State.memq (State.emitData s m n o) = State.memq s := by
  unfold State.emitData
  (repeat' split) <;>
    simp

@[simp] theorem State.aer_memq (s : State) (h func b : Nat) : State.memq (State.aer s h func b) = State.memq s := by
  unfold State.aer
  simp

@[simp] theorem State.unsupported_memq (s : State) (h f : Nat) (posted : Bool) : State.memq (State.unsupported s h f posted) = State.memq s := by
  unfold State.unsupported
  simp

@[simp] theorem State.sendTlp_memq (s : State) (h func : Nat) (o : Output) : State.memq (State.sendTlp s h func o) = State.memq s := by
  unfold State.sendTlp
  simp

@[simp] theorem State.issue_memq (s : State) (h func : Nat) (o : Output) : State.memq (State.issue s h func o) = State.memq s := by
  unfold State.issue
  simp

@[simp] theorem State.timeFrom_memq (s : State) (o : Output) : State.memq (State.timeFrom s o) = State.memq s := by
  unfold State.timeFrom
  simp

@[simp] theorem State.sendHeld1_memq (s : State) (kept : List (Nat × Output)) (wait : Bool) (x : Nat × Nat × Output) : State.memq ((State.sendHeld1 s kept wait x).1) = State.memq s := by
  unfold State.sendHeld1
  dsimp only
  (repeat' split) <;>
    simp

theorem State.sendHeld1_pair {s : State} (kept : List (Nat × Output)) {wait : Bool} {x : Nat × Nat × Output} {t_ : State} {a_ : List (Nat × Output)} (h_ : State.sendHeld1 s kept wait x = (t_, a_)) : State.memq t_ = State.memq s := by
  have := State.sendHeld1_memq s kept wait x
  rwa [h_] at this

@[simp] theorem State.wakeUnissued_memq (s : State) (h : Nat) : State.memq (State.wakeUnissued s h) = State.memq s := by
  unfold State.wakeUnissued
  simp

@[simp] theorem State.sendHeld_memq (s : State) (h : Nat) (wait : Bool) : State.memq (State.sendHeld s h wait) = State.memq s := by
  unfold State.sendHeld
  have key : ∀ (l : List (Nat × Nat × Output)) (a : State × List (Nat × Output)), (l.foldl (fun a x => a.1.sendHeld1 a.2 wait x) a).1.memq = a.1.memq := by
    intro l
    induction l with
    | nil => intro a; rfl
    | cons x l ih => intro a; exact (ih _).trans (State.sendHeld1_memq _ _ _ _)
  exact (State.wakeUnissued_memq _ _).trans (key _ _)

@[simp] theorem State.hostWrite_memq (s : State) (h func addr : Nat) (data : List Byte) (ns tph : Bool) : State.memq (State.hostWrite s h func addr data ns tph) = State.memq s := by
  unfold State.hostWrite
  simp

@[simp] theorem State.cplTimeout_memq (s : State) (h func : Nat) : State.memq (State.cplTimeout s h func) = State.memq s := by
  unfold State.cplTimeout
  simp

@[simp] theorem State.request_memq (s : State) (e h func : Nat) (why : Purpose) (o : Nat → Output) : State.memq (State.request s e h func why o) = State.memq s := by
  unfold State.request
  simp

@[simp] theorem State.dropReqTag_memq (s : State) (tag : Nat) : State.memq (State.dropReqTag s tag) = State.memq s := by
  unfold State.dropReqTag
  simp

@[simp] theorem State.modVec_memq (s : State) (h func v : Nat) (g : Vector → Vector) : State.memq (State.modVec s h func v g) = State.memq s := by
  unfold State.modVec
  simp

@[simp] theorem State.message_memq (s : State) (h func v : Nat) : State.memq (State.message s h func v) = State.memq s := by
  unfold State.message
  simp

end Sys2Proof.Machine
end

