-- ==== Sys2Proof/Laws/MemXlate.lean ====
section
/-!
SUPPORT. What the operations of Machine/Xlate.lean do to table-space memory: nothing, or they keep its canonical form.
-/
namespace Sys2Proof.Machine
open Sys2Proof

set_option linter.unusedSimpArgs false

@[simp] theorem State.xltFault_memq (s : State) (e c va kind acc level : Nat) : State.memq (State.xltFault s e c va kind acc level) = State.memq s := by
  unfold State.xltFault
  dsimp only
  (repeat' split) <;>
    simp

@[simp] theorem State.setLooked_memq (s : State) (e : Nat) (j : Job) (n : Nat) : State.memq (State.setLooked s e j n) = State.memq s := by
  unfold State.setLooked
  simp

@[simp] theorem State.failJob_memq (s : State) (e : Nat) (j : Job) (kind va : Nat) : State.memq (State.failJob s e j kind va) = State.memq s := by
  unfold State.failJob
  simp

@[simp] theorem State.addJob_memq (s : State) (e : Nat) (j : Job) : State.memq (State.addJob s e j) = State.memq s := by
  unfold State.addJob
  simp

@[simp] theorem State.modWalk_memq (s : State) (e c page : Nat) (f : Walk → Walk) : State.memq (State.modWalk s e c page f) = State.memq s := by
  unfold State.modWalk
  simp

@[simp] theorem State.dropWalk_memq (s : State) (e c page : Nat) : State.memq (State.dropWalk s e c page) = State.memq s := by
  unfold State.dropWalk
  simp

@[simp] theorem State.failWaits_memq (s : State) (e : Nat) (w : Walk) (bad : List (Job × Use × Nat)) (kind level : Nat) : State.memq (State.failWaits s e w bad kind level) = State.memq s := by
  unfold State.failWaits
  simp

@[simp] theorem State.failWalk_memq (s : State) (e : Nat) (w : Walk) (kind level : Nat) : State.memq (State.failWalk s e w kind level) = State.memq s := by
  unfold State.failWalk
  simp

@[simp] theorem State.readTable_memq (s : State) (e : Nat) (c : Ctx) (w : Walk) (level ptr mtype rights : Nat) : State.memq (State.readTable s e c w level ptr mtype rights) = State.memq s := by
  unfold State.readTable
  simp

@[simp] theorem State.failShort_memq (s : State) (e : Nat) (c : Ctx) (w : Walk) (r level : Nat) : State.memq (State.failShort s e c w r level) = State.memq s := by
  unfold State.failShort
  simp

@[simp] theorem State.beginWalk_memq (s : State) (e : Nat) (w : Walk) : State.memq (State.beginWalk s e w) = State.memq s := by
  unfold State.beginWalk
  dsimp only
  (repeat' split) <;>
    simp

@[simp] theorem State.kickWalks_memq (s : State) (e : Nat) : State.memq (State.kickWalks s e) = State.memq s := by
  unfold State.kickWalks
  simp

@[simp] theorem State.joinWalk_memq (s : State) (e : Nat) (k : Ctx) (va : Nat) (j : Job) (u : Use) : State.memq (State.joinWalk s e k va j u) = State.memq s := by
  unfold State.joinWalk
  dsimp only
  (repeat' split) <;>
    simp

@[simp] theorem State.install_memq (s : State) (e : Nat) (c : Ctx) (w : Walk) (v : Nat) : State.memq (State.install s e c w v) = State.memq s := by
  unfold State.install
  simp

@[simp] theorem State.walkEntry_memq (s : State) (e : Nat) (c : Ctx) (w : Walk) (v : Nat) (again : Bool) : State.memq (State.walkEntry s e c w v again) = State.memq s := by
  unfold State.walkEntry
  dsimp only
  (repeat' split) <;>
    simp

@[simp] theorem State.walkReturn_memq (s : State) (e c page : Nat) (ok : Bool) (v : Nat) : State.memq (State.walkReturn s e c page ok v) = State.memq s := by
  unfold State.walkReturn
  (repeat' split) <;>
    simp

@[simp] theorem State.casReturn_memq (s : State) (e c page : Nat) (ok : Bool) (v : Nat) : State.memq (State.casReturn s e c page ok v) = State.memq s := by
  unfold State.casReturn
  (repeat' split) <;>
    simp

@[simp] theorem State.mustWalk_memq (s : State) (e : Nat) (k : Ctx) (j : Job) (n va : Nat) (u : Use) (found : Bool) : State.memq (State.mustWalk s e k j n va u found) = State.memq s := by
  unfold State.mustWalk
  simp

@[simp] theorem State.winCount_memq (s : State) (c : Ctx) (n : Nat) : State.memq (State.winCount s c n) = State.memq s := by
  unfold State.winCount
  simp

@[simp] theorem State.writeVa_memq (s : State) (e : Nat) (c : Ctx) (va : Nat) (data : List Byte) (tph : Bool) (u : Use) : State.memq (State.writeVa s e c va data tph u) = State.memq s := by
  unfold State.writeVa
  simp

@[simp] theorem State.readVa_memq (s : State) (e : Nat) (c : Ctx) (va len : Nat) (why : Purpose) (u : Use) : State.memq (State.readVa s e c va len why u) = State.memq s := by
  unfold State.readVa
  simp

@[simp] theorem State.xltDrop_memq (s : State) (e : Nat) (p : Nat → Bool) (range : Option (Nat × Nat)) : State.memq (State.xltDrop s e p range) = State.memq s := by
  unfold State.xltDrop
  simp

end Sys2Proof.Machine
end

