-- ==== Sys2Proof/Laws/MemQueue.lean ====
section
/-!
SUPPORT. What the operations of Machine/Queue.lean do to table-space memory: nothing, or they keep its canonical form.
-/
namespace Sys2Proof.Machine
open Sys2Proof

set_option linter.unusedSimpArgs false

@[simp] theorem State.inject_memq (s : State) (e : Nat) (pkt : Packet) (ctx : Option Nat) (shp : Option Nat) (start : Start) : State.memq (State.inject s e pkt ctx shp start) = State.memq s := by
  unfold State.inject
  simp

@[simp] theorem State.answer_memq (s : State) (e : Nat) (q : Packet) (kind w5 w6 w7 : Nat) (data : List Byte) (start : Start) : State.memq (State.answer s e q kind w5 w6 w7 data start) = State.memq s := by
  unfold State.answer
  simp

@[simp] theorem State.nackBusy_memq (s : State) (e : Nat) (q : Packet) (code : Nat) : State.memq (State.nackBusy s e q code) = State.memq s := by
  unfold State.nackBusy
  simp

@[simp] theorem State.nackAccess_memq (s : State) (e : Nat) (q : Packet) (code : Nat) : State.memq (State.nackAccess s e q code) = State.memq s := by
  unfold State.nackAccess
  simp

@[simp] theorem State.refuse1_memq (s : State) (e : Nat) (q : Packet) : State.memq (State.refuse1 s e q) = State.memq s := by
  unfold State.refuse1
  simp

@[simp] theorem State.ack_memq (s : State) (e : Nat) (q : Packet) (pkts marks v0 v1 : Nat) : State.memq (State.ack s e q pkts marks v0 v1) = State.memq s := by
  unfold State.ack
  simp

@[simp] theorem State.late_memq (s : State) (e : Nat) : State.memq (State.late s e) = State.memq s := by
  unfold State.late
  simp

@[simp] theorem State.finish_memq (s : State) (e c : Nat) (f : Fin1) : State.memq (State.finish s e c f) = State.memq s := by
  unfold State.finish
  simp

@[simp] theorem State.pushEvent_memq (s : State) (e c : Nat) (words : List Nat) (fin : Option Fin1) : State.memq (State.pushEvent s e c words fin) = State.memq s := by
  unfold State.pushEvent
  simp

@[simp] theorem State.endEntry_memq (s : State) (e c q idx : Nat) (d : Desc) (x : Ending) : State.memq (State.endEntry s e c q idx d x) = State.memq s := by
  unfold State.endEntry
  (repeat' split) <;>
    simp

@[simp] theorem State.pushError_memq (s : State) (e c : Nat) (r : List Nat) : State.memq (State.pushError s e c r) = State.memq s := by
  unfold State.pushError
  (repeat' split) <;>
    simp

@[simp] theorem State.armed_memq (s : State) (e c : Nat) : State.memq (State.armed s e c) = State.memq s := by
  unfold State.armed
  (repeat' split) <;>
    simp

@[simp] theorem State.putRecord_memq (s : State) (e : Nat) (k : Ctx) (va : Nat) (words : List Nat) : State.memq (State.putRecord s e k va words) = State.memq s := by
  unfold State.putRecord
  simp

@[simp] theorem State.writeEvent_memq (s : State) (e c : Nat) : State.memq (State.writeEvent s e c) = State.memq s := by
  unfold State.writeEvent
  (repeat' split) <;>
    simp

@[simp] theorem State.errorDone_memq (s : State) (e c : Nat) (r : Rec) : State.memq (State.errorDone s e c r) = State.memq s := by
  unfold State.errorDone
  (repeat' split) <;>
    simp

@[simp] theorem State.writeError_memq (s : State) (e c : Nat) : State.memq (State.writeError s e c) = State.memq s := by
  unfold State.writeError
  (repeat' split) <;>
    simp

@[simp] theorem State.ctxEvent_memq (s : State) (e c b : Nat) : State.memq (State.ctxEvent s e c b) = State.memq s := by
  unfold State.ctxEvent
  simp

@[simp] theorem State.loseError_memq (s : State) (e c : Nat) : State.memq (State.loseError s e c) = State.memq s := by
  unfold State.loseError
  (repeat' split) <;>
    simp

@[simp] theorem State.writeComp_memq (s : State) (e c q : Nat) : State.memq (State.writeComp s e c q) = State.memq s := by
  unfold State.writeComp
  (repeat' split) <;>
    simp

@[simp] theorem State.ctxFault_memq (s : State) (e c cause kind : Nat) : State.memq (State.ctxFault s e c cause kind) = State.memq s := by
  unfold State.ctxFault
  (repeat' split) <;>
    simp

@[simp] theorem State.queueError_memq (s : State) (e c q : Nat) : State.memq (State.queueError s e c q) = State.memq s := by
  unfold State.queueError
  simp

@[simp] theorem State.ringFault_memq (s : State) (e c q idx kind : Nat) : State.memq (State.ringFault s e c q idx kind) = State.memq s := by
  unfold State.ringFault
  (repeat' split) <;>
    simp

@[simp] theorem State.dropCtx_memq (s : State) (e c : Nat) : State.memq (State.dropCtx s e c) = State.memq s := by
  unfold State.dropCtx
  simp

@[simp] theorem State.writeBack_memq (s : State) (e : Nat) (k : Ctx) (close : Bool) : State.memq (State.writeBack s e k close) = State.memq s := by
  unfold State.writeBack
  simp

@[simp] theorem State.evict_memq (s : State) (e : Nat) (k : Ctx) (close : Bool) : State.memq (State.evict s e k close) = State.memq s := by
  unfold State.evict
  simp

@[simp] theorem State.wantLoad_memq (s : State) (e c : Nat) : State.memq (State.wantLoad s e c) = State.memq s := by
  unfold State.wantLoad
  simp

@[simp] theorem State.loadFailed_memq (s : State) (e c : Nat) : State.memq (State.loadFailed s e c) = State.memq s := by
  unfold State.loadFailed
  simp

@[simp] theorem State.loaded_memq (s : State) (e c : Nat) (w : List Nat) : State.memq (State.loaded s e c w) = State.memq s := by
  unfold State.loaded
  simp

end Sys2Proof.Machine
end

