-- ==== Sys2Proof/Laws/MemRma.lean ====
section
/-!
SUPPORT. What the operations of Machine/Rma.lean do to table-space memory: nothing, or they keep its canonical form.
-/
namespace Sys2Proof.Machine
open Sys2Proof

set_option linter.unusedSimpArgs false

@[simp] theorem State.takeOpSlot_memq (s : State) (e slot : Nat) (o : Op) : State.memq (State.takeOpSlot s e slot o) = State.memq s := by
  unfold State.takeOpSlot
  simp

@[simp] theorem State.freeOp_memq (s : State) (e slot : Nat) : State.memq (State.freeOp s e slot) = State.memq s := by
  unfold State.freeOp
  simp

@[simp] theorem State.decrease_memq (s : State) (e dest : Nat) (g : Gather) : State.memq (State.decrease s e dest g) = State.memq s := by
  unfold State.decrease
  simp

@[simp] theorem State.gather_memq (s : State) (e dest pkts marks : Nat) : State.memq (State.gather s e dest pkts marks) = State.memq s := by
  unfold State.gather
  (repeat' split) <;>
    simp

@[simp] theorem State.streamSent_memq (s : State) (e : Nat) (o : Op) : State.memq (State.streamSent s e o) = State.memq s := by
  unfold State.streamSent
  (repeat' split) <;>
    simp

@[simp] theorem State.sendSeg_memq (s : State) (e slot : Nat) (o : Op) (g : Seg) (data : List Byte) : State.memq (State.sendSeg s e slot o g data) = State.memq s := by
  unfold State.sendSeg
  simp

@[simp] theorem State.pump1_memq (s : State) (e slot : Nat) : State.memq (State.pump1 s e slot) = State.memq s := by
  unfold State.pump1
  (repeat' split) <;>
    simp

@[simp] theorem State.pump_memq (s : State) (e slot : Nat) : State.memq (State.pump s e slot) = State.memq s := by
  unfold State.pump
  (repeat' split) <;>
    simp

@[simp] theorem State.queueSegs_memq (s : State) (e slot : Nat) (l : List Seg) : State.memq (State.queueSegs s e slot l) = State.memq s := by
  unfold State.queueSegs
  simp

@[simp] theorem State.issueSegment_memq (s : State) (e slot : Nat) : State.memq (State.issueSegment s e slot) = State.memq s := by
  unfold State.issueSegment
  (repeat' split) <;>
    simp

@[simp] theorem State.modDup_memq (s : State) (u src opid : Nat) (f : Dup → Dup) : State.memq (State.modDup s u src opid f) = State.memq s := by
  unfold State.modDup
  simp

@[simp] theorem State.countAnswer_memq (s : State) (e kind : Nat) : State.memq (State.countAnswer s e kind) = State.memq s := by
  unfold State.countAnswer
  simp

@[simp] theorem State.dupInsert_memq (s : State) (u : Nat) (d : Dup) : State.memq (State.dupInsert s u d) = State.memq s := by
  unfold State.dupInsert
  simp

@[simp] theorem State.dupDone_memq (s : State) (u src opid kind w5 w6 w7 : Nat) : State.memq (State.dupDone s u src opid kind w5 w6 w7) = State.memq s := by
  unfold State.dupDone
  simp

@[simp] theorem State.dupLookup_memq (s : State) (e : Nat) (q : Packet) : State.memq ((State.dupLookup s e q).1) = State.memq s := by
  unfold State.dupLookup
  dsimp only
  (repeat' split) <;>
    simp

theorem State.dupLookup_pair {s : State} {e : Nat} {q : Packet} {t_ : State} {a_ : Lookup} (h_ : State.dupLookup s e q = (t_, a_)) : State.memq t_ = State.memq s := by
  have := State.dupLookup_memq s e q
  rwa [h_] at this

@[simp] theorem State.dupPend_memq (s : State) (e : Nat) (q : Packet) : State.memq (State.dupPend s e q) = State.memq s := by
  unfold State.dupPend
  simp

@[simp] theorem State.dupClose_memq (s : State) (e src opid : Nat) : State.memq (State.dupClose s e src opid) = State.memq s := by
  unfold State.dupClose
  simp

@[simp] theorem State.refuse_memq (s : State) (e : Nat) (q : Packet) (code detail : Nat) : State.memq (State.refuse s e q code detail) = State.memq s := by
  unfold State.refuse
  simp

@[simp] theorem State.readRegion_memq (s : State) (e : Nat) (k : Ctx) (r : Nat) (j : Job) : State.memq (State.readRegion s e k r j) = State.memq s := by
  unfold State.readRegion
  simp

@[simp] theorem State.takeWait_memq (s : State) (e c r : Nat) : State.memq ((State.takeWait s e c r).2) = State.memq s := by
  unfold State.takeWait
  simp

theorem State.takeWait_pair {s : State} {e c r : Nat} {t_ : State} {a_ : List Job} (h_ : State.takeWait s e c r = (a_, t_)) : State.memq t_ = State.memq s := by
  have := State.takeWait_memq s e c r
  rwa [h_] at this

@[simp] theorem State.regionCame_memq (s : State) (e c r : Nat) (w : List Nat) : State.memq (State.regionCame s e c r w) = State.memq s := by
  unfold State.regionCame
  simp

@[simp] theorem State.flushRead_memq (s : State) (e : Nat) (k : Ctx) (pa : Nat) (ns : Bool) (f : FlushFor) : State.memq (State.flushRead s e k pa ns f) = State.memq s := by
  unfold State.flushRead
  simp

@[simp] theorem State.flushAt_memq (s : State) (e : Nat) (k : Ctx) (va len : Nat) (f : FlushFor) : State.memq (State.flushAt s e k va len f) = State.memq s := by
  unfold State.flushAt
  (repeat' split) <;>
    simp

@[simp] theorem State.modTracker_memq (s : State) (e src opid : Nat) (f : Tracker → Tracker) : State.memq (State.modTracker s e src opid f) = State.memq s := by
  unfold State.modTracker
  simp

@[simp] theorem State.dropTracker_memq (s : State) (e src opid : Nat) : State.memq (State.dropTracker s e src opid) = State.memq s := by
  unfold State.dropTracker
  simp

@[simp] theorem State.track_memq (s : State) (e : Nat) (q : Packet) : State.memq ((State.track s e q).1) = State.memq s := by
  unfold State.track
  (repeat' split) <;>
    simp

theorem State.track_pair {s : State} {e : Nat} {q : Packet} {t_ : State} {a_ : Track} (h_ : State.track s e q = (t_, a_)) : State.memq t_ = State.memq s := by
  have := State.track_memq s e q
  rwa [h_] at this

@[simp] theorem State.countPart_memq (s : State) (e : Nat) (q : Packet) : State.memq (State.countPart s e q) = State.memq s := by
  unfold State.countPart
  simp

@[simp] theorem State.ackTracker_memq (s : State) (e : Nat) (t : Tracker) : State.memq (State.ackTracker s e t) = State.memq s := by
  unfold State.ackTracker
  simp

@[simp] theorem State.sack_memq (s : State) (e : Nat) (t : Tracker) : State.memq (State.sack s e t) = State.memq s := by
  unfold State.sack
  simp

@[simp] theorem State.putAck_memq (s : State) (e : Nat) (q : Packet) : State.memq (State.putAck s e q) = State.memq s := by
  unfold State.putAck
  (repeat' split) <;>
    simp

@[simp] theorem State.answerPut_memq (s : State) (e : Nat) (k : Ctx) (q : Packet) : State.memq (State.answerPut s e k q) = State.memq s := by
  unfold State.answerPut
  simp

@[simp] theorem State.writeBackLines_memq (s : State) (e : Nat) (p : Line → Bool) : State.memq (State.writeBackLines s e p) = State.memq s := by
  unfold State.writeBackLines
  simp

@[simp] theorem State.touchLines_memq (s : State) (e : Nat) (k : Ctx) (q : Packet) (u : Use) (va len : Nat) : State.memq (State.touchLines s e k q u va len) = State.memq s := by
  unfold State.touchLines
  simp

@[simp] theorem State.writeFlag_memq (s : State) (e : Nat) (k : Ctx) (q : Packet) (va : Nat) : State.memq (State.writeFlag s e k q va) = State.memq s := by
  unfold State.writeFlag
  simp

@[simp] theorem State.putPlaced_memq (s : State) (e : Nat) (k : Ctx) (w : List Nat) (q : Packet) (f : Option Packet) : State.memq (State.putPlaced s e k w q f) = State.memq s := by
  unfold State.putPlaced
  (repeat' split) <;>
    simp

@[simp] theorem State.doPut_memq (s : State) (e : Nat) (k : Ctx) (w : List Nat) (q : Packet) : State.memq (State.doPut s e k w q) = State.memq s := by
  unfold State.doPut
  dsimp only
  (repeat' split) <;>
    simp

@[simp] theorem State.doGet_memq (s : State) (e : Nat) (k : Ctx) (w : List Nat) (q : Packet) : State.memq (State.doGet s e k w q) = State.memq s := by
  unfold State.doGet
  simp

@[simp] theorem State.sendGetData_memq (s : State) (e : Nat) (q : Packet) (data : List Byte) : State.memq (State.sendGetData s e q data) = State.memq s := by
  unfold State.sendGetData
  simp

@[simp] theorem State.atomicDone_memq (s : State) (e : Nat) (q : Packet) (old : Nat) : State.memq (State.atomicDone s e q old) = State.memq s := by
  unfold State.atomicDone
  simp

@[simp] theorem State.atomicInLine_memq (s : State) (e : Nat) (q : Packet) (x : Line) (pa : Nat) : State.memq (State.atomicInLine s e q x pa) = State.memq s := by
  unfold State.atomicInLine
  simp

@[simp] theorem State.doAtomic_memq (s : State) (e : Nat) (k : Ctx) (w : List Nat) (q : Packet) : State.memq (State.doAtomic s e k w q) = State.memq s := by
  unfold State.doAtomic
  (repeat' split) <;>
    simp

@[simp] theorem State.lineCame_memq (s : State) (e : Nat) (k : Ctx) (r pa : Nat) (nosnoop : Bool) (data : List Byte) : State.memq (State.lineCame s e k r pa nosnoop data) = State.memq s := by
  unfold State.lineCame
  (repeat' split) <;>
    simp

@[simp] theorem State.doReq_memq (s : State) (e : Nat) (k : Ctx) (w : List Nat) (q : Packet) : State.memq (State.doReq s e k w q) = State.memq s := by
  unfold State.doReq
  simp

@[simp] theorem State.recvDone_memq (s : State) (e : Nat) (m : Msg) (b : Buf) (status placed : Nat) : State.memq (State.recvDone s e m b status placed) = State.memq s := by
  unfold State.recvDone
  simp

@[simp] theorem State.answerMsg_memq (s : State) (e : Nat) (k : Known) (kind w5 : Nat) : State.memq (State.answerMsg s e k kind w5) = State.memq s := by
  unfold State.answerMsg
  simp

@[simp] theorem State.forgetMsg_memq (s : State) (e : Nat) (m : Msg) : State.memq (State.forgetMsg s e m) = State.memq s := by
  unfold State.forgetMsg
  simp

@[simp] theorem State.placing_memq (s : State) (e : Nat) (m : Msg) : State.memq (State.placing s e m) = State.memq s := by
  unfold State.placing
  (repeat' split) <;>
    simp

@[simp] theorem State.pullAck_memq (s : State) (e : Nat) (m : Msg) : State.memq (State.pullAck s e m) = State.memq s := by
  unfold State.pullAck
  (repeat' split) <;>
    simp

@[simp] theorem State.pullEnd_memq (s : State) (e : Nat) (m : Msg) (b : Buf) (x : Ending) (placed : Nat) : State.memq (State.pullEnd s e m b x placed) = State.memq s := by
  unfold State.pullEnd
  simp

@[simp] theorem State.fenceEnd_memq (s : State) (e c q idx : Nat) (d : Desc) (x : Ending) : State.memq (State.fenceEnd s e c q idx d x) = State.memq s := by
  unfold State.fenceEnd
  dsimp only
  (repeat' split) <;>
    simp

@[simp] theorem State.retire_memq (s : State) (e slot : Nat) (o : Op) (x : Ending) : State.memq (State.retire s e slot o x) = State.memq s := by
  unfold State.retire
  (repeat' split) <;>
    simp

@[simp] theorem State.conclude_memq (s : State) (e slot : Nat) (o : Op) (x : Ending) : State.memq (State.conclude s e slot o x) = State.memq s := by
  unfold State.conclude
  simp

@[simp] theorem State.endOp_memq (s : State) (e slot : Nat) (x : Ending) : State.memq (State.endOp s e slot x) = State.memq s := by
  unfold State.endOp
  (repeat' split) <;>
    simp

@[simp] theorem State.exhaust_memq (s : State) (e slot : Nat) : State.memq (State.exhaust s e slot) = State.memq s := by
  unfold State.exhaust
  simp

@[simp] theorem State.markTu_memq (s : State) (e slot : Nat) (q : Packet) : State.memq (State.markTu s e slot q) = State.memq s := by
  unfold State.markTu
  simp

@[simp] theorem State.newAttempt_memq (s : State) (e slot : Nat) : State.memq (State.newAttempt s e slot) = State.memq s := by
  unfold State.newAttempt
  simp

@[simp] theorem State.getDone_memq (s : State) (e slot : Nat) : State.memq (State.getDone s e slot) = State.memq s := by
  unfold State.getDone
  (repeat' split) <;>
    simp

@[simp] theorem State.checkBounds_memq (s : State) (es us : List Nat) : State.memq (State.checkBounds s es us) = State.memq s := by
  unfold State.checkBounds
  simp

@[simp] theorem State.checkLegacy_memq (s : State) (es us : List Nat) : State.memq (State.checkLegacy s es us) = State.memq s := by
  unfold State.checkLegacy
  simp

end Sys2Proof.Machine
end

