-- ==== Sys2Proof/Laws/MemMatch.lean ====
section
/-!
SUPPORT. What the operations of Machine/Match.lean do to table-space memory: nothing, or they keep its canonical form.
-/
namespace Sys2Proof.Machine
open Sys2Proof

set_option linter.unusedSimpArgs false

@[simp] theorem State.modKnown_memq (s : State) (e : Nat) (m : Msg) (f : Known → Known) : State.memq (State.modKnown s e m f) = State.memq s := by
  unfold State.modKnown
  simp

@[simp] theorem State.takePool_memq (s : State) (e c : Nat) : State.memq (State.takePool s e c) = State.memq s := by
  unfold State.takePool
  simp

@[simp] theorem State.startPull_memq (s : State) (e : Nat) (m : Msg) (b : Buf) : State.memq (State.startPull s e m b) = State.memq s := by
  unfold State.startPull
  (repeat' split) <;>
    simp

@[simp] theorem State.kickPulls_memq (s : State) (e : Nat) : State.memq (State.kickPulls s e) = State.memq s := by
  unfold State.kickPulls
  (try dsimp only)
  (repeat' split) <;>
    (repeat' first | (simp; done) | refine (State.each_memq _ _ _ fun _ _ => ?_).trans ?_ | split)

@[simp] theorem State.bind_memq (s : State) (e : Nat) (k : Known) (b : Buf) (owes : Option Desc) : State.memq (State.bind s e k b owes) = State.memq s := by
  unfold State.bind
  (repeat' split) <;>
    simp

@[simp] theorem State.overflow_memq (s : State) (e c cause : Nat) : State.memq (State.overflow s e c cause) = State.memq s := by
  unfold State.overflow
  simp

@[simp] theorem State.uxArrival_memq (s : State) (e : Nat) (k : Known) : State.memq (State.uxArrival s e k) = State.memq s := by
  unfold State.uxArrival
  simp

@[simp] theorem State.rdvAccept_memq (s : State) (e : Nat) (q : Packet) : State.memq (State.rdvAccept s e q) = State.memq s := by
  unfold State.rdvAccept
  simp

@[simp] theorem State.demote_memq (s : State) (e : Nat) (k : Known) (st : Nat) : State.memq (State.demote s e k st) = State.memq s := by
  unfold State.demote
  simp

@[simp] theorem State.shelve_memq (s : State) (e : Nat) (c : Ctx) (k : Known) (st : Nat) : State.memq (State.shelve s e c k st) = State.memq s := by
  unfold State.shelve
  dsimp only
  (repeat' split) <;>
    simp

@[simp] theorem State.matchMsg_memq (s : State) (e : Nat) (k : Known) : State.memq (State.matchMsg s e k) = State.memq s := by
  unfold State.matchMsg
  dsimp only
  (repeat' split) <;>
    simp

@[simp] theorem State.rematch_memq (s : State) (e c : Nat) : State.memq (State.rematch s e c) = State.memq s := by
  unfold State.rematch
  simp

@[simp] theorem State.rxMake_memq (s : State) (e : Nat) (t : RxStream) : State.memq (State.rxMake s e t) = State.memq s := by
  unfold State.rxMake
  simp

@[simp] theorem State.modRx_memq (s : State) (e : Nat) (m : Msg) (sq : Nat) (f : RxStream → RxStream) : State.memq (State.modRx s e m sq f) = State.memq s := by
  unfold State.modRx
  simp

@[simp] theorem State.releaseOne_memq (s : State) (e : Nat) (k : Known) (skip : Bool) : State.memq (State.releaseOne s e k skip) = State.memq s := by
  unfold State.releaseOne
  simp

@[simp] theorem State.releaseRun_memq (s : State) (e : Nat) (m : Msg) (sq : Nat) (skip : Bool) (x0 : Nat) : State.memq (State.releaseRun s e m sq skip x0) = State.memq s := by
  induction x0 generalizing s e m sq skip  with
  | zero => unfold State.releaseRun; simp
  | succ n ih =>
    unfold State.releaseRun
    (try dsimp only)
    (repeat' split) <;> first | (simp only [ih, ↓State.modRx_memq, ↓State.releaseOne_memq, ↓State.ite_memq, ite_self, State.memq_mk, State.memq_eta]; done) | simp [ih]

@[simp] theorem State.know_memq (s : State) (e : Nat) (k : Known) : State.memq (State.know s e k) = State.memq s := by
  unfold State.know
  simp

@[simp] theorem State.stream_memq (s : State) (e : Nat) (q : Packet) (k : Known) : State.memq (State.stream s e q k) = State.memq s := by
  unfold State.stream
  (try dsimp only)
  (repeat' split)
  all_goals first | (simp only [↓State.releaseOne_memq, ↓State.modRx_memq, ↓State.rxMake_memq, ↓State.releaseRun_memq, ↓State.know_memq, ↓State.matchMsg_memq, ↓State.shelve_memq, ↓State.modKnown_memq, ↓State.overflow_memq, ↓State.inc_memq, ↓State.raise_memq, ↓State.ite_memq, ite_self, State.memq_mk, State.memq_eta]; done) | (simp; done) | with_reducible rfl | (simp; apply State.each_memq; intros; (try dsimp only); (repeat' split) <;> simp; done) | ((repeat' first | with_reducible rfl | (simp; done) | refine (State.each_memq _ _ _ fun _ _ => ?_).trans ?_ | refine (State.fold_memq _ _ _ fun _ _ => ?_).trans ?_ | refine (State.fold1_memq _ (fun _ _ => ?_) _ _).trans ?_ | refine (State.fold2_memq _ (fun _ _ => ?_) _ _).trans ?_ | split | simp | dsimp only); done) | ((repeat first | fail | simp only [↓State.releaseOne_memq, ↓State.modRx_memq, ↓State.rxMake_memq, ↓State.releaseRun_memq, ↓State.know_memq, ↓State.matchMsg_memq, ↓State.shelve_memq, ↓State.modKnown_memq, ↓State.overflow_memq, ↓State.inc_memq, ↓State.raise_memq, ↓State.ite_memq, ite_self, State.memq_mk, State.memq_eta] | simp); done) | skip

@[simp] theorem State.newMsg_memq (s : State) (e : Nat) (q : Packet) : State.memq (State.newMsg s e q) = State.memq s := by
  unfold State.newMsg
  (repeat' split) <;>
    simp

@[simp] theorem State.evRefuse_memq (s : State) (e : Nat) (c : Ctx) (q : Packet) : State.memq (State.evRefuse s e c q) = State.memq s := by
  unfold State.evRefuse
  simp

@[simp] theorem State.filterMsg_memq (s : State) (e : Nat) (c : Ctx) (q : Packet) (rts : Bool) : State.memq (State.filterMsg s e c q rts) = State.memq s := by
  unfold State.filterMsg
  (try dsimp only)
  (repeat' split) <;>
    (repeat first | rw [State.dupLookup_pair ‹_›] | rw [State.track_pair ‹_›] | simp)

@[simp] theorem State.sendRx_memq (s : State) (e : Nat) (c : Ctx) (q : Packet) : State.memq (State.sendRx s e c q) = State.memq s := by
  unfold State.sendRx
  (try dsimp only)
  (repeat' split) <;>
    (repeat first | rw [State.track_pair ‹_›] | simp)

@[simp] theorem State.msgWhole_memq (s : State) (e : Nat) (q : Packet) (k : Known) (pkts marks : Nat) : State.memq (State.msgWhole s e q k pkts marks) = State.memq s := by
  unfold State.msgWhole
  (repeat' split) <;>
    simp

@[simp] theorem State.msgDone_memq (s : State) (e : Nat) (q : Packet) : State.memq (State.msgDone s e q) = State.memq s := by
  unfold State.msgDone
  (repeat' split) <;>
    simp

@[simp] theorem State.msgReady_memq (s : State) (e : Nat) (c : Ctx) (q : Packet) : State.memq (State.msgReady s e c q) = State.memq s := by
  unfold State.msgReady
  simp

@[simp] theorem State.doMsg_memq (s : State) (e : Nat) (c : Ctx) (q : Packet) : State.memq (State.doMsg s e c q) = State.memq s := by
  unfold State.doMsg
  dsimp only
  (repeat' split) <;>
    simp

@[simp] theorem State.msgFault_memq (s : State) (e : Nat) (q : Packet) (kind : Nat) : State.memq (State.msgFault s e q kind) = State.memq s := by
  unfold State.msgFault
  (repeat' split) <;>
    simp

@[simp] theorem State.poolCopied_memq (s : State) (e : Nat) (m : Msg) (b : Buf) (status : Nat) : State.memq (State.poolCopied s e m b status) = State.memq s := by
  unfold State.poolCopied
  simp

@[simp] theorem State.deferPost_memq (s : State) (e c : Nat) (b : Buf) : State.memq (State.deferPost s e c b) = State.memq s := by
  unfold State.deferPost
  simp

@[simp] theorem State.post0_memq (s : State) (e : Nat) (c : Ctx) (q idx : Nat) (d : Desc) : State.memq (State.post0 s e c q idx d) = State.memq s := by
  unfold State.post0
  dsimp only
  (repeat' split) <;>
    simp

@[simp] theorem State.claim1_memq (s : State) (e : Nat) (c : Ctx) (q idx : Nat) (d : Desc) : State.memq (State.claim1 s e c q idx d) = State.memq s := by
  unfold State.claim1
  dsimp only
  (repeat' split) <;>
    simp

end Sys2Proof.Machine
end

