-- ==== Sys2Proof/Laws/MemColl.lean ====
section
/-!
SUPPORT. What the operations of Machine/Coll.lean do to table-space memory: nothing, or they keep its canonical form.
-/
namespace Sys2Proof.Machine
open Sys2Proof

set_option linter.unusedSimpArgs false

@[simp] theorem State.setColg_ok (s : State) (g k lo w v : Nat) {q_ : Bool × List Instr} (hk : State.Ok q_ (State.memq s)) : State.Ok q_ (State.memq (State.setColg s g k lo w v)) := by
  unfold State.setColg
  simp [hk]

@[simp] theorem State.sendUp_memq (s : State) (u g : Nat) (p : Packet) : State.memq (State.sendUp s u g p) = State.memq s := by
  unfold State.sendUp
  simp

@[simp] theorem State.sendDown_memq (s : State) (u : Nat) (p : Packet) : State.memq (State.sendDown s u p) = State.memq s := by
  unfold State.sendDown
  simp

@[simp] theorem State.modSeq_memq (s : State) (u g : Nat) (f : Sequence → Sequence) : State.memq (State.modSeq s u g f) = State.memq s := by
  unfold State.modSeq
  simp

@[simp] theorem State.modChunk_memq (s : State) (u g i : Nat) (f : Chunk → Chunk) : State.memq (State.modChunk s u g i f) = State.memq s := by
  unfold State.modChunk
  simp

@[simp] theorem State.freeChunk_memq (s : State) (u g i : Nat) : State.memq (State.freeChunk s u g i) = State.memq s := by
  unfold State.freeChunk
  simp

@[simp] theorem State.closeSeq_ok (s : State) (u g : Nat) {q_ : Bool × List Instr} (hk : State.Ok q_ (State.memq s)) : State.Ok q_ (State.memq (State.closeSeq s u g)) := by
  unfold State.closeSeq
  simp [hk]

@[simp] theorem State.chunkFinished_ok (s : State) (u g i : Nat) {q_ : Bool × List Instr} (hk : State.Ok q_ (State.memq s)) : State.Ok q_ (State.memq (State.chunkFinished s u g i)) := by
  unfold State.chunkFinished
  dsimp only
  (repeat' split) <;>
    simp [hk]

@[simp] theorem State.chunkUp_memq (s : State) (u : Nat) (c : Chunk) (total : Nat) : State.memq (State.chunkUp s u c total) = State.memq s := by
  unfold State.chunkUp
  simp

@[simp] theorem State.chunkRoot_ok (s : State) (u : Nat) (c : Chunk) (total : Nat) {q_ : Bool × List Instr} (hk : State.Ok q_ (State.memq s)) : State.Ok q_ (State.memq (State.chunkRoot s u c total)) := by
  unfold State.chunkRoot
  simp [hk]

@[simp] theorem State.examine_ok (s : State) (u g i : Nat) {q_ : Bool × List Instr} (hk : State.Ok q_ (State.memq s)) : State.Ok q_ (State.memq (State.examine s u g i)) := by
  unfold State.examine
  dsimp only
  (repeat' split) <;>
    simp [hk]

@[simp] theorem State.examineAll_ok (s : State) (u g : Nat) {q_ : Bool × List Instr} (hk : State.Ok q_ (State.memq s)) : State.Ok q_ (State.memq (State.examineAll s u g)) := by
  unfold State.examineAll
  (try dsimp only)
  (repeat' split) <;>
    (repeat' first | with_reducible assumption | with_reducible apply State.examine_ok | fail | with_reducible refine State.each_ok _ _ _ ?_ fun _ _ _ => ?_ | simp only [↓State.ite_memq, ite_self, State.memq_mk, State.memq_eta] | split | dsimp only)

@[simp] theorem State.windowDrop_memq (s : State) (u g : Nat) : State.memq (State.windowDrop s u g) = State.memq s := by
  unfold State.windowDrop
  simp

@[simp] theorem State.openSeq_ok (s : State) (u g total : Nat) {q_ : Bool × List Instr} (hk : State.Ok q_ (State.memq s)) : State.Ok q_ (State.memq (State.openSeq s u g total)) := by
  unfold State.openSeq
  (repeat' split) <;>
    simp [hk]

@[simp] theorem State.contrib_ok (s : State) (u inPort : Nat) (q : Packet) {q_ : Bool × List Instr} (hk : State.Ok q_ (State.memq s)) : State.Ok q_ (State.memq (State.contrib s u inPort q)) := by
  unfold State.contrib
  (try dsimp only)
  (repeat' split)
  all_goals first | with_reducible assumption | (simp only [↓State.windowDrop_memq, ↓State.openSeq_ok, ↓State.inc_memq, ↓State.modUnit_memq, ↓State.count_memq, ↓State.modChunk_memq, ↓State.prune_memq, ↓State.examine_ok, ↓State.ite_memq, ite_self, State.memq_mk, State.memq_eta, hk]; done) | ((repeat' first | with_reducible assumption | with_reducible apply State.examine_ok | with_reducible apply State.openSeq_ok | fail | with_reducible refine State.each_ok _ _ _ ?_ fun _ _ _ => ?_ | with_reducible refine State.fold1_ok _ (fun _ _ _ => ?_) _ _ ?_ | simp only [↓State.windowDrop_memq, ↓State.inc_memq, ↓State.modUnit_memq, ↓State.count_memq, ↓State.modChunk_memq, ↓State.prune_memq, ↓State.ite_memq, ite_self, State.memq_mk, State.memq_eta] | split | dsimp only); done) | (simp [hk, State.Ok.write]; done) | (simp +contextual [hk, State.Ok.write]; done) | ((repeat' first | with_reducible assumption | (simp [*, State.Ok.write]; done) | refine State.each_ok _ _ _ ?_ fun _ _ _ => ?_ | refine State.fold_ok _ _ _ ?_ fun _ _ _ => ?_ | split | dsimp only); done) | skip

@[simp] theorem State.colErr_memq (s : State) (u code : Nat) : State.memq (State.colErr s u code) = State.memq s := by
  unfold State.colErr
  simp

@[simp] theorem State.setupGroup_ok (s : State) (u g seq : Nat) {q_ : Bool × List Instr} (hk : State.Ok q_ (State.memq s)) : State.Ok q_ (State.memq (State.setupGroup s u g seq)) := by
  unfold State.setupGroup
  extract_lets s1 s2
  have h1 : State.Ok q_ s1.memq := State.setColg_ok _ _ _ _ _ _ (State.setColg_ok _ _ _ _ _ _ (State.setColg_ok _ _ _ _ _ _ hk))
  have h2 : State.Ok q_ s2.memq := by rw [State.modUnit_memq]; exact h1
  exact State.setColg_ok _ _ _ _ _ _ h2

@[simp] theorem State.releaseGroup_ok (s : State) (u g : Nat) {q_ : Bool × List Instr} (hk : State.Ok q_ (State.memq s)) : State.Ok q_ (State.memq (State.releaseGroup s u g)) := by
  unfold State.releaseGroup
  simp [hk]

@[simp] theorem State.modColl_memq (s : State) (e c q idx : Nat) (f : Coll → Coll) : State.memq (State.modColl s e c q idx f) = State.memq s := by
  unfold State.modColl
  simp

@[simp] theorem State.sendContrib_memq (s : State) (e : Nat) (x : Coll) (i : Nat) (data : List Byte) : State.memq (State.sendContrib s e x i data) = State.memq s := by
  unfold State.sendContrib
  simp

@[simp] theorem State.collPump_memq (s : State) (e c q idx : Nat) : State.memq (State.collPump s e c q idx) = State.memq s := by
  unfold State.collPump
  (repeat' split) <;>
    simp

@[simp] theorem State.collEnd_memq (s : State) (e : Nat) (x : Coll) (status detail addr : Nat) : State.memq (State.collEnd s e x status detail addr) = State.memq s := by
  unfold State.collEnd
  simp

@[simp] theorem State.collPlaced_memq (s : State) (e : Nat) (k : Ctx) (x : Coll) (q : Packet) : State.memq (State.collPlaced s e k x q) = State.memq s := by
  unfold State.collPlaced
  dsimp only
  (repeat' split) <;>
    simp

@[simp] theorem State.resultAtEngine_memq (s : State) (e : Nat) (q : Packet) : State.memq (State.resultAtEngine s e q) = State.memq s := by
  unfold State.resultAtEngine
  simp

@[simp] theorem State.resultAtUnit_ok (s : State) (u : Nat) (q : Packet) {q_ : Bool × List Instr} (hk : State.Ok q_ (State.memq s)) : State.Ok q_ (State.memq (State.resultAtUnit s u q)) := by
  unfold State.resultAtUnit
  dsimp only
  (repeat' split) <;>
    simp [hk]

@[simp] theorem State.reissueAtUnit_memq (s : State) (u : Nat) (q : Packet) : State.memq (State.reissueAtUnit s u q) = State.memq s := by
  unfold State.reissueAtUnit
  dsimp only
  (repeat' split) <;>
    simp

@[simp] theorem State.reissueAtEngine_memq (s : State) (e : Nat) (q : Packet) : State.memq (State.reissueAtEngine s e q) = State.memq s := by
  unfold State.reissueAtEngine
  simp

@[simp] theorem State.fencedUp_memq (s : State) (u g : Nat) : State.memq (State.fencedUp s u g) = State.memq s := by
  unfold State.fencedUp
  simp

@[simp] theorem State.notePrune_memq (s : State) (u g p : Nat) : State.memq (State.notePrune s u g p) = State.memq s := by
  unfold State.notePrune
  simp

@[simp] theorem State.pruned_ok (s : State) (u g member out : Nat) {q_ : Bool × List Instr} (hk : State.Ok q_ (State.memq s)) : State.Ok q_ (State.memq (State.pruned s u g member out)) := by
  unfold State.pruned
  dsimp only
  (repeat' split) <;>
    simp [hk]

@[simp] theorem State.fencedRx_ok (s : State) (u : Nat) (q : Packet) {q_ : Bool × List Instr} (hk : State.Ok q_ (State.memq s)) : State.Ok q_ (State.memq (State.fencedRx s u q)) := by
  unfold State.fencedRx
  dsimp only
  (repeat' split) <;>
    simp [hk]

@[simp] theorem State.seqTimeout_ok (s : State) (u g : Nat) (x : Sequence) {q_ : Bool × List Instr} (hk : State.Ok q_ (State.memq s)) : State.Ok q_ (State.memq (State.seqTimeout s u g x)) := by
  unfold State.seqTimeout
  (repeat' split) <;>
    simp [hk]

end Sys2Proof.Machine
end

