-- ==== Sys2Proof/Laws/MemLock.lean ====
section
/-!
SUPPORT. What the operations of Machine/Lock.lean do to table-space memory: nothing, or they keep its canonical form.
-/
namespace Sys2Proof.Machine
open Sys2Proof

set_option linter.unusedSimpArgs false

@[simp] theorem State.setLock_ok (s : State) (u l k lo w v : Nat) {q_ : Bool × List Instr} (hk : State.Ok q_ (State.memq s)) : State.Ok q_ (State.memq (State.setLock s u l k lo w v)) := by
  unfold State.setLock
  simp [hk]

@[simp] theorem State.setWaiters_ok (s : State) (u l : Nat) (ws : List Waiter) {q_ : Bool × List Instr} (hk : State.Ok q_ (State.memq s)) : State.Ok q_ (State.memq (State.setWaiters s u l ws)) := by
  unfold State.setWaiters
  simp [hk]

@[simp] theorem State.lockRsp_memq (s : State) (u : Nat) (q : Packet) (stat v : Nat) (start : Start) : State.memq (State.lockRsp s u q stat v start) = State.memq s := by
  unfold State.lockRsp
  simp

@[simp] theorem State.lockRspTo_memq (s : State) (u : Nat) (w : Waiter) (stat v : Nat) (start : Start) : State.memq (State.lockRspTo s u w stat v start) = State.memq s := by
  unfold State.lockRspTo
  simp

@[simp] theorem State.leaseFrom_ok (s : State) (u l len : Nat) (q : Packet) {q_ : Bool × List Instr} (hk : State.Ok q_ (State.memq s)) : State.Ok q_ (State.memq ((State.leaseFrom s u l len q).1)) := by
  unfold State.leaseFrom
  dsimp only
  (repeat' split) <;>
    simp [hk]

theorem State.leaseFrom_okpair {s : State} {u l len : Nat} {q : Packet} {t_ : State} {a_ : Packet} {q_ : Bool × List Instr} (h_ : State.leaseFrom s u l len q = (t_, a_)) (hk : State.Ok q_ (State.memq s)) : State.Ok q_ (State.memq t_) := by
  have := State.leaseFrom_ok s u l len q hk
  rwa [h_] at this

@[simp] theorem State.sendBoost_memq (s : State) (u l level : Nat) (on : Bool) : State.memq (State.sendBoost s u l level on) = State.memq s := by
  unfold State.sendBoost
  simp

@[simp] theorem State.boostOff_ok (s : State) (u l : Nat) {q_ : Bool × List Instr} (hk : State.Ok q_ (State.memq s)) : State.Ok q_ (State.memq (State.boostOff s u l)) := by
  unfold State.boostOff
  (repeat' split) <;>
    simp [hk]

@[simp] theorem State.boost_ok (s : State) (u l : Nat) {q_ : Bool × List Instr} (hk : State.Ok q_ (State.memq s)) : State.Ok q_ (State.memq (State.boost s u l)) := by
  unfold State.boost
  dsimp only
  (repeat' split) <;>
    simp [hk]

@[simp] theorem State.grantLock_ok (s : State) (u l : Nat) (w : Waiter) (stat : Nat) {q_ : Bool × List Instr} (hk : State.Ok q_ (State.memq s)) : State.Ok q_ (State.memq (State.grantLock s u l w stat)) := by
  unfold State.grantLock
  (try dsimp only)
  (repeat' split) <;>
    (repeat' first | with_reducible assumption | with_reducible apply State.setLock_ok | with_reducible apply State.boost_ok | fail | with_reducible refine State.each_ok _ _ _ ?_ fun _ _ _ => ?_ | simp only [↓State.modUnit_memq, ↓State.inc_memq, ↓State.count_memq, ↓State.lockRspTo_memq, ↓State.ite_memq, ite_self, State.memq_mk, State.memq_eta] | split | dsimp only)

@[simp] theorem State.pass_ok (s : State) (u l stat : Nat) {q_ : Bool × List Instr} (hk : State.Ok q_ (State.memq s)) : State.Ok q_ (State.memq (State.pass s u l stat)) := by
  unfold State.pass
  (try dsimp only)
  (repeat' split) <;>
    (repeat' first | with_reducible assumption | with_reducible apply State.setLock_ok | with_reducible apply State.setWaiters_ok | with_reducible apply State.boostOff_ok | with_reducible apply State.grantLock_ok | fail | with_reducible refine State.each_ok _ _ _ ?_ fun _ _ _ => ?_ | simp only [↓State.dupInsert_memq, ↓State.modUnit_memq, ↓State.ite_memq, ite_self, State.memq_mk, State.memq_eta] | split | dsimp only)

@[simp] theorem State.lockNack_memq (s : State) (u : Nat) (q : Packet) (code : Nat) : State.memq (State.lockNack s u q code) = State.memq s := by
  unfold State.lockNack
  simp

@[simp] theorem State.lockAcq_ok (s : State) (u : Nat) (q : Packet) {q_ : Bool × List Instr} (hk : State.Ok q_ (State.memq s)) : State.Ok q_ (State.memq (State.lockAcq s u q)) := by
  unfold State.lockAcq
  dsimp only
  (repeat' split) <;>
    simp [hk]

@[simp] theorem State.staleToken_memq (s : State) (u : Nat) (q : Packet) : State.memq (State.staleToken s u q) = State.memq s := by
  unfold State.staleToken
  simp

@[simp] theorem State.lockRel_ok (s : State) (u : Nat) (q : Packet) {q_ : Bool × List Instr} (hk : State.Ok q_ (State.memq s)) : State.Ok q_ (State.memq (State.lockRel s u q)) := by
  unfold State.lockRel
  (try dsimp only)
  (repeat' split) <;>
    (repeat' first | with_reducible assumption | with_reducible apply State.pass_ok | rw [State.dupLookup_pair ‹_›] | with_reducible refine State.each_ok _ _ _ ?_ fun _ _ _ => ?_ | simp only [↓State.dupLookup_memq, ↓State.dupPend_memq, ↓State.dupDone_memq, ↓State.lockRsp_memq, ↓State.count_memq, ↓State.staleToken_memq, ↓State.ite_memq, ite_self, State.memq_mk, State.memq_eta] | split | dsimp only)

@[simp] theorem State.lockRenew_ok (s : State) (u : Nat) (q : Packet) {q_ : Bool × List Instr} (hk : State.Ok q_ (State.memq s)) : State.Ok q_ (State.memq (State.lockRenew s u q)) := by
  unfold State.lockRenew
  (try dsimp only)
  (repeat' split) <;>
    (repeat' first | with_reducible assumption | with_reducible apply State.setLock_ok | rw [State.dupLookup_pair ‹_›] | with_reducible refine State.each_ok _ _ _ ?_ fun _ _ _ => ?_ | simp only [↓State.dupLookup_memq, ↓State.dupPend_memq, ↓State.dupDone_memq, ↓State.lockRsp_memq, ↓State.staleToken_memq, ↓State.ite_memq, ite_self, State.memq_mk, State.memq_eta] | split | dsimp only)

@[simp] theorem State.abandon_ok (s : State) (c : Nat) {q_ : Bool × List Instr} (hk : State.Ok q_ (State.memq s)) : State.Ok q_ (State.memq (State.abandon s c)) := by
  unfold State.abandon
  (try dsimp only)
  (repeat' split) <;>
    (repeat' first | with_reducible assumption | with_reducible apply State.setWaiters_ok | with_reducible apply State.boost_ok | with_reducible apply State.pass_ok | fail | with_reducible refine State.each_ok _ _ _ ?_ fun _ _ _ => ?_ | simp only [↓State.inc_memq, ↓State.raise_memq, ↓State.count_memq, ↓State.ite_memq, ite_self, State.memq_mk, State.memq_eta] | split | dsimp only)

@[simp] theorem State.quotaWritten_memq (s : State) (u : Nat) (ls : List Nat) : State.memq (State.quotaWritten s u ls) = State.memq s := by
  unfold State.quotaWritten
  simp

@[simp] theorem State.defQuotaWritten_memq (s : State) (u : Nat) : State.memq (State.defQuotaWritten s u) = State.memq s := by
  unfold State.defQuotaWritten
  simp

@[simp] theorem State.boostRx_memq (s : State) (e : Nat) (q : Packet) : State.memq (State.boostRx s e q) = State.memq s := by
  unfold State.boostRx
  simp

end Sys2Proof.Machine
end

