-- ==== Sys2Proof/Laws/MemSettle.lean ====
section
/-!
SUPPORT. What the operations of Machine/Settle.lean do to table-space memory: nothing, or they keep its canonical form.
-/
namespace Sys2Proof.Machine
open Sys2Proof

set_option linter.unusedSimpArgs false

@[simp] theorem State.pollReturn_memq (s : State) (e c q first n : Nat) (ok : Bool) (data : List Byte) : State.memq (State.pollReturn s e c q first n ok data) = State.memq s := by
  unfold State.pollReturn
  (repeat' split) <;>
    simp

@[simp] theorem State.perform_memq (s : State) (e : Nat) (k : Ctx) (x0 : Job) : State.memq (State.perform s e k x0) = State.memq s := by
  unfold State.perform
  (repeat' split) <;>
    simp

@[simp] theorem State.jobFailed_memq (s : State) (e : Nat) (j : Job) (kind va : Nat) : State.memq (State.jobFailed s e j kind va) = State.memq s := by
  unfold State.jobFailed
  dsimp only
  (repeat' split) <;>
    simp

@[simp] theorem State.access_memq (s : State) (e : Nat) (k : Ctx) (j : Job) : State.memq (State.access s e k j) = State.memq s := by
  unfold State.access
  (repeat' split) <;>
    simp only [↓State.setLooked_memq, ↓State.cplTimeout_memq, ↓State.jobFailed_memq, ↓State.count_memq, ↓State.perform_memq, ↓State.xltFault_memq, ↓State.mustWalk_memq, ↓State.ite_memq, ite_self, State.memq_mk, State.memq_eta]

@[simp] theorem State.expireReq_memq (s : State) (e : Nat) (p : Packet) : State.memq (State.expireReq s e p) = State.memq s := by
  unfold State.expireReq
  simp

@[simp] theorem State.runJob_memq (s : State) (e : Nat) (j : Job) : State.memq (State.runJob s e j) = State.memq s := by
  unfold State.runJob
  (repeat' split) <;>
    simp

@[simp] theorem State.pageGone_memq (s : State) (a : PageAcc) : State.memq (State.pageGone s a) = State.memq s := by
  unfold State.pageGone
  (repeat' split) <;>
    simp

@[simp] theorem State.loadEnds_memq (s : State) (e c : Nat) (host : Bool) : State.memq (State.loadEnds s e c host) = State.memq s := by
  unfold State.loadEnds
  (try dsimp only)
  (repeat' split)
  all_goals first | (simp only [↓State.loadFailed_memq, ↓State.modEng_memq, ↓State.pageGone_memq, ↓State.raiseIf_memq, ↓State.ite_memq, ite_self, State.memq_mk, State.memq_eta]; done) | (simp; done) | with_reducible rfl | (simp; apply State.each_memq; intros; (try dsimp only); (repeat' split) <;> simp; done) | ((repeat' first | with_reducible rfl | (simp; done) | refine (State.each_memq _ _ _ fun _ _ => ?_).trans ?_ | refine (State.fold_memq _ _ _ fun _ _ => ?_).trans ?_ | refine (State.fold1_memq _ (fun _ _ => ?_) _ _).trans ?_ | refine (State.fold2_memq _ (fun _ _ => ?_) _ _).trans ?_ | split | simp | dsimp only); done) | ((repeat first | fail | simp only [↓State.loadFailed_memq, ↓State.modEng_memq, ↓State.pageGone_memq, ↓State.raiseIf_memq, ↓State.ite_memq, ite_self, State.memq_mk, State.memq_eta] | simp); done) | skip

@[simp] theorem State.flushed_memq (s : State) (e : Nat) (f : FlushFor) (ok : Bool) : State.memq (State.flushed s e f ok) = State.memq s := by
  unfold State.flushed
  (repeat' split) <;>
    simp

@[simp] theorem State.waitFailed_memq (s : State) (e c r : Nat) : State.memq (State.waitFailed s e c r) = State.memq s := by
  unfold State.waitFailed
  simp

@[simp] theorem State.hostReturn_memq (s : State) (r : HostReq) (ok : Bool) (data : List Byte) : State.memq (State.hostReturn s r ok data) = State.memq s := by
  unfold State.hostReturn
  dsimp only
  (repeat' split) <;>
    simp

theorem State.settle1_memq (s : State) (e : Nat) : ∀ t_, State.settle1 s e = some t_ → State.memq t_ = State.memq s := by
  intro t_ ht
  unfold State.settle1 at ht
  (try dsimp only at ht)
  (repeat' split at ht)
  all_goals first | (cases ht; done) | (cases ht; simp; done) | (cases ht; with_reducible rfl) | (cases ht; simp [*]; done) | (cases ht; simp +contextual [*]; done) | skip

theorem State.settle1_opt {s : State} {e : Nat} {t_ : State} (h_ : State.settle1 s e = some t_) : State.memq t_ = State.memq s :=
  State.settle1_memq s e t_ h_

@[simp] theorem State.settle1_getD (s : State) (e : Nat) : State.memq ((State.settle1 s e).getD s) = State.memq s := by
  cases h_ : State.settle1 s e with
  | none => rfl
  | some t_ => exact State.settle1_memq s e t_ h_

@[simp] theorem State.settleN_memq (s : State) (e : Nat) (x0 : Nat) : State.memq (State.settleN s e x0) = State.memq s := by
  induction x0 generalizing s with
  | zero => rfl
  | succ n ih =>
    unfold State.settleN
    split
    · next t ht => exact (ih t).trans (State.settle1_memq s e t ht)
    · rfl

@[simp] theorem State.rest_memq (s : State) (e : Nat) : State.memq (State.rest s e) = State.memq s := by
  unfold State.rest
  simp

@[simp] theorem State.settleAll_memq (s : State) : State.memq (State.settleAll s) = State.memq s := by
  unfold State.settleAll
  simp

@[simp] theorem State.endReq_memq (s : State) (r : HostReq) (ok : Bool) (data : List Byte) : State.memq (State.endReq s r ok data) = State.memq s := by
  unfold State.endReq
  simp

end Sys2Proof.Machine
end

