-- ==== Sys2Proof/Laws/MemEngCmd.lean ====
section
/-!
SUPPORT. What the operations of Machine/EngCmd.lean do to table-space memory: nothing, or they keep its canonical form.
-/
namespace Sys2Proof.Machine
open Sys2Proof

set_option linter.unusedSimpArgs false

@[simp] theorem State.started_ok (s : State) (e : Nat) (f : Fresh) {q_ : Bool × List Instr} (hk : State.Ok q_ (State.memq s)) : State.Ok q_ (State.memq ((State.started s e f).1)) := by
  unfold State.started
  (repeat' split) <;>
    simp [hk]

theorem State.started_okpair {s : State} {e : Nat} {f : Fresh} {t_ : State} {a_ : Packet} {q_ : Bool × List Instr} (h_ : State.started s e f = (t_, a_)) (hk : State.Ok q_ (State.memq s)) : State.Ok q_ (State.memq t_) := by
  have := State.started_ok s e f hk
  rwa [h_] at this

theorem execPacketArrival_ok (t : Fin 72) (inPort : Fin 1024) (pkt : Packet) (s : State) {q_ : Bool × List Instr} (hk : State.Ok q_ (State.memq s)) : ∃ r_, execPacketArrival t inPort pkt s = .next r_ ∧ State.Ok q_ (State.memq r_) := by
  unfold execPacketArrival
  dsimp only
  (repeat' split) <;>
    exact ⟨_, rfl, by simp [hk]⟩

theorem execCtxRangeWrite_memq (e : Fin 32) (n : Fin 2) (v : Nat) (s : State) : ∃ r_, execCtxRangeWrite e n v s = .next r_ ∧ State.memq r_ = State.memq s := by
  unfold execCtxRangeWrite
  (repeat' split) <;>
    exact ⟨_, rfl, by simp⟩

@[simp] theorem State.dropHead_memq (s : State) (e : Nat) (q : Packet) : State.memq (State.dropHead s e q) = State.memq s := by
  unfold State.dropHead
  (repeat' split) <;>
    simp

@[simp] theorem State.unhand_memq (s : State) (e : Nat) (q : Packet) : State.memq (State.unhand s e q) = State.memq s := by
  unfold State.unhand
  split
  · next r u h =>
    have hu : u.memq = s.memq := State.chooseCell_pair h
    split
    · simp [hu]
    · rfl
  · rfl

@[simp] theorem State.makeReady_memq (s : State) (e : Nat) (q : Packet) : State.memq (State.makeReady s e q) = State.memq s := by
  unfold State.makeReady
  simp

@[simp] theorem State.missed_memq (s : State) (e : Nat) (q : Packet) : State.memq (State.missed s e q) = State.memq s := by
  unfold State.missed
  simp

@[simp] theorem State.letIn_memq (s : State) (e : Nat) (q : Packet) : State.memq (State.letIn s e q) = State.memq s := by
  unfold State.letIn
  simp

@[simp] theorem State.takeReady_memq (s : State) (e : Nat) (q : Packet) : State.memq ((State.takeReady s e q).1) = State.memq s := by
  unfold State.takeReady
  dsimp only
  (repeat' split) <;>
    simp

theorem State.takeReady_pair {s : State} {e : Nat} {q : Packet} {t_ : State} {a_ : Bool} (h_ : State.takeReady s e q = (t_, a_)) : State.memq t_ = State.memq s := by
  have := State.takeReady_memq s e q
  rwa [h_] at this

@[simp] theorem State.arrived_memq (s : State) (e : Nat) (q : Packet) (cls : Nat) (kinds : List Nat) : State.memq ((State.arrived s e q cls kinds).1) = State.memq s := by
  unfold State.arrived
  dsimp only
  (repeat' split) <;>
    simp

theorem State.arrived_pair {s : State} {e : Nat} {q : Packet} {cls : Nat} {kinds : List Nat} {t_ : State} {a_ : Bool} (h_ : State.arrived s e q cls kinds = (t_, a_)) : State.memq t_ = State.memq s := by
  have := State.arrived_memq s e q cls kinds
  rwa [h_] at this

theorem execEnginePacketRx_memq (e : Fin 32) (q : Packet) (s : State) : ∃ r_, execEnginePacketRx e q s = .next r_ ∧ State.memq r_ = State.memq s := by
  unfold execEnginePacketRx
  (repeat' split) <;>
    exact ⟨_, rfl, by simp⟩

@[simp] theorem State.loadOff_memq (s : State) (e c : Nat) : State.memq (State.loadOff s e c) = State.memq s := by
  unfold State.loadOff
  simp

@[simp] theorem State.wakeFor_memq (s : State) (e c h f : Nat) : State.memq (State.wakeFor s e c h f) = State.memq s := by
  unfold State.wakeFor
  simp

@[simp] theorem State.beginLoad_memq (s : State) (e c : Nat) : State.memq (State.beginLoad s e c) = State.memq s := by
  unfold State.beginLoad
  dsimp only
  (repeat' split) <;>
    simp

theorem execCtxLoadStart_memq (e : Fin 32) (s : State) : ∃ r_, execCtxLoadStart e s = .next r_ ∧ State.memq r_ = State.memq s := by
  unfold execCtxLoadStart
  (repeat' split) <;>
    exact ⟨_, rfl, by simp⟩

@[simp] theorem State.wakeEvents_memq (s : State) (e c w0 : Nat) : State.memq (State.wakeEvents s e c w0) = State.memq s := by
  unfold State.wakeEvents
  simp

@[simp] theorem State.cplRx_memq (s : State) (h n : Nat) : State.memq (State.cplRx s h n) = State.memq s := by
  unfold State.cplRx
  simp

@[simp] theorem State.lateFor_memq (s : State) (e : Nat) (p : Purpose → Bool) (n : Nat) : State.memq (State.lateFor s e p n) = State.memq s := by
  unfold State.lateFor
  (repeat' split) <;>
    simp

theorem execCtxWord0Return_memq (e : Fin 32) (c w0 : Nat) (s : State) : ∃ r_, execCtxWord0Return e c w0 s = .next r_ ∧ State.memq r_ = State.memq s := by
  unfold execCtxWord0Return
  dsimp only
  (repeat' split) <;>
    exact ⟨_, rfl, by simp⟩

@[simp] theorem State.resetEntries_memq (s : State) (e c q : Nat) : State.memq ((State.resetEntries s e c q).1) = State.memq s := by
  unfold State.resetEntries
  dsimp only
  (repeat' split) <;>
    simp

theorem State.resetEntries_pair {s : State} {e c q : Nat} {t_ : State} {a_ : Nat} (h_ : State.resetEntries s e c q = (t_, a_)) : State.memq t_ = State.memq s := by
  have := State.resetEntries_memq s e c q
  rwa [h_] at this

@[simp] theorem State.queueReset_memq (s : State) (e c q : Nat) : State.memq (State.queueReset s e c q) = State.memq s := by
  unfold State.queueReset
  (repeat' split) <;>
    simp

@[simp] theorem State.queueInval_memq (s : State) (e c q i : Nat) : State.memq (State.queueInval s e c q i) = State.memq s := by
  unfold State.queueInval
  (repeat' split) <;>
    simp

@[simp] theorem State.nudge_memq (s : State) (e c q : Nat) : State.memq (State.nudge s e c q) = State.memq s := by
  unfold State.nudge
  (repeat' split) <;>
    simp

@[simp] theorem State.arm_memq (s : State) (e c : Nat) : State.memq (State.arm s e c) = State.memq s := by
  unfold State.arm
  (repeat' split) <;>
    simp

@[simp] theorem State.pageWrite_memq (s : State) (e c off len v : Nat) : State.memq (State.pageWrite s e c off len v) = State.memq s := by
  unfold State.pageWrite
  (repeat' split) <;>
    simp

@[simp] theorem State.pageApply_memq (s : State) (e : Nat) (k : Ctx) (a : PageAcc) : State.memq (State.pageApply s e k a) = State.memq s := by
  unfold State.pageApply
  (repeat' split) <;>
    simp

@[simp] theorem State.pageAccess_memq (s : State) (e c : Nat) (a : PageAcc) : State.memq (State.pageAccess s e c a) = State.memq s := by
  unfold State.pageAccess
  (repeat' split) <;>
    simp

@[simp] theorem State.pagesDue_memq (s : State) (e c : Nat) : State.memq (State.pagesDue s e c) = State.memq s := by
  unfold State.pagesDue
  (try dsimp only)
  (repeat' split) <;>
    (repeat' first | (simp; done) | refine (State.each_memq _ _ _ fun _ _ => ?_).trans ?_ | split)

theorem execCtxLoadDone_memq (e : Fin 32) (c : Nat) (ws : List Nat) (s : State) : ∃ r_, execCtxLoadDone e c ws s = .next r_ ∧ State.memq r_ = State.memq s := by
  unfold execCtxLoadDone
  (repeat' split) <;>
    exact ⟨_, rfl, by simp⟩

theorem execCtxLoadFail_memq (e : Fin 32) (c : Nat) (s : State) : ∃ r_, execCtxLoadFail e c s = .next r_ ∧ State.memq r_ = State.memq s := by
  unfold execCtxLoadFail
  (repeat' split) <;>
    exact ⟨_, rfl, by simp⟩

theorem execUserPageAccess_memq (e : Fin 32) (c : Nat) (port : Fin 64) (func off len : Nat) (val : Option Nat) (s : State) : ∃ r_, execUserPageAccess e c port func off len val s = .next r_ ∧ State.memq r_ = State.memq s := by
  unfold execUserPageAccess
  (repeat' split) <;>
    exact ⟨_, rfl, by simp⟩

theorem execNudge_memq (e : Fin 32) (c : Nat) (q : Fin 8) (port : Fin 64) (func : Nat) (s : State) : ∃ r_, execNudge e c q port func s = .next r_ ∧ State.memq r_ = State.memq s := by
  unfold execNudge
  exact ⟨_, rfl, by simp⟩

theorem execWqInval_memq (e : Fin 32) (c : Nat) (q : Fin 8) (index : Nat) (port : Fin 64) (func : Nat) (s : State) : ∃ r_, execWqInval e c q index port func s = .next r_ ∧ State.memq r_ = State.memq s := by
  unfold execWqInval
  exact ⟨_, rfl, by simp⟩

theorem execWqCtlReset_memq (e : Fin 32) (c : Nat) (q : Fin 8) (index : Nat) (port : Fin 64) (func : Nat) (s : State) : ∃ r_, execWqCtlReset e c q index port func s = .next r_ ∧ State.memq r_ = State.memq s := by
  unfold execWqCtlReset
  exact ⟨_, rfl, by simp⟩

theorem execEvqArm_memq (e : Fin 32) (c : Nat) (port : Fin 64) (func : Nat) (s : State) : ∃ r_, execEvqArm e c port func s = .next r_ ∧ State.memq r_ = State.memq s := by
  unfold execEvqArm
  exact ⟨_, rfl, by simp⟩

theorem execQueueDrainDone_memq (e : Fin 32) (c : Nat) (q : Fin 8) (s : State) : ∃ r_, execQueueDrainDone e c q s = .next r_ ∧ State.memq r_ = State.memq s := by
  unfold execQueueDrainDone
  (repeat' split) <;>
    exact ⟨_, rfl, by simp⟩

@[simp] theorem State.cmdDone_memq (s : State) (e : Nat) : State.memq (State.cmdDone s e) = State.memq s := by
  unfold State.cmdDone
  simp

@[simp] theorem State.dropPulls_memq (s : State) (e c : Nat) : State.memq (State.dropPulls s e c) = State.memq s := by
  unfold State.dropPulls
  simp

@[simp] theorem State.dropMatching_memq (s : State) (e c : Nat) : State.memq (State.dropMatching s e c) = State.memq s := by
  unfold State.dropMatching
  simp

@[simp] theorem State.ctxCmd_memq (s : State) (e op : Nat) (cs : List Nat) : State.memq (State.ctxCmd s e op cs) = State.memq s := by
  unfold State.ctxCmd
  simp

@[simp] theorem State.setCtxCmd_memq (s : State) (e op range c : Nat) : State.memq (State.setCtxCmd s e op range c) = State.memq s := by
  unfold State.setCtxCmd
  simp

theorem execEvict_memq (e : Fin 32) (c : Nat) (s : State) : ∃ r_, execEvict e c s = .next r_ ∧ State.memq r_ = State.memq s := by
  unfold execEvict
  (repeat' split) <;>
    exact ⟨_, rfl, by simp⟩

theorem execClose_ok (e : Fin 32) (c : Nat) (s : State) {q_ : Bool × List Instr} (hk : State.Ok q_ (State.memq s)) : ∃ r_, execClose e c s = .next r_ ∧ State.Ok q_ (State.memq r_) := by
  unfold execClose
  dsimp only
  (repeat' split) <;>
    exact ⟨_, rfl, by simp [hk]⟩

theorem execEvictRange_memq (e : Fin 32) (n : Fin 2) (s : State) : ∃ r_, execEvictRange e n s = .next r_ ∧ State.memq r_ = State.memq s := by
  unfold execEvictRange
  (repeat' split) <;>
    exact ⟨_, rfl, by simp⟩

@[simp] theorem State.cmdDrop_ok (s : State) (e op c : Nat) {q_ : Bool × List Instr} (hk : State.Ok q_ (State.memq s)) : State.Ok q_ (State.memq (State.cmdDrop s e op c)) := by
  unfold State.cmdDrop
  (repeat' split) <;>
    simp [hk]

theorem execCtxCmdEnd_ok (e : Fin 32) (s : State) {q_ : Bool × List Instr} (hk : State.Ok q_ (State.memq s)) : ∃ r_, execCtxCmdEnd e s = .next r_ ∧ State.Ok q_ (State.memq r_) := by
  unfold execCtxCmdEnd
  (try dsimp only)
  (repeat' split) <;>
    exact ⟨_, rfl, by repeat' first | with_reducible assumption | with_reducible apply State.cmdDrop_ok | fail | with_reducible refine State.each_ok _ _ _ ?_ fun _ _ _ => ?_ | simp only [↓State.cmdDone_memq, ↓State.rest_memq, ↓State.modEng_memq, ↓State.ite_memq, ite_self, State.memq_mk, State.memq_eta] | split | dsimp only⟩

theorem execQueuePoll_memq (e : Fin 32) (c : Nat) (q : Fin 8) (s : State) : ∃ r_, execQueuePoll e c q s = .next r_ ∧ State.memq r_ = State.memq s := by
  unfold execQueuePoll
  (repeat' split) <;>
    exact ⟨_, rfl, by simp⟩

@[simp] theorem State.completion_memq (s : State) (e tag : Nat) (p : Purpose → Bool) (ok : Bool) (data : List Byte) : State.memq (State.completion s e tag p ok data) = State.memq s := by
  unfold State.completion
  (repeat' split) <;>
    simp

theorem execPollReadReturn_memq (e : Fin 32) (tag : Nat) (ok : Bool) (data : List Byte) (s : State) : ∃ r_, execPollReadReturn e tag ok data s = .next r_ ∧ State.memq r_ = State.memq s := by
  unfold execPollReadReturn
  exact ⟨_, rfl, by simp⟩

@[simp] theorem State.takeStream_memq (s : State) (e c q : Nat) (d : Desc) : State.memq ((State.takeStream s e c q d).1) = State.memq s := by
  unfold State.takeStream
  dsimp only
  (repeat' split) <;>
    simp

theorem State.takeStream_pair {s : State} {e c q : Nat} {d : Desc} {t_ : State} {a_ : (Nat × Nat)} (h_ : State.takeStream s e c q d = (t_, a_)) : State.memq t_ = State.memq s := by
  have := State.takeStream_memq s e c q d
  rwa [h_] at this

@[simp] theorem State.startOp_memq (s : State) (e : Nat) (k : Ctx) (q idx : Nat) (d : Desc) : State.memq (State.startOp s e k q idx d) = State.memq s := by
  unfold State.startOp
  dsimp only
  (repeat' split) <;>
    simp

@[simp] theorem State.badEntry_memq (s : State) (e : Nat) (k : Ctx) (q idx : Nat) (d : Desc) (status : Nat) : State.memq (State.badEntry s e k q idx d status) = State.memq s := by
  unfold State.badEntry
  simp

@[simp] theorem State.startEntry_memq (s : State) (e : Nat) (k : Ctx) (q : Nat) (d : Desc) : State.memq (State.startEntry s e k q d) = State.memq s := by
  unfold State.startEntry
  simp

theorem execEntryStart_memq (e : Fin 32) (s : State) : ∃ r_, execEntryStart e s = .next r_ ∧ State.memq r_ = State.memq s := by
  unfold execEntryStart
  (repeat' split) <;>
    exact ⟨_, rfl, by simp⟩

@[simp] theorem State.dropBegun_memq (s : State) (e : Nat) (b : Begun) : State.memq (State.dropBegun s e b) = State.memq s := by
  unfold State.dropBegun
  simp

theorem execNop_memq (e : Fin 32) (c : Nat) (q : Fin 8) (s : State) : ∃ r_, execNop e c q s = .next r_ ∧ State.memq r_ = State.memq s := by
  unfold execNop
  (repeat' split) <;>
    exact ⟨_, rfl, by simp⟩

theorem execCompletionRecordWrite_memq (e : Fin 32) (c : Nat) (q : Fin 8) (s : State) : ∃ r_, execCompletionRecordWrite e c q s = .next r_ ∧ State.memq r_ = State.memq s := by
  unfold execCompletionRecordWrite
  dsimp only
  (repeat' split) <;>
    exact ⟨_, rfl, by simp⟩

theorem execEventRecordWrite_memq (e : Fin 32) (c : Nat) (s : State) : ∃ r_, execEventRecordWrite e c s = .next r_ ∧ State.memq r_ = State.memq s := by
  unfold execEventRecordWrite
  (repeat' split) <;>
    exact ⟨_, rfl, by simp⟩

theorem execErrorRecordWrite_memq (e : Fin 32) (c : Nat) (s : State) : ∃ r_, execErrorRecordWrite e c s = .next r_ ∧ State.memq r_ = State.memq s := by
  unfold execErrorRecordWrite
  (repeat' split) <;>
    exact ⟨_, rfl, by simp⟩

end Sys2Proof.Machine
end

