-- ==== Sys2Proof/Laws/Choose.lean ====
section
/-!
SUPPORT. What the choice of the scheduler and the hand-over to an engine leave as it was: the engines and the clock.
-/
namespace Sys2Proof.Machine
open Sys2Proof

/-- The engines and the clock of a state. -/
def State.engClk (s : State) : Tab Eng × Clock := (s.engs, s.clk)

theorem HdrOnly.engClk {s t : State} (h : HdrOnly s t) : t.engClk = s.engClk := Prod.ext h.engs h.clk

@[simp] theorem State.count_engClk (s : State) (cls i ev d : Nat) (c : Option Nat) : (s.count cls i ev d c).engClk = s.engClk :=
  (count_hdr s cls i ev d c).engClk
@[simp] theorem State.raise_engClk (s : State) (e : Evt) (i : Nat) : (s.raise e i).engClk = s.engClk := (raise_hdr s e i).engClk
@[simp] theorem State.hw_engClk (s : State) (f : Fld) (v i n k : Nat) : (s.hw f v i n k).engClk = s.engClk := by
  unfold State.hw
  split <;> rfl
@[simp] theorem State.inc_engClk (s : State) (f : Fld) (i n d : Nat) : (s.inc f i n d).engClk = s.engClk := by
  rw [State.inc_eq, State.hw_engClk]
@[simp] theorem State.modTile_engClk (s : State) (t : Nat) (f : Tile → Tile) : (s.modTile t f).engClk = s.engClk := rfl
@[simp] theorem State.modSched_engClk (s : State) (p : Nat) (f : Sched → Sched) : (s.modSched p f).engClk = s.engClk := rfl
@[simp] theorem State.modLink_engClk (s : State) (p : Nat) (f : LinkSt → LinkSt) : (s.modLink p f).engClk = s.engClk := rfl
@[simp] theorem State.ite_engClk (b : Prop) [Decidable b] (s t : State) : (if b then s else t).engClk = if b then s.engClk else t.engClk := by
  split <;> rfl
theorem State.each_engClk {α : Type} (l : List α) (f : State → α → State) (h : ∀ s x, (f s x).engClk = s.engClk) (s : State) :
    (s.each l f).engClk = s.engClk := by
  unfold State.each
  induction l generalizing s with
  | nil => rfl
  | cons a l ih => exact (ih _).trans (h s a)

theorem State.charge_engClk (s : State) (t j n : Nat) : (s.charge t j n).engClk = s.engClk := by
  unfold State.charge
  split <;> rfl

theorem State.histAt_engClk (s : State) (t i w : Nat) : (s.histAt t i w).engClk = s.engClk := by
  unfold State.histAt
  simp

theorem State.dropDead_engClk (s : State) (p : Nat) (r : Resv) : (s.dropDead p r).engClk = s.engClk := by
  have h1 : ∀ q, (s.prune (unitTile p) (unitNum p) q).engClk = s.engClk := by
    intro q
    unfold State.prune
    simp only [State.ite_engClk]
    rw [show ∀ (u : State) (c : CoreSt), State.engClk { u with core := c } = u.engClk from fun _ _ => rfl]
    simp
  unfold State.dropDead State.dropAge State.dropFenceEg
  simp [h1]

theorem State.purge_engClk (s : State) (p : Nat) : (s.purge p).engClk = s.engClk := by
  unfold State.purge State.noteIdle
  simp [State.each_engClk _ _ fun s r => State.dropDead_engClk s p r]

theorem State.startPacket_engClk (s : State) (p : Nat) (r : Resv) : (s.startPacket p r).engClk = s.engClk := by
  unfold State.startPacket State.modTx
  simp [State.histAt_engClk, State.charge_engClk]

theorem State.drrJoin_engClk (s : State) (p : Nat) : (s.drrJoin p).engClk = s.engClk := by
  unfold State.drrJoin
  simp

theorem State.drr_engClk (s : State) (p n : Nat) : (s.drr p n).2.engClk = s.engClk := by
  induction n generalizing s with
  | zero => rfl
  | succ n ih =>
    rw [State.drr]
    dsimp only
    (repeat' split) <;> simp [ih]

theorem State.chooseSl_engClk (s : State) (p : Nat) : (s.chooseSl p).2.engClk = s.engClk := by
  unfold State.chooseSl
  dsimp only
  (repeat' split) <;> simp [State.drrJoin_engClk, State.drr_engClk]

/-- The scheduler's choice leaves the engines and the clock (R245 to R250). -/
theorem State.chooseCell_engClk (s : State) (p : Nat) : (s.chooseCell p).2.engClk = s.engClk := by
  have hc := (State.chooseSl_engClk (s.purge p) p).trans (s.purge_engClk p)
  unfold State.chooseCell
  dsimp only
  (repeat' split) <;> simp_all [State.purge_engClk, State.startPacket_engClk]

/-- Taking a packet from the tile of an engine leaves the engines and the clock (R243). -/
theorem State.unhand_engClk (s : State) (e : Nat) (q : Packet) : (s.unhand e q).engClk = s.engClk := by
  have h := s.chooseCell_engClk (engUnit e)
  unfold State.unhand
  split
  · split
    · rename_i hr _
      rw [hr] at h
      simpa [State.takeWhole] using h
    · rfl
  · rfl

end Sys2Proof.Machine
end

