-- ==== Sys2Proof/Laws/EvtStat.lean ====
section
/-!
SUPPORT. What raising and counting events does to the EVT_STAT and EVT_EN bits of a page (R597): raised bits stay raised, EVT_EN stays.
-/
namespace Sys2Proof.Machine
open Sys2Proof

/-! ### Bits -/

theorem bit_low (x i n : Nat) (h : i < n) : bit (x % 2 ^ n) i = bit x i := by
  unfold bit
  have e : x % 2 ^ n / 2 ^ i % 2 = x / 2 ^ i % 2 := by
    obtain ⟨d, rfl⟩ : ∃ d, n = i + (d + 1) := ⟨n - i - 1, by omega⟩
    rw [Nat.pow_add, Nat.mod_mul_right_div_self, Nat.pow_succ, Nat.mod_mul_left_mod]
  rw [e]

theorem setBits_one (x b : Nat) : setBits x b 1 1 = x % 2 ^ b + (1 + x / 2 ^ (b + 1) * 2) * 2 ^ b := by
  have e : x / 2 ^ (b + 1) * 2 ^ (b + 1) = x / 2 ^ (b + 1) * 2 * 2 ^ b := by rw [Nat.pow_succ, Nat.mul_comm (2 ^ b) 2, Nat.mul_assoc]
  have h : 1 % 2 ^ 1 = 1 := rfl
  unfold setBits field
  rw [h, e, Nat.add_mul, Nat.add_assoc]

theorem setBits_one_low (x b : Nat) : setBits x b 1 1 % 2 ^ b = x % 2 ^ b := by
  rw [setBits_one, Nat.add_mul_mod_self_right, Nat.mod_mod]

theorem setBits_one_div (x b : Nat) : setBits x b 1 1 / 2 ^ b = 1 + x / 2 ^ (b + 1) * 2 := by
  have hp : 0 < 2 ^ b := Nat.two_pow_pos b
  rw [setBits_one, Nat.add_mul_div_right _ _ hp, Nat.div_eq_of_lt (Nat.mod_lt _ hp), Nat.zero_add]

theorem bit_setBits_same (x b : Nat) : bit (setBits x b 1 1) b = true := by
  unfold bit
  rw [setBits_one_div]
  have : (1 + x / 2 ^ (b + 1) * 2) % 2 = 1 := by omega
  rw [this]
  rfl

/-- Setting one bit leaves the bits that are set. -/
theorem bit_setBits_keep (x b j : Nat) (h : bit x j = true) : bit (setBits x b 1 1) j = true := by
  rcases Nat.lt_trichotomy j b with hj | hj | hj
  · rw [← bit_low _ j b hj, setBits_one_low, bit_low _ j b hj]
    exact h
  · rw [hj]
    exact bit_setBits_same x b
  · unfold bit at *
    obtain ⟨d, rfl⟩ : ∃ d, j = b + (d + 1) := ⟨j - b - 1, by omega⟩
    have e : (1 + x / 2 ^ (b + 1) * 2) / 2 = x / 2 ^ (b + 1) := by omega
    have e1 : setBits x b 1 1 / 2 ^ (b + (d + 1)) = x / 2 ^ (b + (d + 1)) := by
      rw [Nat.pow_add, ← Nat.div_div_eq_div_mul, setBits_one_div, show 2 ^ (d + 1) = 2 * 2 ^ d by rw [Nat.pow_succ, Nat.mul_comm],
        ← Nat.div_div_eq_div_mul, e, Nat.div_div_eq_div_mul, Nat.pow_succ, Nat.mul_assoc]
    rw [e1]
    exact h

/-! ### EVT_STAT -/

/-- An event raised before stays raised when another event of the page is set. -/
theorem State.getBit_setBit (s : State) (cls i b j : Nat) (hj : j < 64) (h : s.getBit (F.EVT_STAT_EVT.of cls) j i = true) :
    (s.setBit (F.EVT_STAT_EVT.of cls) b true i).getBit (F.EVT_STAT_EVT.of cls) j i = true := by
  unfold State.getBit State.setBit at *
  rw [State.get_set_same]
  show bit (_ % 2 ^ 64) j = true
  rw [bit_low _ j 64 hj]
  exact bit_setBits_keep _ b j h

theorem State.getBit_setBit_same (s : State) (cls i b : Nat) (hb : b < 64) :
    (s.setBit (F.EVT_STAT_EVT.of cls) b true i).getBit (F.EVT_STAT_EVT.of cls) b i = true := by
  unfold State.getBit State.setBit
  rw [State.get_set_same]
  show bit (_ % 2 ^ 64) b = true
  rw [bit_low _ b 64 hb]
  exact bit_setBits_same _ b

theorem evt_pageCapture (s : State) (cls i b : Nat) (c : Capture) :
    (s.pageCapture cls i b c).get (F.EVT_STAT_EVT.of cls) i = s.get (F.EVT_STAT_EVT.of cls) i := by
  have ne : ∀ (f : Fld) (v : Nat) (x : State), f.low 0 0 < 16384 → (F.EVT_STAT_EVT.of cls).low 0 0 ≠ f.low 0 0 →
      (x.set f v i).get (F.EVT_STAT_EVT.of cls) i = x.get (F.EVT_STAT_EVT.of cls) i := fun f v x h1 h2 =>
    x.get_set_low f _ v i 0 0 i 0 0 (Nat.lt_trans h1 (by decide)) (Nat.lt_trans (low_EVT_STAT_EVT cls) (by decide)) h2
  unfold State.pageCapture
  split
  · rw [State.get_event]
    exact ne _ _ _ (low_STAT_CAP_OVF cls) (by simp only [Fld.low, Fld.of, F.EVT_STAT_EVT, F.STAT_CAP_OVF]; decide)
  · dsimp only
    rw [State.get_event, ne _ _ _ (low_STAT_CAP_VALID cls) (by simp only [Fld.low, Fld.of, F.EVT_STAT_EVT, F.STAT_CAP_VALID]; decide),
      ne _ _ _ (low_CAP_TIME_MT cls) (by simp only [Fld.low, Fld.of, F.EVT_STAT_EVT, F.CAP_TIME_MT]; decide),
      ne _ _ _ (low_CAP_INFO_ACC cls) (by simp only [Fld.low, Fld.of, F.EVT_STAT_EVT, F.CAP_INFO_ACC]; decide),
      ne _ _ _ (low_CAP_INFO_MASTER cls) (by simp only [Fld.low, Fld.of, F.EVT_STAT_EVT, F.CAP_INFO_MASTER]; decide),
      ne _ _ _ (low_CAP_INFO_MKIND cls) (by simp only [Fld.low, Fld.of, F.EVT_STAT_EVT, F.CAP_INFO_MKIND]; decide),
      ne _ _ _ (low_CAP_INFO_SPACE cls) (by simp only [Fld.low, Fld.of, F.EVT_STAT_EVT, F.CAP_INFO_SPACE]; decide),
      ne _ _ _ (low_CAP_INFO_EVT cls) (by simp only [Fld.low, Fld.of, F.EVT_STAT_EVT, F.CAP_INFO_EVT]; decide),
      ne _ _ _ (low_CAP_ADDR_ADDR cls) (by simp only [Fld.low, Fld.of, F.EVT_STAT_EVT, F.CAP_ADDR_ADDR]; decide)]

theorem evt_report (s : State) (cls i b : Nat) (c : Capture) :
    (s.report cls i b c).get (F.EVT_STAT_EVT.of cls) i = s.get (F.EVT_STAT_EVT.of cls) i := by
  unfold State.report
  split
  · dsimp only
    have h : (if 2 ≤ s.severity (64 * cls + b) then s.pageCapture cls i b c else s).get (F.EVT_STAT_EVT.of cls) i = s.get (F.EVT_STAT_EVT.of cls) i := by
      split
      · exact evt_pageCapture s cls i b c
      · rfl
    generalize (if 2 ≤ s.severity (64 * cls + b) then s.pageCapture cls i b c else s) = t at h ⊢
    split
    · exact h
    · exact h
  · rfl

theorem evt_pmcAdd (s : State) (cls i k d : Nat) (hk : k < 8) :
    (s.pmcAdd cls i k d).get (F.EVT_STAT_EVT.of cls) i = s.get (F.EVT_STAT_EVT.of cls) i := by
  have h0 := Nat.lt_trans (low_EVT_STAT_EVT cls) (show 16384 < 262144 by decide)
  have h1 : (F.PMC_COUNT.of cls).low k 0 < 262144 := by simp only [Fld.low, Fld.of, F.PMC_COUNT]; omega
  have h2 : (F.PMC_SAT.of cls).low k 0 < 262144 := by simp only [Fld.low, Fld.of, F.PMC_SAT]; omega
  have n1 : (F.EVT_STAT_EVT.of cls).low 0 0 ≠ (F.PMC_COUNT.of cls).low k 0 := by simp only [Fld.low, Fld.of, F.PMC_COUNT, F.EVT_STAT_EVT]; omega
  have n2 : (F.EVT_STAT_EVT.of cls).low 0 0 ≠ (F.PMC_SAT.of cls).low k 0 := by simp only [Fld.low, Fld.of, F.PMC_SAT, F.EVT_STAT_EVT]; omega
  unfold State.pmcAdd
  dsimp only
  split
  · exact s.get_hw_low _ _ _ i k 0 i 0 0 h1 h0 n1
  · exact (State.get_hw_low _ _ _ _ i k 0 i 0 0 h2 h0 n2).trans (s.get_hw_low _ _ _ i k 0 i 0 0 h1 h0 n1)

/-- Raising an event of a page sets its bit. -/
theorem evt_raiseBit_same (s : State) (cls i b : Nat) (c : Capture) (hb : b < 64) :
    (s.raiseBit cls i b c).getBit (F.EVT_STAT_EVT.of cls) b i = true := by
  unfold State.raiseBit State.getBit
  rw [evt_report, State.get_event]
  exact s.getBit_setBit_same cls i b hb

/-- Raising an event of a page clears no other bit. -/
theorem evt_raiseBit_keep (s : State) (cls i b j : Nat) (c : Capture) (hj : j < 64) (h : s.getBit (F.EVT_STAT_EVT.of cls) j i = true) :
    (s.raiseBit cls i b c).getBit (F.EVT_STAT_EVT.of cls) j i = true := by
  unfold State.raiseBit State.getBit
  rw [evt_report, State.get_event]
  exact s.getBit_setBit cls i b j hj h

theorem evt_pmcAdd_keep (s : State) (cls i k d j : Nat) (hk : k < 8) (h : s.getBit (F.EVT_STAT_EVT.of cls) j i = true) :
    (s.pmcAdd cls i k d).getBit (F.EVT_STAT_EVT.of cls) j i = true := by
  unfold State.getBit at *
  rw [evt_pmcAdd _ _ _ _ _ hk]
  exact h

theorem evt_pmcAdds_keep (l : List Nat) (s : State) (cls i j : Nat) (hl : ∀ k ∈ l, k < 8) (h : s.getBit (F.EVT_STAT_EVT.of cls) j i = true) :
    (l.foldl (fun t k => t.pmcAdd cls i k 1) s).getBit (F.EVT_STAT_EVT.of cls) j i = true := by
  induction l generalizing s with
  | nil => exact h
  | cons k l ih =>
    exact ih _ (fun n hn => hl n (List.mem_cons_of_mem _ hn)) (evt_pmcAdd_keep s cls i k 1 j (hl k (List.mem_cons_self ..)) h)

/-- PMC_SAT clears no event bit of its page. -/
theorem evt_raiseSat_keep (s : State) (cls i j : Nat) (hj : j < 64) (h : s.getBit (F.EVT_STAT_EVT.of cls) j i = true) :
    (s.raiseSat cls i).getBit (F.EVT_STAT_EVT.of cls) j i = true := by
  have h1 := evt_raiseBit_keep s cls i E.bitPmcSat j (blockCapture cls i) hj h
  have h2 : ∀ p, (((List.range (pmcNum cls)).filter p).foldl (fun t k => t.pmcAdd cls i k 1) (s.raiseBit cls i E.bitPmcSat (blockCapture cls i))).getBit
      (F.EVT_STAT_EVT.of cls) j i = true := fun p => evt_pmcAdds_keep _ _ cls i j (pmc_filter_lt cls p) h1
  unfold State.raiseSat
  generalize s.raiseBit cls i E.bitPmcSat (blockCapture cls i) = t at h1 h2 ⊢
  dsimp only
  split
  · exact h1
  · split
    · exact evt_raiseBit_keep _ _ _ _ _ _ hj (h2 _)
    · exact h2 _

theorem evt_countIn_keep (s : State) (cls i d k j : Nat) (hk : k < 8) (hj : j < 64) (h : s.getBit (F.EVT_STAT_EVT.of cls) j i = true) :
    (s.countIn cls i d k).getBit (F.EVT_STAT_EVT.of cls) j i = true := by
  have h1 := evt_pmcAdd_keep s cls i k d j hk h
  unfold State.countIn
  generalize s.pmcAdd cls i k d = t at h1 ⊢
  dsimp only
  split
  · exact evt_raiseSat_keep t cls i j hj h1
  · exact h1

theorem evt_counts_keep (l : List Nat) (s : State) (cls i d j : Nat) (hj : j < 64) (hl : ∀ k ∈ l, k < 8)
    (h : s.getBit (F.EVT_STAT_EVT.of cls) j i = true) :
    (l.foldl (fun t k => t.countIn cls i d k) s).getBit (F.EVT_STAT_EVT.of cls) j i = true := by
  induction l generalizing s with
  | nil => exact h
  | cons k l ih =>
    exact ih _ (fun n hn => hl n (List.mem_cons_of_mem _ hn)) (evt_countIn_keep s cls i d k j (hl k (List.mem_cons_self ..)) hj h)

/-- Counting clears no event bit of its page. -/
theorem evt_count_keep (s : State) (cls i ev d j : Nat) (ctx : Option Nat) (hj : j < 64) (h : s.getBit (F.EVT_STAT_EVT.of cls) j i = true) :
    (s.count cls i ev d ctx).getBit (F.EVT_STAT_EVT.of cls) j i = true := by
  unfold State.count
  split
  · exact h
  · exact evt_counts_keep _ s cls i d j hj (pmc_filter_lt cls _) h

/-! ### EVT_EN -/

theorem low_EVT_EN_EN (cls : Nat) : (F.EVT_EN_EN.of cls).low 0 0 < 16384 := by simp only [Fld.low, Fld.of, F.EVT_EN_EN]; decide

theorem evtEn_pageCapture (s : State) (cls i b : Nat) (c : Capture) :
    (s.pageCapture cls i b c).get (F.EVT_EN_EN.of cls) i = s.get (F.EVT_EN_EN.of cls) i := by
  have ne : ∀ (f : Fld) (v : Nat) (x : State), f.low 0 0 < 16384 → (F.EVT_EN_EN.of cls).low 0 0 ≠ f.low 0 0 →
      (x.set f v i).get (F.EVT_EN_EN.of cls) i = x.get (F.EVT_EN_EN.of cls) i := fun f v x h1 h2 =>
    x.get_set_low f _ v i 0 0 i 0 0 (Nat.lt_trans h1 (by decide)) (Nat.lt_trans (low_EVT_EN_EN cls) (by decide)) h2
  unfold State.pageCapture
  split
  · rw [State.get_event]
    exact ne _ _ _ (low_STAT_CAP_OVF cls) (by simp only [Fld.low, Fld.of, F.EVT_EN_EN, F.STAT_CAP_OVF]; decide)
  · dsimp only
    rw [State.get_event, ne _ _ _ (low_STAT_CAP_VALID cls) (by simp only [Fld.low, Fld.of, F.EVT_EN_EN, F.STAT_CAP_VALID]; decide),
      ne _ _ _ (low_CAP_TIME_MT cls) (by simp only [Fld.low, Fld.of, F.EVT_EN_EN, F.CAP_TIME_MT]; decide),
      ne _ _ _ (low_CAP_INFO_ACC cls) (by simp only [Fld.low, Fld.of, F.EVT_EN_EN, F.CAP_INFO_ACC]; decide),
      ne _ _ _ (low_CAP_INFO_MASTER cls) (by simp only [Fld.low, Fld.of, F.EVT_EN_EN, F.CAP_INFO_MASTER]; decide),
      ne _ _ _ (low_CAP_INFO_MKIND cls) (by simp only [Fld.low, Fld.of, F.EVT_EN_EN, F.CAP_INFO_MKIND]; decide),
      ne _ _ _ (low_CAP_INFO_SPACE cls) (by simp only [Fld.low, Fld.of, F.EVT_EN_EN, F.CAP_INFO_SPACE]; decide),
      ne _ _ _ (low_CAP_INFO_EVT cls) (by simp only [Fld.low, Fld.of, F.EVT_EN_EN, F.CAP_INFO_EVT]; decide),
      ne _ _ _ (low_CAP_ADDR_ADDR cls) (by simp only [Fld.low, Fld.of, F.EVT_EN_EN, F.CAP_ADDR_ADDR]; decide)]

theorem evtEn_report (s : State) (cls i b : Nat) (c : Capture) :
    (s.report cls i b c).get (F.EVT_EN_EN.of cls) i = s.get (F.EVT_EN_EN.of cls) i := by
  unfold State.report
  split
  · dsimp only
    have h : (if 2 ≤ s.severity (64 * cls + b) then s.pageCapture cls i b c else s).get (F.EVT_EN_EN.of cls) i = s.get (F.EVT_EN_EN.of cls) i := by
      split
      · exact evtEn_pageCapture s cls i b c
      · rfl
    generalize (if 2 ≤ s.severity (64 * cls + b) then s.pageCapture cls i b c else s) = t at h ⊢
    split
    · exact h
    · exact h
  · rfl

theorem evtEn_pmcAdd (s : State) (cls i k d : Nat) (hk : k < 8) :
    (s.pmcAdd cls i k d).get (F.EVT_EN_EN.of cls) i = s.get (F.EVT_EN_EN.of cls) i := by
  have h0 := Nat.lt_trans (low_EVT_EN_EN cls) (show 16384 < 262144 by decide)
  have h1 : (F.PMC_COUNT.of cls).low k 0 < 262144 := by simp only [Fld.low, Fld.of, F.PMC_COUNT]; omega
  have h2 : (F.PMC_SAT.of cls).low k 0 < 262144 := by simp only [Fld.low, Fld.of, F.PMC_SAT]; omega
  have n1 : (F.EVT_EN_EN.of cls).low 0 0 ≠ (F.PMC_COUNT.of cls).low k 0 := by simp only [Fld.low, Fld.of, F.PMC_COUNT, F.EVT_EN_EN]; omega
  have n2 : (F.EVT_EN_EN.of cls).low 0 0 ≠ (F.PMC_SAT.of cls).low k 0 := by simp only [Fld.low, Fld.of, F.PMC_SAT, F.EVT_EN_EN]; omega
  unfold State.pmcAdd
  dsimp only
  split
  · exact s.get_hw_low _ _ _ i k 0 i 0 0 h1 h0 n1
  · exact (State.get_hw_low _ _ _ _ i k 0 i 0 0 h2 h0 n2).trans (s.get_hw_low _ _ _ i k 0 i 0 0 h1 h0 n1)

theorem evtEn_raiseBit (s : State) (cls i b : Nat) (c : Capture) :
    (s.raiseBit cls i b c).get (F.EVT_EN_EN.of cls) i = s.get (F.EVT_EN_EN.of cls) i := by
  unfold State.raiseBit
  rw [evtEn_report, State.get_event]
  exact s.get_set_low _ _ _ i 0 0 i 0 0 (Nat.lt_trans (low_EVT_STAT_EVT cls) (by decide)) (Nat.lt_trans (low_EVT_EN_EN cls) (by decide))
    (by simp only [Fld.low, Fld.of, F.EVT_STAT_EVT, F.EVT_EN_EN]; decide)

theorem evtEn_pmcAdds (l : List Nat) (s : State) (cls i : Nat) (hl : ∀ k ∈ l, k < 8) :
    (l.foldl (fun t k => t.pmcAdd cls i k 1) s).get (F.EVT_EN_EN.of cls) i = s.get (F.EVT_EN_EN.of cls) i := by
  induction l generalizing s with
  | nil => rfl
  | cons k l ih =>
    exact (ih _ (fun n hn => hl n (List.mem_cons_of_mem _ hn))).trans (evtEn_pmcAdd s cls i k 1 (hl k (List.mem_cons_self ..)))

/-- PMC_SAT leaves EVT_EN. -/
theorem evtEn_raiseSat (s : State) (cls i : Nat) : (s.raiseSat cls i).get (F.EVT_EN_EN.of cls) i = s.get (F.EVT_EN_EN.of cls) i := by
  have h1 := evtEn_raiseBit s cls i E.bitPmcSat (blockCapture cls i)
  unfold State.raiseSat
  generalize s.raiseBit cls i E.bitPmcSat (blockCapture cls i) = t at h1 ⊢
  dsimp only
  split
  · exact h1
  · split
    · exact (evtEn_raiseBit _ _ _ _ _).trans ((evtEn_pmcAdds _ _ _ _ (pmc_filter_lt cls _)).trans h1)
    · exact (evtEn_pmcAdds _ _ _ _ (pmc_filter_lt cls _)).trans h1

/-- Counting in one counter leaves EVT_EN. -/
theorem evtEn_countIn (s : State) (cls i d k : Nat) (hk : k < 8) :
    (s.countIn cls i d k).get (F.EVT_EN_EN.of cls) i = s.get (F.EVT_EN_EN.of cls) i := by
  have h1 := evtEn_pmcAdd s cls i k d hk
  unfold State.countIn
  generalize s.pmcAdd cls i k d = t at h1 ⊢
  dsimp only
  split
  · exact (evtEn_raiseSat t cls i).trans h1
  · exact h1

end Sys2Proof.Machine
end

