-- ==== Sys2Proof/Laws/MemRmaCmd.lean ====
section
/-!
SUPPORT. What the operations of Machine/RmaCmd.lean do to table-space memory: nothing, or they keep its canonical form.
-/
namespace Sys2Proof.Machine
open Sys2Proof

set_option linter.unusedSimpArgs false

@[simp] theorem State.launch_memq (s : State) (e slot kind : Nat) : State.memq (State.launch s e slot kind) = State.memq s := by
  unfold State.launch
  (repeat' split) <;>
    simp

theorem execPut_memq (e : Fin 32) (slot : Fin 2048) (s : State) : ∃ r_, execPut e slot s = .next r_ ∧ State.memq r_ = State.memq s := by
  unfold execPut
  exact ⟨_, rfl, by simp⟩

theorem execPutFlag_memq (e : Fin 32) (slot : Fin 2048) (s : State) : ∃ r_, execPutFlag e slot s = .next r_ ∧ State.memq r_ = State.memq s := by
  unfold execPutFlag
  exact ⟨_, rfl, by simp⟩

theorem execGet_memq (e : Fin 32) (slot : Fin 2048) (s : State) : ∃ r_, execGet e slot s = .next r_ ∧ State.memq r_ = State.memq s := by
  unfold execGet
  exact ⟨_, rfl, by simp⟩

theorem execSend_memq (e : Fin 32) (slot : Fin 2048) (s : State) : ∃ r_, execSend e slot s = .next r_ ∧ State.memq r_ = State.memq s := by
  unfold execSend
  exact ⟨_, rfl, by simp⟩

theorem execAtomicAdd_memq (e : Fin 32) (slot : Fin 2048) (s : State) : ∃ r_, execAtomicAdd e slot s = .next r_ ∧ State.memq r_ = State.memq s := by
  unfold execAtomicAdd
  exact ⟨_, rfl, by simp⟩

theorem execAtomicFadd_memq (e : Fin 32) (slot : Fin 2048) (s : State) : ∃ r_, execAtomicFadd e slot s = .next r_ ∧ State.memq r_ = State.memq s := by
  unfold execAtomicFadd
  exact ⟨_, rfl, by simp⟩

theorem execAtomicCas_memq (e : Fin 32) (slot : Fin 2048) (s : State) : ∃ r_, execAtomicCas e slot s = .next r_ ∧ State.memq r_ = State.memq s := by
  unfold execAtomicCas
  exact ⟨_, rfl, by simp⟩

theorem execLockAcq_memq (e : Fin 32) (slot : Fin 2048) (s : State) : ∃ r_, execLockAcq e slot s = .next r_ ∧ State.memq r_ = State.memq s := by
  unfold execLockAcq
  exact ⟨_, rfl, by simp⟩

theorem execLockRel_memq (e : Fin 32) (slot : Fin 2048) (s : State) : ∃ r_, execLockRel e slot s = .next r_ ∧ State.memq r_ = State.memq s := by
  unfold execLockRel
  exact ⟨_, rfl, by simp⟩

theorem execLockRenew_memq (e : Fin 32) (slot : Fin 2048) (s : State) : ∃ r_, execLockRenew e slot s = .next r_ ∧ State.memq r_ = State.memq s := by
  unfold execLockRenew
  exact ⟨_, rfl, by simp⟩

theorem execGetSegmentIssue_memq (e : Fin 32) (slot : Fin 2048) (s : State) : ∃ r_, execGetSegmentIssue e slot s = .next r_ ∧ State.memq r_ = State.memq s := by
  unfold execGetSegmentIssue
  exact ⟨_, rfl, by simp⟩

theorem execFence_memq (e : Fin 32) (c : Nat) (q : Fin 8) (s : State) : ∃ r_, execFence e c q s = .next r_ ∧ State.memq r_ = State.memq s := by
  unfold execFence
  (repeat' split) <;>
    exact ⟨_, rfl, by simp⟩

theorem execFenceFinish_memq (e : Fin 32) (c : Nat) (q : Fin 8) (s : State) : ∃ r_, execFenceFinish e c q s = .next r_ ∧ State.memq r_ = State.memq s := by
  unfold execFenceFinish
  (repeat' split) <;>
    exact ⟨_, rfl, by simp⟩

theorem execPutPacketRx_memq (e : Fin 32) (q : Packet) (s : State) : ∃ r_, execPutPacketRx e q s = .next r_ ∧ State.memq r_ = State.memq s := by
  unfold execPutPacketRx
  (try dsimp only)
  (repeat' split) <;>
    exact ⟨_, rfl, by repeat first | rw [State.arrived_pair ‹_›] | simp⟩

theorem execGetReqRx_memq (e : Fin 32) (q : Packet) (s : State) : ∃ r_, execGetReqRx e q s = .next r_ ∧ State.memq r_ = State.memq s := by
  unfold execGetReqRx
  (try dsimp only)
  (repeat' split) <;>
    exact ⟨_, rfl, by repeat first | rw [State.arrived_pair ‹_›] | simp⟩

theorem execAtomicRequestRx_memq (e : Fin 32) (q : Packet) (s : State) : ∃ r_, execAtomicRequestRx e q s = .next r_ ∧ State.memq r_ = State.memq s := by
  unfold execAtomicRequestRx
  (try dsimp only)
  (repeat' split) <;>
    exact ⟨_, rfl, by repeat first | rw [State.dupLookup_pair ‹_›] | rw [State.arrived_pair ‹_›] | simp⟩

theorem execFlushRx_memq (e : Fin 32) (q : Packet) (s : State) : ∃ r_, execFlushRx e q s = .next r_ ∧ State.memq r_ = State.memq s := by
  unfold execFlushRx
  (try dsimp only)
  (repeat' split) <;>
    exact ⟨_, rfl, by repeat first | rw [State.arrived_pair ‹_›] | simp⟩

theorem execFlushReadComplete_memq (e : Fin 32) (tag : Nat) (ok : Bool) (s : State) : ∃ r_, execFlushReadComplete e tag ok s = .next r_ ∧ State.memq r_ = State.memq s := by
  unfold execFlushReadComplete
  exact ⟨_, rfl, by simp⟩

theorem execAtomicopCompletion_memq (e : Fin 32) (tag : Nat) (ok : Bool) (data : List Byte) (s : State) : ∃ r_, execAtomicopCompletion e tag ok data s = .next r_ ∧ State.memq r_ = State.memq s := by
  unfold execAtomicopCompletion
  exact ⟨_, rfl, by simp⟩

theorem execHostReadCompletion_memq (e : Fin 32) (tag : Nat) (ok : Bool) (data : List Byte) (s : State) : ∃ r_, execHostReadCompletion e tag ok data s = .next r_ ∧ State.memq r_ = State.memq s := by
  unfold execHostReadCompletion
  exact ⟨_, rfl, by simp⟩

@[simp] theorem State.response_memq (s : State) (e : Nat) (q : Packet) (kind : Nat) : State.memq ((State.response s e q kind).1) = State.memq s := by
  unfold State.response
  (try dsimp only)
  (repeat' split) <;>
    (repeat first | rw [State.arrived_pair ‹_›] | simp)

theorem State.response_pair {s : State} {e : Nat} {q : Packet} {kind : Nat} {t_ : State} {a_ : Option (Nat × Op)} (h_ : State.response s e q kind = (t_, a_)) : State.memq t_ = State.memq s := by
  have := State.response_memq s e q kind
  rwa [h_] at this

theorem execAckRx_memq (e : Fin 32) (q : Packet) (s : State) : ∃ r_, execAckRx e q s = .next r_ ∧ State.memq r_ = State.memq s := by
  unfold execAckRx
  (try dsimp only)
  (repeat' split) <;>
    exact ⟨_, rfl, by repeat first | rw [State.response_pair ‹_›] | simp⟩

theorem execSackRx_memq (e : Fin 32) (q : Packet) (s : State) : ∃ r_, execSackRx e q s = .next r_ ∧ State.memq r_ = State.memq s := by
  unfold execSackRx
  (try dsimp only)
  (repeat' split) <;>
    exact ⟨_, rfl, by repeat first | rw [State.response_pair ‹_›] | simp⟩

theorem execNackBusyRx_memq (e : Fin 32) (q : Packet) (s : State) : ∃ r_, execNackBusyRx e q s = .next r_ ∧ State.memq r_ = State.memq s := by
  unfold execNackBusyRx
  (try dsimp only)
  (repeat' split) <;>
    exact ⟨_, rfl, by repeat first | rw [State.response_pair ‹_›] | simp⟩

theorem execBusyBackoffExpiry_memq (e : Fin 32) (slot : Fin 2048) (poff : Nat) (s : State) : ∃ r_, execBusyBackoffExpiry e slot poff s = .next r_ ∧ State.memq r_ = State.memq s := by
  unfold execBusyBackoffExpiry
  (repeat' split) <;>
    exact ⟨_, rfl, by simp⟩

theorem execNackAccessRx_memq (e : Fin 32) (q : Packet) (s : State) : ∃ r_, execNackAccessRx e q s = .next r_ ∧ State.memq r_ = State.memq s := by
  unfold execNackAccessRx
  (try dsimp only)
  (repeat' split) <;>
    exact ⟨_, rfl, by repeat first | rw [State.response_pair ‹_›] | simp⟩

@[simp] theorem State.stale_memq (s : State) (e : Nat) : State.memq (State.stale s e) = State.memq s := by
  unfold State.stale
  simp

theorem execGetDataRx_memq (e : Fin 32) (q : Packet) (s : State) : ∃ r_, execGetDataRx e q s = .next r_ ∧ State.memq r_ = State.memq s := by
  unfold execGetDataRx
  (try dsimp only)
  (repeat' split) <;>
    exact ⟨_, rfl, by repeat first | rw [State.response_pair ‹_›] | simp⟩

@[simp] theorem State.trackerTimeout_memq (s : State) (e : Nat) (t : Tracker) : State.memq (State.trackerTimeout s e t) = State.memq s := by
  unfold State.trackerTimeout
  simp

@[simp] theorem State.getTimeout_memq (s : State) (e slot : Nat) (o : Op) : State.memq (State.getTimeout s e slot o) = State.memq s := by
  unfold State.getTimeout
  simp

theorem execHoleTimeout_memq (e : Fin 32) (get : Bool) (src opid : Nat) (s : State) : ∃ r_, execHoleTimeout e get src opid s = .next r_ ∧ State.memq r_ = State.memq s := by
  unfold execHoleTimeout
  (repeat' split) <;>
    exact ⟨_, rfl, by simp⟩

theorem execRetryTimeout_memq (e : Fin 32) (slot : Fin 2048) (s : State) : ∃ r_, execRetryTimeout e slot s = .next r_ ∧ State.memq r_ = State.memq s := by
  unfold execRetryTimeout
  (repeat' split) <;>
    exact ⟨_, rfl, by simp⟩

theorem execCompletionHoldEnd_memq (e : Fin 32) (slot : Fin 2048) (s : State) : ∃ r_, execCompletionHoldEnd e slot s = .next r_ ∧ State.memq r_ = State.memq s := by
  unfold execCompletionHoldEnd
  (repeat' split) <;>
    exact ⟨_, rfl, by simp⟩

@[simp] theorem State.forgetPending_memq (s : State) (e src opid : Nat) : State.memq (State.forgetPending s e src opid) = State.memq s := by
  unfold State.forgetPending
  simp

@[simp] theorem State.pullsWaiting_memq (s : State) (e : Nat) : State.memq (State.pullsWaiting s e) = State.memq s := by
  unfold State.pullsWaiting
  simp

theorem execDupExpiry_memq (u : Fin 8) (src opid : Nat) (s : State) : ∃ r_, execDupExpiry u src opid s = .next r_ ∧ State.memq r_ = State.memq s := by
  unfold execDupExpiry
  dsimp only
  (repeat' split) <;>
    exact ⟨_, rfl, by simp⟩

@[simp] theorem State.rereadRegions_memq (s : State) (e : Nat) (p : Nat → Nat → Bool) : State.memq (State.rereadRegions s e p) = State.memq s := by
  unfold State.rereadRegions
  (try dsimp only)
  (repeat' split) <;>
    (repeat' first | (simp; done) | refine (State.each_memq _ _ _ fun _ _ => ?_).trans ?_ | split)

theorem execRegInval_memq (e : Fin 32) (v : Nat) (s : State) : ∃ r_, execRegInval e v s = .next r_ ∧ State.memq r_ = State.memq s := by
  unfold execRegInval
  (repeat' split) <;>
    exact ⟨_, rfl, by simp⟩

theorem execAcacheFlush_memq (e : Fin 32) (v : Nat) (s : State) : ∃ r_, execAcacheFlush e v s = .next r_ ∧ State.memq r_ = State.memq s := by
  unfold execAcacheFlush
  (repeat' split) <;>
    exact ⟨_, rfl, by simp⟩

theorem execRateIncrease_memq (e : Fin 32) (s : State) : ∃ r_, execRateIncrease e s = .next r_ ∧ State.memq r_ = State.memq s := by
  unfold execRateIncrease
  dsimp only
  (repeat' split) <;>
    exact ⟨_, rfl, by simp⟩

theorem execDecGapExpiry_memq (e : Fin 32) (dest : Nat) (s : State) : ∃ r_, execDecGapExpiry e dest s = .next r_ ∧ State.memq r_ = State.memq s := by
  unfold execDecGapExpiry
  (repeat' split) <;>
    exact ⟨_, rfl, by simp⟩

end Sys2Proof.Machine
end

