-- ==== Sys2Proof/Laws/MemMatchCmd.lean ====
section
/-!
SUPPORT. What the operations of Machine/MatchCmd.lean do to table-space memory: nothing, or they keep its canonical form.
-/
namespace Sys2Proof.Machine
open Sys2Proof

set_option linter.unusedSimpArgs false

theorem execRecvPost_memq (e : Fin 32) (c : Nat) (q : Fin 8) (s : State) : ∃ r_, execRecvPost e c q s = .next r_ ∧ State.memq r_ = State.memq s := by
  unfold execRecvPost
  (repeat' split) <;>
    exact ⟨_, rfl, by simp⟩

theorem execRecvClaim_memq (e : Fin 32) (c : Nat) (q : Fin 8) (s : State) : ∃ r_, execRecvClaim e c q s = .next r_ ∧ State.memq r_ = State.memq s := by
  unfold execRecvClaim
  (repeat' split) <;>
    exact ⟨_, rfl, by simp⟩

theorem execRecvResume_memq (e : Fin 32) (c : Nat) (q : Fin 8) (s : State) : ∃ r_, execRecvResume e c q s = .next r_ ∧ State.memq r_ = State.memq s := by
  unfold execRecvResume
  (repeat' split) <;>
    exact ⟨_, rfl, by simp⟩

theorem execSendPacketRx_memq (e : Fin 32) (q : Packet) (s : State) : ∃ r_, execSendPacketRx e q s = .next r_ ∧ State.memq r_ = State.memq s := by
  unfold execSendPacketRx
  (try dsimp only)
  (repeat' split) <;>
    exact ⟨_, rfl, by repeat first | rw [State.arrived_pair ‹_›] | simp⟩

theorem execRtsRx_memq (e : Fin 32) (q : Packet) (s : State) : ∃ r_, execRtsRx e q s = .next r_ ∧ State.memq r_ = State.memq s := by
  unfold execRtsRx
  (try dsimp only)
  (repeat' split) <;>
    exact ⟨_, rfl, by repeat first | rw [State.arrived_pair ‹_›] | simp⟩

theorem execRdvGetRx_memq (e : Fin 32) (q : Packet) (s : State) : ∃ r_, execRdvGetRx e q s = .next r_ ∧ State.memq r_ = State.memq s := by
  unfold execRdvGetRx
  (try dsimp only)
  (repeat' split) <;>
    exact ⟨_, rfl, by repeat first | rw [State.arrived_pair ‹_›] | simp⟩

theorem execRdvAcceptRx_memq (e : Fin 32) (q : Packet) (s : State) : ∃ r_, execRdvAcceptRx e q s = .next r_ ∧ State.memq r_ = State.memq s := by
  unfold execRdvAcceptRx
  (try dsimp only)
  (repeat' split) <;>
    exact ⟨_, rfl, by repeat first | rw [State.response_pair ‹_›] | simp⟩

theorem execGapWindowExpiry_memq (e : Fin 32) (src sctx sq tctx : Nat) (s : State) : ∃ r_, execGapWindowExpiry e src sctx sq tctx s = .next r_ ∧ State.memq r_ = State.memq s := by
  unfold execGapWindowExpiry
  dsimp only
  (repeat' split) <;>
    exact ⟨_, rfl, by simp⟩

theorem execStreamEntryExpiry_memq (e : Fin 32) (c : Nat) (q : Fin 8) (dest tctx : Nat) (s : State) : ∃ r_, execStreamEntryExpiry e c q dest tctx s = .next r_ ∧ State.memq r_ = State.memq s := by
  unfold execStreamEntryExpiry
  exact ⟨_, rfl, by simp⟩

end Sys2Proof.Machine
end

