-- ==== Sys2Proof/Laws/MemCollCmd.lean ====
section
/-!
SUPPORT. What the operations of Machine/CollCmd.lean do to table-space memory: nothing, or they keep its canonical form.
-/
namespace Sys2Proof.Machine
open Sys2Proof

set_option linter.unusedSimpArgs false

@[simp] theorem State.setColCmd_memq (s : State) (u op g seq : Nat) : State.memq (State.setColCmd s u op g seq) = State.memq s := by
  unfold State.setColCmd
  simp

theorem execSetup_ok (u : Fin 8) (g : Fin 4096) (seq : Nat) (s : State) {q_ : Bool × List Instr} (hk : State.Ok q_ (State.memq s)) : ∃ r_, execSetup u g seq s = .next r_ ∧ State.Ok q_ (State.memq r_) := by
  unfold execSetup
  dsimp only
  (repeat' split) <;>
    exact ⟨_, rfl, by simp [hk]⟩

theorem execRelease_ok (u : Fin 8) (g : Fin 4096) (s : State) {q_ : Bool × List Instr} (hk : State.Ok q_ (State.memq s)) : ∃ r_, execRelease u g s = .next r_ ∧ State.Ok q_ (State.memq r_) := by
  unfold execRelease
  dsimp only
  (repeat' split) <;>
    exact ⟨_, rfl, by simp [hk]⟩

theorem execReset_ok (u : Fin 8) (g : Fin 4096) (seq : Nat) (s : State) {q_ : Bool × List Instr} (hk : State.Ok q_ (State.memq s)) : ∃ r_, execReset u g seq s = .next r_ ∧ State.Ok q_ (State.memq r_) := by
  unfold execReset
  dsimp only
  (repeat' split) <;>
    exact ⟨_, rfl, by simp [hk]⟩

theorem execColl_memq (e : Fin 32) (c : Nat) (q : Fin 8) (s : State) : ∃ r_, execColl e c q s = .next r_ ∧ State.memq r_ = State.memq s := by
  unfold execColl
  dsimp only
  (repeat' split) <;>
    exact ⟨_, rfl, by simp⟩

theorem execContribRx_ok (u : Fin 8) (q : Packet) (s : State) {q_ : Bool × List Instr} (hk : State.Ok q_ (State.memq s)) : ∃ r_, execContribRx u q s = .next r_ ∧ State.Ok q_ (State.memq r_) := by
  unfold execContribRx
  dsimp only
  (repeat' split) <;>
    exact ⟨_, rfl, by simp [hk]⟩

theorem execResultRx_ok (e : Fin 32) (q : Packet) (s : State) {q_ : Bool × List Instr} (hk : State.Ok q_ (State.memq s)) : ∃ r_, execResultRx e q s = .next r_ ∧ State.Ok q_ (State.memq r_) := by
  unfold execResultRx
  dsimp only
  (repeat' split) <;>
    exact ⟨_, rfl, by simp [hk]⟩

theorem execReissueRx_memq (e : Fin 32) (q : Packet) (s : State) : ∃ r_, execReissueRx e q s = .next r_ ∧ State.memq r_ = State.memq s := by
  unfold execReissueRx
  (repeat' split) <;>
    exact ⟨_, rfl, by simp⟩

theorem execFencedRx_ok (u : Fin 8) (q : Packet) (s : State) {q_ : Bool × List Instr} (hk : State.Ok q_ (State.memq s)) : ∃ r_, execFencedRx u q s = .next r_ ∧ State.Ok q_ (State.memq r_) := by
  unfold execFencedRx
  dsimp only
  (repeat' split) <;>
    exact ⟨_, rfl, by simp [hk]⟩

theorem execPruneNotice_ok (u : Fin 8) (s : State) {q_ : Bool × List Instr} (hk : State.Ok q_ (State.memq s)) : ∃ r_, execPruneNotice u s = .next r_ ∧ State.Ok q_ (State.memq r_) := by
  unfold execPruneNotice
  dsimp only
  (repeat' split) <;>
    exact ⟨_, rfl, by simp [hk]⟩

theorem execColTimeout_ok (u : Fin 8) (g : Fin 4096) (s : State) {q_ : Bool × List Instr} (hk : State.Ok q_ (State.memq s)) : ∃ r_, execColTimeout u g s = .next r_ ∧ State.Ok q_ (State.memq r_) := by
  unfold execColTimeout
  (repeat' split) <;>
    exact ⟨_, rfl, by simp [hk]⟩

theorem execCollWaitTimeout_memq (e : Fin 32) (c : Nat) (q : Fin 8) (s : State) : ∃ r_, execCollWaitTimeout e c q s = .next r_ ∧ State.memq r_ = State.memq s := by
  unfold execCollWaitTimeout
  dsimp only
  (repeat' split) <;>
    exact ⟨_, rfl, by simp⟩

end Sys2Proof.Machine
end

