-- ==== Sys2Proof/Laws/MemXltCmd.lean ====
section
/-!
SUPPORT. What the operations of Machine/XltCmd.lean do to table-space memory: nothing, or they keep its canonical form.
-/
namespace Sys2Proof.Machine
open Sys2Proof

set_option linter.unusedSimpArgs false

theorem execWalkReadReturn_memq (e : Fin 32) (tag : Nat) (ok : Bool) (entry : Nat) (s : State) : ∃ r_, execWalkReadReturn e tag ok entry s = .next r_ ∧ State.memq r_ = State.memq s := by
  unfold execWalkReadReturn
  exact ⟨_, rfl, by simp⟩

theorem execAdCasReturn_memq (e : Fin 32) (tag : Nat) (ok : Bool) (entry : Nat) (s : State) : ∃ r_, execAdCasReturn e tag ok entry s = .next r_ ∧ State.memq r_ = State.memq s := by
  unfold execAdCasReturn
  exact ⟨_, rfl, by simp⟩

@[simp] theorem State.invalidate_memq (s : State) (e : Nat) (p : Nat → Bool) (range : Option (Nat × Nat)) (reg : Bool) : State.memq (State.invalidate s e p range reg) = State.memq s := by
  unfold State.invalidate
  simp

theorem execXltInval_memq (e : Fin 32) (c : Nat) (q : Fin 8) (s : State) : ∃ r_, execXltInval e c q s = .next r_ ∧ State.memq r_ = State.memq s := by
  unfold execXltInval
  (repeat' split) <;>
    exact ⟨_, rfl, by simp⟩

theorem execXltInvalCmd_memq (e : Fin 32) (v : Nat) (s : State) : ∃ r_, execXltInvalCmd e v s = .next r_ ∧ State.memq r_ = State.memq s := by
  unfold execXltInvalCmd
  (repeat' split) <;>
    exact ⟨_, rfl, by simp⟩

theorem execInvalComplete_memq (e : Fin 32) (s : State) : ∃ r_, execInvalComplete e s = .next r_ ∧ State.memq r_ = State.memq s := by
  unfold execInvalComplete
  (repeat' split) <;>
    exact ⟨_, rfl, by simp⟩

end Sys2Proof.Machine
end

