-- ==== Sys2Proof/Laws/MemLockCmd.lean ====
section
/-!
SUPPORT. What the operations of Machine/LockCmd.lean do to table-space memory: nothing, or they keep its canonical form.
-/
namespace Sys2Proof.Machine
open Sys2Proof

set_option linter.unusedSimpArgs false

@[simp] theorem State.lockArrived_memq (s : State) (e : Nat) (q : Packet) (kind : Nat) : State.memq ((State.lockArrived s e q kind).1) = State.memq s := by
  unfold State.lockArrived
  dsimp only
  (repeat' split) <;>
    simp

theorem State.lockArrived_pair {s : State} {e : Nat} {q : Packet} {kind : Nat} {t_ : State} {a_ : Bool} (h_ : State.lockArrived s e q kind = (t_, a_)) : State.memq t_ = State.memq s := by
  have := State.lockArrived_memq s e q kind
  rwa [h_] at this

theorem execLockAcqRx_ok (e : Fin 32) (q : Packet) (s : State) {q_ : Bool × List Instr} (hk : State.Ok q_ (State.memq s)) : ∃ r_, execLockAcqRx e q s = .next r_ ∧ State.Ok q_ (State.memq r_) := by
  unfold execLockAcqRx
  (try dsimp only)
  (repeat' split) <;>
    exact ⟨_, rfl, by repeat' first | with_reducible assumption | with_reducible apply State.lockAcq_ok | rw [State.lockArrived_pair ‹_›] | with_reducible refine State.each_ok _ _ _ ?_ fun _ _ _ => ?_ | simp only [↓State.lockArrived_memq, ↓State.ite_memq, ite_self, State.memq_mk, State.memq_eta] | split | dsimp only⟩

theorem execLockRelRx_ok (e : Fin 32) (q : Packet) (s : State) {q_ : Bool × List Instr} (hk : State.Ok q_ (State.memq s)) : ∃ r_, execLockRelRx e q s = .next r_ ∧ State.Ok q_ (State.memq r_) := by
  unfold execLockRelRx
  (try dsimp only)
  (repeat' split) <;>
    exact ⟨_, rfl, by repeat' first | with_reducible assumption | with_reducible apply State.lockRel_ok | rw [State.lockArrived_pair ‹_›] | with_reducible refine State.each_ok _ _ _ ?_ fun _ _ _ => ?_ | simp only [↓State.lockArrived_memq, ↓State.ite_memq, ite_self, State.memq_mk, State.memq_eta] | split | dsimp only⟩

theorem execLockRenewRx_ok (e : Fin 32) (q : Packet) (s : State) {q_ : Bool × List Instr} (hk : State.Ok q_ (State.memq s)) : ∃ r_, execLockRenewRx e q s = .next r_ ∧ State.Ok q_ (State.memq r_) := by
  unfold execLockRenewRx
  (try dsimp only)
  (repeat' split) <;>
    exact ⟨_, rfl, by repeat' first | with_reducible assumption | with_reducible apply State.lockRenew_ok | rw [State.lockArrived_pair ‹_›] | with_reducible refine State.each_ok _ _ _ ?_ fun _ _ _ => ?_ | simp only [↓State.lockArrived_memq, ↓State.ite_memq, ite_self, State.memq_mk, State.memq_eta] | split | dsimp only⟩

theorem execLockRspRx_memq (e : Fin 32) (q : Packet) (s : State) : ∃ r_, execLockRspRx e q s = .next r_ ∧ State.memq r_ = State.memq s := by
  unfold execLockRspRx
  (try dsimp only)
  (repeat' split) <;>
    exact ⟨_, rfl, by repeat first | rw [State.response_pair ‹_›] | simp⟩

theorem execLeaseExpiry_ok (u : Fin 8) (l : Fin 8192) (s : State) {q_ : Bool × List Instr} (hk : State.Ok q_ (State.memq s)) : ∃ r_, execLeaseExpiry u l s = .next r_ ∧ State.Ok q_ (State.memq r_) := by
  unfold execLeaseExpiry
  (repeat' split) <;>
    exact ⟨_, rfl, by simp [hk]⟩

theorem execWaiterExpiry_ok (u : Fin 8) (src opid : Nat) (s : State) {q_ : Bool × List Instr} (hk : State.Ok q_ (State.memq s)) : ∃ r_, execWaiterExpiry u src opid s = .next r_ ∧ State.Ok q_ (State.memq r_) := by
  unfold execWaiterExpiry
  (repeat' split) <;>
    exact ⟨_, rfl, by simp [hk]⟩

theorem execBoostRefresh_memq (u : Fin 8) (l : Fin 8192) (s : State) : ∃ r_, execBoostRefresh u l s = .next r_ ∧ State.memq r_ = State.memq s := by
  unfold execBoostRefresh
  dsimp only
  (repeat' split) <;>
    exact ⟨_, rfl, by simp⟩

theorem execBoostRx_memq (e : Fin 32) (q : Packet) (s : State) : ∃ r_, execBoostRx e q s = .next r_ ∧ State.memq r_ = State.memq s := by
  unfold execBoostRx
  dsimp only
  (repeat' split) <;>
    exact ⟨_, rfl, by simp⟩

theorem execBoostExpiry_memq (e : Fin 32) (s : State) : ∃ r_, execBoostExpiry e s = .next r_ ∧ State.memq r_ = State.memq s := by
  unfold execBoostExpiry
  exact ⟨_, rfl, by simp⟩

end Sys2Proof.Machine
end

