-- ==== Sys2Proof/Laws/MemHostFn.lean ====
section
/-!
SUPPORT. What the operations of Machine/HostFn.lean do to table-space memory: nothing, or they keep its canonical form.
-/
namespace Sys2Proof.Machine
open Sys2Proof

set_option linter.unusedSimpArgs false

@[simp] theorem State.endReqs_memq (s : State) (p : HostReq → Bool) : State.memq (State.endReqs s p) = State.memq s := by
  unfold State.endReqs
  simp

@[simp] theorem State.dropReady_memq (s : State) (e c : Nat) : State.memq (State.dropReady s e c) = State.memq s := by
  unfold State.dropReady
  simp

@[simp] theorem State.discardCtx_memq (s : State) (e c : Nat) : State.memq (State.discardCtx s e c) = State.memq s := by
  unfold State.discardCtx
  (repeat' split) <;>
    simp

@[simp] theorem State.dropLoads_memq (s : State) (e h f : Nat) : State.memq (State.dropLoads s e h f) = State.memq s := by
  unfold State.dropLoads
  simp

@[simp] theorem State.dropWork_ok (s : State) (h f : Nat) {q_ : Bool × List Instr} (hk : State.Ok q_ (State.memq s)) : State.Ok q_ (State.memq (State.dropWork s h f)) := by
  unfold State.dropWork
  (try dsimp only)
  (repeat' split) <;>
    (repeat' first | with_reducible assumption | with_reducible apply State.abandon_ok | fail | with_reducible refine State.each_ok _ _ _ ?_ fun _ _ _ => ?_ | simp only [↓State.discardCtx_memq, ↓State.dropLoads_memq, ↓State.ite_memq, ite_self, State.memq_mk, State.memq_eta] | split | dsimp only)

@[simp] theorem State.clearFn_ok (s : State) (h f : Nat) {q_ : Bool × List Instr} (hk : State.Ok q_ (State.memq s)) : State.Ok q_ (State.memq (State.clearFn s h f)) := by
  unfold State.clearFn
  simp [hk]

theorem execFlr_ok (h : Fin 64) (f : Fin 264) (s : State) {q_ : Bool × List Instr} (hk : State.Ok q_ (State.memq s)) : ∃ r_, execFlr h f s = .next r_ ∧ State.Ok q_ (State.memq r_) := by
  unfold execFlr
  (try dsimp only)
  (repeat' split) <;>
    exact ⟨_, rfl, by repeat' first | with_reducible assumption | with_reducible apply State.clearFn_ok | fail | with_reducible refine State.each_ok _ _ _ ?_ fun _ _ _ => ?_ | simp only [↓State.modFn_memq, ↓State.raise_memq, ↓State.count_memq, ↓State.settleAll_memq, ↓State.ite_memq, ite_self, State.memq_mk, State.memq_eta] | split | dsimp only⟩

theorem execFlrComplete_memq (h : Fin 64) (f : Fin 264) (s : State) : ∃ r_, execFlrComplete h f s = .next r_ ∧ State.memq r_ = State.memq s := by
  unfold execFlrComplete
  exact ⟨_, rfl, by simp⟩

theorem execD3hotEntry_ok (h : Fin 64) (f : Fin 264) (s : State) {q_ : Bool × List Instr} (hk : State.Ok q_ (State.memq s)) : ∃ r_, execD3hotEntry h f s = .next r_ ∧ State.Ok q_ (State.memq r_) := by
  unfold execD3hotEntry
  (repeat' split) <;>
    exact ⟨_, rfl, by simp [hk]⟩

@[simp] theorem State.clearAll_ok (s : State) (h f : Nat) {q_ : Bool × List Instr} (hk : State.Ok q_ (State.memq s)) : State.Ok q_ (State.memq (State.clearAll s h f)) := by
  unfold State.clearAll
  (try dsimp only)
  (repeat' split) <;>
    (repeat' first | with_reducible assumption | with_reducible apply State.clearFn_ok | fail | with_reducible refine State.each_ok _ _ _ ?_ fun _ _ _ => ?_ | simp only [↓State.ite_memq, ite_self, State.memq_mk, State.memq_eta] | split | dsimp only)

theorem execD0Return_ok (h : Fin 64) (f : Fin 264) (s : State) {q_ : Bool × List Instr} (hk : State.Ok q_ (State.memq s)) : ∃ r_, execD0Return h f s = .next r_ ∧ State.Ok q_ (State.memq r_) := by
  unfold execD0Return
  (repeat' split) <;>
    exact ⟨_, rfl, by simp [hk]⟩

@[simp] theorem State.formLink_memq (s : State) (h width : Nat) : State.memq (State.formLink s h width) = State.memq s := by
  unfold State.formLink
  simp

@[simp] theorem State.unform_memq (s : State) (h : Nat) : State.memq (State.unform s h) = State.memq s := by
  unfold State.unform
  simp

@[simp] theorem State.formPort_memq (s : State) (p : Nat) : State.memq (State.formPort s p) = State.memq s := by
  unfold State.formPort
  simp

@[simp] theorem State.timeOutAll_memq (s : State) (h : Nat) : State.memq (State.timeOutAll s h) = State.memq s := by
  unfold State.timeOutAll
  simp

@[simp] theorem State.hostLinkDown_ok (s : State) (h : Nat) {q_ : Bool × List Instr} (hk : State.Ok q_ (State.memq s)) : State.Ok q_ (State.memq (State.hostLinkDown s h)) := by
  unfold State.hostLinkDown
  (try dsimp only)
  (repeat' split) <;>
    (repeat' first | with_reducible assumption | with_reducible apply State.clearFn_ok | fail | with_reducible refine State.each_ok _ _ _ ?_ fun _ _ _ => ?_ | simp only [↓State.set_memq, ↓State.timeOutAll_memq, ↓State.raise_memq, ↓State.settleAll_memq, ↓State.ite_memq, ite_self, State.memq_mk, State.memq_eta] | split | dsimp only)

theorem execHostLinkDown_ok (h : Fin 64) (s : State) {q_ : Bool × List Instr} (hk : State.Ok q_ (State.memq s)) : ∃ r_, execHostLinkDown h s = .next r_ ∧ State.Ok q_ (State.memq r_) := by
  unfold execHostLinkDown
  exact ⟨_, rfl, by simp [hk]⟩

@[simp] theorem State.exitL1_memq (s : State) (h : Nat) : State.memq (State.exitL1 s h) = State.memq s := by
  unfold State.exitL1
  simp

theorem execL1Exit_memq (h : Fin 64) (s : State) : ∃ r_, execL1Exit h s = .next r_ ∧ State.memq r_ = State.memq s := by
  unfold execL1Exit
  (repeat' split) <;>
    exact ⟨_, rfl, by simp⟩

theorem execHostLinkUp_memq (h : Fin 64) (gen width : Nat) (s : State) : ∃ r_, execHostLinkUp h gen width s = .next r_ ∧ State.memq r_ = State.memq s := by
  unfold execHostLinkUp
  dsimp only
  (repeat' split) <;>
    exact ⟨_, rfl, by simp⟩

theorem execPerstAssert_ok (p : Fin 16) (s : State) {q_ : Bool × List Instr} (hk : State.Ok q_ (State.memq s)) : ∃ r_, execPerstAssert p s = .next r_ ∧ State.Ok q_ (State.memq r_) := by
  unfold execPerstAssert
  (try dsimp only)
  (repeat' split) <;>
    exact ⟨_, rfl, by repeat' first | with_reducible assumption | with_reducible apply State.clearFn_ok | with_reducible apply State.hostLinkDown_ok | fail | with_reducible refine State.each_ok _ _ _ ?_ fun _ _ _ => ?_ | simp only [↓State.modHport_memq, ↓State.raise_memq, ↓State.ite_memq, ite_self, State.memq_mk, State.memq_eta] | split | dsimp only⟩

theorem execPerstDeassert_memq (p : Fin 16) (s : State) : ∃ r_, execPerstDeassert p s = .next r_ ∧ State.memq r_ = State.memq s := by
  unfold execPerstDeassert
  dsimp only
  (repeat' split) <;>
    exact ⟨_, rfl, by simp⟩

theorem execCompletionTimeout_memq (tag : Nat) (s : State) : ∃ r_, execCompletionTimeout tag s = .next r_ ∧ State.memq r_ = State.memq s := by
  unfold execCompletionTimeout
  (repeat' split) <;>
    exact ⟨_, rfl, by simp⟩

theorem execFabTimeout_memq (tag : Nat) (s : State) : ∃ r_, execFabTimeout tag s = .next r_ ∧ State.memq r_ = State.memq s := by
  unfold execFabTimeout
  (repeat' split) <;>
    exact ⟨_, rfl, by simp⟩

theorem execBmeWrite_memq (h : Fin 64) (f : Fin 264) (on : Bool) (s : State) : ∃ r_, execBmeWrite h f on s = .next r_ ∧ State.memq r_ = State.memq s := by
  unfold execBmeWrite
  (repeat' split) <;>
    exact ⟨_, rfl, by simp⟩

theorem execL1Entry_memq (h : Fin 64) (s : State) : ∃ r_, execL1Entry h s = .next r_ ∧ State.memq r_ = State.memq s := by
  unfold execL1Entry
  dsimp only
  (repeat' split) <;>
    exact ⟨_, rfl, by simp⟩

theorem execMsixPendingSend_memq (h : Fin 64) (f : Fin 264) (v : Fin 2048) (s : State) : ∃ r_, execMsixPendingSend h f v s = .next r_ ∧ State.memq r_ = State.memq s := by
  unfold execMsixPendingSend
  (repeat' split) <;>
    exact ⟨_, rfl, by simp⟩

theorem execWinCommit_memq (h : Fin 64) (s : State) : ∃ r_, execWinCommit h s = .next r_ ∧ State.memq r_ = State.memq s := by
  unfold execWinCommit
  dsimp only
  (repeat' split) <;>
    exact ⟨_, rfl, by simp⟩

theorem execWinCommitInForce_memq (h : Fin 64) (s : State) : ∃ r_, execWinCommitInForce h s = .next r_ ∧ State.memq r_ = State.memq s := by
  unfold execWinCommitInForce
  dsimp only
  (repeat' split) <;>
    exact ⟨_, rfl, by simp⟩

end Sys2Proof.Machine
end

