-- ==== Sys2Proof/Laws/MemReset.lean ====
section
/-!
SUPPORT. What the operations of Machine/Reset.lean do to table-space memory: nothing, or they keep its canonical form.
-/
namespace Sys2Proof.Machine
open Sys2Proof

set_option linter.unusedSimpArgs false

@[simp] theorem State.refreshPins_memq (s : State) : State.memq (State.refreshPins s) = State.memq s := by
  unfold State.refreshPins
  simp

@[simp] theorem State.discardEng_memq (s : State) (e : Nat) : State.memq (State.discardEng s e) = State.memq s := by
  unfold State.discardEng
  simp

@[simp] theorem State.clearLocks_ok (s : State) (u : Nat) {q_ : Bool × List Instr} (hk : State.Ok q_ (State.memq s)) : State.Ok q_ (State.memq (State.clearLocks s u)) := by
  unfold State.clearLocks
  rw [State.modUnit_memq]
  exact State.Ok.filter hk _

@[simp] theorem State.discardUnit_ok (s : State) (u : Nat) {q_ : Bool × List Instr} (hk : State.Ok q_ (State.memq s)) : State.Ok q_ (State.memq (State.discardUnit s u)) := by
  unfold State.discardUnit
  simp [hk]

@[simp] theorem State.emptyUnit_ok (s : State) (u : Nat) {q_ : Bool × List Instr} (hk : State.Ok q_ (State.memq s)) : State.Ok q_ (State.memq (State.emptyUnit s u)) := by
  unfold State.emptyUnit
  (try dsimp only)
  (repeat' split) <;>
    (repeat' first | with_reducible assumption | with_reducible apply State.setColg_ok | fail | with_reducible refine State.each_ok _ _ _ ?_ fun _ _ _ => ?_ | simp only [↓State.modUnit_memq, ↓State.ite_memq, ite_self, State.memq_mk, State.memq_eta] | split | dsimp only)

@[simp] theorem State.newGens_memq (s : State) (e : Nat) : State.memq (State.newGens s e) = State.memq s := by
  unfold State.newGens
  simp

@[simp] theorem State.afterwards_memq (s : State) (e at_ : Nat) : State.memq (State.afterwards s e at_) = State.memq s := by
  unfold State.afterwards
  simp

@[simp] theorem State.fenceEng_memq (s : State) (e : Nat) : State.memq (State.fenceEng s e) = State.memq s := by
  unfold State.fenceEng
  simp

@[simp] theorem State.fenceUnit_ok (s : State) (u : Nat) {q_ : Bool × List Instr} (hk : State.Ok q_ (State.memq s)) : State.Ok q_ (State.memq (State.fenceUnit s u)) := by
  unfold State.fenceUnit
  (try dsimp only)
  (repeat' split) <;>
    (repeat' first | with_reducible assumption | with_reducible apply State.discardUnit_ok | with_reducible apply State.emptyUnit_ok | fail | with_reducible refine State.each_ok _ _ _ ?_ fun _ _ _ => ?_ | simp only [↓State.hwFenceOn_memq, ↓State.discardEng_memq, ↓State.ite_memq, ite_self, State.memq_mk, State.memq_eta] | split | dsimp only)

@[simp] theorem State.fenceLink_ok (s : State) (h : Nat) {q_ : Bool × List Instr} (hk : State.Ok q_ (State.memq s)) : State.Ok q_ (State.memq (State.fenceLink s h)) := by
  unfold State.fenceLink
  simp [hk]

@[simp] theorem State.fenceHio_ok (s : State) (k : Nat) {q_ : Bool × List Instr} (hk : State.Ok q_ (State.memq s)) : State.Ok q_ (State.memq (State.fenceHio s k)) := by
  unfold State.fenceHio
  (try dsimp only)
  (repeat' split) <;>
    (repeat' first | with_reducible assumption | with_reducible apply State.discardUnit_ok | with_reducible apply State.emptyUnit_ok | with_reducible apply State.fenceLink_ok | fail | with_reducible refine State.each_ok _ _ _ ?_ fun _ _ _ => ?_ | simp only [↓State.hwFenceOn_memq, ↓State.discardEng_memq, ↓State.ite_memq, ite_self, State.memq_mk, State.memq_eta] | split | dsimp only)

@[simp] theorem State.fenceLane_memq (s : State) (l : Nat) : State.memq (State.fenceLane s l) = State.memq s := by
  unfold State.fenceLane
  dsimp only
  (repeat' split) <;>
    simp

@[simp] theorem State.fenceOpt_memq (s : State) (e : Nat) : State.memq (State.fenceOpt s e) = State.memq s := by
  unfold State.fenceOpt
  simp

@[simp] theorem State.fencePort_memq (s : State) (p : Nat) : State.memq (State.fencePort s p) = State.memq s := by
  unfold State.fencePort
  simp

theorem State.fenceWhole_memq (s : State) (t : Nat) : ∀ t_, State.fenceWhole s t = some t_ → State.memq t_ = State.memq s := by
  intro t_ ht
  unfold State.fenceWhole at ht
  (try dsimp only at ht)
  (repeat' split at ht)
  all_goals first | (cases ht; done) | (cases ht; simp; done) | (cases ht; with_reducible rfl) | (cases ht; simp [*]; done) | (cases ht; simp +contextual [*]; done) | skip

theorem State.fenceWhole_opt {s : State} {t : Nat} {t_ : State} (h_ : State.fenceWhole s t = some t_) : State.memq t_ = State.memq s :=
  State.fenceWhole_memq s t t_ h_

@[simp] theorem State.fenceWhole_getD (s : State) (t : Nat) : State.memq ((State.fenceWhole s t).getD s) = State.memq s := by
  cases h_ : State.fenceWhole s t with
  | none => rfl
  | some t_ => exact State.fenceWhole_memq s t t_ h_

@[simp] theorem State.loseInput_memq (s : State) (t v : Nat) : State.memq (State.loseInput s t v) = State.memq s := by
  unfold State.loseInput
  simp

@[simp] theorem State.loseMid_memq (s : State) (t v : Nat) : State.memq (State.loseMid s t v) = State.memq s := by
  unfold State.loseMid
  simp

@[simp] theorem State.loseOut_memq (s : State) (t v : Nat) (stg : Bool) : State.memq (State.loseOut s t v stg) = State.memq s := by
  unfold State.loseOut
  simp

@[simp] theorem State.loseReplay_memq (s : State) (t v : Nat) : State.memq (State.loseReplay s t v) = State.memq s := by
  unfold State.loseReplay
  simp

@[simp] theorem State.loseChunks_memq (s : State) (u v : Nat) : State.memq (State.loseChunks s u v) = State.memq s := by
  unfold State.loseChunks
  simp

@[simp] theorem State.loseBank_memq (s : State) (t l : Nat) : State.memq (State.loseBank s t l) = State.memq s := by
  unfold State.loseBank
  simp

theorem State.fenceBank_memq (s : State) (t l : Nat) : ∀ t_, State.fenceBank s t l = some t_ → State.memq t_ = State.memq s := by
  intro t_ ht
  unfold State.fenceBank at ht
  split at ht
  · cases ht; rfl
  · split at ht
    · exact State.fenceWhole_memq s t t_ ht
    · cases ht; rw [State.loseBank_memq, State.memq_mk, State.memq_eta]

theorem State.fenceBank_opt {s : State} {t l : Nat} {t_ : State} (h_ : State.fenceBank s t l = some t_) : State.memq t_ = State.memq s :=
  State.fenceBank_memq s t l t_ h_

@[simp] theorem State.fenceBank_getD (s : State) (t l : Nat) : State.memq ((State.fenceBank s t l).getD s) = State.memq s := by
  cases h_ : State.fenceBank s t l with
  | none => rfl
  | some t_ => exact State.fenceBank_memq s t l t_ h_

@[simp] theorem State.enterSafe_ok (s : State) {q_ : Bool × List Instr} (hk : State.Ok q_ (State.memq s)) : State.Ok q_ (State.memq (State.enterSafe s)) := by
  unfold State.enterSafe
  (try dsimp only)
  (repeat' split) <;>
    (repeat' first | with_reducible assumption | with_reducible apply State.discardUnit_ok | fail | with_reducible refine State.each_ok _ _ _ ?_ fun _ _ _ => ?_ | simp only [↓State.set_memq, ↓State.discardEng_memq, ↓State.aer_memq, ↓State.refreshPins_memq, ↓State.hw_memq, ↓State.ite_memq, ite_self, State.memq_mk, State.memq_eta] | split | dsimp only)

@[simp] theorem State.cpsBoot_memq (s : State) : State.memq (State.cpsBoot s) = State.memq s := by
  unfold State.cpsBoot
  simp

@[simp] theorem State.countDowns_memq (s : State) : State.memq (State.countDowns s) = State.memq s := by
  unfold State.countDowns
  simp

@[simp] theorem State.mainReset_ok (s : State) {q_ : Bool × List Instr} (hk : State.Ok q_ (State.memq s)) : State.Ok q_ (State.memq (State.mainReset s)) := by
  exact ⟨fun _ => rfl, hk.queue⟩

@[simp] theorem State.showPrsnt_memq (s : State) : State.memq (State.showPrsnt s) = State.memq s := by
  unfold State.showPrsnt
  simp

@[simp] theorem State.coldTime_memq (s : State) : State.memq (State.coldTime s) = State.memq s := by
  unfold State.coldTime
  simp

@[simp] theorem State.warmReset_ok (s : State) (any : Bool) {q_ : Bool × List Instr} (hk : State.Ok q_ (State.memq s)) : State.Ok q_ (State.memq (State.warmReset s any)) := by
  unfold State.warmReset
  simp [hk]

@[simp] theorem State.recordWake_memq (s : State) (rung cause : Nat) : State.memq (State.recordWake s rung cause) = State.memq s := by
  unfold State.recordWake
  simp

theorem execColdReset_ok (s : State) {q_ : Bool × List Instr} (hk : State.Ok q_ (State.memq s)) : ∃ r_, execColdReset s = .next r_ ∧ State.Ok q_ (State.memq r_) := by
  refine ⟨_, rfl, ?_⟩
  rw [State.refreshPins_memq, State.cpsBoot_memq, State.showPrsnt_memq]
  exact ⟨fun _ => rfl, hk.queue⟩

theorem execWarmReset_ok (s : State) {q_ : Bool × List Instr} (hk : State.Ok q_ (State.memq s)) : ∃ r_, execWarmReset s = .next r_ ∧ State.Ok q_ (State.memq r_) := by
  unfold execWarmReset
  exact ⟨_, rfl, by simp [hk]⟩

theorem execDevReset_ok (key : Nat) (s : State) {q_ : Bool × List Instr} (hk : State.Ok q_ (State.memq s)) : ∃ r_, execDevReset key s = .next r_ ∧ State.Ok q_ (State.memq r_) := by
  unfold execDevReset
  (repeat' split) <;>
    exact ⟨_, rfl, by simp [hk]⟩

theorem execPwrGoodFall_ok (s : State) {q_ : Bool × List Instr} (hk : State.Ok q_ (State.memq s)) : ∃ r_, execPwrGoodFall s = .next r_ ∧ State.Ok q_ (State.memq r_) := by
  unfold execPwrGoodFall
  (repeat' split) <;>
    exact ⟨_, rfl, by simp [hk]⟩

theorem execPwrGoodRise_ok (mainOut : Bool) (hio : List (Fin 4)) (opt : List (Fin 16)) (s : State) {q_ : Bool × List Instr} (hk : State.Ok q_ (State.memq s)) : ∃ r_, execPwrGoodRise mainOut hio opt s = .next r_ ∧ State.Ok q_ (State.memq r_) := by
  unfold execPwrGoodRise
  (try dsimp only)
  (repeat' split) <;>
    exact ⟨_, rfl, by repeat' first | with_reducible assumption | with_reducible apply State.fenceHio_ok | with_reducible apply State.enterSafe_ok | fail | with_reducible refine State.each_ok _ _ _ ?_ fun _ _ _ => ?_ | simp only [↓State.raiseCap_memq, ↓State.fenceOpt_memq, ↓State.raise_memq, ↓State.ite_memq, ite_self, State.memq_mk, State.memq_eta] | split | dsimp only⟩

theorem execRestoreStart_memq (faultMode : Bool) (s : State) : ∃ r_, execRestoreStart faultMode s = .next r_ ∧ State.memq r_ = State.memq s := by
  unfold execRestoreStart
  (repeat' split) <;>
    exact ⟨_, rfl, by simp⟩

@[simp] theorem State.applyRepair_memq (s : State) : State.memq (State.applyRepair s) = State.memq s := by
  unfold State.applyRepair
  refine State.each_memq _ _ _ fun s r => ?_
  dsimp only
  split
  · cases hf : State.fenceBank s (bankHome r.1).1 (bankHome r.1).2 with
    | none => rfl
    | some t => exact State.fenceBank_memq _ _ _ t hf
  · rfl

theorem execRestorePhase1Done_memq (s : State) : ∃ r_, execRestorePhase1Done s = .next r_ ∧ State.memq r_ = State.memq s := by
  unfold execRestorePhase1Done
  dsimp only
  (repeat' split) <;>
    exact ⟨_, rfl, by simp⟩

theorem execRestoreDone_ok (s : State) {q_ : Bool × List Instr} (hk : State.Ok q_ (State.memq s)) : ∃ r_, execRestoreDone s = .next r_ ∧ State.Ok q_ (State.memq r_) := by
  have key : ∀ (l : List (Nat × Byte)) (m : Memory), m.wf = true → (loadTables l m).wf = true := by
    intro l
    induction l with
    | nil => intro m hm; exact hm
    | cons c l ih =>
      intro m hm
      refine ih _ ?_
      dsimp only
      split
      · exact Memory.write_wf _ _ _ (Memory.write_wf _ _ _ hm)
      · exact Memory.write_wf _ _ _ hm
  unfold execRestoreDone
  split
  · refine ⟨_, rfl, ?_⟩
    rw [State.refreshPins_memq]
    rw [State.each_memq _ State.enablePort _ (fun _ _ => State.enablePort_memq _ _)]
    rw [State.each_memq _ _ _ (fun _ _ => State.set_memq _ _ _ _ _ _)]
    rw [State.setFlag_memq, State.raise_memq, State.set_memq, State.memq_mk, State.memq_eta]
    split
    · exact ⟨fun b => key _ _ (hk.wf b), hk.queue⟩
    · exact hk
  · exact ⟨s, rfl, hk⟩

end Sys2Proof.Machine
end

