-- ==== Sys2Proof/Laws/MemFault.lean ====
section
/-!
SUPPORT. What the operations of Machine/Fault.lean do to table-space memory: nothing, or they keep its canonical form.
-/
namespace Sys2Proof.Machine
open Sys2Proof

set_option linter.unusedSimpArgs false

theorem State.okOpt_ite {q : Bool × List Instr} (c : Prop) [Decidable c] {a b : Option State} (ha : ∀ t, a = some t → State.Ok q t.memq)
    (hb : ∀ t, b = some t → State.Ok q t.memq) : ∀ t, (if c then a else b) = some t → State.Ok q t.memq := by
  split
  · exact ha
  · exact hb

theorem State.okOpt_some {q : Bool × List Instr} {a : State} (ha : State.Ok q a.memq) : ∀ t, some a = some t → State.Ok q t.memq := by
  intro t ht
  injection ht with ht
  rw [← ht]; exact ha

theorem State.degradeTile_memq (s : State) (a : Arrival) : ∀ t_, State.degradeTile s a = some t_ → State.memq t_ = State.memq s := by
  intro t_ ht
  unfold State.degradeTile at ht
  generalize bankHome (bits a.cap.addr 13 14) = b at ht
  obtain ⟨t, l⟩ := b
  dsimp only at ht
  split at ht
  · cases hf : s.fenceBank t l with
    | none => rw [hf] at ht; cases ht
    | some u =>
      rw [hf] at ht
      simp only [Option.map_some, Option.some.injEq] at ht
      have hu := State.fenceBank_memq s t l u hf
      split at ht
      · rw [← ht, State.memq_mk, State.memq_eta, hu]
      · rw [← ht, hu]
  · exact State.fenceWhole_memq _ _ _ ht

theorem State.degradeTile_opt {s : State} {a : Arrival} {t_ : State} (h_ : State.degradeTile s a = some t_) : State.memq t_ = State.memq s :=
  State.degradeTile_memq s a t_ h_

@[simp] theorem State.degradeTile_getD (s : State) (a : Arrival) : State.memq ((State.degradeTile s a).getD s) = State.memq s := by
  cases h_ : State.degradeTile s a with
  | none => rfl
  | some t_ => exact State.degradeTile_memq s a t_ h_

@[simp] theorem State.degradeUnit_ok (s : State) (a : Arrival) {q_ : Bool × List Instr} (hk : State.Ok q_ (State.memq s)) : State.Ok q_ (State.memq (State.degradeUnit s a)) := by
  unfold State.degradeUnit
  generalize bankHome (bits a.cap.addr 13 14) = b
  obtain ⟨t, l⟩ := b
  dsimp only
  split
  · have hu := State.fenceBank_getD s t l
    generalize (s.fenceBank t l).getD s = u at hu ⊢
    split
    · rw [State.memq_mk, State.memq_eta, hu]; exact hk
    · rw [hu]; exact hk
  · exact State.fenceUnit_ok _ _ hk

@[simp] theorem State.fenceBlock_memq (s : State) (cls : Nat) : State.memq (State.fenceBlock s cls) = State.memq s := by
  unfold State.fenceBlock
  simp

theorem State.degradeOf_ok (s : State) (a : Arrival) {q_ : Bool × List Instr} (hk : State.Ok q_ (State.memq s)) : ∀ t_, State.degradeOf s a = some t_ → State.Ok q_ (State.memq t_) := by
  unfold State.degradeOf
  refine State.okOpt_ite _ (State.okOpt_some (by rw [State.fenceLane_memq]; exact hk)) ?_
  refine State.okOpt_ite _ (State.okOpt_some (by rw [State.fenceOpt_memq]; exact hk)) ?_
  refine State.okOpt_ite _ (State.okOpt_some (by rw [State.fencePort_memq]; exact hk)) ?_
  refine State.okOpt_ite _ (fun t ht => by rw [State.degradeTile_memq s a t ht]; exact hk) ?_
  refine State.okOpt_ite _ (State.okOpt_some (by rw [State.fenceEng_memq]; exact hk)) ?_
  refine State.okOpt_ite _ (State.okOpt_some (State.degradeUnit_ok _ _ hk)) ?_
  refine State.okOpt_ite _ (State.okOpt_some (State.fenceUnit_ok _ _ hk)) ?_
  refine State.okOpt_ite _ (State.okOpt_some (State.fenceLink_ok _ _ hk)) ?_
  refine State.okOpt_ite _ (State.okOpt_some (by rw [State.fenceBlock_memq]; exact hk)) ?_
  refine State.okOpt_ite _ (State.okOpt_some (State.fenceHio_ok _ _ hk)) ?_
  refine State.okOpt_ite _ (State.okOpt_some (by rw [State.fenceOpt_memq]; exact hk)) ?_
  intro t ht
  cases ht

theorem State.degradeOf_okopt {s : State} {a : Arrival} {t_ : State} {q_ : Bool × List Instr} (h_ : State.degradeOf s a = some t_) (hk : State.Ok q_ (State.memq s)) : State.Ok q_ (State.memq t_) :=
  State.degradeOf_ok s a hk t_ h_

@[simp] theorem State.notify_memq (s : State) (vec : Nat) : State.memq (State.notify s vec) = State.memq s := by
  unfold State.notify
  simp

@[simp] theorem State.globalCapture_memq (s : State) (a : Arrival) (sev : Nat) : State.memq (State.globalCapture s a sev) = State.memq s := by
  unfold State.globalCapture
  simp

@[simp] theorem State.recordFatal_memq (s : State) (a : Arrival) : State.memq (State.recordFatal s a) = State.memq s := by
  unfold State.recordFatal
  simp

@[simp] theorem State.countSlot_memq (s : State) (k : Nat) : State.memq (State.countSlot s k) = State.memq s := by
  unfold State.countSlot
  simp

@[simp] theorem State.bookEvent_memq (s : State) (a : Arrival) (sev : Nat) : State.memq (State.bookEvent s a sev) = State.memq s := by
  unfold State.bookEvent
  dsimp only
  (repeat' split) <;>
    simp

@[simp] theorem State.degradeDone_memq (s : State) : State.memq (State.degradeDone s) = State.memq s := by
  unfold State.degradeDone
  simp

theorem execFaultEvent_ok (s : State) {q_ : Bool × List Instr} (hk : State.Ok q_ (State.memq s)) : ∃ r_, execFaultEvent s = .next r_ ∧ State.Ok q_ (State.memq r_) := by
  unfold execFaultEvent
  split
  · exact ⟨_, rfl, hk⟩
  · next a _ =>
    extract_lets c0 s1 lost fence sev s2 c1 s3 s4
    refine ⟨_, rfl, ?_⟩
    rw [State.refreshPins_memq, State.settleAll_memq]
    have h1 : State.Ok q_ s1.memq := hk
    have h2 : State.Ok q_ s2.memq := by
      cases hf : fence with
      | none => simp only [s2, hf]; exact h1
      | some t =>
        simp only [s2, hf]
        rw [State.degradeDone_memq]
        have hf' : (if a.sev = 3 then s1.degradeOf a else none) = some t := hf
        split at hf'
        · exact State.degradeOf_ok _ _ h1 _ hf'
        · cases hf'
    have h3 : State.Ok q_ s3.memq := by
      simp only [s3]
      split
      · rw [State.count_memq]; exact h2
      · rw [State.bookEvent_memq, State.memq_mk, State.memq_eta]; exact h2
    simp only [s4]
    split
    · exact State.enterSafe_ok _ h3
    · exact h3

theorem execRepairEntryAdd_memq (s : State) : ∃ r_, execRepairEntryAdd s = .next r_ ∧ State.memq r_ = State.memq s := by
  unfold execRepairEntryAdd
  dsimp only
  (repeat' split) <;>
    exact ⟨_, rfl, by simp⟩

@[simp] theorem State.scrubPass_memq (s : State) : State.memq (State.scrubPass s) = State.memq s := by
  unfold State.scrubPass
  simp

theorem execScrubRead_memq (bank : Fin 10496) (word : Fin 8192) (bad : Fin 3) (last : Bool) (s : State) : ∃ r_, execScrubRead bank word bad last s = .next r_ ∧ State.memq r_ = State.memq s := by
  unfold execScrubRead
  (repeat' split) <;>
    exact ⟨_, rfl, by simp⟩

theorem execCfgCheck_memq (cls : Fin 31) (i : Fin 1024) (off : Fin 512) (bad : Bool) (s : State) : ∃ r_, execCfgCheck cls i off bad s = .next r_ ∧ State.memq r_ = State.memq s := by
  unfold execCfgCheck
  (repeat' split) <;>
    exact ⟨_, rfl, by simp⟩

@[simp] theorem State.closeInCore_memq (s : State) (t out id : Nat) : State.memq (State.closeInCore s t out id) = State.memq s := by
  unfold State.closeInCore
  (repeat' split) <;>
    simp

@[simp] theorem State.dropLeaving_memq (s : State) (p k : Nat) : State.memq (State.dropLeaving s p k) = State.memq s := by
  unfold State.dropLeaving
  (repeat' split) <;>
    simp

@[simp] theorem State.dropHanded_memq (s : State) (e k : Nat) : State.memq (State.dropHanded s e k) = State.memq s := by
  unfold State.dropHanded
  (repeat' split) <;>
    simp

@[simp] theorem State.granuleErr_memq (s : State) (x : GranuleErr) : State.memq (State.granuleErr s x) = State.memq s := by
  unfold State.granuleErr
  (repeat' split) <;>
    simp

theorem execCellSlot_memq (errs : List GranuleErr) (s : State) : ∃ r_, execCellSlot errs s = .next r_ ∧ State.memq r_ = State.memq s := by
  unfold execCellSlot
  exact ⟨_, rfl, by simp⟩

theorem execThermWarn_memq (temp : Nat) (s : State) : ∃ r_, execThermWarn temp s = .next r_ ∧ State.memq r_ = State.memq s := by
  unfold execThermWarn
  (repeat' split) <;>
    exact ⟨_, rfl, by simp⟩

theorem execThermTrip_memq (temp : Nat) (s : State) : ∃ r_, execThermTrip temp s = .next r_ ∧ State.memq r_ = State.memq s := by
  unfold execThermTrip
  (repeat' split) <;>
    exact ⟨_, rfl, by simp⟩

theorem execRailFault_memq (g : RailGroup) (s : State) : ∃ r_, execRailFault g s = .next r_ ∧ State.memq r_ = State.memq s := by
  unfold execRailFault
  (repeat' split) <;>
    exact ⟨_, rfl, by simp⟩

theorem execRefclkLoss_memq (s : State) : ∃ r_, execRefclkLoss s = .next r_ ∧ State.memq r_ = State.memq s := by
  unfold execRefclkLoss
  exact ⟨_, rfl, by simp⟩

@[simp] theorem State.watchdog_memq (s : State) (c : Capture) : State.memq (State.watchdog s c) = State.memq s := by
  unfold State.watchdog
  simp

theorem execCpWatchdog_memq (s : State) : ∃ r_, execCpWatchdog s = .next r_ ∧ State.memq r_ = State.memq s := by
  unfold execCpWatchdog
  (repeat' split) <;>
    exact ⟨_, rfl, by simp⟩

@[simp] theorem State.collectorErr_ok (s : State) (c : Capture) {q_ : Bool × List Instr} (hk : State.Ok q_ (State.memq s)) : State.Ok q_ (State.memq (State.collectorErr s c)) := by
  unfold State.collectorErr
  dsimp only
  (repeat' split) <;>
    simp [hk]

theorem execCollectorErr_ok (s : State) {q_ : Bool × List Instr} (hk : State.Ok q_ (State.memq s)) : ∃ r_, execCollectorErr s = .next r_ ∧ State.Ok q_ (State.memq r_) := by
  unfold execCollectorErr
  exact ⟨_, rfl, by simp [hk]⟩

theorem execHeartbeatEdge_memq (s : State) : ∃ r_, execHeartbeatEdge s = .next r_ ∧ State.memq r_ = State.memq s := by
  unfold execHeartbeatEdge
  (repeat' split) <;>
    exact ⟨_, rfl, by simp⟩

theorem execFaultPulseEnd_memq (s : State) : ∃ r_, execFaultPulseEnd s = .next r_ ∧ State.memq r_ = State.memq s := by
  unfold execFaultPulseEnd
  (repeat' split) <;>
    exact ⟨_, rfl, by simp⟩

end Sys2Proof.Machine
end

