-- ==== Sys2Proof/Laws/MemPower.lean ====
section
/-!
SUPPORT. What the operations of Machine/Power.lean do to table-space memory: nothing, or they keep its canonical form.
-/
namespace Sys2Proof.Machine
open Sys2Proof

set_option linter.unusedSimpArgs false

@[simp] theorem State.enterTile_memq (s : State) (t rung : Nat) : State.memq (State.enterTile s t rung) = State.memq s := by
  unfold State.enterTile
  simp

theorem State.tryTile_memq (s : State) (t : Nat) : ∀ t_, State.tryTile s t = some t_ → State.memq t_ = State.memq s := by
  intro t_ ht
  unfold State.tryTile at ht
  (try dsimp only at ht)
  (repeat' split at ht)
  all_goals first | (cases ht; done) | (cases ht; simp; done) | (cases ht; with_reducible rfl) | (cases ht; simp [*]; done) | (cases ht; simp +contextual [*]; done) | skip

theorem State.tryTile_opt {s : State} {t : Nat} {t_ : State} (h_ : State.tryTile s t = some t_) : State.memq t_ = State.memq s :=
  State.tryTile_memq s t t_ h_

@[simp] theorem State.tryTile_getD (s : State) (t : Nat) : State.memq ((State.tryTile s t).getD s) = State.memq s := by
  cases h_ : State.tryTile s t with
  | none => rfl
  | some t_ => exact State.tryTile_memq s t t_ h_

theorem execTileRungCmd_memq (t : Fin 72) (rung : Fin 8) (s : State) : ∃ r_, execTileRungCmd t rung s = .next r_ ∧ State.memq r_ = State.memq s := by
  unfold execTileRungCmd
  (try dsimp only)
  (repeat' split) <;>
    exact ⟨_, rfl, by repeat first | rw [State.tryTile_opt ‹_›] | rw [State.tryTile_getD] | simp⟩

theorem execTileRungEntry_memq (t : Fin 72) (s : State) : ∃ r_, execTileRungEntry t s = .next r_ ∧ State.memq r_ = State.memq s := by
  unfold execTileRungEntry
  (repeat' split) <;>
    exact ⟨_, rfl, by simp⟩

theorem execTileAutoEntry_memq (t : Fin 64) (s : State) : ∃ r_, execTileAutoEntry t s = .next r_ ∧ State.memq r_ = State.memq s := by
  unfold execTileAutoEntry
  dsimp only
  (repeat' split) <;>
    exact ⟨_, rfl, by simp⟩

@[simp] theorem State.rungRefused_memq (s : State) (cause : Nat) : State.memq (State.rungRefused s cause) = State.memq s := by
  unfold State.rungRefused
  simp

@[simp] theorem State.portForRung_memq (s : State) (rung p : Nat) : State.memq (State.portForRung s rung p) = State.memq s := by
  unfold State.portForRung
  simp

@[simp] theorem State.wakeDevice_ok (s : State) (cause : Nat) {q_ : Bool × List Instr} (hk : State.Ok q_ (State.memq s)) : State.Ok q_ (State.memq (State.wakeDevice s cause)) := by
  unfold State.wakeDevice
  dsimp only
  (repeat' split) <;>
    simp [hk]

theorem execDeviceRungCmd_ok (rung : Fin 8) (s : State) {q_ : Bool × List Instr} (hk : State.Ok q_ (State.memq s)) : ∃ r_, execDeviceRungCmd rung s = .next r_ ∧ State.Ok q_ (State.memq r_) := by
  unfold execDeviceRungCmd
  dsimp only
  (repeat' split) <;>
    exact ⟨_, rfl, by simp [hk]⟩

theorem execDeviceRungArrival_memq (s : State) : ∃ r_, execDeviceRungArrival s = .next r_ ∧ State.memq r_ = State.memq s := by
  unfold execDeviceRungArrival
  (repeat' split) <;>
    exact ⟨_, rfl, by simp⟩

theorem execDeviceWake_ok (w : WakeSource) (s : State) {q_ : Bool × List Instr} (hk : State.Ok q_ (State.memq s)) : ∃ r_, execDeviceWake w s = .next r_ ∧ State.Ok q_ (State.memq r_) := by
  unfold execDeviceWake
  (repeat' split) <;>
    exact ⟨_, rfl, by simp [hk]⟩

@[simp] theorem State.tileInRun_memq (s : State) (t : Nat) : State.memq (State.tileInRun s t) = State.memq s := by
  unfold State.tileInRun
  simp

@[simp] theorem State.portWakes_memq (s : State) (p : Nat) : State.memq (State.portWakes s p) = State.memq s := by
  unfold State.portWakes
  simp

theorem execRungExitDone_memq (u : RungUnit) (s : State) : ∃ r_, execRungExitDone u s = .next r_ ∧ State.memq r_ = State.memq s := by
  unfold execRungExitDone
  (repeat' split) <;>
    exact ⟨_, rfl, by simp⟩

end Sys2Proof.Machine
end

