-- ==== Sys2Proof/Laws/MemAlmanac.lean ====
section
/-!
SUPPORT. What the operations of Machine/Almanac.lean do to table-space memory: nothing, or they keep its canonical form.
-/
namespace Sys2Proof.Machine
open Sys2Proof

set_option linter.unusedSimpArgs false

@[simp] theorem State.ownerRefused_memq (s : State) : State.memq (State.ownerRefused s) = State.memq s := by
  unfold State.ownerRefused
  simp

@[simp] theorem State.ownerDo_memq (s : State) (m : Master) (f : State → State) (hf : ∀ t, State.memq (f t) = State.memq t) :
    State.memq (State.ownerDo s m f) = State.memq s := by
  unfold State.ownerDo
  split
  · exact (hf _).trans (State.count_memq _ _ _ _ _ _)
  · exact State.ownerRefused_memq s

@[simp] theorem State.setOwner_memq (s : State) (r : OwnerReg) (v : Nat) : State.memq (State.setOwner s r v) = State.memq s := by
  unfold State.setOwner
  (repeat' split) <;>
    simp

theorem execOwnerWrite_memq (m : Master) (r : OwnerReg) (v : Nat) (s : State) : ∃ r_, execOwnerWrite m r v s = .next r_ ∧ State.memq r_ = State.memq s := by
  unfold execOwnerWrite
  (repeat' split) <;>
    exact ⟨_, rfl, by simp⟩

theorem execPresenceEdge_memq (low : Bool) (s : State) : ∃ r_, execPresenceEdge low s = .next r_ ∧ State.memq r_ = State.memq s := by
  unfold execPresenceEdge
  (repeat' split) <;>
    exact ⟨_, rfl, by simp⟩

theorem execPresenceWindowExpiry_memq (s : State) : ∃ r_, execPresenceWindowExpiry s = .next r_ ∧ State.memq r_ = State.memq s := by
  unfold execPresenceWindowExpiry
  (repeat' split) <;>
    exact ⟨_, rfl, by simp⟩

theorem execSealMismatch_memq (xfer : Bool) (s : State) : ∃ r_, execSealMismatch xfer s = .next r_ ∧ State.memq r_ = State.memq s := by
  unfold execSealMismatch
  exact ⟨_, rfl, by simp⟩

theorem execFuseProg_memq (m : Master) (s : State) : ∃ r_, execFuseProg m s = .next r_ ∧ State.memq r_ = State.memq s := by
  unfold execFuseProg
  (repeat' split) <;>
    exact ⟨_, rfl, by simp⟩

theorem execProgDone_memq (ok : Bool) (s : State) : ∃ r_, execProgDone ok s = .next r_ ∧ State.memq r_ = State.memq s := by
  unfold execProgDone
  (repeat' split) <;>
    exact ⟨_, rfl, by simp⟩

theorem execDebugUnlock_memq (m : Master) (s : State) : ∃ r_, execDebugUnlock m s = .next r_ ∧ State.memq r_ = State.memq s := by
  unfold execDebugUnlock
  (repeat' split) <;>
    exact ⟨_, rfl, by simp⟩

@[simp] theorem State.almStart_memq (s : State) (op slot arg : Nat) (snap : Option Snapshot) : State.memq (State.almStart s op slot arg snap) = State.memq s := by
  unfold State.almStart
  simp

@[simp] theorem State.almFields_memq (s : State) (op slot arg : Nat) : State.memq (State.almFields s op slot arg) = State.memq s := by
  unfold State.almFields
  simp

theorem execCommit_memq (slot : Fin 4) (s : State) : ∃ r_, execCommit slot s = .next r_ ∧ State.memq r_ = State.memq s := by
  unfold execCommit
  dsimp only
  (repeat' split) <;>
    exact ⟨_, rfl, by simp⟩

theorem execRepairClear_memq (arg : Fin 65536) (s : State) : ∃ r_, execRepairClear arg s = .next r_ ∧ State.memq r_ = State.memq s := by
  unfold execRepairClear
  (repeat' split) <;>
    exact ⟨_, rfl, by simp⟩

theorem execErase_memq (m : Master) (mask : Fin 65536) (s : State) : ∃ r_, execErase m mask s = .next r_ ∧ State.memq r_ = State.memq s := by
  unfold execErase
  (repeat' split) <;>
    exact ⟨_, rfl, by simp⟩

theorem execUcode_memq (arg : Fin 65536) (s : State) : ∃ r_, execUcode arg s = .next r_ ∧ State.memq r_ = State.memq s := by
  unfold execUcode
  dsimp only
  (repeat' split) <;>
    exact ⟨_, rfl, by simp⟩

@[simp] theorem State.calWrite_memq (s : State) (fields : Tab Nat) : State.memq (State.calWrite s fields) = State.memq s := by
  unfold State.calWrite
  simp

@[simp] theorem State.commitEnd_memq (s : State) (c : AlmCmd) (ok : Bool) : State.memq (State.commitEnd s c ok) = State.memq s := by
  unfold State.commitEnd
  (repeat' split) <;>
    simp

@[simp] theorem State.eraseEnd_memq (s : State) (mask : Nat) : State.memq (State.eraseEnd s mask) = State.memq s := by
  unfold State.eraseEnd
  simp

@[simp] theorem State.ucodeEnd_ok (s : State) (e : Nat) {q_ : Bool × List Instr} (hk : State.Ok q_ (State.memq s)) : State.Ok q_ (State.memq (State.ucodeEnd s e)) := by
  unfold State.ucodeEnd
  (repeat' split) <;>
    simp [hk]

theorem execAlmCmdEnd_ok (ok : Bool) (s : State) {q_ : Bool × List Instr} (hk : State.Ok q_ (State.memq s)) : ∃ r_, execAlmCmdEnd ok s = .next r_ ∧ State.Ok q_ (State.memq r_) := by
  unfold execAlmCmdEnd
  (repeat' split) <;>
    exact ⟨_, rfl, by simp [hk]⟩

@[simp] theorem State.relight_memq (s : State) (lanes : List Nat) : State.memq (State.relight s lanes) = State.memq s := by
  unfold State.relight
  simp

theorem State.lift_memq (s : State) (cls i : Nat) : ∀ t_, State.lift s cls i = some t_ → State.memq t_ = State.memq s := by
  intro t_ ht
  unfold State.lift at ht
  (try dsimp only at ht)
  (repeat' split at ht)
  all_goals first | (cases ht; done) | (cases ht; simp; done) | (cases ht; with_reducible rfl) | (cases ht; simp [*]; done) | (cases ht; simp +contextual [*]; done) | skip

theorem State.lift_opt {s : State} {cls i : Nat} {t_ : State} (h_ : State.lift s cls i = some t_) : State.memq t_ = State.memq s :=
  State.lift_memq s cls i t_ h_

@[simp] theorem State.lift_getD (s : State) (cls i : Nat) : State.memq ((State.lift s cls i).getD s) = State.memq s := by
  cases h_ : State.lift s cls i with
  | none => rfl
  | some t_ => exact State.lift_memq s cls i t_ h_

theorem State.liftBank_memq (s : State) (n : Nat) : ∀ t_, State.liftBank s n = some t_ → State.memq t_ = State.memq s := by
  intro t_ ht
  unfold State.liftBank at ht
  (try dsimp only at ht)
  (repeat' split at ht)
  all_goals first | (cases ht; done) | (cases ht; simp; done) | (cases ht; with_reducible rfl) | (cases ht; simp [*]; done) | (cases ht; simp +contextual [*]; done) | skip

theorem State.liftBank_opt {s : State} {n : Nat} {t_ : State} (h_ : State.liftBank s n = some t_) : State.memq t_ = State.memq s :=
  State.liftBank_memq s n t_ h_

@[simp] theorem State.liftBank_getD (s : State) (n : Nat) : State.memq ((State.liftBank s n).getD s) = State.memq s := by
  cases h_ : State.liftBank s n with
  | none => rfl
  | some t_ => exact State.liftBank_memq s n t_ h_

theorem execAlmUnfence_memq (cls : Fin 64) (i : Fin 1024) (bank : Fin 16384) (scope : Fin 4) (s : State) : ∃ r_, execAlmUnfence cls i bank scope s = .next r_ ∧ State.memq r_ = State.memq s := by
  unfold execAlmUnfence
  split
  · exact ⟨_, rfl, rfl⟩
  · dsimp only
    generalize hu : ((((s.set F.ALM_UNFENCE_CLASS cls).set F.ALM_UNFENCE_INSTANCE i).set F.ALM_UNFENCE_BANK bank).set F.ALM_UNFENCE_SCOPE
      scope) = u
    have h0 : State.memq u = State.memq s := by rw [← hu]; simp only [State.set_memq]
    split
    · exact ⟨_, rfl, by rw [State.set_memq, h0]⟩
    · split
      · next t ht =>
        refine ⟨_, rfl, ?_⟩
        rw [State.raise_memq, State.set_memq, ← h0]
        split at ht
        · split at ht
          · exact State.lift_memq _ _ _ t ht
          · cases ht
        · split at ht
          · exact State.liftBank_memq _ _ t ht
          · cases ht
      · exact ⟨_, rfl, by rw [State.set_memq, h0]⟩

theorem execRefusalPeriodEnd_memq (e : Fin 32) (s : State) : ∃ r_, execRefusalPeriodEnd e s = .next r_ ∧ State.memq r_ = State.memq s := by
  unfold execRefusalPeriodEnd
  (repeat' split) <;>
    exact ⟨_, rfl, by simp⟩

theorem execInjectPauseEnd_memq (e : Fin 32) (s : State) : ∃ r_, execInjectPauseEnd e s = .next r_ ∧ State.memq r_ = State.memq s := by
  unfold execInjectPauseEnd
  (repeat' split) <;>
    exact ⟨_, rfl, by simp⟩

theorem execFwImageAccept_memq (version : Fin 65536) (crc : Bool) (s : State) : ∃ r_, execFwImageAccept version crc s = .next r_ ∧ State.memq r_ = State.memq s := by
  unfold execFwImageAccept
  dsimp only
  (repeat' split) <;>
    exact ⟨_, rfl, by simp⟩

theorem execFwRestart_memq (s : State) : ∃ r_, execFwRestart s = .next r_ ∧ State.memq r_ = State.memq s := by
  unfold execFwRestart
  (repeat' split) <;>
    exact ⟨_, rfl, by simp⟩

theorem execCpRestartDone_memq (s : State) : ∃ r_, execCpRestartDone s = .next r_ ∧ State.memq r_ = State.memq s := by
  unfold execCpRestartDone
  (repeat' split) <;>
    exact ⟨_, rfl, by simp⟩

end Sys2Proof.Machine
end

