-- ==== Sys2Proof/Laws/MemRegRead.lean ====
section
/-!
SUPPORT. What the operations of Machine/RegRead.lean do to table-space memory: nothing, or they keep its canonical form.
-/
namespace Sys2Proof.Machine
open Sys2Proof

set_option linter.unusedSimpArgs false

@[simp] theorem State.regRead_memq (s : State) (o : Nat) (h : Half) : State.memq ((State.regRead s o h).1) = State.memq s := by
  unfold State.regRead
  simp

theorem State.regRead_pair {s : State} {o : Nat} {h : Half} {t_ : State} {a_ : Nat} (h_ : State.regRead s o h = (t_, a_)) : State.memq t_ = State.memq s := by
  have := State.regRead_memq s o h
  rwa [h_] at this

end Sys2Proof.Machine
end

