-- ==== Sys2Proof/Laws/MemMbox.lean ====
section
/-!
SUPPORT. What the operations of Machine/Mbox.lean do to table-space memory: nothing, or they keep its canonical form.
-/
namespace Sys2Proof.Machine
open Sys2Proof

set_option linter.unusedSimpArgs false

@[simp] theorem State.mgtSend_memq (s : State) (q : Packet) : State.memq (State.mgtSend s q) = State.memq s := by
  unfold State.mgtSend
  simp

theorem execMgtMboxGo_memq (s : State) : ∃ r_, execMgtMboxGo s = .next r_ ∧ State.memq r_ = State.memq s := by
  unfold execMgtMboxGo
  (repeat' split) <;>
    exact ⟨_, rfl, by simp⟩

@[simp] theorem State.mboxDone_memq (s : State) (status : Nat) : State.memq (State.mboxDone s status) = State.memq s := by
  unfold State.mboxDone
  simp

theorem execMgtMboxResend_memq (s : State) : ∃ r_, execMgtMboxResend s = .next r_ ∧ State.memq r_ = State.memq s := by
  unfold execMgtMboxResend
  (repeat' split) <;>
    exact ⟨_, rfl, by simp⟩

theorem State.mgtTake_memq {s : State} {q : Packet} {n : Nat} {t_ : State} (h_ : State.mgtTake s q = some (n, t_)) :
    State.memq t_ = State.memq s := by
  unfold State.mgtTake at h_
  split at h_
  · cases h_; rw [State.memq_mk, State.memq_eta]
  · cases h_

@[simp] theorem State.mboxStore_memq (s : State) (q : Packet) : State.memq (State.mboxStore s q) = State.memq s := by
  unfold State.mboxStore
  simp

theorem execResponse_memq (q : Packet) (s : State) : ∃ r_, execResponse q s = .next r_ ∧ State.memq r_ = State.memq s := by
  unfold execResponse
  split
  · split
    · next n t ht =>
      have h0 := State.mgtTake_memq ht
      split
      · split
        · exact ⟨_, rfl, by rw [State.mboxDone_memq, State.mboxStore_memq, h0]⟩
        · exact ⟨_, rfl, h0⟩
      · exact ⟨_, rfl, h0⟩
    · exact ⟨_, rfl, rfl⟩
  · exact ⟨_, rfl, rfl⟩

theorem execReplyCacheExpiry_memq (src tag : Nat) (s : State) : ∃ r_, execReplyCacheExpiry src tag s = .next r_ ∧ State.memq r_ = State.memq s := by
  unfold execReplyCacheExpiry
  exact ⟨_, rfl, by simp⟩

end Sys2Proof.Machine
end

