-- ==== Sys2Proof/Laws/MemRegs.lean ====
section
/-!
SUPPORT. What the operations of Machine/Regs.lean do to table-space memory: nothing, or they keep its canonical form.
-/
namespace Sys2Proof.Machine
open Sys2Proof

set_option linter.unusedSimpArgs false

@[simp] theorem execCntClr_did_memq (cls : Fin 31) (i : Fin 1024) (s : State) (u_ : State) : State.memq (u_.did (execCntClr cls i s)) = State.memq s := by
  obtain ⟨r, hr, hm⟩ := execCntClr_memq cls i s
  rw [hr]; exact hm

theorem execEpochAtWrite_did_ok (cls : Fin 31) (i : Fin 1024) (t : Nat) (s : State) (u_ : State) {q_ : Bool × List Instr} (hk : State.Ok q_ (State.memq s)) : State.Ok q_ (State.memq (u_.did (execEpochAtWrite cls i t s))) := by
  obtain ⟨r, hr, hm⟩ := execEpochAtWrite_ok cls i t s hk
  rw [hr]; exact hm

theorem execPmcSnapNow_did_ok (cls : Fin 31) (i : Fin 1024) (s : State) (u_ : State) {q_ : Bool × List Instr} (hk : State.Ok q_ (State.memq s)) : State.Ok q_ (State.memq (u_.did (execPmcSnapNow cls i s))) := by
  obtain ⟨r, hr, hm⟩ := execPmcSnapNow_ok cls i s hk
  rw [hr]; exact hm

@[simp] theorem execShadowCommit_did_memq (cls : Fin 31) (i : Fin 1024) (s : State) (u_ : State) : State.memq (u_.did (execShadowCommit cls i s)) = State.memq s := by
  obtain ⟨r, hr, hm⟩ := execShadowCommit_memq cls i s
  rw [hr]; exact hm

theorem execShadowDiscard_did_ok (cls : Fin 31) (i : Fin 1024) (s : State) (u_ : State) {q_ : Bool × List Instr} (hk : State.Ok q_ (State.memq s)) : State.Ok q_ (State.memq (u_.did (execShadowDiscard cls i s))) := by
  obtain ⟨r, hr, hm⟩ := execShadowDiscard_ok cls i s hk
  rw [hr]; exact hm

theorem execShadowDisarm_did_ok (cls : Fin 31) (i : Fin 1024) (s : State) (u_ : State) {q_ : Bool × List Instr} (hk : State.Ok q_ (State.memq s)) : State.Ok q_ (State.memq (u_.did (execShadowDisarm cls i s))) := by
  obtain ⟨r, hr, hm⟩ := execShadowDisarm_ok cls i s hk
  rw [hr]; exact hm

theorem execDevReset_did_ok (key : Nat) (s : State) (u_ : State) {q_ : Bool × List Instr} (hk : State.Ok q_ (State.memq s)) : State.Ok q_ (State.memq (u_.did (execDevReset key s))) := by
  obtain ⟨r, hr, hm⟩ := execDevReset_ok key s hk
  rw [hr]; exact hm

@[simp] theorem execDevSelfWrite_did_memq (v : Nat) (s : State) (u_ : State) : State.memq (u_.did (execDevSelfWrite v s)) = State.memq s := by
  obtain ⟨r, hr, hm⟩ := execDevSelfWrite_memq v s
  rw [hr]; exact hm

@[simp] theorem execMtSrcWrite_did_memq (v : Nat) (s : State) (u_ : State) : State.memq (u_.did (execMtSrcWrite v s)) = State.memq s := by
  obtain ⟨r, hr, hm⟩ := execMtSrcWrite_memq v s
  rw [hr]; exact hm

@[simp] theorem execMtTodNextWrite_did_memq (v : Nat) (s : State) (u_ : State) : State.memq (u_.did (execMtTodNextWrite v s)) = State.memq s := by
  obtain ⟨r, hr, hm⟩ := execMtTodNextWrite_memq v s
  rw [hr]; exact hm

theorem execDeviceRungCmd_did_ok (rung : Fin 8) (s : State) (u_ : State) {q_ : Bool × List Instr} (hk : State.Ok q_ (State.memq s)) : State.Ok q_ (State.memq (u_.did (execDeviceRungCmd rung s))) := by
  obtain ⟨r, hr, hm⟩ := execDeviceRungCmd_ok rung s hk
  rw [hr]; exact hm

@[simp] theorem execErase_did_memq (m : Master) (mask : Fin 65536) (s : State) (u_ : State) : State.memq (u_.did (execErase m mask s)) = State.memq s := by
  obtain ⟨r, hr, hm⟩ := execErase_memq m mask s
  rw [hr]; exact hm

@[simp] theorem execCommit_did_memq (slot : Fin 4) (s : State) (u_ : State) : State.memq (u_.did (execCommit slot s)) = State.memq s := by
  obtain ⟨r, hr, hm⟩ := execCommit_memq slot s
  rw [hr]; exact hm

@[simp] theorem execRepairClear_did_memq (arg : Fin 65536) (s : State) (u_ : State) : State.memq (u_.did (execRepairClear arg s)) = State.memq s := by
  obtain ⟨r, hr, hm⟩ := execRepairClear_memq arg s
  rw [hr]; exact hm

@[simp] theorem execUcode_did_memq (arg : Fin 65536) (s : State) (u_ : State) : State.memq (u_.did (execUcode arg s)) = State.memq s := by
  obtain ⟨r, hr, hm⟩ := execUcode_memq arg s
  rw [hr]; exact hm

@[simp] theorem execFwRestart_did_memq (s : State) (u_ : State) : State.memq (u_.did (execFwRestart s)) = State.memq s := by
  obtain ⟨r, hr, hm⟩ := execFwRestart_memq s
  rw [hr]; exact hm

@[simp] theorem execAlmUnfence_did_memq (cls : Fin 64) (i : Fin 1024) (bank : Fin 16384) (scope : Fin 4) (s : State) (u_ : State) : State.memq (u_.did (execAlmUnfence cls i bank scope s)) = State.memq s := by
  obtain ⟨r, hr, hm⟩ := execAlmUnfence_memq cls i bank scope s
  rw [hr]; exact hm

@[simp] theorem execMgtMboxGo_did_memq (s : State) (u_ : State) : State.memq (u_.did (execMgtMboxGo s)) = State.memq s := by
  obtain ⟨r, hr, hm⟩ := execMgtMboxGo_memq s
  rw [hr]; exact hm

theorem execPmnSnapNow_did_ok (s : State) (u_ : State) {q_ : Bool × List Instr} (hk : State.Ok q_ (State.memq s)) : State.Ok q_ (State.memq (u_.did (execPmnSnapNow s))) := by
  obtain ⟨r, hr, hm⟩ := execPmnSnapNow_ok s hk
  rw [hr]; exact hm

@[simp] theorem execFuseProg_did_memq (m : Master) (s : State) (u_ : State) : State.memq (u_.did (execFuseProg m s)) = State.memq s := by
  obtain ⟨r, hr, hm⟩ := execFuseProg_memq m s
  rw [hr]; exact hm

@[simp] theorem execDebugUnlock_did_memq (m : Master) (s : State) (u_ : State) : State.memq (u_.did (execDebugUnlock m s)) = State.memq s := by
  obtain ⟨r, hr, hm⟩ := execDebugUnlock_memq m s
  rw [hr]; exact hm

@[simp] theorem execOptReachWrite_did_memq (e : Fin 16) (reach : Fin 2) (s : State) (u_ : State) : State.memq (u_.did (execOptReachWrite e reach s)) = State.memq s := by
  obtain ⟨r, hr, hm⟩ := execOptReachWrite_memq e reach s
  rw [hr]; exact hm

@[simp] theorem execPortEnable_did_memq (p : Fin 1024) (v : Nat) (s : State) (u_ : State) : State.memq (u_.did (execPortEnable p v s)) = State.memq s := by
  obtain ⟨r, hr, hm⟩ := execPortEnable_memq p v s
  rw [hr]; exact hm

@[simp] theorem execPortDisable_did_memq (p : Fin 1024) (v : Nat) (s : State) (u_ : State) : State.memq (u_.did (execPortDisable p v s)) = State.memq s := by
  obtain ⟨r, hr, hm⟩ := execPortDisable_memq p v s
  rw [hr]; exact hm

@[simp] theorem execPortRetrain_did_memq (p : Fin 1024) (s : State) (u_ : State) : State.memq (u_.did (execPortRetrain p s)) = State.memq s := by
  obtain ⟨r, hr, hm⟩ := execPortRetrain_memq p s
  rw [hr]; exact hm

@[simp] theorem execPortRestore_did_memq (p : Fin 1024) (s : State) (u_ : State) : State.memq (u_.did (execPortRestore p s)) = State.memq s := by
  obtain ⟨r, hr, hm⟩ := execPortRestore_memq p s
  rw [hr]; exact hm

@[simp] theorem execPortDown_did_memq (p : Fin 1024) (s : State) (u_ : State) : State.memq (u_.did (execPortDown p s)) = State.memq s := by
  obtain ⟨r, hr, hm⟩ := execPortDown_memq p s
  rw [hr]; exact hm

@[simp] theorem execSlotsWrite_did_memq (p : Fin 1024) (v : Nat) (s : State) (u_ : State) : State.memq (u_.did (execSlotsWrite p v s)) = State.memq s := by
  obtain ⟨r, hr, hm⟩ := execSlotsWrite_memq p v s
  rw [hr]; exact hm

@[simp] theorem execPortRungCmd_did_memq (p : Fin 1024) (rung : Fin 8) (s : State) (u_ : State) : State.memq (u_.did (execPortRungCmd p rung s)) = State.memq s := by
  obtain ⟨r, hr, hm⟩ := execPortRungCmd_memq p rung s
  rw [hr]; exact hm

@[simp] theorem execTileFenceFull_did_memq (t : Fin 72) (s : State) (u_ : State) : State.memq (u_.did (execTileFenceFull t s)) = State.memq s := by
  obtain ⟨r, hr, hm⟩ := execTileFenceFull_memq t s
  rw [hr]; exact hm

@[simp] theorem execTileFenceRelease_did_memq (t : Fin 72) (s : State) (u_ : State) : State.memq (u_.did (execTileFenceRelease t s)) = State.memq s := by
  obtain ⟨r, hr, hm⟩ := execTileFenceRelease_memq t s
  rw [hr]; exact hm

@[simp] theorem execBankBitWrite_did_memq (t : Fin 72) (off : Bool) (n : Fin 2) (v : Nat) (s : State) (u_ : State) : State.memq (u_.did (execBankBitWrite t off n v s)) = State.memq s := by
  obtain ⟨r, hr, hm⟩ := execBankBitWrite_memq t off n v s
  rw [hr]; exact hm

@[simp] theorem execRteFenceWrite_did_memq (t : Fin 72) (v : Nat) (s : State) (u_ : State) : State.memq (u_.did (execRteFenceWrite t v s)) = State.memq s := by
  obtain ⟨r, hr, hm⟩ := execRteFenceWrite_memq t v s
  rw [hr]; exact hm

@[simp] theorem execShaperCfgWrite_did_memq (t : Fin 72) (j : Fin 128) (rate : Bool) (v : Nat) (s : State) (u_ : State) : State.memq (u_.did (execShaperCfgWrite t j rate v s)) = State.memq s := by
  obtain ⟨r, hr, hm⟩ := execShaperCfgWrite_memq t j rate v s
  rw [hr]; exact hm

@[simp] theorem execTileRungCmd_did_memq (t : Fin 72) (rung : Fin 8) (s : State) (u_ : State) : State.memq (u_.did (execTileRungCmd t rung s)) = State.memq s := by
  obtain ⟨r, hr, hm⟩ := execTileRungCmd_memq t rung s
  rw [hr]; exact hm

@[simp] theorem execHistClr_did_memq (t : Fin 72) (s : State) (u_ : State) : State.memq (u_.did (execHistClr t s)) = State.memq s := by
  obtain ⟨r, hr, hm⟩ := execHistClr_memq t s
  rw [hr]; exact hm

@[simp] theorem execEvict_did_memq (e : Fin 32) (c : Nat) (s : State) (u_ : State) : State.memq (u_.did (execEvict e c s)) = State.memq s := by
  obtain ⟨r, hr, hm⟩ := execEvict_memq e c s
  rw [hr]; exact hm

theorem execClose_did_ok (e : Fin 32) (c : Nat) (s : State) (u_ : State) {q_ : Bool × List Instr} (hk : State.Ok q_ (State.memq s)) : State.Ok q_ (State.memq (u_.did (execClose e c s))) := by
  obtain ⟨r, hr, hm⟩ := execClose_ok e c s hk
  rw [hr]; exact hm

@[simp] theorem execEvictRange_did_memq (e : Fin 32) (n : Fin 2) (s : State) (u_ : State) : State.memq (u_.did (execEvictRange e n s)) = State.memq s := by
  obtain ⟨r, hr, hm⟩ := execEvictRange_memq e n s
  rw [hr]; exact hm

@[simp] theorem execCtxRangeWrite_did_memq (e : Fin 32) (n : Fin 2) (v : Nat) (s : State) (u_ : State) : State.memq (u_.did (execCtxRangeWrite e n v s)) = State.memq s := by
  obtain ⟨r, hr, hm⟩ := execCtxRangeWrite_memq e n v s
  rw [hr]; exact hm

@[simp] theorem execRegInval_did_memq (e : Fin 32) (v : Nat) (s : State) (u_ : State) : State.memq (u_.did (execRegInval e v s)) = State.memq s := by
  obtain ⟨r, hr, hm⟩ := execRegInval_memq e v s
  rw [hr]; exact hm

@[simp] theorem execAcacheFlush_did_memq (e : Fin 32) (v : Nat) (s : State) (u_ : State) : State.memq (u_.did (execAcacheFlush e v s)) = State.memq s := by
  obtain ⟨r, hr, hm⟩ := execAcacheFlush_memq e v s
  rw [hr]; exact hm

@[simp] theorem execXltInvalCmd_did_memq (e : Fin 32) (v : Nat) (s : State) (u_ : State) : State.memq (u_.did (execXltInvalCmd e v s)) = State.memq s := by
  obtain ⟨r, hr, hm⟩ := execXltInvalCmd_memq e v s
  rw [hr]; exact hm

theorem execSetup_did_ok (u : Fin 8) (g : Fin 4096) (seq : Nat) (s : State) (u_ : State) {q_ : Bool × List Instr} (hk : State.Ok q_ (State.memq s)) : State.Ok q_ (State.memq (u_.did (execSetup u g seq s))) := by
  obtain ⟨r, hr, hm⟩ := execSetup_ok u g seq s hk
  rw [hr]; exact hm

theorem execRelease_did_ok (u : Fin 8) (g : Fin 4096) (s : State) (u_ : State) {q_ : Bool × List Instr} (hk : State.Ok q_ (State.memq s)) : State.Ok q_ (State.memq (u_.did (execRelease u g s))) := by
  obtain ⟨r, hr, hm⟩ := execRelease_ok u g s hk
  rw [hr]; exact hm

theorem execReset_did_ok (u : Fin 8) (g : Fin 4096) (seq : Nat) (s : State) (u_ : State) {q_ : Bool × List Instr} (hk : State.Ok q_ (State.memq s)) : State.Ok q_ (State.memq (u_.did (execReset u g seq s))) := by
  obtain ⟨r, hr, hm⟩ := execReset_ok u g seq s hk
  rw [hr]; exact hm

@[simp] theorem execWinCommit_did_memq (h : Fin 64) (s : State) (u_ : State) : State.memq (u_.did (execWinCommit h s)) = State.memq s := by
  obtain ⟨r, hr, hm⟩ := execWinCommit_memq h s
  rw [hr]; exact hm

@[simp] theorem execUserPageAccess_did_memq (e : Fin 32) (c : Nat) (port : Fin 64) (func off len : Nat) (val : Option Nat) (s : State) (u_ : State) : State.memq (u_.did (execUserPageAccess e c port func off len val s)) = State.memq s := by
  obtain ⟨r, hr, hm⟩ := execUserPageAccess_memq e c port func off len val s
  rw [hr]; exact hm

@[simp] theorem execBmeWrite_did_memq (h : Fin 64) (f : Fin 264) (on : Bool) (s : State) (u_ : State) : State.memq (u_.did (execBmeWrite h f on s)) = State.memq s := by
  obtain ⟨r, hr, hm⟩ := execBmeWrite_memq h f on s
  rw [hr]; exact hm

theorem execD3hotEntry_did_ok (h : Fin 64) (f : Fin 264) (s : State) (u_ : State) {q_ : Bool × List Instr} (hk : State.Ok q_ (State.memq s)) : State.Ok q_ (State.memq (u_.did (execD3hotEntry h f s))) := by
  obtain ⟨r, hr, hm⟩ := execD3hotEntry_ok h f s hk
  rw [hr]; exact hm

theorem execD0Return_did_ok (h : Fin 64) (f : Fin 264) (s : State) (u_ : State) {q_ : Bool × List Instr} (hk : State.Ok q_ (State.memq s)) : State.Ok q_ (State.memq (u_.did (execD0Return h f s))) := by
  obtain ⟨r, hr, hm⟩ := execD0Return_ok h f s hk
  rw [hr]; exact hm

theorem execFlr_did_ok (h : Fin 64) (f : Fin 264) (s : State) (u_ : State) {q_ : Bool × List Instr} (hk : State.Ok q_ (State.memq s)) : State.Ok q_ (State.memq (u_.did (execFlr h f s))) := by
  obtain ⟨r, hr, hm⟩ := execFlr_ok h f s hk
  rw [hr]; exact hm

@[simp] theorem execL1Exit_did_memq (h : Fin 64) (s : State) (u_ : State) : State.memq (u_.did (execL1Exit h s)) = State.memq s := by
  obtain ⟨r, hr, hm⟩ := execL1Exit_memq h s
  rw [hr]; exact hm

@[simp] theorem State.fieldWrite_memq (s : State) (i mask v : Nat) (x : Fld × Nat × Nat) : State.memq (State.fieldWrite s i mask v x) = State.memq s := by
  unfold State.fieldWrite
  (repeat' split) <;>
    simp

@[simp] theorem State.plainWrite_memq (s : State) (cls i o mask v : Nat) : State.memq (State.plainWrite s cls i o mask v) = State.memq s := by
  unfold State.plainWrite
  simp

@[simp] theorem State.forceEvent_ok (s : State) (m : Master) (cls i b : Nat) {q_ : Bool × List Instr} (hk : State.Ok q_ (State.memq s)) : State.Ok q_ (State.memq (State.forceEvent s m cls i b)) := by
  unfold State.forceEvent
  dsimp only
  (repeat' split) <;>
    simp [hk]

theorem execEvtForce_ok (m : Master) (cls : Fin 31) (i : Fin 1024) (v : Nat) (s : State) {q_ : Bool × List Instr} (hk : State.Ok q_ (State.memq s)) : ∃ r_, execEvtForce m cls i v s = .next r_ ∧ State.Ok q_ (State.memq r_) := by
  unfold execEvtForce
  (try dsimp only)
  (repeat' split) <;>
    exact ⟨_, rfl, by repeat' first | with_reducible assumption | with_reducible apply State.forceEvent_ok | fail | with_reducible refine State.each_ok _ _ _ ?_ fun _ _ _ => ?_ | simp only [↓State.ite_memq, ite_self, State.memq_mk, State.memq_eta] | split | dsimp only⟩

theorem execEvtForce_did_ok (m : Master) (cls : Fin 31) (i : Fin 1024) (v : Nat) (s : State) (u_ : State) {q_ : Bool × List Instr} (hk : State.Ok q_ (State.memq s)) : State.Ok q_ (State.memq (u_.did (execEvtForce m cls i v s))) := by
  obtain ⟨r, hr, hm⟩ := execEvtForce_ok m cls i v s hk
  rw [hr]; exact hm

theorem execInjArm_memq (cls : Fin 31) (i : Fin 1024) (s : State) : ∃ r_, execInjArm cls i s = .next r_ ∧ State.memq r_ = State.memq s := by
  unfold execInjArm
  (repeat' split) <;>
    exact ⟨_, rfl, by simp⟩

@[simp] theorem execInjArm_did_memq (cls : Fin 31) (i : Fin 1024) (s : State) (u_ : State) : State.memq (u_.did (execInjArm cls i s)) = State.memq s := by
  obtain ⟨r, hr, hm⟩ := execInjArm_memq cls i s
  rw [hr]; exact hm

@[simp] theorem State.hdrWrite_ok (s : State) (m : Master) (cls i o mask v : Nat) {q_ : Bool × List Instr} (hk : State.Ok q_ (State.memq s)) : State.Ok q_ (State.memq (State.hdrWrite s m cls i o mask v)) := by
  unfold State.hdrWrite
  (try dsimp only)
  (repeat' split) <;>
    (repeat' first | exact hk | with_reducible apply execEvtForce_did_ok | with_reducible apply execEpochAtWrite_did_ok | with_reducible apply execPmcSnapNow_did_ok | with_reducible apply execShadowDiscard_did_ok | with_reducible apply execShadowDisarm_did_ok | simp | split)

@[simp] theorem State.checkMgt_memq (s : State) : State.memq (State.checkMgt s) = State.memq s := by
  unfold State.checkMgt
  simp

@[simp] theorem State.checkAll_memq (s : State) : State.memq (State.checkAll s) = State.memq s := by
  unfold State.checkAll
  simp

@[simp] theorem State.devWrite_ok (s : State) (cls o mask v : Nat) {q_ : Bool × List Instr} (hk : State.Ok q_ (State.memq s)) : State.Ok q_ (State.memq (State.devWrite s cls o mask v)) := by
  unfold State.devWrite
  (try dsimp only)
  (repeat' split) <;>
    (repeat' first | with_reducible assumption | with_reducible apply State.fireDue_ok | with_reducible apply execDevReset_did_ok | with_reducible apply execDeviceRungCmd_did_ok | fail | with_reducible refine State.each_ok _ _ _ ?_ fun _ _ _ => ?_ | simp only [↓State.plainWrite_memq, ↓State.checkAll_memq, ↓State.refreshPins_memq, ↓execDevSelfWrite_did_memq, ↓execMtSrcWrite_did_memq, ↓execMtTodNextWrite_did_memq, ↓State.ite_memq, ite_self, State.memq_mk, State.memq_eta] | split | dsimp only)

@[simp] theorem State.almCmd_memq (s : State) (m : Master) (mask v : Nat) : State.memq (State.almCmd s m mask v) = State.memq s := by
  unfold State.almCmd
  simp

@[simp] theorem State.almFw_memq (s : State) (m : Master) (mask v : Nat) : State.memq (State.almFw s m mask v) = State.memq s := by
  unfold State.almFw
  simp

@[simp] theorem State.svcWrite_ok (s : State) (m : Master) (cls o mask v : Nat) {q_ : Bool × List Instr} (hk : State.Ok q_ (State.memq s)) : State.Ok q_ (State.memq (State.svcWrite s m cls o mask v)) := by
  unfold State.svcWrite
  (try dsimp only)
  (repeat' split) <;>
    (repeat' first | exact hk | with_reducible apply execPmnSnapNow_did_ok | simp | split)

@[simp] theorem State.fusWrite_memq (s : State) (m : Master) (o mask v : Nat) : State.memq (State.fusWrite s m o mask v) = State.memq s := by
  unfold State.fusWrite
  simp

@[simp] theorem State.portWrite_memq (s : State) (cls i o mask v : Nat) : State.memq (State.portWrite s cls i o mask v) = State.memq s := by
  unfold State.portWrite
  simp

@[simp] theorem State.tileWrite_memq (s : State) (cls i o mask v : Nat) : State.memq (State.tileWrite s cls i o mask v) = State.memq s := by
  unfold State.tileWrite
  simp

@[simp] theorem State.ctxCmdWrite_ok (s : State) (i mask v : Nat) {q_ : Bool × List Instr} (hk : State.Ok q_ (State.memq s)) : State.Ok q_ (State.memq (State.ctxCmdWrite s i mask v)) := by
  unfold State.ctxCmdWrite
  (try dsimp only)
  (repeat' split) <;>
    (repeat' first | exact hk | with_reducible apply execClose_did_ok | simp | split)

@[simp] theorem State.checkEng_memq (s : State) (cls i o : Nat) : State.memq (State.checkEng s cls i o) = State.memq s := by
  unfold State.checkEng
  simp

@[simp] theorem State.engWrite_ok (s : State) (cls i o mask v : Nat) {q_ : Bool × List Instr} (hk : State.Ok q_ (State.memq s)) : State.Ok q_ (State.memq (State.engWrite s cls i o mask v)) := by
  unfold State.engWrite
  (repeat' split) <;>
    simp [hk]

@[simp] theorem State.unitWrite_ok (s : State) (cls i o mask v : Nat) {q_ : Bool × List Instr} (hk : State.Ok q_ (State.memq s)) : State.Ok q_ (State.memq (State.unitWrite s cls i o mask v)) := by
  unfold State.unitWrite
  (try dsimp only)
  (repeat' split) <;>
    (repeat' first | exact hk | with_reducible apply execSetup_did_ok | with_reducible apply execRelease_did_ok | with_reducible apply execReset_did_ok | simp | split)

@[simp] theorem State.hostWriteReg_memq (s : State) (cls i o mask v : Nat) : State.memq (State.hostWriteReg s cls i o mask v) = State.memq s := by
  unfold State.hostWriteReg
  simp

@[simp] theorem State.maskWrite_ok (s : State) (m : Master) (o mask v : Nat) {q_ : Bool × List Instr} (hk : State.Ok q_ (State.memq s)) : State.Ok q_ (State.memq (State.maskWrite s m o mask v)) := by
  unfold State.maskWrite
  dsimp only
  (repeat' split) <;>
    simp [hk]

@[simp] theorem State.regWrite_ok (s : State) (m : Master) (o : Nat) (h : Half) (v : Nat) {q_ : Bool × List Instr} (hk : State.Ok q_ (State.memq s)) : State.Ok q_ (State.memq (State.regWrite s m o h v)) := by
  unfold State.regWrite
  simp [hk]

theorem execRegWrite_ok (m : Master) (off : Nat) (h : Half) (v : Nat) (s : State) {q_ : Bool × List Instr} (hk : State.Ok q_ (State.memq s)) : ∃ r_, execRegWrite m off h v s = .next r_ ∧ State.Ok q_ (State.memq r_) := by
  unfold execRegWrite
  exact ⟨_, rfl, by simp [hk]⟩

end Sys2Proof.Machine
end

