-- ==== Sys2Proof/Laws/MemDpt.lean ====
section
/-!
SUPPORT. What the operations of Machine/Dpt.lean do to table-space memory: nothing, or they keep its canonical form.
-/
namespace Sys2Proof.Machine
open Sys2Proof

set_option linter.unusedSimpArgs false

@[simp] theorem State.wordUnder_ok (s : State) (a m v : Nat) {q_ : Bool × List Instr} (hk : State.Ok q_ (State.memq s)) : State.Ok q_ (State.memq (State.wordUnder s a m v)) := by
  unfold State.wordUnder
  simp [hk]

@[simp] theorem State.bankWrite_ok (s : State) (bank a r v t : Nat) (b : Burst) {q_ : Bool × List Instr} (hk : State.Ok q_ (State.memq s)) : State.Ok q_ (State.memq ((State.bankWrite s bank a r v t b).1)) := by
  unfold State.bankWrite
  dsimp only
  (repeat' split) <;>
    simp [hk]

theorem State.bankWrite_okpair {s : State} {bank a r v t : Nat} {b : Burst} {t_ : State} {a_ : Burst} {q_ : Bool × List Instr} (h_ : State.bankWrite s bank a r v t b = (t_, a_)) (hk : State.Ok q_ (State.memq s)) : State.Ok q_ (State.memq t_) := by
  have := State.bankWrite_ok s bank a r v t b hk
  rwa [h_] at this

@[simp] theorem State.colgWrite_ok (s : State) (a m v : Nat) (user : Option Nat) (b : Burst) {q_ : Bool × List Instr} (hk : State.Ok q_ (State.memq s)) : State.Ok q_ (State.memq ((State.colgWrite s a m v user b).1)) := by
  unfold State.colgWrite
  (repeat' split) <;>
    simp [hk]

theorem State.colgWrite_okpair {s : State} {a m v : Nat} {user : Option Nat} {b : Burst} {t_ : State} {a_ : Burst} {q_ : Bool × List Instr} (h_ : State.colgWrite s a m v user b = (t_, a_)) (hk : State.Ok q_ (State.memq s)) : State.Ok q_ (State.memq t_) := by
  have := State.colgWrite_ok s a m v user b hk
  rwa [h_] at this

@[simp] theorem State.tabWrite_ok (s : State) (bank a v : Nat) (b : Burst) {q_ : Bool × List Instr} (hk : State.Ok q_ (State.memq s)) : State.Ok q_ (State.memq ((State.tabWrite s bank a v b).1)) := by
  unfold State.tabWrite
  split
  · exact hk
  · next ts r _ =>
    have hf : State.Ok q_ (ts.foldl (fun (p : State × Burst) t => p.1.bankWrite bank a r v t p.2) (s, b)).1.memq :=
      State.fold1_ok _ (fun x t hx => State.bankWrite_ok x.1 bank a r v t x.2 hx) ts (s, b) hk
    exact hf
  · split
    · exact hk
    · exact State.colgWrite_ok _ _ _ _ _ _ hk
  · exact State.colgWrite_ok _ _ _ _ _ _ hk
  · exact State.colgWrite_ok _ _ _ _ _ _ hk
  · split
    · exact (State.quotaWritten_memq _ _ _).symm ▸ State.wordUnder_ok _ _ _ _ hk
    · split
      · exact hk
      · exact hk
  · exact hk

theorem State.tabWrite_okpair {s : State} {bank a v : Nat} {b : Burst} {t_ : State} {a_ : Burst} {q_ : Bool × List Instr} (h_ : State.tabWrite s bank a v b = (t_, a_)) (hk : State.Ok q_ (State.memq s)) : State.Ok q_ (State.memq t_) := by
  have := State.tabWrite_ok s bank a v b hk
  rwa [h_] at this

@[simp] theorem State.burstEnd_memq (s : State) (m : Master) (acc ev : Nat) (b : Burst) : State.memq (State.burstEnd s m acc ev b) = State.memq s := by
  unfold State.burstEnd
  simp

@[simp] theorem State.burstWrite_ok (s : State) (m : Master) (a stride bank : Nat) (ws : List Nat) {q_ : Bool × List Instr} (hk : State.Ok q_ (State.memq s)) : State.Ok q_ (State.memq (State.burstWrite s m a stride bank ws)) := by
  unfold State.burstWrite
  have hf : State.Ok q_ ((ws.zip (List.range ws.length)).foldl
      (fun (p : State × Burst) x => p.1.tabWrite bank (burstAddr a stride x.2) x.1 p.2) (s, {})).1.memq :=
    State.fold1_ok _ (fun p x hx => State.tabWrite_ok p.1 bank _ _ p.2 hx) _ (s, {}) hk
  dsimp only
  rw [State.burstEnd_memq]
  exact hf

@[simp] theorem State.burstRead_memq (s : State) (m : Master) (a stride bank n : Nat) : State.memq ((State.burstRead s m a stride bank n).1) = State.memq s := by
  unfold State.burstRead
  simp

theorem State.burstRead_pair {s : State} {m : Master} {a stride bank n : Nat} {t_ : State} {a_ : List Nat} (h_ : State.burstRead s m a stride bank n = (t_, a_)) : State.memq t_ = State.memq s := by
  have := State.burstRead_memq s m a stride bank n
  rwa [h_] at this

@[simp] theorem State.burstBad_memq (s : State) (m : Master) (len dir : Bool) (acc : Nat) : State.memq (State.burstBad s m len dir acc) = State.memq s := by
  unfold State.burstBad
  simp

@[simp] theorem State.dptStep_memq (s : State) (n : Nat) : State.memq (State.dptStep s n) = State.memq s := by
  unfold State.dptStep
  simp

theorem execDptBurstWrite_ok (m : Master) (off : Nat) (data : List Byte) (s : State) {q_ : Bool × List Instr} (hk : State.Ok q_ (State.memq s)) : ∃ r_, execDptBurstWrite m off data s = .next r_ ∧ State.Ok q_ (State.memq r_) := by
  unfold execDptBurstWrite
  dsimp only
  (repeat' split) <;>
    exact ⟨_, rfl, by simp [hk]⟩

theorem execDptBurstWrite_did_ok (m : Master) (off : Nat) (data : List Byte) (s : State) (u_ : State) {q_ : Bool × List Instr} (hk : State.Ok q_ (State.memq s)) : State.Ok q_ (State.memq (u_.did (execDptBurstWrite m off data s))) := by
  obtain ⟨r, hr, hm⟩ := execDptBurstWrite_ok m off data s hk
  rw [hr]; exact hm

theorem execDptBurstRead_memq (m : Master) (off len : Nat) (s : State) : ∃ r_, execDptBurstRead m off len s = .next r_ ∧ State.memq r_ = State.memq s := by
  unfold execDptBurstRead
  dsimp only
  (repeat' split) <;>
    exact ⟨_, rfl, by simp⟩

@[simp] theorem execDptBurstRead_did_memq (m : Master) (off len : Nat) (s : State) (u_ : State) : State.memq (u_.did (execDptBurstRead m off len s)) = State.memq s := by
  obtain ⟨r, hr, hm⟩ := execDptBurstRead_memq m off len s
  rw [hr]; exact hm

end Sys2Proof.Machine
end

