-- ==== Sys2Proof/Laws/MemMgmt.lean ====
section
/-!
SUPPORT. What the operations of Machine/Mgmt.lean do to table-space memory: nothing, or they keep its canonical form.
-/
namespace Sys2Proof.Machine
open Sys2Proof

set_option linter.unusedSimpArgs false

@[simp] theorem State.mgtReg_ok (s : State) (m : Master) (r : MReq) {q_ : Bool × List Instr} (hk : State.Ok q_ (State.memq s)) : State.Ok q_ (State.memq ((State.mgtReg s m r).1)) := by
  unfold State.mgtReg
  dsimp only
  (repeat' split) <;>
    simp [hk]

theorem State.mgtReg_okpair {s : State} {m : Master} {r : MReq} {t_ : State} {a_ : MAns} {q_ : Bool × List Instr} (h_ : State.mgtReg s m r = (t_, a_)) (hk : State.Ok q_ (State.memq s)) : State.Ok q_ (State.memq t_) := by
  have := State.mgtReg_ok s m r hk
  rwa [h_] at this

@[simp] theorem State.mgtTab_ok (s : State) (m : Master) (r : MReq) {q_ : Bool × List Instr} (hk : State.Ok q_ (State.memq s)) : State.Ok q_ (State.memq ((State.mgtTab s m r).1)) := by
  unfold State.mgtTab
  (repeat' split) <;>
    simp [hk]

theorem State.mgtTab_okpair {s : State} {m : Master} {r : MReq} {t_ : State} {a_ : MAns} {q_ : Bool × List Instr} (h_ : State.mgtTab s m r = (t_, a_)) (hk : State.Ok q_ (State.memq s)) : State.Ok q_ (State.memq t_) := by
  have := State.mgtTab_ok s m r hk
  rwa [h_] at this

@[simp] theorem State.mgtDo_ok (s : State) (m : Master) (r : MReq) {q_ : Bool × List Instr} (hk : State.Ok q_ (State.memq s)) : State.Ok q_ (State.memq ((State.mgtDo s m r).1)) := by
  unfold State.mgtDo
  (repeat' split) <;>
    simp [hk]

theorem State.mgtDo_okpair {s : State} {m : Master} {r : MReq} {t_ : State} {a_ : MAns} {q_ : Bool × List Instr} (h_ : State.mgtDo s m r = (t_, a_)) (hk : State.Ok q_ (State.memq s)) : State.Ok q_ (State.memq t_) := by
  have := State.mgtDo_ok s m r hk
  rwa [h_] at this

@[simp] theorem State.mgtRefuse_memq (s : State) : State.memq (State.mgtRefuse s) = State.memq s := by
  unfold State.mgtRefuse
  simp

@[simp] theorem State.mgtInBand_ok (s : State) (src : Nat) (r : MReq) {q_ : Bool × List Instr} (hk : State.Ok q_ (State.memq s)) : State.Ok q_ (State.memq ((State.mgtInBand s src r).1)) := by
  unfold State.mgtInBand
  dsimp only
  (repeat' split) <;>
    simp [hk]

theorem State.mgtInBand_okpair {s : State} {src : Nat} {r : MReq} {t_ : State} {a_ : MAns} {q_ : Bool × List Instr} (h_ : State.mgtInBand s src r = (t_, a_)) (hk : State.Ok q_ (State.memq s)) : State.Ok q_ (State.memq t_) := by
  have := State.mgtInBand_ok s src r hk
  rwa [h_] at this

@[simp] theorem State.mgtAnswer_memq (s : State) (q : Packet) (inPort : Nat) (ws : List Nat) (data : List Byte) : State.memq (State.mgtAnswer s q inPort ws data) = State.memq s := by
  unfold State.mgtAnswer
  simp

@[simp] theorem State.renew_memq (s : State) (src tag expiry : Nat) : State.memq (State.renew s src tag expiry) = State.memq s := by
  unfold State.renew
  simp

@[simp] theorem State.mgtServe_ok (s : State) (q : Packet) (inPort : Nat) {q_ : Bool × List Instr} (hk : State.Ok q_ (State.memq s)) : State.Ok q_ (State.memq (State.mgtServe s q inPort)) := by
  unfold State.mgtServe
  (repeat' split) <;>
    simp [hk]

@[simp] theorem State.mgtRequest_ok (s : State) (q : Packet) {q_ : Bool × List Instr} (hk : State.Ok q_ (State.memq s)) : State.Ok q_ (State.memq (State.mgtRequest s q)) := by
  unfold State.mgtRequest
  split
  · next p t ht =>
    have h0 : State.Ok q_ t.memq := by rw [State.mgtTake_memq ht]; exact hk
    split
    · exact h0
    · exact State.mgtServe_ok _ _ _ h0
  · exact hk

theorem execRegRd_ok (q : Packet) (s : State) {q_ : Bool × List Instr} (hk : State.Ok q_ (State.memq s)) : ∃ r_, execRegRd q s = .next r_ ∧ State.Ok q_ (State.memq r_) := by
  unfold execRegRd
  (repeat' split) <;>
    exact ⟨_, rfl, by simp [hk]⟩

theorem execRegWr_ok (q : Packet) (s : State) {q_ : Bool × List Instr} (hk : State.Ok q_ (State.memq s)) : ∃ r_, execRegWr q s = .next r_ ∧ State.Ok q_ (State.memq r_) := by
  unfold execRegWr
  (repeat' split) <;>
    exact ⟨_, rfl, by simp [hk]⟩

theorem execDptRd_ok (q : Packet) (s : State) {q_ : Bool × List Instr} (hk : State.Ok q_ (State.memq s)) : ∃ r_, execDptRd q s = .next r_ ∧ State.Ok q_ (State.memq r_) := by
  unfold execDptRd
  (repeat' split) <;>
    exact ⟨_, rfl, by simp [hk]⟩

theorem execDptWr_ok (q : Packet) (s : State) {q_ : Bool × List Instr} (hk : State.Ok q_ (State.memq s)) : ∃ r_, execDptWr q s = .next r_ ∧ State.Ok q_ (State.memq r_) := by
  unfold execDptWr
  (repeat' split) <;>
    exact ⟨_, rfl, by simp [hk]⟩

theorem execMctpRequest_ok (w2 w3 w4 w5 : Nat) (data : List Byte) (s : State) {q_ : Bool × List Instr} (hk : State.Ok q_ (State.memq s)) : ∃ r_, execMctpRequest w2 w3 w4 w5 data s = .next r_ ∧ State.Ok q_ (State.memq r_) := by
  unfold execMctpRequest
  dsimp only
  (repeat' split) <;>
    exact ⟨_, rfl, by simp [hk]⟩

end Sys2Proof.Machine
end

