-- ==== Sys2Proof/Laws/MemHostCmd.lean ====
section
/-!
SUPPORT. What the operations of Machine/HostCmd.lean do to table-space memory: nothing, or they keep its canonical form.
-/
namespace Sys2Proof.Machine
open Sys2Proof

set_option linter.unusedSimpArgs false

@[simp] theorem State.readData_memq (s : State) (h f v : Nat) : State.memq (State.readData s h f v) = State.memq s := by
  unfold State.readData
  simp

@[simp] theorem State.barAtomic_ok (s : State) (h f bar off len kind a b : Nat) {q_ : Bool × List Instr} (hk : State.Ok q_ (State.memq s)) : State.Ok q_ (State.memq (State.barAtomic s h f bar off len kind a b)) := by
  unfold State.barAtomic
  dsimp only
  (repeat' split) <;>
    simp [hk]

@[simp] theorem State.bar2_memq (s : State) (h f off len : Nat) (val : Option Nat) : State.memq (State.bar2 s h f off len val) = State.memq s := by
  unfold State.bar2
  (repeat' split) <;>
    simp

@[simp] theorem State.vecWrite_memq (s : State) (h f k v : Nat) : State.memq (State.vecWrite s h f k v) = State.memq s := by
  unfold State.vecWrite
  simp

@[simp] theorem State.msixWrite_memq (s : State) (h f off : Nat) (d : List Byte) : State.memq (State.msixWrite s h f off d) = State.memq s := by
  unfold State.msixWrite
  simp

@[simp] theorem State.memRead_memq (s : State) (h f bar off len : Nat) : State.memq (State.memRead s h f bar off len) = State.memq s := by
  unfold State.memRead
  dsimp only
  (repeat' split) <;>
    simp

@[simp] theorem State.memWrite_ok (s : State) (h f bar off : Nat) (d : List Byte) {q_ : Bool × List Instr} (hk : State.Ok q_ (State.memq s)) : State.Ok q_ (State.memq (State.memWrite s h f bar off d)) := by
  unfold State.memWrite
  (try dsimp only)
  (repeat' split) <;>
    (repeat' first | exact hk | with_reducible apply State.regWrite_ok | with_reducible apply execDptBurstWrite_did_ok | simp | split)

@[simp] theorem State.vfEnWrite_ok (s : State) (h f : Nat) (on : Bool) {q_ : Bool × List Instr} (hk : State.Ok q_ (State.memq s)) : State.Ok q_ (State.memq (State.vfEnWrite s h f on)) := by
  unfold State.vfEnWrite
  (try dsimp only)
  (repeat' split) <;>
    (repeat' first | with_reducible assumption | with_reducible apply State.clearFn_ok | fail | with_reducible refine State.each_ok _ _ _ ?_ fun _ _ _ => ?_ | simp only [↓State.modFn_memq, ↓State.ite_memq, ite_self, State.memq_mk, State.memq_eta] | split | dsimp only)

@[simp] theorem State.cfgWrite_ok (s : State) (h : Fin 64) (f : Fin 264) (c : CfgField) (v : Nat) {q_ : Bool × List Instr} (hk : State.Ok q_ (State.memq s)) : State.Ok q_ (State.memq (State.cfgWrite s h f c v)) := by
  unfold State.cfgWrite
  (try dsimp only)
  (repeat' split) <;>
    (repeat' first | exact hk | with_reducible apply State.vfEnWrite_ok | with_reducible apply execD3hotEntry_did_ok | with_reducible apply execD0Return_did_ok | with_reducible apply execFlr_did_ok | simp | split)

@[simp] theorem State.serveTlp_ok (s : State) (h : Fin 64) (f : Fin 264) (x0 : Tlp) {q_ : Bool × List Instr} (hk : State.Ok q_ (State.memq s)) : State.Ok q_ (State.memq (State.serveTlp s h f x0)) := by
  unfold State.serveTlp
  (repeat' split) <;>
    simp [hk]

theorem execInboundRequest_ok (h : Fin 64) (f : Fin 264) (q : Tlp) (poisoned : Bool) (s : State) {q_ : Bool × List Instr} (hk : State.Ok q_ (State.memq s)) : ∃ r_, execInboundRequest h f q poisoned s = .next r_ ∧ State.Ok q_ (State.memq r_) := by
  unfold execInboundRequest
  dsimp only
  (repeat' split) <;>
    exact ⟨_, rfl, by simp [hk]⟩

end Sys2Proof.Machine
end

