-- ==== Sys2Proof/Laws/MemTick.lean ====
section
/-!
SUPPORT. What the operations of Machine/Tick.lean do to table-space memory: nothing, or they keep its canonical form.
-/
namespace Sys2Proof.Machine
open Sys2Proof

set_option linter.unusedSimpArgs false

@[simp] theorem State.clockCounter_memq (old : State) (cls i : Nat) (s : State) (k : Nat) : State.memq (State.clockCounter old cls i s k) = State.memq s := by
  unfold State.clockCounter
  simp

@[simp] theorem State.clockPage_memq (old s : State) (cls i : Nat) : State.memq (State.clockPage old s cls i) = State.memq s := by
  unfold State.clockPage
  simp

@[simp] theorem State.quotas_memq (s : State) : State.memq (State.quotas s) = State.memq s := by
  unfold State.quotas
  simp

@[simp] theorem State.peaks_memq (s : State) : State.memq (State.peaks s) = State.memq s := by
  unfold State.peaks
  simp

@[simp] theorem State.tick_memq (s : State) : State.memq (State.tick s) = State.memq s := by
  unfold State.tick
  simp

end Sys2Proof.Machine
end

