-- ==== Sys2Proof/Tests/Slice0.lean ====
section
/-!
SUPPORT. Tests: states and operands that meet the hypotheses of each statement, ill-formed commands that WellFormed refuses, and the
spec's worked examples.
-/
open Sys2Proof Sys2Proof.Machine

/-! ### States and operands -/

/-- A port 0 of one lane in state `st`, with the lane its own, lit and delineated, late in time. -/
def W.at (st : Nat) : State :=
  { ((((((State.reset.set F.PORT_STAT_STATE st).set F.PORT_CTL_EN 1).set F.PORT_CTL_LANES 0).set F.LNK_STAT_MODE 1).set F.PORT_STAT_FEAT 0xFF).set
      F.LANE_STAT_OWNED 1).set F.OPT_STAT_FEED_OK 1 with
    clk := ⟨2 ^ 50 * 1000 * unitsPerNs, 10 ^ 30, 0, 0⟩, lanes := [(0, { LaneSt.reset with delineated := true, tx := true })],
    ports := [(0, { PortSt.reset with act := 1 })] }
/-- An ACTIVE port. -/
def W.up : State := W.at stActive
/-- A port in BRINGUP whose lane has locked. -/
def W.first : State := { (W.at stBringup).set F.LANE_STAT_LOCK 1 with ports := [(0, { PortSt.reset with firstLock := some 0 })] }
/-- A port with frame lock at both ends. -/
def W.fl : State :=
  { W.at stFrameLock with lanes := [(0, { LaneSt.reset with good := 8 })], ports := [(0, { PortSt.reset with act := 1, gotLocked := true })] }
/-- An ACTIVE port whose lane has been without lock for long. -/
def W.lossy : State := { W.up with lanes := [(0, { LaneSt.reset with loss := some 0 })] }
/-- An ACTIVE port with a failed lane outside its active set. -/
def W.dark : State := { W.up.set F.LANE_STAT_FAILED 1 with ports := [] }
def W.head : FrameHead := ⟨0, false, false, 0, 0, 0, 0, 0⟩
def W.time : TimeCell := ⟨false, 1, 0, 0, 0, 0, 0⟩
def W.cap : CapCell := ⟨0, 0, 0, false, 0, 0, 0, 0, 0, 0, 0, 0, 0⟩
/-- Every alarm slot in use. -/
def W.noSlot : State := (List.range 64).foldl (fun s n => s.set F.MT_ALM_CTL_EN 1 0 n) State.reset
def W.pkt : Packet := ⟨0, 0, 0, 0, 0, false, false, false, false, false, false, false, 0, 0, 0, 0, 0, 0, 0, 0, 0, []⟩
def W.held : Held := ⟨0, W.pkt, 0, 0, 1, 0, 0, 0, 0, [], none, .waiting, []⟩
def W.resv : Resv := ⟨0, 0, 0, false, 0, 1, [0], 0, 0, W.pkt, 0, [], false, false, false, 0⟩
/-- Tile 0 with these contents, late in time. -/
def W.tile0 (f : Tile → Tile) : State := { State.reset with clk := ⟨2 ^ 50 * 1000 * unitsPerNs, 10 ^ 30, 0, 0⟩, tiles := [(0, f Tile.reset)] }
/-- An output with one request of a held packet. -/
def W.req : State := W.tile0 fun x => { x with held := [{ W.held with phase := .requested }], reqs := [⟨0, 0, false, 0, 0, 0, 1, 0, 0⟩] }
/-- The same output with no room for it. -/
def W.reqFull : State := W.tile0 fun x => { x with held := [{ W.held with phase := .requested }], reqs := [⟨0, 0, false, 0, 0, 0, 100000, 0, 0⟩] }
/-- A packet that has long been incomplete. -/
def W.stuck : State := W.tile0 fun x => { x with resv := [{ W.resv with cells := [] }] }
/-- A port with no guaranteed credit and a pool, one of whose VCs is active. -/
def W.lend : State :=
  let s := (List.range 16).foldl (fun s v => s.set F.LNK_CR_MIN_MIN 0 0 v) ((W.up.set F.LNK_CR_POOL_POOL 9).set F.LNK_CR_POOL_CAP 9)
  { s with links := [(0, { LinkSt.reset with vcs := [{ VcSt.reset with lastAcc := some (10 ^ 30) }] })] }
def W.late : Clock := ⟨2 ^ 50 * 1000 * unitsPerNs, 10 ^ 30, 0, 0⟩
/-- A packet that has waited long with an escape port. -/
def W.esc : State := W.tile0 fun x => { x with held := [{ W.held with cands := [1], esc := some 5 }] }
def W.cap0 : Capture := ⟨0, 0, 0, 0, 0⟩
/-- One event waits for the collector. -/
def W.ev (sev : Nat) : State := { State.reset with flt := { State.reset.flt with arrivals := [⟨64, 0, sev, 5, 0, W.cap0⟩] } }
/-- An open presence window with the seal intact. -/
def W.owner : State := { State.reset with clk := W.late, presence := { Owner.reset with low := true } }
/-- Bank 0 fenced. -/
def W.fenced : State := { State.reset with flt := { State.reset.flt with bankFence := [bankHome 0] } }
/-- A management packet with this word 2, and the same packet delivered to the endpoint. -/
def W.mgt (w2 : Nat) : Packet := { W.pkt with cls := 3, mep := true, w2 := w2 }
def W.rx (w2 : Nat) : State := { State.reset with core := { State.reset.core with mgtRx := [(W.mgt w2, 5)] } }
/-- Tile 0 skipped as a middle and quiet for long; a host link up. -/
def W.quiet : State := { State.reset.setMidSkipped 0 true with clk := W.late, tiles := [(0, { Tile.reset with quietSince := some 0 })] }
def W.linked : State := State.reset.set F.HPT_STAT_UP 1
/-- Context 5 with its queue 0 running. -/
def W.ctx (f : WorkQ → WorkQ) : Ctx :=
  ⟨5, 0, [1], false, false, false, 0, 0, 0, 0, [f { WorkQ.reset with st := 1 }], false, 0, 0, false, false, false, 0, [], []⟩
/-- Engine 0 with these contents and context `k` cached; its function may send. -/
def W.engC (k : Ctx) (f : Eng → Eng) : State :=
  { State.reset with rte := { State.reset.rte with selfOld := (0, 0, true) }, engs := [(0, f Eng.reset)], ctxs := [(ctxKey 0 5, k)], funcs := [(0, { FuncSt.reset with bme := true })] }
def W.eng (f : Eng → Eng) : State := W.engC (W.ctx id) f
def W.op (kind : Nat) : Op := Op.new kind 5 0 0 [kind] 0 0 0 0 0
/-- An operation in slot 3 of engine 0. -/
def W.opAt (o : Op) (s : State) : State := { s with ops := [(3, o)] }
def W.then (s : State) : State := { s with clk := W.late }
/-- A packet for context 5 and OPID 3; engine 0 with it ready; a packet handed to engine 0. -/
def W.rma (cls kind : Nat) : Packet := { W.pkt with cls := cls, w2 := 5 + kind * 2 ^ 40, w3 := 3 }
def W.ready (cls kind : Nat) : State := W.eng fun x => { x with ready := [W.rma cls kind] }
def W.handTo (e : Nat) (q : Packet) : State :=
  { State.reset with tiles := [(64, { Tile.reset with tx := [{ W.resv with pkt := q, inPort := 7, members := [⟨e, 1⟩] }] })] }
def W.hand (q : Packet) : State := W.handTo 0 q
def W.hreq (why : Purpose) : HostReq := ⟨9, 0, 0, 0, why, 1, 0, false, false⟩
/-- A host request that is out. -/
def W.asked (why : Purpose) : State := { State.reset with reqs := [W.hreq why] }
/-- A started entry of context 5. -/
def W.begun (op : Nat) : Begun := ⟨5, 0, 0, [op]⟩
def W.started (op : Nat) : State := W.eng fun x => { x with begun := [W.begun op] }
/-- A context range of engine 0 that holds contexts 0 to 15. -/
def W.range (s : State) : State := (s.set F.CTX_RANGE_COUNT 16 0 0).set F.CTX_RANGE_EN 1 0 0
/-- A record whose queue 0 is enabled. -/
def W.words : List Nat := [1] ++ List.replicate 15 0 ++ [1 + 2 ^ 4 + 2 ^ 8] ++ List.replicate 47 0
/-- Host port 0 up, its PF 0 with contexts 0 to 15 and free to send. -/
def W.host : State :=
  { ((State.reset.set F.WIN_IN_PF_COUNT 16 0 0).set F.HPT_STAT_UP 1 0) with
    hports := [(0, { HostPort.reset with formed := true, width := 16, perst := false, pfs := 1, bar2 := [5] })],
    funcs := [(0, { FuncSt.reset with bme := true, mse := true, gone := false })] }
def W.track : Tracker := ⟨1, 3, 5, false, 0, [], 0, 0, none, 0, false, false, W.pkt, false⟩
/-- A started RECV of MODE `m`. -/
def W.recv (m : Nat) : Begun := ⟨5, 0, 0, [0x0D, 0, 0, 0, m * 2 ^ 32]⟩
/-- A message held in its stream. -/
def W.heldMsg : Known := ⟨⟨5, 1, 2, 0, 0, 0, 0, false, false⟩, none, 2, 4, 0, 0, true, none, none, 0, false, false⟩
/-- Group 0 of unit 0: the root, one local member, context 5 of engine 0; and the same set up. -/
def W.group : State := ((State.reset.setColg 0 0 4 1 1).setColg 0 1 14 7 1).setWord (memberAt 0) 5
def W.groupUp : State := W.group.setColg 0 0 0 1 1
def W.coll : Coll := ⟨5, 0, 0, [0x0C], 0, 0, 0, 0, 1, 1, 0, [], none, [], [], 0, 0, 0, 0, true⟩
/-- A snapshot of this device in slot 0, chosen by BOOT_SLOT, and a calibration copy; the restore at stage `n`. -/
def W.snapshot : Snapshot := ⟨1, State.reset.get F.DEV_SERIAL_SN, 0, 0, [], [(0x0200000000, 7)]⟩
def W.snap (n : Nat) : State :=
  { State.reset.set F.ALM_CFG_BOOT_SLOT 0 with
    almanac := { Almanac.new with slots := [(0, W.snapshot)], cal := [(0, (1, []))] }, boot := { Boot.reset with stage := n } }
theorem W.snap_of (n : Nat) : (W.snap n).snapOf 0 = some W.snapshot := by
  have h : (W.snap n).get F.DEV_SERIAL_SN = W.snapshot.sn := rfl
  unfold State.snapOf
  rw [h]
  simp [W.snap]
theorem W.snap_choose : (W.snap 1).chooseSnap = some (0, W.snapshot, 0) := by
  have h : (W.snap 1).get F.ALM_CFG_BOOT_SLOT = 0 := by decide
  unfold State.chooseSnap
  rw [h]
  simp [W.snap_of]

/-- A cell of each frame that is well formed, and one that is not. -/
def W.ack : AckCell := ⟨List.replicate 16 0, List.replicate 16 0, 0⟩
def W.frame : DataFrame := ⟨W.head, false, 0, false, false, List.replicate 256 0⟩
def W.badPkt : Packet := { W.pkt with dst := 2 ^ 24 }
def W.badHead : FrameHead := { W.head with seq := 2 ^ 20 }
def W.badTime : TimeCell := { W.time with xid := 2 ^ 32 }
def W.badCap : CapCell := { W.cap with nonce := 2 ^ 64 }
def W.badAck : AckCell := { W.ack with grants := [] }
def W.badFrame : DataFrame := { W.frame with cell := [] }

/-! ### Hypotheses met -/

theorem test_wit_StepRunsFrontCommand : ({ State.reset with pending := [.cellSlot []] } : State).pending = .cellSlot [] :: [] := by decide

theorem test_wit_IdleStepIsOneCoreClock : State.reset.pending = [] := by decide

theorem test_wit_StepKeepsCanonicalMemory : State.reset.inv = true ∧ State.reset.pending = [] := by decide

theorem test_wit_CommandsThatLeaveTableSpaceAlone : mayStore (.cellSlot []) = false := by decide

theorem test_wit_FieldWriteChangesOneField : F.CAP_TIME_MT.key 0 0 0 ≠ F.MT_SRC_KIND.key 0 0 0 := by decide

theorem test_wit_EventTouchesOnlyHeaderAndCollector : 0x100 * 64 ≤ F.MT_SRC_KIND.off * 64 ∧ F.MT_SRC_KIND.off * 64 < 4096 * 64 := by decide

theorem test_wit_ResetsEmptyTheMainDomains :
  ((1 : Nat) % 2 ^ 16 ≠ 0x5752) ∧
  (({ State.reset with boot := { State.reset.boot with pwrGood := true } } : State).boot.pwrGood = true) :=
  ⟨by decide, by decide⟩

theorem test_wit_RestoreGoesThroughItsStages :
  ((fun s : State => s.boot.pwrGood = true ∧ s.boot.stage = 0 ∧ s.boot.railOut = false) { State.reset with boot := { State.reset.boot with pwrGood := true } }) ∧
  ((fun (n src : Nat) (x : Snapshot) (cal : Tab Nat) (s : State) => s.boot.stage = 1 ∧ s.chooseSnap = some (n, x, src) ∧ s.calCopy = some cal) 0 0 W.snapshot [] (W.snap 1)) ∧
  ((fun (s : State) => s.boot.stage = 1 ∧ s.chooseSnap = none ∧ s.calCopy = none) { State.reset with boot := { State.reset.boot with stage := 1 } }) ∧
  ((fun (s : State) (x : Snapshot) => s.boot.stage = 2 ∧ s.snapOf (s.get F.ALM_STAT_SLOT) = some x) (W.snap 2) W.snapshot) ∧
  ((fun (s : State) => s.boot.stage = 2 ∧ s.snapOf (s.get F.ALM_STAT_SLOT) = none) { State.reset with boot := { State.reset.boot with stage := 2 } }) ∧
  (State.reset.boot.pwrGood = false) ∧
  (State.reset.boot.pwrGood = false) :=
  ⟨by decide, ⟨rfl, W.snap_choose, rfl⟩, by decide, ⟨rfl, W.snap_of 2⟩, by decide, by decide, by decide⟩

theorem test_wit_SourceSelectionAndLoss :
  ((fun (s : State) => (s.sourceGone = true) ∧ (s.get F.MT_STAT_STATE = locked))  (State.reset.set F.MT_STAT_STATE locked)) ∧
  ((fun (s : State) => (s.sourceGone = true) ∧ (s.get F.MT_STAT_STATE = unsure))  State.reset) ∧
  ((fun (s : State) => (s.sourceGone = true) ∧ (s.get F.MT_STAT_STATE ≠ locked) ∧ (s.get F.MT_STAT_STATE ≠ unsure))  (State.reset.set F.MT_STAT_STATE holdover)) ∧
  ((fun (s : State) => (s.sourceGone = false))  (State.reset.set F.MT_SRC_KIND 1)) ∧
  ((fun (s : State) => (s.get F.MT_STAT_STATE = holdover) ∧ (s.get F.MT_ACC_LIMIT < s.errNow))  { (State.reset.set F.MT_STAT_STATE holdover).set F.MT_ACC_LIMIT 1 with servo := { State.reset.servo with lossErr := 9 } }) ∧
  ((fun (s : State) => (s.get F.MT_STAT_STATE ≠ holdover ∨ s.errNow ≤ s.get F.MT_ACC_LIMIT))  State.reset) :=
  ⟨by decide, by decide, by decide, by decide, by decide, by decide⟩

theorem test_wit_ServoUpdatesAndSettling :
  ((fun (_offPs : Int) (err : Nat) (s : State) => (s.get F.MT_SRC_KIND ≠ 0) ∧ (s.get F.MT_STAT_STATE = locked) ∧ (err ≤ s.get F.MT_ACC_LIMIT)) 0 5 (((State.reset.set F.MT_SRC_KIND 1).set F.MT_STAT_STATE locked).set F.MT_ACC_LIMIT 5)) ∧
  ((fun (offPs : Int) (err : Nat) (s : State) => (s.get F.MT_SRC_KIND ≠ 0) ∧ (s.get F.MT_STAT_STATE = holdover) ∧ (err ≤ s.get F.MT_ACC_LIMIT) ∧ ((psUnits offPs).natAbs ≤ ns (s.get F.MT_ACC_LIMIT))) 0 5 (((State.reset.set F.MT_SRC_KIND 1).set F.MT_STAT_STATE holdover).set F.MT_ACC_LIMIT 5)) ∧
  ((fun (offPs : Int) (err : Nat) (s : State) => (s.get F.MT_SRC_KIND ≠ 0) ∧ (s.get F.MT_STAT_STATE = holdover) ∧ (err ≤ s.get F.MT_ACC_LIMIT) ∧ (ns (s.get F.MT_ACC_LIMIT) < (psUnits offPs).natAbs)) (10 ^ 12) 5 (((State.reset.set F.MT_SRC_KIND 1).set F.MT_STAT_STATE holdover).set F.MT_ACC_LIMIT 5)) ∧
  ((fun (_offPs : Int) (err : Nat) (s : State) => (s.get F.MT_SRC_KIND ≠ 0) ∧ (s.get F.MT_STAT_STATE ≠ unsure) ∧ (s.get F.MT_ACC_LIMIT < err)) 0 9 (((State.reset.set F.MT_SRC_KIND 1).set F.MT_STAT_STATE locked).set F.MT_ACC_LIMIT 5)) ∧
  ((fun (_offPs : Int) (err : Nat) (s : State) => (s.get F.MT_SRC_KIND ≠ 0) ∧ (s.get F.MT_STAT_STATE = unsure) ∧ (err ≤ s.get F.MT_ACC_LIMIT)) 0 5 ((State.reset.set F.MT_SRC_KIND 1).set F.MT_ACC_LIMIT 5)) ∧
  ((fun (_offPs : Int) (_err : Nat) (s : State) => (s.get F.MT_STAT_STATE ≠ unsure)) 0 5 (State.reset.set F.MT_STAT_STATE locked)) ∧
  ((fun (_offPs : Int) (_err : Nat) (_qual : Bool) (s : State) => (s.get F.MT_SRC_KIND = 0)) 0 5 true State.reset) ∧
  ((fun (at_ : Nat) (s : State) => (s.servo.qualSince = some at_) ∧ (s.isUnsure = true) ∧ (at_ + ns (s.get F.MT_ACC_SETTLE * 10000000) ≤ s.now) ∧ (s.servo.lastOff.natAbs ≤ ns (s.get F.MT_SLEW_STEP_THRESH))) 0 { State.reset.set F.MT_ACC_SETTLE 0 with servo := { State.reset.servo with qualSince := some 0 } }) ∧
  ((fun (at_ : Nat) (s : State) => (s.servo.qualSince = some at_) ∧ (s.isUnsure = true) ∧ (at_ + ns (s.get F.MT_ACC_SETTLE * 10000000) ≤ s.now) ∧ (ns (s.get F.MT_SLEW_STEP_THRESH) < s.servo.lastOff.natAbs)) 0 { State.reset.set F.MT_ACC_SETTLE 0 with servo := { State.reset.servo with qualSince := some 0, lastOff := 10 ^ 40 } }) ∧
  ((fun (s : State) => (s.servo.qualSince = none ∨ s.isUnsure = false))  State.reset) ∧
  ((fun (at_ : Nat) (s : State) => (s.servo.qualSince = some at_) ∧ (s.now < at_ + ns (s.get F.MT_ACC_SETTLE * 10000000))) 0 { State.reset with servo := { State.reset.servo with qualSince := some 0 } }) :=
  ⟨by decide, by decide, by decide, by decide, by decide, by decide, by decide, by decide, by decide, by decide, by decide⟩

theorem test_wit_ReferenceEdgesAndPpsOutput :
  ((fun (_residual : Nat) (_clk : Bool) (s : State) => (s.get F.MT_SRC_KIND = 1) ∧ (s.boot.pwrGood = true) ∧ (s.servo.tod = none)) 0 true { State.reset.set F.MT_SRC_KIND 1 with boot := { State.reset.boot with pwrGood := true } }) ∧
  ((fun (_residual v at_ : Nat) (_clk : Bool) (s : State) => (s.get F.MT_SRC_KIND = 1) ∧ (s.boot.pwrGood = true) ∧ (s.servo.tod = some (v, at_)) ∧ (s.now < at_ + ns 1000000)) 0 7 0 true { State.reset.set F.MT_SRC_KIND 1 with boot := { State.reset.boot with pwrGood := true }, servo := { State.reset.servo with tod := some (7, 0) } }) ∧
  ((fun (_residual v at_ : Nat) (_clk : Bool) (s : State) => (s.get F.MT_SRC_KIND = 1) ∧ (s.boot.pwrGood = true) ∧ (s.servo.tod = some (v, at_)) ∧ (at_ + ns 1000000 ≤ s.now) ∧ (s.isUnsure = true)) 0 7 0 false { State.reset.set F.MT_SRC_KIND 1 with boot := { State.reset.boot with pwrGood := true }, clk := ⟨0, ns 1000000, 0, 0⟩, servo := { State.reset.servo with tod := some (7, 0) } }) ∧
  ((fun (_residual v at_ : Nat) (_clk : Bool) (s : State) => (s.get F.MT_SRC_KIND = 1) ∧ (s.boot.pwrGood = true) ∧ (s.servo.tod = some (v, at_)) ∧ (at_ + ns 1000000 ≤ s.now) ∧ (s.isUnsure = false) ∧ ((wrapDiff (ns v : Nat) ((s.clk.mt : Int) - psUnits (s.sget F.MT_EXT_COMP_PS))).natAbs ≤ ns (s.get F.MT_ACC_LIMIT))) 0 0 0 false { (State.reset.set F.MT_SRC_KIND 1).set F.MT_STAT_STATE locked with boot := { State.reset.boot with pwrGood := true }, clk := ⟨0, ns 1000000, 0, 0⟩, servo := { State.reset.servo with tod := some (0, 0) } }) ∧
  ((fun (_residual v at_ : Nat) (_clk : Bool) (s : State) => (s.get F.MT_SRC_KIND = 1) ∧ (s.boot.pwrGood = true) ∧ (s.servo.tod = some (v, at_)) ∧ (at_ + ns 1000000 ≤ s.now) ∧ (s.isUnsure = false) ∧ (ns (s.get F.MT_ACC_LIMIT) < (wrapDiff (ns v : Nat) ((s.clk.mt : Int) - psUnits (s.sget F.MT_EXT_COMP_PS))).natAbs)) 0 (2 ^ 40) 0 false { (State.reset.set F.MT_SRC_KIND 1).set F.MT_STAT_STATE locked with boot := { State.reset.boot with pwrGood := true }, clk := ⟨0, ns 1000000, 0, 0⟩, servo := { State.reset.servo with tod := some (2 ^ 40, 0) } }) ∧
  ((fun (_residual : Nat) (_clk : Bool) (s : State) => (s.get F.MT_SRC_KIND ≠ 1 ∨ s.boot.pwrGood = false)) 0 true State.reset) ∧
  ((fun (s : State) => (s.flag F.MT_PPS_OUT_EN = true) ∧ (((s.clk.mt : Int) + psUnits (s.sget F.MT_PPS_OUT_COMP)) % (secUnits : Int) < 1000000000 + (s.get F.MT_SLEW_MAX_PPB : Int)) ∧ (Tab.get 0 s.marks markPps ≠ s.ppsCount))  { State.reset.set F.MT_PPS_OUT_EN 1 with clk := ⟨ns 1000000000, 0, 0, 0⟩ }) ∧
  ((fun (s : State) => (s.flag F.MT_PPS_OUT_EN = false ∨ s.ppsNow = false ∨ Tab.get 0 s.marks markPps = s.ppsCount))  State.reset) :=
  ⟨by decide, by decide, by decide, by decide, by decide, by decide, by decide, by decide⟩

theorem test_wit_PtmDialogsAndTimeFrames :
  ((fun (s : State) => (s.get F.MT_SRC_KIND = 2) ∧ (s.due markPtm (2 ^ s.get F.MT_SYNC_PTM_K) = true) ∧ (s.ptmReady (s.get F.MT_SRC_PTM_PORT) = true))  { (State.reset.set F.MT_SRC_KIND 2).set F.HPT_STAT_UP 1 with clk := ⟨10 ^ 30, 0, 0, 0⟩, funcs := [(0, { FuncSt.reset with ptm := true })] }) ∧
  ((fun (s : State) => (s.get F.MT_SRC_KIND = 2) ∧ (s.due markPtm (2 ^ s.get F.MT_SYNC_PTM_K) = true) ∧ (s.ptmReady (s.get F.MT_SRC_PTM_PORT) = false))  { State.reset.set F.MT_SRC_KIND 2 with clk := ⟨10 ^ 30, 0, 0, 0⟩ }) ∧
  ((fun (_t _residual : Nat) (s : State) => (s.get F.MT_SRC_KIND = 2) ∧ (s.servo.ptmOut = true)) 0 0 { State.reset.set F.MT_SRC_KIND 2 with servo := { State.reset.servo with ptmOut := true } }) ∧
  ((fun (_t _residual : Nat) (s : State) => (s.get F.MT_SRC_KIND = 2) ∧ (s.servo.ptmOut = true)) 0 0 { State.reset.set F.MT_SRC_KIND 2 with servo := { State.reset.servo with ptmOut := true } }) ∧
  ((fun (p : Fin 1024) (s : State) => (s.hasTime p = true) ∧ (s.due (markTime p) (2 ^ s.get F.MT_SYNC_TIME_K) = true)) 0 W.up) ∧
  ((fun (p : Fin 1024) (k : Fin 8) (hd rest : List Byte) (h : FrameHead) (c : TimeCell) (_residual : Nat) (s : State) => (frameOf (hd ++ rest) = some (.time h c)) ∧ (s.hears p k = true) ∧ (((s.heard p k).notFence p).accepts p = true)) 0 0 ((Frame.bytes (.time W.head W.time)).take 8) ((Frame.bytes (.time W.head W.time)).drop 8) W.head W.time 0 W.up) ∧
  ((fun (p : Fin 1024) (k : Fin 8) (hd rest : List Byte) (h : FrameHead) (c : TimeCell) (_residual : Nat) (s : State) => (frameOf (hd ++ rest) = some (.time h c)) ∧ (s.hears p k = false)) 0 0 ((Frame.bytes (.time W.head W.time)).take 8) ((Frame.bytes (.time W.head W.time)).drop 8) W.head W.time 0 State.reset) ∧
  ((fun (p : Fin 1024) (k : Fin 8) (hd rest : List Byte) (h : FrameHead) (c : TimeCell) (_residual : Nat) (s : State) => (frameOf (hd ++ rest) = some (.time h c)) ∧ (s.hears p k = true) ∧ (((s.heard p k).notFence p).accepts p = false)) 0 0 ((Frame.bytes (.time W.head W.time)).take 8) ((Frame.bytes (.time W.head W.time)).drop 8) W.head W.time 0 (W.at 0)) :=
  ⟨by decide, by decide, by decide, by decide, by decide, by decide +kernel, by decide +kernel, by decide +kernel⟩

theorem test_wit_ArmingAndAlarmCommands :
  ((fun (cls : Fin 31) (i : Fin 1024) (t : Nat) (s : State) => (shadowClass cls = true) ∧ (implemented cls i = true) ∧ (((((s.fireArmed (pageNo cls i)).set (F.EPOCH_AT_NS.of cls) (t % 2 ^ 64) i).disarm (pageNo cls i)).slotFor (t % 2 ^ 64)) = none)) 14 0 0 W.noSlot) ∧
  ((fun (cls : Fin 31) (i : Fin 1024) (t n : Nat) (new : Bool) (s : State) => (shadowClass cls = true) ∧ (implemented cls i = true) ∧ (((((s.fireArmed (pageNo cls i)).set (F.EPOCH_AT_NS.of cls) (t % 2 ^ 64) i).disarm (pageNo cls i)).slotFor (t % 2 ^ 64)) = some (n, new))) 14 0 0 63 true State.reset) ∧
  ((fun (cls : Fin 31) (i : Fin 1024) (s : State) => (shadowClass cls = true) ∧ (implemented cls i = true) ∧ (s.capturePending (pageNo cls i) = false) ∧ (s.swappedNow (pageNo cls i) = false)) 16 0 State.reset) ∧
  ((fun (cls : Fin 31) (i : Fin 1024) (_s : State) => (shadowClass cls = true) ∧ (implemented cls i = true) ∧ (cls.val ≠ 14)) 27 0 State.reset) ∧
  ((fun (cls : Fin 31) (i : Fin 1024) (_s : State) => (shadowClass cls = true) ∧ (implemented cls i = true) ∧ (cls.val = 14)) 14 0 State.reset) ∧
  ((fun (t : Fin 72) (s : State) => (s.flag F.RTE_STAT_HOLD t = true) ∧ (s.over (Tab.get 0 s.rte.holdAt t) (16 * s.get F.RTE_EPOCH_CFG_HOLD t) 16 = true)) 0 { State.reset.set F.RTE_STAT_HOLD 1 with clk := ⟨0, 10 ^ 30, 0, 0⟩ }) ∧
  ((fun (n : Fin 64) (s : State) => (¬ (s.flag F.MT_ALM_CTL_EN 0 n = true ∧ ns (s.get F.MT_ALM_TIME_NS 0 n) ≤ s.clk.mt))) 0 State.reset) ∧
  ((fun (n : Fin 64) (s : State) => (s.slotDue n = true) ∧ (s.captures n = true)) 0 ((State.reset.set F.MT_ALM_CTL_EN 1).set F.MT_ALM_CTL_ACTION 2)) ∧
  ((fun (n : Fin 64) (s : State) => (s.slotDue n = true) ∧ (s.captures n = false)) 0 { State.reset.set F.MT_ALM_CTL_EN 1 with clk := ⟨10 ^ 30, 0, 0, 0⟩ }) ∧
  ((fun (n : Nat) (s : State) => s.clk.mt ≤ ns (s.get F.MT_ALM_TIME_NS 0 n + s.get F.MT_ACC_LIMIT) ∧ n ∉ s.rf.past) 0 State.reset) ∧
  ((fun (n : Nat) (s : State) => (ns (s.get F.MT_ALM_TIME_NS 0 n + s.get F.MT_ACC_LIMIT) < s.clk.mt ∨ n ∈ s.rf.past)) 0 { State.reset with clk := W.late }) :=
  ⟨by decide, by decide, by decide, by decide, by decide, by decide, by decide, by decide, by decide, by decide, by decide⟩

theorem test_wit_SlewIsBounded : (fun s : State => s.pending = [] ∧ s.get F.PWR_STAT_RUNG ≠ 5 ∧ s.get F.MT_SLEW_MAX_PPB ≤ 1000000000) State.reset := by decide

theorem test_wit_OpticsCommands :
  ((fun (e : Fin 16) (reach : Fin 2) (s : State) => (s.get F.OPT_CTL_REACH e ≠ reach) ∧ ((s.portsOn (lanesOfOpt e)).isEmpty = true)) 0 1 State.reset) ∧
  ((fun (e : Fin 16) (reach : Fin 2) (s : State) => (s.get F.OPT_CTL_REACH e ≠ reach) ∧ ((s.portsOn (lanesOfOpt e)).isEmpty = false)) 0 1 W.up) ∧
  ((fun (e : Fin 16) (f : Fin 8) (pwr : Nat) (s : State) => (signedOf (pwr % 2 ^ 16) 16 < s.sget F.OPT_CTL_FEED_LOW e) ∧ ((s.optic e).low.contains f.val = false)) 0 0 0x8000 State.reset) ∧
  ((fun (e : Fin 16) (f : Fin 8) (k at_ : Nat) (s : State) => ((s.optic e).below.find? (·.1 == f.val) = some (k, at_)) ∧ (at_ + ns 1000 ≤ s.now) ∧ ((s.optic e).lost.contains f.val = false)) 0 0 0 0 { W.up with opts := [(0, { OptSt.reset with below := [(0, 0)] })] }) ∧
  ((fun (e : Fin 16) (s : State) => ((s.optic e).prsnt = false)) 0 State.reset) ∧
  ((fun (e : Fin 16) (s : State) => ((s.optic e).prsnt = true) ∧ ((s.optic e).inserted = false) ∧ ((s.optic e).prsntAt + ns 50000000 ≤ s.now)) 0 { W.up with opts := [(0, { OptSt.reset with prsnt := true })] }) ∧
  ((fun (e : Fin 16) (f : Fin 8) (pwr k at_ : Nat) (s : State) => (((s.feedPower e f pwr).optic e).above.find? (·.1 == f.val) = some (k, at_)) ∧ (at_ + ns 10000000 ≤ (s.feedPower e f pwr).now) ∧ ((s.feedPower e f pwr).getBit F.OPT_STAT_FEED_OK f e = false) ∧ (((s.feedPower e f pwr).optic e).prsnt = true)) 0 0 0x7FFF 0 0 { W.up.set F.OPT_STAT_FEED_OK 0 with opts := [(0, { OptSt.reset with prsnt := true, above := [(0, 0)] })] }) ∧
  ((fun (l : Fin 1024) (_rx _bias _temp _feed : Nat) (s : State) => (s.due (markMonitor l) (2 ^ 20) = true)) 0 0 0 0 0 W.up) ∧
  ((fun (e : Fin 16) (_id : Nat) (_ready : Bool) (s : State) => ((s.optic e).inserted = true) ∧ ((if Tab.get 0 s.marks (markLsrc e) < (s.optic e).prsntAt + ns 150000000 then (s.optic e).prsntAt + ns 150000000 else Tab.get 0 s.marks (markLsrc e) + ns 1000000000) ≤ s.now)) 0 5 true { W.up with opts := [(0, { OptSt.reset with inserted := true })] }) :=
  ⟨by decide, by decide, by decide, by decide, by decide, by decide, by decide, by decide, by decide⟩

theorem test_wit_PortBringupCommands :
  ((fun (p : Fin 1024) (v : Nat) (s : State) => (s.flag F.PORT_CTL_EN p = false) ∧ ((s.setModes p v).flag F.PORT_CTL_EN p = false)) 0 1 State.reset) ∧
  ((fun (p : Fin 1024) (v : Nat) (s : State) => ((s.setModes p v).flag F.PORT_CTL_EN p = true)) 0 1 W.up) ∧
  ((fun (p : Fin 1024) (v : Nat) (s : State) => ((s.setModes p v).flag F.PORT_CTL_EN p = true)) 0 0 W.up) ∧
  ((fun (p : Fin 1024) (v : Nat) (s : State) => ((s.setModes p v).flag F.PORT_CTL_EN p = false)) 0 0 State.reset) ∧
  ((fun (l : Fin 1024) (p : Nat) (s : State) => (s.owner l = some p) ∧ (s.get F.PORT_STAT_STATE p = stActive)) 0 0 W.up) ∧
  ((fun (l : Fin 1024) (p : Nat) (s : State) => (s.owner l = some p) ∧ (s.get F.PORT_STAT_STATE p = stBringup) ∧ (s.mayLock p l = true) ∧ (((s.set F.LANE_STAT_LOCK 1 l).modLane l fun x => { x with good := 0, loss := none }).flag F.LANE_EQ_VALID l = true)) 0 0 ((W.at stBringup).set F.LANE_EQ_VALID 1)) ∧
  ((fun (l : Fin 1024) (p : Nat) (s : State) => (s.owner l = some p) ∧ (s.get F.PORT_STAT_STATE p = stBringup) ∧ (s.mayLock p l = true) ∧ (((s.set F.LANE_STAT_LOCK 1 l).modLane l fun x => { x with good := 0, loss := none }).flag F.LANE_EQ_VALID l = false)) 0 0 ((W.at stBringup).set F.LANE_EQ_VALID 0)) ∧
  ((fun (p : Fin 1024) (at_ : Nat) (s : State) => ((s.port p).firstLock = some at_) ∧ (s.get F.PORT_STAT_STATE p = stBringup) ∧ ((s.port p).restartAt = none) ∧ ((s.port p).awaitCap = false) ∧ (bestBlock (s.healthyMask p) ≠ 0) ∧ (at_ + ns 1000000 ≤ s.now)) 0 0 W.first) ∧
  ((fun (p : Fin 1024) (s : State) => (s.get F.PORT_STAT_STATE p = stBringup) ∧ (s.healthyMask p = 0) ∧ ((s.port p).start + ns 200000000 ≤ s.now)) 0 (W.at stBringup)) ∧
  ((fun (p : Fin 1024) (s : State) => (s.get F.PORT_STAT_STATE p = stBringup) ∧ (s.flag F.PORT_CTL_COMPAT_EN p = true) ∧ (s.lockedMask p = 0) ∧ ((s.port p).rateAt + ns 5000000 ≤ s.now)) 0 ((W.at stBringup).set F.PORT_CTL_COMPAT_EN 1)) ∧
  ((fun (p : Fin 1024) (s : State) => (s.frameLocked p = true) ∧ ((s.port p).gotLocked = true)) 0 W.fl) ∧
  ((fun (p : Fin 1024) (at_ : Nat) (s : State) => ((s.port p).redrawAt = some at_) ∧ (at_ ≤ s.now) ∧ ((s.port p).widthReq = none)) 0 0 { W.up with ports := [(0, { PortSt.reset with redrawAt := some 0 })] }) ∧
  ((fun (p : Fin 1024) (at_ : Nat) (s : State) => ((s.port p).restartAt = some at_) ∧ (at_ ≤ s.now) ∧ (s.get F.PORT_STAT_STATE p = stBringup)) 0 0 { W.at stBringup with ports := [(0, { PortSt.reset with restartAt := some 0 })] }) :=
  ⟨by decide, by decide, by decide, by decide, by decide, by decide, by decide, by decide, by decide, by decide, by decide, by decide, by decide⟩

theorem test_wit_CapabilityExchangeCommands :
  ((fun (p : Fin 1024) (s : State) => (s.get F.PORT_STAT_STATE p = stCapx) ∧ (s.due (markCap p) 256 = true)) 0 (W.at stCapx)) ∧
  ((fun (p : Fin 1024) (prop : Nat) (wide : Bool) (s : State) => (s.get F.PORT_STAT_STATE p = stActive) ∧ (s.due (markCap p) 64 = true) ∧ ((s.port p).widthReq = some (prop, wide))) 0 1 false { W.up with ports := [(0, { PortSt.reset with widthReq := some (1, false) })] }) ∧
  ((fun (p : Fin 1024) (k : Fin 8) (hd rest : List Byte) (h : FrameHead) (c : CapCell) (s : State) => (frameOf (hd ++ rest) = some (.cap h c)) ∧ ((s.lane (s.base p + k)).delineated = true) ∧ (s.safe = false)) 0 0 ((Frame.cap W.head W.cap).bytes.take 8) ((Frame.cap W.head W.cap).bytes.drop 8) W.head W.cap (W.at stCapx)) ∧
  ((fun (p _k : Nat) (h : FrameHead) (c : CapCell) (s : State) => s.get F.PORT_STAT_STATE p = stCapx ∧ ((((if s.keepsLink p then s.applyHead p h h.sack 16 else s).modPort p fun x => { x with awaitCap := false }).heardNonce p c).port p).retrain = false) 0 0 W.head W.cap (W.at stCapx)) ∧
  ((fun (p _k : Nat) (h : FrameHead) (c : CapCell) (s : State) => s.get F.PORT_STAT_STATE p = stFrameLock ∧ ((((if s.keepsLink p then s.applyHead p h h.sack 16 else s).modPort p fun x => { x with awaitCap := false }).heardNonce p c).port p).retrain = true ∧ ((((if s.keepsLink p then s.applyHead p h h.sack 16 else s).modPort p fun x => { x with awaitCap := false }).heardNonce p c).port p).recNonce ≠ some c.nonce) 0 0 W.head W.cap { W.at stFrameLock with ports := [(0, { PortSt.reset with retrain := true })] }) ∧
  ((fun (p : Fin 1024) (s : State) => (s.active p = true) ∧ (laneCount (s.port p).act < laneCount (bestBlock (Nat.land (Nat.lor (s.port p).act (s.get F.PORT_STAT_READY p)) (s.fullMask p))))) 0 ((W.up.set F.PORT_CTL_LANES 1).set F.PORT_STAT_READY 3)) ∧
  ((fun (p : Fin 1024) (s : State) => (s.active p = true) ∧ (s.get F.PORT_PWR_STAT_RUNG p = 0) ∧ ((s.port p).wake = none)) 0 W.up) ∧
  ((fun (p : Fin 1024) (s : State) => (s.active p = true) ∧ (s.get F.PORT_PWR_STAT_RUNG p ≠ 0)) 0 (W.up.set F.PORT_PWR_STAT_RUNG 2)) :=
  ⟨by decide, by decide, by decide +kernel, by decide, by decide, by decide, by decide, by decide⟩

theorem test_wit_LaneLossCommands :
  ((fun (l : Fin 1024) (p : Nat) (s : State) => (s.owner l = some p) ∧ (s.flag F.LANE_STAT_LOCK l = true) ∧ (s.get F.PORT_PWR_STAT_RUNG p = 0) ∧ (s.get F.PORT_STAT_STATE p = stCapx)) 0 0 ((W.at stCapx).set F.LANE_STAT_LOCK 1)) ∧
  ((fun (l : Fin 1024) (p at_ : Nat) (s : State) => (s.owner l = some p) ∧ (s.lossStart l = some at_) ∧ (s.active p = true) ∧ (bit (s.port p).act (s.idxOf p l) = true) ∧ (s.flag F.LANE_STAT_FAILED l = false) ∧ (s.over at_ (16 * min (s.get F.PORT_TIMERS_LANE_LOSS p) (s.get F.PORT_TIMERS_LOCK_LOSS p)) 16 = true)) 0 0 0 W.lossy) ∧
  ((fun (l : Fin 1024) (corr uncorr : Nat) (s : State) => (s.due (markUncorr l) (2 ^ 20) = true) ∧ ((((((((s.mark (markUncorr l) (2 ^ 20)).inc F.LANE_FEC_CORR l (d := corr)).inc F.LANE_FEC_UNCORR l (d := uncorr)).count 8 l 0x40 corr).count 8 l 0x41 uncorr).raiseIf
    (decide (0 < uncorr)) E.LANE_FEC_UNCORR l).owner l) = none)) 0 0 0 { State.reset with clk := ⟨2 ^ 50 * 1000 * unitsPerNs, 0, 0, 0⟩ }) ∧
  ((fun (l : Fin 1024) (p : Nat) (_idx : Fin 8) (s : State) => (s.owner l = some p) ∧ (s.active p = true) ∧ (bit (s.port p).act (s.idxOf p l) = false) ∧ (s.getBit F.PORT_STAT_READY (s.idxOf p l) p = false) ∧ ((s.lane l).fenced = false) ∧ (s.lit l = true) ∧ (s.get F.LANE_CTL_LOOPBACK l = 0) ∧ (s.get F.LANE_CTL_PRBS l = 0) ∧ ((s.lane l).attemptAt + ns 10000000 ≤ s.now)) 0 0 0 W.dark) ∧
  ((fun (l : Fin 1024) (p : Nat) (idx : Fin 8) (s : State) => (s.owner l = some p) ∧ (s.active p = true) ∧ (bit (s.port p).act (s.idxOf p l) = false) ∧ (s.getBit F.PORT_STAT_READY (s.idxOf p l) p = false) ∧ ((s.lane l).fenced = false) ∧ (s.lit l = true) ∧ (s.get F.LANE_CTL_LOOPBACK l = 0) ∧ (s.get F.LANE_CTL_PRBS l = 0) ∧ ((s.lane l).attemptAt + ns 10000000 ≤ s.now) ∧ (idx.val ≠ s.idxOf p l)) 0 0 1 W.dark) ∧
  ((fun (l : Fin 1024) (p : Nat) (idx : Fin 8) (s : State) => (s.owner l = some p) ∧ (s.active p = true) ∧ (bit (s.port p).act (s.idxOf p l) = false) ∧ (s.getBit F.PORT_STAT_READY (s.idxOf p l) p = false) ∧ ((s.lane l).fenced = false) ∧ (s.lit l = true) ∧ (s.get F.LANE_CTL_LOOPBACK l = 0) ∧ (s.get F.LANE_CTL_PRBS l = 0) ∧ ((s.lane l).attemptAt + ns 10000000 ≤ s.now) ∧ (idx.val = s.idxOf p l)) 0 0 0 W.dark) ∧
  ((fun (p : Fin 1024) (s : State) => (s.active p = true) ∧ (s.get F.PORT_PWR_STAT_RUNG p = 0) ∧ ((setBitsOf (s.port p).act 8).all (fun k => match s.lossStart (s.base p + k) with
    | some at_ => s.over at_ (16 * s.get F.PORT_TIMERS_LOCK_LOSS p) 16
    | none => false) = true)) 0 W.lossy) ∧
  ((fun (p : Fin 1024) (at_ : Nat) (s : State) => ((s.port p).grace = some at_) ∧ (s.active p = false) ∧ (s.flag F.PORT_STAT_FLUSHING p = false) ∧ (s.flag F.PORT_CTL_EN p = true) ∧ (s.over at_ (16 * s.get F.PORT_TIMERS_GRACE p) 16 = true)) 0 0 { W.at stBringup with ports := [(0, { PortSt.reset with grace := some 0 })] }) ∧
  ((fun (l : Fin 1024) (_live : Nat) (_drifted : Bool) (s : State) => (s.flag F.LANE_CTL_RCAL_EN l = true) ∧ ((s.lane l).rcalAt + ns (2 ^ 17) ≤ s.now)) 0 5 true (W.up.set F.LANE_CTL_RCAL_EN 1)) :=
  ⟨by decide, by decide, by decide, by decide, by decide, by decide, by decide, by decide, by decide⟩

theorem test_wit_PortLadderCommands :
  ((fun (p : Fin 1024) (s : State) => (s.active p = true) ∧ (s.feat p 6 = true) ∧ (1 ≤ s.get F.PORT_PWR_AUTO_MAX p) ∧ (s.idle p = true) ∧ (s.namedInSrc p = false) ∧ ((s.port p).ladReq.isNone = true) ∧ ((s.port p).ladCmd.isNone = true) ∧ ((s.port p).wake.isNone = true) ∧ ((s.port p).widthReq.isNone = true) ∧ (s.get F.PORT_PWR_STAT_RUNG p = 0)) 0 ((W.up.set F.PORT_PWR_AUTO_MAX 2).set F.MT_SRC_UP_PORT 5)) ∧
  ((fun (_p : Fin 1024) (rung : Fin 8) (_s : State) => (rung.val ≠ 0) ∧ (rung.val ≤ 4)) 0 4 State.reset) ∧
  ((fun (p : Fin 1024) (rung at_ : Nat) (cmd : Bool) (s : State) => ((s.port p).ladReq = some (rung, cmd, at_)) ∧ (s.quiet p = true) ∧ (at_ + ns 100000 ≤ s.now)) 0 1 0 false { W.up with ports := [(0, { PortSt.reset with ladReq := some (1, false, 0) })] }) ∧
  ((fun (p : Fin 1024) (j : Nat) (s : State) => (s.get F.PORT_PWR_STAT_RUNG p + 1 = j) ∧ (2 ≤ j) ∧ (j ≤ (s.port p).ladMax) ∧ (s.flag F.PORT_PWR_STAT_COMMANDED p = false) ∧ ((s.port p).wake = none) ∧ (s.over (s.port p).ladAt (10 ^ (j - 1) * s.get F.PORT_PWR_IDLE p * 64) 64 = true)) 0 2 { W.up.set F.PORT_PWR_STAT_RUNG 1 with ports := [(0, { PortSt.reset with ladMax := 3 })] }) ∧
  ((fun (p : Fin 1024) (s : State) => ((s.port p).wake = none)) 0 State.reset) ∧
  ((fun (p : Fin 1024) (d at_ rung m : Nat) (s : State) => ((s.port p).wake = some (at_, rung, m)) ∧ (holdsMask m (s.port p).act = false) ∧ (at_ + ns (exitNs rung true + 2 * d + 16 * s.get F.PORT_TIMERS_LOCK_LOSS p) ≤ s.now)) 0 0 0 1 0 { W.up with ports := [(0, { PortSt.reset with act := 1, wake := some (0, 1, 0) })] }) :=
  ⟨by decide, by decide, by decide, by decide, by decide, by decide⟩

theorem test_wit_LinkFrameCommands :
  ((fun (p : Fin 1024) (k : Fin 8) (s : State) => (s.safe = true) ∧ ((s.lane (s.base p + k)).tx = true) ∧ (k.val < s.width p)) 0 0 (W.up.set F.FLT_STAT_SAFE 1)) ∧
  ((fun (p : Fin 1024) (k : Fin 8) (s : State) => (s.safe = false) ∧ (s.get F.PORT_STAT_STATE p = stActive) ∧ (bit (s.port p).act k = true) ∧ (s.get F.PORT_PWR_STAT_RUNG p = 0)) 0 0 W.up) ∧
  ((fun (p : Fin 1024) (k : Fin 8) (s : State) => (s.safe = false) ∧ (s.get F.PORT_STAT_STATE p = stFrameLock) ∧ (bit (s.port p).act k = true)) 0 0 (W.at stFrameLock)) ∧
  ((fun (p : Fin 1024) (k : Fin 8) (b : List Byte) (f : DataFrame) (s : State) => (frameOf b = some (.data f)) ∧ (s.hears p k = true) ∧ (((s.heard p k).notFence p).accepts p = true)) 0 0 (Frame.data ⟨W.head, false, 0, true, true, List.replicate 256 0⟩).bytes ⟨W.head, false, 0, true, true, List.replicate 256 0⟩ W.up) ∧
  ((fun (p : Fin 1024) (k : Fin 8) (b : List Byte) (f : DataFrame) (s : State) => (frameOf b = some (.data f)) ∧ (s.hears p k = true) ∧ (((s.heard p k).notFence p).accepts p = false)) 0 0 (Frame.data ⟨W.head, false, 0, true, true, List.replicate 256 0⟩).bytes ⟨W.head, false, 0, true, true, List.replicate 256 0⟩ (W.at stBringup)) ∧
  ((fun (p : Nat) (f : DataFrame) (s : State) => ((s.applyHead p f.head f.head.sack 16).count 11 p 0x42).mode p ≠ 2) 0 ⟨W.head, false, 0, true, true, List.replicate 256 0⟩ W.up) ∧
  ((fun (p : Nat) (f : DataFrame) (s : State) => ((s.applyHead p f.head f.head.sack 16).count 11 p 0x42).mode p = 2) 0 ⟨W.head, false, 0, true, true, List.replicate 256 0⟩ (W.up.set F.LNK_STAT_MODE 2)) ∧
  ((fun (p : Fin 1024) (k : Fin 8) (b : List Byte) (h : FrameHead) (s : State) => (frameOf b = some (.idle h)) ∧ (s.hears p k = true)) 0 0 (Frame.idle W.head).bytes W.head W.up) ∧
  ((fun (p : Fin 1024) (k : Fin 8) (hd rest : List Byte) (h : FrameHead) (c : AckCell) (s : State) => (frameOf (hd ++ rest) = some (.ack h c)) ∧ (s.hears p k = true) ∧ (((s.heard p k).notFence p).keepsLink p = true)) 0 0 ((Frame.ack W.head ⟨List.replicate 16 0, List.replicate 16 0, 0⟩).bytes.take 8) ((Frame.ack W.head ⟨List.replicate 16 0, List.replicate 16 0, 0⟩).bytes.drop 8) W.head ⟨List.replicate 16 0, List.replicate 16 0, 0⟩ W.up) ∧
  ((fun (p : Nat) (_h : FrameHead) (_c : AckCell) (s : State) => s.mode p ≠ 2) 0 W.head ⟨List.replicate 16 0, List.replicate 16 0, 0⟩ W.up) ∧
  ((fun (p : Fin 1024) (k : Fin 8) (b : List Byte) (h : FrameHead) (c : FenceCell) (s : State) => (frameOf b = some (.fence h c)) ∧ (s.hears p k = true) ∧ (s.get F.PORT_STAT_STATE p ≠ stDisabled) ∧ ((((s.heard p k).applyAlways p h).link p).fenceRun = 3)) 0 0 (Frame.fence W.head ⟨0, 0, 0, 0, 0⟩).bytes W.head ⟨0, 0, 0, 0, 0⟩ { W.at stFrameLock with links := [(0, { LinkSt.reset with fenceRun := 3 })] }) ∧
  ((fun (p : Fin 1024) (k : Fin 8) (b : List Byte) (h : FrameHead) (c : FenceCell) (s : State) => (frameOf b = some (.fence h c)) ∧ (s.hears p k = true) ∧ (s.get F.PORT_STAT_STATE p ≠ stDisabled) ∧ ((((s.heard p k).applyAlways p h).link p).fenceRun ≠ 3)) 0 0 (Frame.fence W.head ⟨0, 0, 0, 0, 0⟩).bytes W.head ⟨0, 0, 0, 0, 0⟩ (W.at stFrameLock)) :=
  ⟨by decide, by decide, by decide, by decide +kernel, by decide +kernel, by decide, by decide, by decide +kernel, by decide +kernel, by decide, by decide +kernel, by decide +kernel⟩

theorem test_wit_LinkRecoveryCommands :
  ((fun (p : Nat) (lane : Fin 1024) (b : List Byte) (s : State) => (s.owner lane = some p) ∧ (goodCrc b = false) ∧ ((((((s.inc F.LNK_CNT_ERR_CRC p).count 11 p 0x43).raise E.LNK_CRC_ERR p)).lane lane).bad + 1 < 8)) 0 0 [] W.up) ∧
  ((fun (lane : Fin 1024) (s : State) => (8 ≤ (s.lane lane).good) ∧ ((s.lane lane).delineated = false)) 0 W.fl) ∧
  ((fun (p : Fin 1024) (at_ : Nat) (s : State) => ((s.link p).timer = some at_) ∧ (s.active p = true) ∧ (s.over at_ (16 * s.get F.LNK_RTX_TIMEOUT p) 16 = true) ∧ ((s.replayExpired p).get F.LNK_RTX_EXP_NOW p < (s.replayExpired p).get F.LNK_RTX_MAX_EXP p)) 0 0 { W.up with links := [(0, { LinkSt.reset with timer := some 0 })] }) ∧
  ((fun (p : Fin 1024) (at_ : Nat) (s : State) => ((s.link p).timer = some at_) ∧ (s.active p = true) ∧ (s.over at_ (16 * s.get F.LNK_RTX_TIMEOUT p) 16 = true) ∧ ((s.replayExpired p).get F.LNK_RTX_MAX_EXP p ≤ (s.replayExpired p).get F.LNK_RTX_EXP_NOW p)) 0 0 { W.up.set F.LNK_RTX_MAX_EXP 1 with links := [(0, { LinkSt.reset with timer := some 0 })] }) ∧
  ((fun (p : Fin 1024) (vc : Nat) (s : State) => (s.active p = true) ∧ (s.safe = false) ∧ (s.unitsClaimed (tileOf p) + 1 ≤ s.inUnits (tileOf p)) ∧ (s.grantChoice p = some (vc, false))) 0 0 W.up) ∧
  ((fun (p : Fin 1024) (vc : Nat) (s : State) => (s.active p = true) ∧ (s.safe = false) ∧ (s.unitsClaimed (tileOf p) + 1 ≤ s.inUnits (tileOf p)) ∧ (s.grantChoice p = some (vc, true))) 0 0 W.lend) ∧
  ((fun (p : Fin 1024) (vc : Fin 16) (at_ : Nat) (s : State) => ((s.vcSt p vc).idleSince = some at_) ∧ (s.mode p = 1) ∧ ((s.vcSt p vc).released = false) ∧ (s.over at_ (64 * s.get F.LNK_CTL_REL_IDLE p) 64 = true) ∧ (s.txAvail p vc / 4 ≠ 0)) 0 0 0 { W.up with links := [(0, { LinkSt.reset with vcs := [{ VcSt.reset with idleSince := some 0, g := 2 }] })] }) ∧
  ((fun (p : Fin 1024) (v : Nat) (s : State) => ((s.write F.LNK_REPLAY_PEAK (bits v 32 13) p).flag F.PORT_CTL_EN p = false) ∧ ((s.write F.LNK_REPLAY_PEAK (bits v 32 13) p).slotsOthers p + bits v 0 13 ≤ (s.write F.LNK_REPLAY_PEAK (bits v 32 13) p).replaySlots (tileOf p))) 0 16 State.reset) ∧
  ((fun (p : Fin 1024) (v : Nat) (s : State) => ((s.write F.LNK_REPLAY_PEAK (bits v 32 13) p).flag F.PORT_CTL_EN p = true)) 0 16 W.up) :=
  ⟨by decide, by decide, by decide, by decide, by decide, by decide, by decide, by decide, by decide⟩

theorem test_wit_PacketCommands :
  ((fun (t : Fin 72) (_inPort : Fin 1024) (_pkt : Packet) (_s : State) => (t.val < 64)) 0 0 W.pkt State.reset) ∧
  ((fun (t : Fin 72) (inPort : Fin 1024) (pkt : Packet) (s : State) => (64 ≤ t.val) ∧ (s.engMute (s.presented t inPort pkt).1 = false) ∧ (s.asBefore.engRoom t inPort (vcOf pkt.cls 0) pkt.ncells = true)) 64 0 W.pkt { State.reset with rte := { State.reset.rte with selfOld := (0, 0, true) } }) ∧
  ((fun (t out : Fin 72) (port : Fin 1024) (vc : Fin 16) (mc : Bool) (h : Held) (s : State) => ((s.tile t).head mc out port vc = some h) ∧ (h.phase = .waiting)) 0 0 0 0 false W.held (W.tile0 fun x => { x with held := [W.held] })) ∧
  ((fun (out : Fin 72) (port : Fin 1024) (vc : Fin 16) (mc : Bool) (q : ResReq) (h : Held) (s : State) => ((s.tile out).oldestReq mc port vc = some q) ∧ ((s.tile q.inTile).byId q.id = some h) ∧ (q.mc = false) ∧ ((s.reqMembers out q h.pkt h.inPort).all (fun p => s.asBefore.outAdmits out p q.vc q.sl q.n && s.asBefore.quotaAdmits out p q.n) = true) ∧ (s.tooOld h.pkt = false) ∧ (s.toSpare out h.pkt = false)) 0 0 0 false ⟨0, 0, false, 0, 0, 0, 1, 0, 0⟩ { W.held with phase := .requested } W.req) ∧
  ((fun (out : Fin 72) (port : Fin 1024) (vc : Fin 16) (mc : Bool) (q : ResReq) (h : Held) (s : State) => ((s.tile out).oldestReq mc port vc = some q) ∧ ((s.tile q.inTile).byId q.id = some h) ∧ (toStaging out h.pkt = false) ∧ ((s.reqMembers out q h.pkt h.inPort).any (fun p => !s.asBefore.outAdmits out p q.vc q.sl q.n) = true)) 0 0 0 false ⟨0, 0, false, 0, 0, 0, 100000, 0, 0⟩ { W.held with phase := .requested } W.reqFull) ∧
  ((fun (t : Fin 72) (res : Fin 65536) (r : Resv) (s : State) => ((s.tile t).resv.find? (·.res == res.val) = some r) ∧ (r.cells.length = r.n) ∧ ((s.tile t).ordBlocked r = false)) 0 0 W.resv (W.tile0 fun x => { x with resv := [W.resv] })) ∧
  ((fun (t : Fin 72) (res : Fin 65536) (r : Resv) (s : State) => ((s.tile t).resv.find? (·.res == res.val) = some r) ∧ (r.cells.length < r.n) ∧ (s.over r.since (64 * s.get F.CORE_CTL_REASM_TO) 64 = true) ∧ (r.dead = false) ∧ (s.tooOld r.pkt = false)) 0 0 { W.resv with cells := [] } W.stuck) ∧
  ((fun (t : Fin 72) (res : Fin 65536) (r : Resv) (s : State) => ((s.tile t).resv.find? (·.res == res.val) = some r) ∧ (r.cells.length < r.n) ∧ (s.over r.since (64 * s.get F.CORE_CTL_REASM_TO) 64 = true) ∧ (r.dead = true)) 0 0 { W.resv with cells := [], dead := true } (W.tile0 fun x => { x with resv := [{ W.resv with cells := [], dead := true }] })) ∧
  ((fun (t : Fin 72) (id : Nat) (s : State) => ((s.tile t).aborts.contains id = true)) 0 3 (W.tile0 fun x => { x with aborts := [3] })) ∧
  ((fun (t : Fin 72) (s : State) => (s.due (markSweep t) (2 ^ s.get F.CORE_CTL_SWEEP_K) = true)) 0 (W.tile0 id)) :=
  ⟨by decide, by decide, by decide, by decide, by decide, by decide, by decide, by decide, by decide, by decide⟩

theorem test_wit_MiddleAndFenceCommands :
  ((fun (s : State) => (s.boundary = true) ∧ (s.capturePending (pageNo 16 0) = true) ∧ ((s.midsOut.filter ((s.applyCapture (pageNo 16 0)).each ((List.range 64).filter fun m => s.midFence m && !(s.applyCapture (pageNo 16 0)).midFence m && s.get F.TILE_PWR_RUNG m == 0) State.exitTile).midKept).length + ((List.range 72).filter fun m => (s.applyCapture (pageNo 16 0)).midFence m && !s.midFence m && !s.midOut m).length ≤ 8))  { State.reset with rf := { State.reset.rf with capt := [(pageNo 16 0, [])] } }) ∧
  ((fun (s : State) => (s.boundary = true) ∧ (s.capturePending (pageNo 16 0) = true) ∧ (8 < (s.midsOut.filter ((s.applyCapture (pageNo 16 0)).each ((List.range 64).filter fun m => s.midFence m && !(s.applyCapture (pageNo 16 0)).midFence m && s.get F.TILE_PWR_RUNG m == 0) State.exitTile).midKept).length + ((List.range 72).filter fun m => (s.applyCapture (pageNo 16 0)).midFence m && !s.midFence m && !s.midOut m).length))  { State.reset with rf := { State.reset.rf with capt := [(pageNo 16 0, [(F.CORE_MID_FENCE_LO_TILES.key 0 0 0, 0x1FF)])] } }) ∧
  ((fun (m : Fin 72) (s : State) => (s.boundary = true) ∧ (s.core.draining.contains m.val = true) ∧ (s.midEmpty m = true)) 3 { State.reset with core := { State.reset.core with draining := [3] } }) ∧
  ((fun (m : Fin 72) (s : State) => (s.boundary = true) ∧ (s.midOut m = true) ∧ (s.midFence m = false) ∧ (s.flag F.TILE_FENCE_FULL m = false) ∧ (s.get F.TILE_PWR_CUR m = 0) ∧ (s.midSkipped m = true)) 3 (State.reset.setMidSkipped 3 true)) ∧
  ((fun (t : Fin 72) (s : State) => (s.flag F.TILE_FENCE_FULL t = false) ∧ (s.ninth t = false)) 0 State.reset) ∧
  ((fun (t : Fin 72) (s : State) => (s.flag F.TILE_FENCE_FULL t = false) ∧ (s.ninth t = true)) 20 ((List.range 8).foldl (fun s m => s.setMidSkipped m true) State.reset)) ∧
  ((fun (t : Fin 72) (s : State) => (s.flag F.TILE_FENCE_FULL t = true)) 0 (State.reset.set F.TILE_FENCE_FULL 1)) ∧
  ((fun (t : Fin 72) (s : State) => (s.flag F.TILE_FENCE_FULL t = false)) 0 State.reset) ∧
  ((fun (t : Fin 72) (_v : Nat) (_s : State) => (t.val < 64)) 0 5 State.reset) ∧
  ((fun (t : Fin 72) (_v : Nat) (_s : State) => (64 ≤ t.val)) 70 5 State.reset) :=
  ⟨by decide, by decide, by decide, by decide, by decide, by decide, by decide, by decide, by decide, by decide⟩

set_option maxRecDepth 8192 in
theorem test_wit_RoutingAndBankCommands :
  ((fun (t : Fin 72) (id p : Nat) (h : Held) (s : State) => ((s.tile t).byId id = some h) ∧ (s.escDue t h = true) ∧ (h.pkt.rmode ≠ 2) ∧ (h.esc = some p)) 0 0 5 { W.held with cands := [1], esc := some 5 } W.esc) ∧
  ((fun (t : Fin 72) (id : Nat) (h : Held) (s : State) => ((s.tile t).byId id = some h) ∧ (s.escDue t h = true) ∧ (h.pkt.rmode = 2)) 0 0 { W.held with pkt := { W.pkt with rmode := 2 } } (W.tile0 fun x => { x with held := [{ W.held with pkt := { W.pkt with rmode := 2 } }] })) ∧
  ((fun (s : State) => (s.due markGossip 1000 = true))  { State.reset with clk := W.late }) ∧
  ((fun (_p : Fin 1024) (pkt : Packet) (_s : State) => (pkt.isGossip = true)) 0 { W.pkt with cls := 3, mep := true, w2 := 1 } State.reset) ∧
  ((fun (p : Fin 1024) (s : State) => ((s.staleKeys p).isEmpty = false) ∧ (s.rte.stale.contains p.val = false)) 0 { State.reset with clk := W.late, rte := { State.reset.rte with learned := [(0, (1, 0))] } }) ∧
  ((fun (t : Fin 72) (off : Bool) (n : Fin 2) (v : Nat) (s : State) => ((s.each ((List.range 64).filter fun b => (bankBits t).contains (64 * n.val + b) && !s.flt.bankFence.contains (t.val, 64 * n.val + b)) fun s b => s.setBit (if off then F.TILE_BANK_OFF_BITS else F.TILE_BANK_RET_BITS) b (bit v b) t n).bankRoom t = false)) 0 true 1 0 (State.reset.set F.BUF_CTL_MID_MIN 255)) ∧
  ((fun (t : Fin 72) (off : Bool) (n : Fin 2) (v : Nat) (s : State) => ((s.each ((List.range 64).filter fun b => (bankBits t).contains (64 * n.val + b) && !s.flt.bankFence.contains (t.val, 64 * n.val + b)) fun s b => s.setBit (if off then F.TILE_BANK_OFF_BITS else F.TILE_BANK_RET_BITS) b (bit v b) t n).bankRoom t = true)) 0 true 0 1 State.reset) ∧
  ((fun (t : Fin 72) (l : Fin 128) (s : State) => (s.getBit F.TILE_BANK_PEND_BITS (l.val % 64) t (l.val / 64) = true)) 0 0 (State.reset.set F.TILE_BANK_PEND_BITS 1)) :=
  ⟨by decide, by decide, by decide, by decide, by decide, by decide, by decide, by decide⟩

theorem test_wit_SchedulingAndTelemetryCommands :
  ((fun (t : Fin 72) (j : Fin 128) (_v : Nat) (_s : State) => (t.val < 64 ∨ j.val < 64)) 70 5 0 State.reset) ∧
  ((fun (t : Fin 72) (j : Fin 128) (_v : Nat) (_s : State) => (t.val < 64 ∨ j.val < 64)) 5 100 0 State.reset) ∧
  ((fun (t : Fin 72) (j : Fin 128) (_rate : Bool) (_v : Nat) (_s : State) => (64 ≤ t.val) ∧ (64 ≤ j.val)) 64 64 false 0 State.reset) ∧
  ((fun (t : Fin 72) (s : State) => (s.due (markSample t) (2 ^ s.get F.TEL_CTL_SAMPLE_K t) = true)) 0 { State.reset with clk := W.late }) ∧
  ((fun (t : Fin 72) (s : State) => (s.due (markSample t) (2 ^ s.get F.TEL_CTL_SAMPLE_K t) = false)) 0 (State.reset.mark (markSample 0) (2 ^ State.reset.get F.TEL_CTL_SAMPLE_K 0))) ∧
  ((fun (t : Fin 72) (s : State) => (s.flag F.TEL_CTL_RING_EN t = true) ∧ (s.due (markRing t) (2 ^ s.get F.TEL_CTL_RING_K t) = true)) 0 { State.reset.set F.TEL_CTL_RING_EN 1 with clk := W.late }) ∧
  ((fun (t : Fin 72) (s : State) => (s.flag F.TEL_CTL_RING_EN t = false ∨ s.due (markRing t) (2 ^ s.get F.TEL_CTL_RING_K t) = false)) 0 State.reset) ∧
  ((fun (cls : Fin 31) (i : Fin 1024) (k : Fin 8) (_v : Nat) (_s : State) => (implemented cls i = true) ∧ (k.val < pmcNum cls)) 10 5 3 7 State.reset) ∧
  ((fun (cls : Fin 31) (i : Fin 1024) (_s : State) => (implemented cls i = true)) 10 5 State.reset) ∧
  ((fun (cls : Fin 31) (i : Fin 1024) (k : Fin 8) (_v : Nat) (_s : State) => (implemented cls i = false ∨ pmcNum cls ≤ k.val)) 0 5 0 0 State.reset) ∧
  ((fun (s : State) => (s.blockFenced 7 = false))  State.reset) ∧
  ((fun (cls : Fin 31) (i : Fin 1024) (_s : State) => (implemented cls i = true)) 10 5 State.reset) :=
  ⟨by decide, by decide, by decide, by decide, by decide, by decide, by decide, by decide, by decide, by decide, by decide, by decide⟩

theorem test_wit_FaultEventCommands :
  ((fun (temp : Nat) (s : State) => (s.get F.FLT_CTL_THERM_WARN ≤ temp)) 200 State.reset) ∧
  ((fun (temp : Nat) (_s : State) => (115 ≤ temp)) 115 State.reset) ∧
  ((fun (s : State) => (s.boot.pwrGood = true))  { State.reset with boot := { Boot.reset with pwrGood := true } }) ∧
  ((fun (_k : Fin 4) (s : State) => (s.boot.pwrGood = true)) 3 { State.reset with boot := { Boot.reset with pwrGood := true } }) ∧
  ((fun (_e : Fin 16) (s : State) => (s.boot.pwrGood = true)) 3 { State.reset with boot := { Boot.reset with pwrGood := true } }) ∧
  ((fun (s : State) => (s.cps.halted = false) ∧ (s.cps.busy = false))  State.reset) ∧
  ((fun (s : State) => (s.safe = false))  State.reset) ∧
  ((fun (cls : Fin 31) (i : Fin 1024) (_off : Fin 512) (_s : State) => (implemented cls i = true)) 10 5 40 State.reset) ∧
  ((fun (bank : Fin 10496) (_word : Fin 8192) (s : State) => (s.flag F.FLT_SCRUB_EN = true) ∧ (s.bankOn (bankHome bank).1 (bankHome bank).2 = true)) 0 0 State.reset) :=
  ⟨by decide, by decide, by decide, by decide, by decide, by decide, by decide, by decide, by decide⟩

theorem test_wit_FaultReactionCommands :
  ((fun (a : Arrival) (s : State) => (s.flt.next = some a) ∧ (a.sev ≤ 2) ∧ (s.flt.busyUntil ≤ a.emt)) ⟨64, 0, 2, 5, 0, W.cap0⟩ (W.ev 2)) ∧
  ((fun (a : Arrival) (s : State) => (s.flt.next = some a) ∧ (a.sev ≤ 2) ∧ (a.emt < s.flt.busyUntil)) ⟨64, 0, 2, 5, 0, W.cap0⟩ { W.ev 2 with flt := { (W.ev 2).flt with busyUntil := 9 } }) ∧
  ((fun (s : State) => (s.pins.faultMode = true) ∧ (s.flag F.FLT_STAT_HB_RUN = true))  { State.reset.set F.FLT_STAT_HB_RUN 1 with pins := { State.reset.pins with faultMode := true } }) ∧
  ((fun (t : Nat) (s : State) => (s.flt.pulseEnd = some t) ∧ (t ≤ s.now)) 0 { State.reset with flt := { State.reset.flt with pulseEnd := some 0 } }) ∧
  ((fun (x : Nat × Nat) (l : List (Nat × Nat)) (s : State) => (s.almanac.repairDue = x :: l) ∧ (s.almanac.repair.length < 1024)) (3, 0) [] { State.reset with almanac := { Almanac.new with repairDue := [(3, 0)] } }) ∧
  ((fun (x : Nat × Nat) (l : List (Nat × Nat)) (s : State) => (s.almanac.repairDue = x :: l) ∧ (1024 ≤ s.almanac.repair.length)) (3, 0) [] { State.reset with almanac := { Almanac.new with repairDue := [(3, 0)], repair := List.replicate 1024 (0, 0) } }) :=
  ⟨by decide, by decide, by decide, by decide, by decide, ⟨rfl, Nat.le_of_eq List.length_replicate.symm⟩⟩

theorem test_wit_OwnerCommands :
  ((fun (m : Master) (r : OwnerReg) (_v : Nat) (s : State) => (s.blockFenced (ownerClass r) = false) ∧ (s.ownerOk m = true)) .mctp .prot 1 W.owner) ∧
  ((fun (m : Master) (r : OwnerReg) (_v : Nat) (s : State) => (s.blockFenced (ownerClass r) = false) ∧ (s.ownerOk m = false)) (.fn 0 0) .prot 1 W.owner) ∧
  ((fun (s : State) => (s.presence.low = false))  State.reset) ∧
  ((fun (s : State) => (s.presence.low = true))  W.owner) ∧
  ((fun (s : State) => (s.presence.low = false) ∧ (s.presence.until_ ≤ s.now))  State.reset) ∧
  ((fun (m : Master) (s : State) => (s.blockFenced 30 = false) ∧ (s.presence.prog = none) ∧ (s.ownerOk m = true) ∧ (128 ≤ (s.count 4 0 0x42).get F.FUS_ROW_ROW)) .mctp (W.owner.set F.FUS_ROW_ROW 130)) ∧
  ((fun (m : Master) (s : State) => (s.blockFenced 30 = false) ∧ (s.presence.prog = none) ∧ (s.ownerOk m = true) ∧ ((s.count 4 0 0x42).get F.FUS_ROW_ROW < 128)) .mctp W.owner) ∧
  ((fun (r v : Nat) (s : State) => (s.presence.prog = some (r, v))) 130 1 { W.owner with presence := { Owner.reset with prog := some (130, 1) } }) ∧
  ((fun (m : Master) (s : State) => (s.blockFenced 30 = false) ∧ (s.ownerOk m = true) ∧ (bit ((s.count 4 0 0x42).fuseRow 128) 0 = false)) .mctp W.owner) :=
  ⟨by decide, by decide, by decide, by decide, by decide, by decide, by decide, by decide, by decide⟩

theorem test_wit_AlmanacCommands :
  ((fun (slot : Fin 4) (s : State) => (s.almFree = true) ∧ ((s.almFields 1 slot (s.get F.ALM_CMD_ARG)).getBit F.ALM_PROT_SLOT_WP slot = false)) 2 State.reset) ∧
  ((fun (slot : Fin 4) (s : State) => (s.almFree = true) ∧ ((s.almFields 1 slot (s.get F.ALM_CMD_ARG)).getBit F.ALM_PROT_SLOT_WP slot = true)) 2 (State.reset.set F.ALM_PROT_SLOT_WP 15)) ∧
  ((fun (arg : Fin 65536) (s : State) => (s.almFree = true) ∧ (arg.val < 10496)) 7 State.reset) ∧
  ((fun (m : Master) (_mask : Fin 65536) (s : State) => (s.almFree = true) ∧ (s.ownerOk m = true)) .mctp 7 W.owner) ∧
  ((fun (arg : Fin 65536) (s : State) => (s.almFree = true) ∧ (arg.val < 32) ∧ ((s.almFields 4 (s.get F.ALM_CMD_SLOT) arg).ucodeOk arg = true)) 1 State.reset) ∧
  ((fun (c : AlmCmd) (s : State) => (s.almanac.cmd = some c) ∧ (c.op = 2) ∧ (c.arg ≠ 0xFFFF)) ⟨2, 0, 7, false, none⟩ { State.reset with almanac := { Almanac.new with cmd := some ⟨2, 0, 7, false, none⟩ } }) ∧
  ((fun (cls : Fin 64) (i : Fin 1024) (bank : Fin 16384) (t : State) (s : State) => (s.blockFenced 4 = false) ∧ (((((s.set F.ALM_UNFENCE_CLASS cls).set F.ALM_UNFENCE_INSTANCE i).set F.ALM_UNFENCE_BANK bank).set F.ALM_UNFENCE_SCOPE 1).safe = false) ∧ (((((s.set F.ALM_UNFENCE_CLASS cls).set F.ALM_UNFENCE_INSTANCE i).set F.ALM_UNFENCE_BANK bank).set F.ALM_UNFENCE_SCOPE 1).liftBank bank = some t)) 0 0 0 ((((((W.fenced.set F.ALM_UNFENCE_CLASS 0).set F.ALM_UNFENCE_INSTANCE 0).set F.ALM_UNFENCE_BANK 0).set F.ALM_UNFENCE_SCOPE 1).liftBank 0).getD State.reset) W.fenced) ∧
  ((fun (cls : Fin 64) (i : Fin 1024) (bank : Fin 16384) (s : State) => (s.blockFenced 4 = false) ∧ (((((s.set F.ALM_UNFENCE_CLASS cls).set F.ALM_UNFENCE_INSTANCE i).set F.ALM_UNFENCE_BANK bank).set F.ALM_UNFENCE_SCOPE 1).safe = false) ∧ (((((s.set F.ALM_UNFENCE_CLASS cls).set F.ALM_UNFENCE_INSTANCE i).set F.ALM_UNFENCE_BANK bank).set F.ALM_UNFENCE_SCOPE 1).liftBank bank = none)) 0 0 0 State.reset) ∧
  ((fun (e : Fin 32) (s : State) => ((s.eng e).refuseTo ≤ s.now)) 0 State.reset) ∧
  ((fun (e : Fin 32) (s : State) => ((s.eng e).pauseTo ≤ s.now)) 0 State.reset) ∧
  ((fun (_version : Fin 65536) (s : State) => (s.blockFenced 4 = false) ∧ (s.ownerOk .mctp = true) ∧ (s.almanac.active = 0)) 7 W.owner) ∧
  ((fun (s : State) => (s.blockFenced 4 = false))  State.reset) ∧
  ((fun (s : State) => (s.cps.busy = true))  { State.reset with cps := ⟨true, false, 0, 0⟩ }) :=
  ⟨by decide, by decide, by decide, by decide, by decide, by decide, by decide, by decide, by decide, by decide, by decide, by decide, by decide⟩

theorem test_wit_ManagementCommands :
  ((fun (s : State) => (s.mgmt.mbox = none) ∧ (s.blockFenced 5 = false))  State.reset) ∧
  ((fun (q : Packet) (n at_ : Nat) (s : State) => (s.mgmt.mbox = some (q, n, at_)) ∧ (s.over at_ (s.mgtRto q.tu) 1000 = true) ∧ (s.blockFenced 5 = false) ∧ (n < s.get F.MGT_CTL_RETRIES)) W.pkt 0 0 { State.reset with clk := W.late, mgmt := { Mgmt.reset with mbox := some (W.pkt, 0, 0) } }) ∧
  ((fun (q : Packet) (n at_ : Nat) (s : State) => (s.mgmt.mbox = some (q, n, at_)) ∧ (s.over at_ (s.mgtRto q.tu) 1000 = true) ∧ (s.blockFenced 5 = false) ∧ (s.get F.MGT_CTL_RETRIES ≤ n)) W.pkt 255 0 { State.reset with clk := W.late, mgmt := { Mgmt.reset with mbox := some (W.pkt, 255, 0) } }) ∧
  ((fun (q r : Packet) (p n at_ : Nat) (t : State) (s : State) => (isResponse q = true) ∧ (s.mgtTake q = some (p, t)) ∧ (t.mgmt.mbox = some (r, n, at_)) ∧ (mTag r = mTag q) ∧ (t.blockFenced 5 = false)) (W.mgt 6) (W.mgt 0) 5 0 0 { State.reset with mgmt := { Mgmt.reset with mbox := some (W.mgt 0, 0, 0) } } { W.rx 6 with mgmt := { Mgmt.reset with mbox := some (W.mgt 0, 0, 0) } }) ∧
  ((fun (q : Packet) (p : Nat) (t : State) (s : State) => (mType q = 2) ∧ (s.mgtTake q = some (p, t)) ∧ (t.blockFenced 5 = false)) (W.mgt 2) 5 State.reset (W.rx 2)) ∧
  ((fun (q : Packet) (p : Nat) (t : State) (s : State) => (mType q = 3) ∧ (s.mgtTake q = some (p, t)) ∧ (t.blockFenced 5 = false)) (W.mgt 3) 5 State.reset (W.rx 3)) ∧
  ((fun (q : Packet) (p : Nat) (t : State) (s : State) => (mType q = 4) ∧ (s.mgtTake q = some (p, t)) ∧ (t.blockFenced 5 = false)) (W.mgt 4) 5 State.reset (W.rx 4)) ∧
  ((fun (q : Packet) (p : Nat) (t : State) (s : State) => (mType q = 5) ∧ (s.mgtTake q = some (p, t)) ∧ (t.blockFenced 5 = false)) (W.mgt 5) 5 State.reset (W.rx 5)) ∧
  ((fun (w2 w3 w4 w5 : Nat) (data : List Byte) (r : MReq) (s : State) => (r = ⟨w2 % 2 ^ 64, w3 % 2 ^ 64, w4 % 2 ^ 64, w5 % 2 ^ 64, data⟩) ∧ (s.mctpRule r = 0)) 2 0x3000 0 0 [] ⟨2, 0x3000, 0, 0, []⟩ State.reset) :=
  ⟨by decide, by decide, by decide, by decide, by decide, by decide, by decide, by decide, by decide⟩

theorem test_wit_PowerLadderCommands :
  ((fun (t : Fin 72) (rung : Fin 8) (u : State) (s : State) => (rung.val ≠ 0) ∧ (rung.val ≤ 4) ∧ ((s.set F.TILE_PWR_RUNG rung t).tryTile t = some u)) 0 3 ((W.quiet.set F.TILE_PWR_RUNG 3).enterTile 0 3) W.quiet) ∧
  ((fun (t : Fin 72) (u : State) (s : State) => (s.get F.TILE_PWR_CUR t = 0) ∧ (s.tryTile t = some u)) 0 ((W.quiet.set F.TILE_PWR_RUNG 3).enterTile 0 3) (W.quiet.set F.TILE_PWR_RUNG 3)) ∧
  ((fun (t : Fin 64) (at_ : Nat) (s : State) => ((s.tile t).quietSince = some at_) ∧ (1 ≤ s.get F.TILE_PWR_AUTO_MAX t) ∧ (s.get F.TILE_PWR_AUTO_MAX t ≤ 4) ∧ (s.get F.TILE_PWR_CUR t = 0) ∧ (s.get F.TILE_PWR_RUNG t = 0) ∧ (s.tileQuiet t = true) ∧ (s.over at_ (64 * s.get F.TILE_PWR_IDLE t) 64 = true)) 0 0 (W.quiet.set F.TILE_PWR_AUTO_MAX 2)) ∧
  ((fun (rung : Fin 8) (s : State) => (s.blockFenced 3 = false) ∧ ((s.set F.PWR_CTL_RUNG rung).get F.PWR_STAT_RUNG = 0) ∧ (1 ≤ rung.val) ∧ (rung.val ≤ 5) ∧ ((List.range 64).any (s.set F.PWR_CTL_RUNG rung).linkUp = false) ∧ ((s.set F.PWR_CTL_RUNG rung).safe = false) ∧ ((s.set F.PWR_CTL_RUNG rung).ladder = Ladder.reset)) 3 State.reset) ∧
  ((fun (rung : Fin 8) (s : State) => (s.blockFenced 3 = false) ∧ ((s.set F.PWR_CTL_RUNG rung).get F.PWR_STAT_RUNG = 0) ∧ (1 ≤ rung.val) ∧ (rung.val ≤ 5) ∧ ((List.range 64).any (s.set F.PWR_CTL_RUNG rung).linkUp = true)) 3 W.linked) ∧
  ((fun (r : Nat) (s : State) => (s.ladder.goal = some r) ∧ (s.allArrived = true)) 3 { State.reset with ladder := ⟨some 3, none⟩ }) ∧
  ((fun (w : WakeSource) (c : Nat) (s : State) => (s.get F.PWR_STAT_RUNG ≠ 0) ∧ (s.ladder.wakeAt = none) ∧ (s.wakeBy w = some c)) .command 1 (State.reset.set F.PWR_STAT_RUNG 3)) ∧
  ((fun (t : Fin 72) (s : State) => ((s.tile t).exitAt.isSome = true)) 0 (W.tile0 fun x => { x with exitAt := some 0 })) ∧
  ((fun (p : Fin 1024) (s : State) => ((s.port p).wake.isSome = true) ∧ (s.get F.PORT_PWR_STAT_RUNG p ≠ 0)) 0 { W.up.set F.PORT_PWR_STAT_RUNG 2 with ports := [(0, { PortSt.reset with wake := some (0, 2, 0) })] }) :=
  ⟨by decide +kernel, by decide +kernel, by decide, by decide, by decide, by decide +kernel, by decide, by decide, by decide⟩

theorem test_wit_RegisterCommands :
  ((fun (_m : Master) (_v : Nat) (s : State) => (s.blockFenced 1 = false)) .mctp 5 State.reset) ∧
  ((fun (_m : Master) (off _v : Nat) (_h : Half) (_s : State) => (implemented (offCls (off % 2 ^ 28)) (offInst (off % 2 ^ 28)) = false)) .mctp (31 * 2 ^ 22) 0 .whole State.reset) ∧
  ((fun (_m : Master) (off _v : Nat) (_h : Half) (s : State) => (s.blockFenced (offCls (off % 2 ^ 28)) = true) ∧ (offReg (off % 2 ^ 28) ≠ F.EVT_STAT_EVT.off) ∧ (offReg (off % 2 ^ 28) ≠ F.STAT_CAP_VALID.off)) .mctp 0x130 0 .whole { State.reset with flt := { State.reset.flt with blockFence := [0] } }) ∧
  ((fun (_m : Master) (cls : Fin 31) (i : Fin 1024) (_v : Nat) (s : State) => (implemented cls i = true) ∧ (s.blockFenced cls = false)) .mctp 10 5 3 State.reset) ∧
  ((fun (cls : Fin 31) (i : Fin 1024) (s : State) => (implemented cls i = true) ∧ (s.blockFenced cls = false)) 10 5 State.reset) :=
  ⟨by decide, by decide, by decide, by decide, by decide⟩

theorem test_wit_DataPortBursts :
  ((fun (_m : Master) (off : Nat) (data : List Byte) (s : State) => (s.blockFenced 6 = false) ∧ (badBurst off data.length = false) ∧ (s.flag F.DPT_CTL_DIR = true)) .mctp 0 (List.replicate 8 0) (State.reset.set F.DPT_CTL_DIR 1)) ∧
  ((fun (_m : Master) (off len : Nat) (s : State) => (s.blockFenced 6 = false) ∧ (badBurst off len = false) ∧ (s.flag F.DPT_CTL_DIR = false)) .mctp 0 8 State.reset) ∧
  ((fun (_m : Master) (off : Nat) (data : List Byte) (s : State) => (s.blockFenced 6 = false) ∧ (badBurst off data.length = true)) .mctp 4 [0] State.reset) :=
  ⟨by decide, by decide, by decide⟩

theorem test_wit_ContextCommands :
  ((fun (_e : Fin 32) (_n : Fin 2) (v : Nat) (_s : State) => (bit v 48 = false)) 0 0 5 State.reset) ∧
  ((fun (e : Fin 32) (n : Fin 2) (v : Nat) (s : State) => (s.rangeOverlap e n (bits v 0 20) (bits v 20 21) = false)) 0 0 5 State.reset) ∧
  ((fun (e : Fin 32) (n : Fin 2) (v : Nat) (s : State) => (bit v 48 = true) ∧ (s.rangeOverlap e n (bits v 0 20) (bits v 20 21) = true)) 1 0 (2 ^ 48 + 2 ^ 24) (W.range State.reset)) ∧
  ((fun (e : Fin 32) (q : Packet) (s : State) => (s.handDead e q = false) ∧ (s.handed e q = true) ∧ (ownCommand e q = false)) 0 (W.rma 0 1) (W.hand (W.rma 0 1))) ∧
  ((fun (e : Fin 32) (q : Packet) (s : State) => (s.handHead e q = true) ∧ (s.handDead e q = true)) 0 (W.rma 0 1) ((W.hand (W.rma 0 1)).set F.RTE_FENCE_PORTS 15 64)) ∧
  ((fun (e : Fin 32) (l : Load) (s : State) => ((s.eng e).loads.find? (·.phase == 0) = some l) ∧ (s.loadsRun e < s.get F.CTX_CFG_FETCH_MAX e) ∧ ((s.cached e).length + s.loadsRun e < 512)) 0 ⟨6, 0, 0, 0⟩ (W.eng fun x => { x with loads := [⟨6, 0, 0, 0⟩] })) ∧
  ((fun (e : Fin 32) (c w0 : Nat) (r : HostReq) (s : State) => (s.reqFor e (.word0 c) = some r) ∧ ((((s.cplRx r.port 8).dropReqTag r.tag).sendHeld r.port).binds e c w0 = true)) 0 5 1 (W.hreq (.word0 5)) { W.host with reqs := [W.hreq (.word0 5)] }) ∧
  ((fun (e : Fin 32) (c w0 : Nat) (r : HostReq) (s : State) => (s.reqFor e (.word0 c) = some r) ∧ ((((s.cplRx r.port 8).dropReqTag r.tag).sendHeld r.port).binds e c w0 = false)) 0 5 0 (W.hreq (.word0 5)) (W.asked (.word0 5))) ∧
  ((fun (e : Fin 32) (c : Nat) (_ws : List Nat) (r : HostReq) (l : Load) (s : State) => (s.reqFor e (.record c) = some r) ∧ ((s.eng e).loads.find? (·.ctx == c) = some l)) 0 5 [] (W.hreq (.record 5)) ⟨5, 2, 0, 1⟩ { W.asked (.record 5) with engs := [(0, { Eng.reset with loads := [⟨5, 2, 0, 1⟩] })] }) ∧
  ((fun (e : Fin 32) (c : Nat) (r : HostReq) (s : State) => ((s.reqFor e (.word0 c) <|> s.reqFor e (.record c)) = some r)) 0 5 (W.hreq (.record 5)) (W.asked (.record 5))) ∧
  ((fun (e : Fin 32) (_c : Nat) (s : State) => ((s.eng e).cmd.isSome = false)) 0 5 State.reset) ∧
  ((fun (e : Fin 32) (c : Nat) (s : State) => ((s.eng e).cmd.isSome = false) ∧ (((s.setCtxCmd e 2 (s.get F.CTX_CMD_RANGE e) (c % 2 ^ 20)).ctx e (c % 2 ^ 20)).isSome = true)) 0 5 (W.eng id)) ∧
  ((fun (e : Fin 32) (_n : Fin 2) (s : State) => ((s.eng e).cmd.isSome = false)) 0 0 State.reset) ∧
  ((fun (e : Fin 32) (op : Nat) (l : List Nat) (s : State) => ((s.eng e).cmd = some (op, l)) ∧ ((l.filter fun c => ((s.each l fun s c => s.cmdDrop e op c).ctx e c).isSome).isEmpty = true)) 0 1 [] (W.eng fun x => { x with cmd := some (1, []) })) ∧
  ((fun (e : Fin 32) (c : Nat) (port : Fin 64) (func off len : Nat) (val : Option Nat) (k : Ctx) (s : State) => ((s.rangeOf e c).isSome = true) ∧ (s.inFlr ⟨off % 4096, len, val, .fn port func⟩ = none) ∧ (s.safe = false) ∧ (s.ctx e c = some k)) 0 5 0 0 0 8 none (W.ctx id) (W.range (W.eng id))) :=
  ⟨by decide, by decide, by decide +kernel, by decide, by decide, by decide, by decide +kernel, by decide, by decide, by decide, by decide, by decide, by decide, by decide, by decide +kernel⟩

theorem test_wit_QueueCommands :
  ((fun (e : Fin 32) (c : Nat) (q : Fin 8) (port : Fin 64) (func : Nat) (k : Ctx) (s : State) => (s.ctx e c = some k) ∧ (s.inFlr ⟨8 * q.val, 8, some 0, .fn port func⟩ = none) ∧ (s.safe = false)) 0 5 0 0 0 (W.ctx id) (W.eng id)) ∧
  ((fun (e : Fin 32) (c : Nat) (q : Fin 8) (index : Nat) (port : Fin 64) (func : Nat) (k : Ctx) (s : State) => (s.ctx e c = some k) ∧ (s.inFlr ⟨0x40 + 8 * q.val, 8, some (index % 2 ^ 32), .fn port func⟩ = none) ∧ (s.safe = false)) 0 5 0 0 0 0 (W.ctx id) (W.eng id)) ∧
  ((fun (e : Fin 32) (c : Nat) (q : Fin 8) (index : Nat) (port : Fin 64) (func : Nat) (k : Ctx) (s : State) => (s.ctx e c = some k) ∧ (s.inFlr ⟨0xC0 + 8 * q.val, 8, some (index % 2 ^ 32 + 2 ^ 32), .fn port func⟩ = none) ∧ (s.safe = false)) 0 5 0 0 0 0 (W.ctx id) (W.eng id)) ∧
  ((fun (e : Fin 32) (c : Nat) (port : Fin 64) (func : Nat) (k : Ctx) (s : State) => (s.ctx e c = some k) ∧ (s.inFlr ⟨0x110, 8, some 0, .fn port func⟩ = none) ∧ (s.safe = false)) 0 5 0 0 (W.ctx id) (W.eng id)) ∧
  ((fun (e : Fin 32) (c : Nat) (q : Fin 8) (k : Ctx) (s : State) => (s.ctx e c = some k) ∧ ((k.q q).st = 3) ∧ ((k.q q).live = [])) 0 5 0 (W.ctx fun w => { w with st := 3 }) (W.engC (W.ctx fun w => { w with st := 3 }) id)) ∧
  ((fun (e : Fin 32) (c : Nat) (q : Fin 8) (k : Ctx) (s : State) => (s.ctx e c = some k) ∧ (s.pollable e k q = true) ∧ ((k.q q).pollAt ≤ s.now)) 0 5 0 { W.ctx id with words := W.words } (W.engC { W.ctx id with words := W.words } id)) ∧
  ((fun (e : Fin 32) (c : Nat) (q : Fin 8) (k : Ctx) (d : Desc) (l : List Desc) (s : State) => (s.nextQueue e = some (c, q.val)) ∧ (s.ctx e c = some k) ∧ ((k.q q).cache = d :: l)) 0 5 0 (W.ctx fun w => { w with cache := [[0x0E]] }) [0x0E] [] (W.engC (W.ctx fun w => { w with cache := [[0x0E]] }) id)) ∧
  ((fun (e : Fin 32) (c : Nat) (q : Fin 8) (b : Begun) (s : State) => (s.begunEntry e c q 0x0E = some b)) 0 5 0 (W.begun 0x0E) (W.started 0x0E)) ∧
  ((fun (e : Fin 32) (c : Nat) (q : Fin 8) (b : Begun) (s : State) => (s.begunEntry e c q 8 = some b)) 0 5 0 (W.begun 8) (W.started 8)) ∧
  ((fun (e : Fin 32) (c : Nat) (q : Fin 8) (k : Ctx) (idx : Nat) (d : Desc) (s : State) => (s.ctx e c = some k) ∧ ((k.q q).fence = some (idx, d)) ∧ ((k.q q).live.head? = some idx) ∧ (dFlag d 11 = false)) 0 5 0 (W.ctx fun w => { w with fence := some (7, [8]), live := [7] }) 7 [8] (W.engC (W.ctx fun w => { w with fence := some (7, [8]), live := [7] }) id)) ∧
  ((fun (e : Fin 32) (c : Nat) (q : Fin 8) (k : Ctx) (s : State) => (s.ctx e c = some k) ∧ ((k.q q).compNow = true)) 0 5 0 (W.ctx fun w => { w with compNow := true }) (W.engC (W.ctx fun w => { w with compNow := true }) id)) ∧
  ((fun (e : Fin 32) (c : Nat) (q : Fin 8) (k : Ctx) (t : Nat) (s : State) => (s.ctx e c = some k) ∧ ((k.q q).compFrom = some t) ∧ (s.passed t (k.qCoal q) = true)) 0 5 0 (W.ctx fun w => { w with compFrom := some 0 }) 0 (W.engC (W.ctx fun w => { w with compFrom := some 0 }) id)) ∧
  ((fun (e : Fin 32) (c : Nat) (k : Ctx) (s : State) => (s.ctx e c = some k) ∧ (k.evUsed < 2 ^ k.ringLog 3)) 0 5 (W.ctx id) (W.eng id)) ∧
  ((fun (e : Fin 32) (c : Nat) (k : Ctx) (s : State) => (s.ctx e c = some k) ∧ (k.errUsed < 2 ^ k.ringLog 4)) 0 5 (W.ctx id) (W.eng id)) ∧
  ((fun (e : Fin 32) (c : Nat) (k : Ctx) (s : State) => (s.ctx e c = some k) ∧ (2 ^ k.ringLog 4 ≤ k.errUsed)) 0 5 { W.ctx id with errqWr := 1 } (W.engC { W.ctx id with errqWr := 1 } id)) :=
  ⟨by decide, by decide, by decide, by decide, by decide, by decide +kernel, by decide, by decide, by decide, by decide, by decide, by decide, by decide, by decide, by decide⟩

theorem test_wit_OperationIssueCommands :
  ((fun (e : Fin 32) (slot : Fin 2048) (o : Op) (s : State) => (s.op e slot = some o) ∧ (o.kind = 1) ∧ (o.begun = false) ∧ (o.held = none)) 0 3 (W.op 1) (W.opAt (W.op 1) (W.eng id))) ∧
  ((fun (e : Fin 32) (slot : Fin 2048) (o : Op) (s : State) => (s.op e slot = some o) ∧ (o.kind = 2) ∧ (o.begun = false) ∧ (o.held = none)) 0 3 (W.op 2) (W.opAt (W.op 2) (W.eng id))) ∧
  ((fun (e : Fin 32) (slot : Fin 2048) (o : Op) (s : State) => (s.op e slot = some o) ∧ (o.kind = 4) ∧ (o.begun = false) ∧ (o.held = none)) 0 3 (W.op 4) (W.opAt (W.op 4) (W.eng id))) ∧
  ((fun (e : Fin 32) (slot : Fin 2048) (o : Op) (s : State) => (s.op e slot = some o) ∧ (o.kind = 5) ∧ (o.begun = false) ∧ (o.held = none)) 0 3 (W.op 5) (W.opAt (W.op 5) (W.eng id))) ∧
  ((fun (e : Fin 32) (slot : Fin 2048) (o : Op) (s : State) => (s.op e slot = some o) ∧ (o.kind = 6) ∧ (o.begun = false) ∧ (o.held = none)) 0 3 (W.op 6) (W.opAt (W.op 6) (W.eng id))) ∧
  ((fun (e : Fin 32) (slot : Fin 2048) (o : Op) (s : State) => (s.op e slot = some o) ∧ (o.kind = 7) ∧ (o.begun = false) ∧ (o.held = none)) 0 3 (W.op 7) (W.opAt (W.op 7) (W.eng id))) ∧
  ((fun (e : Fin 32) (slot : Fin 2048) (o : Op) (s : State) => (s.op e slot = some o) ∧ (o.kind = 9) ∧ (o.begun = false) ∧ (o.held = none)) 0 3 (W.op 9) (W.opAt (W.op 9) (W.eng id))) ∧
  ((fun (e : Fin 32) (slot : Fin 2048) (o : Op) (s : State) => (s.op e slot = some o) ∧ (o.kind = 10) ∧ (o.begun = false) ∧ (o.held = none)) 0 3 (W.op 10) (W.opAt (W.op 10) (W.eng id))) ∧
  ((fun (e : Fin 32) (slot : Fin 2048) (o : Op) (s : State) => (s.op e slot = some o) ∧ (o.kind = 11) ∧ (o.begun = false) ∧ (o.held = none)) 0 3 (W.op 11) (W.opAt (W.op 11) (W.eng id))) ∧
  ((fun (e : Fin 32) (slot : Fin 2048) (o : Op) (s : State) => (s.op e slot = some o) ∧ (o.kind = 3) ∧ (o.begun = false) ∧ (o.held = none)) 0 3 (W.op 3) (W.opAt (W.op 3) (W.eng id))) :=
  ⟨by decide, by decide, by decide, by decide, by decide, by decide, by decide, by decide, by decide, by decide⟩

theorem test_wit_RmaRequestCommands :
  ((fun (e : Fin 32) (q : Packet) (s : State) => ((s.arrived e q 0 [1, 2]).2 = true)) 0 (W.rma 0 1) (W.ready 0 1)) ∧
  ((fun (e : Fin 32) (q : Packet) (s : State) => ((s.arrived e q 0 [3]).2 = true)) 0 (W.rma 0 3) (W.ready 0 3)) ∧
  ((fun (e : Fin 32) (q : Packet) (s : State) => ((s.arrived e q 0 [5, 6, 7]).2 = true) ∧ (((s.arrived e q 0 [5, 6, 7]).1.dupLookup e q).2 = .new)) 0 (W.rma 0 6) (W.ready 0 6)) ∧
  ((fun (e : Fin 32) (q : Packet) (k : Ctx) (s : State) => ((s.arrived e q 0 [0x20]).2 = true) ∧ ((s.arrived e q 0 [0x20]).1.ctx e (pTctx q) = some k)) 0 (W.rma 0 0x20) (W.ctx id) (W.ready 0 0x20)) :=
  ⟨by decide, by decide, by decide, by decide⟩

theorem test_wit_HostReturnCommands :
  ((fun (e : Fin 32) (tag : Nat) (_ok : Bool) (_data : List Byte) (r : HostReq) (c q first n : Nat) (s : State) => (s.reqOf tag = some r) ∧ (r.eng = e.val) ∧ (r.why = .poll c q first n) ∧ (s.unsentTag tag = false) ∧ (r.ended = false) ∧ (r.closed = false)) 0 9 true [] (W.hreq (.poll 5 0 0 1)) 5 0 0 1 (W.asked (.poll 5 0 0 1))) ∧
  ((fun (e : Fin 32) (tag : Nat) (_ok : Bool) (_data : Nat) (r : HostReq) (c page : Nat) (s : State) => (s.reqOf tag = some r) ∧ (r.eng = e.val) ∧ (r.why = .walk c page) ∧ (s.unsentTag tag = false) ∧ (r.ended = false) ∧ (r.closed = false)) 0 9 true 0 (W.hreq (.walk 5 0)) 5 0 (W.asked (.walk 5 0))) ∧
  ((fun (e : Fin 32) (tag : Nat) (_ok : Bool) (_data : Nat) (r : HostReq) (c page : Nat) (s : State) => (s.reqOf tag = some r) ∧ (r.eng = e.val) ∧ (r.why = .cas c page) ∧ (s.unsentTag tag = false) ∧ (r.ended = false) ∧ (r.closed = false)) 0 9 true 0 (W.hreq (.cas 5 0)) 5 0 (W.asked (.cas 5 0))) ∧
  ((fun (e : Fin 32) (tag : Nat) (_ok : Bool) (r : HostReq) (f : FlushFor) (s : State) => (s.reqOf tag = some r) ∧ (r.eng = e.val) ∧ (r.why = .flush f) ∧ (s.unsentTag tag = false) ∧ (r.ended = false) ∧ (r.closed = false)) 0 9 true (W.hreq (.flush (.ack W.pkt))) (.ack W.pkt) (W.asked (.flush (.ack W.pkt)))) ∧
  ((fun (e : Fin 32) (tag : Nat) (_ok : Bool) (_data : List Byte) (r : HostReq) (p : Packet) (s : State) => (s.reqOf tag = some r) ∧ (r.eng = e.val) ∧ (r.why = .atomicOp p) ∧ (s.unsentTag tag = false) ∧ (r.ended = false) ∧ (r.closed = false)) 0 9 true [] (W.hreq (.atomicOp W.pkt)) W.pkt (W.asked (.atomicOp W.pkt))) ∧
  ((fun (e : Fin 32) (tag : Nat) (_ok : Bool) (_data : List Byte) (r : HostReq) (slot gen poff : Nat) (s : State) => (s.reqOf tag = some r) ∧ (r.eng = e.val) ∧ (r.why = .payload slot gen poff) ∧ (s.unsentTag tag = false) ∧ (r.ended = false) ∧ (r.closed = false)) 0 9 true [] (W.hreq (.payload 3 0 0)) 3 0 0 (W.asked (.payload 3 0 0))) ∧
  ((fun (e : Fin 32) (tag : Nat) (_ok : Bool) (_data : List Byte) (r : HostReq) (slot gen poff : Nat) (s : State) => (s.reqOf tag = some r) ∧ (r.eng = e.val) ∧ (r.why = .payload slot gen poff) ∧ (s.unsentTag tag = false) ∧ (r.closed = true)) 0 9 true [] { W.hreq (.payload 3 0 0) with closed := true } 3 0 0 { State.reset with reqs := [{ W.hreq (.payload 3 0 0) with closed := true }] }) :=
  ⟨by decide, by decide, by decide, by decide, by decide, by decide, by decide⟩

theorem test_wit_RmaResponseCommands :
  ((fun (e : Fin 32) (q : Packet) (slot : Nat) (o : Op) (s : State) => ((s.response e q 0x40).2 = some (slot, o)) ∧ (o.held = none) ∧ (ackEnds o.kind = true)) 0 (W.rma 1 0x40) 3 (W.op 1) (W.opAt (W.op 1) (W.ready 1 0x40))) ∧
  ((fun (e : Fin 32) (q : Packet) (slot : Nat) (o : Op) (s : State) => ((s.response e q 0x41).2 = some (slot, o)) ∧ (o.held = none) ∧ (pAttempt q = o.attempt) ∧ ((o.kind = 1 ∨ o.kind = 2 ∨ o.kind = 4 ∧ o.rdv = false)) ∧ (((s.response e q 0x41).1.gather e o.dest (pPkts q) (pMarks q)).holeOpen e o = true)) 0 (W.rma 1 0x41) 3 (W.op 1) (W.opAt (W.op 1) (W.ready 1 0x41))) ∧
  ((fun (e : Fin 32) (q : Packet) (slot : Nat) (o : Op) (s : State) => ((s.response e q 0x42).2 = some (slot, o)) ∧ (o.held = none) ∧ (pAttempt q = o.attempt) ∧ ((((s.response e q 0x42).1.count 21 e 0x44).modOp e slot fun x => { x with busyN := o.busyN + 1 }).get F.RMA_BUSY_MAX_TRIES e ≤ o.busyN + 1)) 0 (W.rma 1 0x42) 3 { W.op 1 with busyN := 255 } (W.opAt { W.op 1 with busyN := 255 } (W.ready 1 0x42))) ∧
  ((fun (e : Fin 32) (q : Packet) (slot : Nat) (o : Op) (s : State) => ((s.response e q 0x42).2 = some (slot, o)) ∧ (o.held = none) ∧ (pAttempt q = o.attempt) ∧ (o.busyN + 1 < (((s.response e q 0x42).1.count 21 e 0x44).modOp e slot fun x => { x with busyN := o.busyN + 1 }).get F.RMA_BUSY_MAX_TRIES e)) 0 (W.rma 1 0x42) 3 (W.op 1) (W.opAt (W.op 1) (W.ready 1 0x42))) ∧
  ((fun (e : Fin 32) (q : Packet) (slot : Nat) (o : Op) (s : State) => ((s.response e q 0x43).2 = some (slot, o)) ∧ (o.held = none) ∧ (pAttempt q = o.attempt)) 0 (W.rma 1 0x43) 3 (W.op 1) (W.opAt (W.op 1) (W.ready 1 0x43))) ∧
  ((fun (e : Fin 32) (q : Packet) (slot : Nat) (o : Op) (s : State) => ((s.response e q 0x44).2 = some (slot, o)) ∧ (o.held = none) ∧ ((o.kind = 3 ∨ o.kind = 0x109)) ∧ (pAttempt q = o.attempt) ∧ (o.segs.any (fun g => decide (g.poff ≤ pPoff q ∧ pPoff q < g.poff + g.len) && !g.got.contains (pPoff q)) = true)) 0 (W.rma 1 0x44) 3 { W.op 3 with segs := [⟨0, 64, [], 0, 0, []⟩] } (W.opAt { W.op 3 with segs := [⟨0, 64, [], 0, 0, []⟩] } (W.ready 1 0x44))) ∧
  ((fun (e : Fin 32) (q : Packet) (slot : Nat) (o : Op) (s : State) => ((s.response e q 0x44).2 = some (slot, o)) ∧ (o.held = none) ∧ ((o.kind = 3 ∨ o.kind = 0x109)) ∧ (pAttempt q ≠ o.attempt)) 0 (W.rma 1 0x44) 3 { W.op 3 with attempt := 1 } (W.opAt { W.op 3 with attempt := 1 } (W.ready 1 0x44))) :=
  ⟨by decide, by decide, by decide, by decide, by decide, by decide, by decide⟩

theorem test_wit_RmaTimerCommands :
  ((fun (e : Fin 32) (slot : Fin 2048) (poff : Nat) (o : Op) (s : State) => (s.op e slot = some o) ∧ (o.backoff.any (fun b => b.1 == poff && decide (b.2 ≤ s.now)) = true)) 0 3 0 { W.op 1 with backoff := [(0, 0)] } (W.opAt { W.op 1 with backoff := [(0, 0)] } (W.eng id))) ∧
  ((fun (e : Fin 32) (src opid : Nat) (t : Tracker) (s : State) => (s.tracker e src opid = some t)) 0 1 3 W.track (W.eng fun x => { x with trackers := [W.track] })) ∧
  ((fun (e : Fin 32) (_src opid : Nat) (o : Op) (s : State) => (s.opGen e (opid % 2048) (opid / 2048) = some o) ∧ ((o.kind = 3 ∨ o.kind = 0x109))) 0 0 3 (W.op 3) (W.opAt (W.op 3) (W.eng id))) ∧
  ((fun (e : Fin 32) (slot : Fin 2048) (o : Op) (t : Nat) (s : State) => (s.op e slot = some o) ∧ (o.timer = some t) ∧ (o.held = none) ∧ (s.past t (s.tR e o.dest o.tu) = true) ∧ (o.tries < s.get F.RMA_RTX_MAX_RETRY e + b2n o.probe)) 0 3 { W.op 1 with timer := some 0 } 0 (W.then (W.opAt { W.op 1 with timer := some 0 } (W.eng id)))) ∧
  ((fun (e : Fin 32) (slot : Fin 2048) (o : Op) (t : Nat) (s : State) => (s.op e slot = some o) ∧ (o.timer = some t) ∧ (o.held = none) ∧ (s.past t (s.tR e o.dest o.tu) = true) ∧ (s.get F.RMA_RTX_MAX_RETRY e + b2n o.probe ≤ o.tries)) 0 3 { W.op 1 with timer := some 0, tries := 255 } 0 (W.then (W.opAt { W.op 1 with timer := some 0, tries := 255 } (W.eng id)))) ∧
  ((fun (e : Fin 32) (slot : Fin 2048) (o : Op) (x : Ending) (s : State) => (s.op e slot = some o) ∧ (o.held = some x) ∧ (s.holdOver e slot o = true)) 0 3 { W.op 1 with held := some ⟨0, 0, 0, 0, 0, 0, 0⟩ } ⟨0, 0, 0, 0, 0, 0, 0⟩ (W.opAt { W.op 1 with held := some ⟨0, 0, 0, 0, 0, 0, 0⟩ } (W.eng id))) ∧
  ((fun (u : Fin 8) (src opid : Nat) (d : Dup) (s : State) => (s.dupFind u src opid = some d) ∧ (d.expiry ≤ s.now) ∧ (d.done = true)) 0 1 3 ⟨1, 3, true, 0, 0, 0, 0, 0, false, none⟩ { State.reset with units := [(0, { CUnit.reset with dup := [⟨1, 3, true, 0, 0, 0, 0, 0, false, none⟩] })] }) ∧
  ((fun (_e : Fin 32) (v : Nat) (hit : Nat → Nat → Bool) (_s : State) => (bit v 48 = true) ∧ (hit = (fun a b => if bits v 40 2 = 0 then a == bits v 0 20 && b == bits v 20 20 else if bits v 40 2 = 1 then a == bits v 0 20 else bits v 40 2 == 2))) 0 (2 ^ 48) (fun a b => if bits (2 ^ 48) 40 2 = 0 then a == bits (2 ^ 48) 0 20 && b == bits (2 ^ 48) 20 20 else if bits (2 ^ 48) 40 2 = 1 then a == bits (2 ^ 48) 0 20 else bits (2 ^ 48) 40 2 == 2) State.reset) ∧
  ((fun (_e : Fin 32) (v : Nat) (_s : State) => (bit v 48 = true)) 0 (2 ^ 48) State.reset) ∧
  ((fun (e : Fin 32) (s : State) => (s.past (Tab.get s.clk.base s.marks (markRate e)) (64 * s.get F.RMA_CC_INC_PERIOD e) = true)) 0 (W.then State.reset)) ∧
  ((fun (e : Fin 32) (dest : Nat) (s : State) => (s.decOpen e (s.gathered e dest) = true)) 0 1 ((W.eng fun x => { x with cc := [⟨1, 8, false⟩], gath := [(1, ⟨1, 1, none⟩)] }).set F.RMA_CC_EN 1 0)) :=
  ⟨by decide, by decide, by decide, by decide, by decide, by decide, by decide, ⟨rfl, rfl⟩, by decide, by decide, by decide⟩

theorem test_wit_MatchingCommands :
  ((fun (e : Fin 32) (c : Nat) (q : Fin 8) (b : Begun) (k : Ctx) (s : State) => (s.recvEntry e c q 0 = some b) ∧ (s.ctx e c = some k) ∧ (s.postWaits e k b.desc = false)) 0 5 0 (W.begun 0x0D) (W.ctx id) (W.started 0x0D)) ∧
  ((fun (e : Fin 32) (c : Nat) (q : Fin 8) (b : Begun) (k : Ctx) (s : State) => (s.recvEntry e c q 1 = some b) ∧ (s.ctx e c = some k)) 0 5 0 (W.recv 1) (W.ctx id) (W.eng fun x => { x with begun := [W.recv 1] })) ∧
  ((fun (e : Fin 32) (c : Nat) (q : Fin 8) (b : Begun) (s : State) => (s.recvEntry e c q 2 = some b)) 0 5 0 (W.recv 2) (W.eng fun x => { x with begun := [W.recv 2] })) ∧
  ((fun (e : Fin 32) (q : Packet) (k : Ctx) (s : State) => ((s.arrived e q 0 [4]).2 = true) ∧ ((s.arrived e q 0 [4]).1.ctx e (pTctx q) = some k)) 0 (W.rma 0 4) { W.ctx id with used := (W.ready 0 4).now } (W.ready 0 4)) ∧
  ((fun (e : Fin 32) (q : Packet) (k : Ctx) (s : State) => ((s.arrived e q 0 [8]).2 = true) ∧ ((s.arrived e q 0 [8]).1.ctx e (pTctx q) = some k)) 0 (W.rma 0 8) { W.ctx id with used := (W.ready 0 8).now } (W.ready 0 8)) ∧
  ((fun (e : Fin 32) (q : Packet) (s : State) => ((s.arrived e q 0 [9]).2 = true)) 0 (W.rma 0 9) (W.ready 0 9)) ∧
  ((fun (e : Fin 32) (q : Packet) (slot : Nat) (o : Op) (s : State) => ((s.response e q 0x45).2 = some (slot, o)) ∧ (o.held = none) ∧ (o.kind = 4)) 0 (W.rma 1 0x45) 3 (W.op 4) (W.opAt (W.op 4) (W.ready 1 0x45))) ∧
  ((fun (e : Fin 32) (src sctx sq tctx : Nat) (m : Msg) (t : RxStream) (k : Known) (s : State) => (m = ⟨tctx, src, sctx, 0, 0, 0, 0, false, false⟩) ∧ ((s.eng e).rx.find? (fun t => t.is m sq) = some t) ∧ ((s.heldOf e m sq).any (fun k => s.past k.at_ (s.tWindow e t.tu)) = true) ∧ (lowestFrom t.expect (s.heldOf e m sq) = some k)) 0 1 2 0 5 ⟨5, 1, 2, 0, 0, 0, 0, false, false⟩ ⟨1, 2, 0, 5, 0, 0, 0, false⟩ W.heldMsg (W.then (W.eng fun x => { x with rx := [⟨1, 2, 0, 5, 0, 0, 0, false⟩], known := [W.heldMsg] }))) :=
  ⟨by decide, by decide, by decide, by decide, by decide, by decide, by decide, by decide⟩

theorem test_wit_CollectiveCommands :
  ((fun (u : Fin 8) (g : Fin 4096) (seq : Nat) (s : State) => ((s.setColCmd u 1 g seq).setupErr u g = 0)) 0 0 7 W.group) ∧
  ((fun (u : Fin 8) (g : Fin 4096) (seq : Nat) (s : State) => ((s.setColCmd u 1 g seq).setupErr u g ≠ 0)) 1 0 7 State.reset) ∧
  ((fun (u : Fin 8) (g : Fin 4096) (s : State) => ((s.setColCmd u 2 g (s.get F.COL_CMD_SEQ u)).releaseErr u g = 0)) 0 0 W.groupUp) ∧
  ((fun (u : Fin 8) (g : Fin 4096) (s : State) => ((s.setColCmd u 2 g (s.get F.COL_CMD_SEQ u)).releaseErr u g ≠ 0)) 0 0 State.reset) ∧
  ((fun (u : Fin 8) (g : Fin 4096) (seq : Nat) (s : State) => ((s.setColCmd u 3 g seq).releaseErr u g = 0)) 0 0 7 W.groupUp) ∧
  ((fun (u : Fin 8) (g : Fin 4096) (seq : Nat) (s : State) => ((s.setColCmd u 3 g seq).releaseErr u g ≠ 0)) 0 0 7 State.reset) ∧
  ((fun (e : Fin 32) (c : Nat) (q : Fin 8) (b : Begun) (s : State) => (s.begunEntry e c q 0x0C = some b) ∧ ((s.dropBegun e b).collRefused e c b.desc = false)) 0 5 0 (W.begun 0x0C) { W.started 0x0C with mem := W.groupUp.mem }) ∧
  ((fun (e : Fin 32) (c : Nat) (q : Fin 8) (b : Begun) (s : State) => (s.begunEntry e c q 0x0C = some b) ∧ ((s.dropBegun e b).collRefused e c b.desc = true)) 0 5 0 (W.begun 0x0C) (W.started 0x0C)) ∧
  ((fun (u : Fin 8) (q : Packet) (s : State) => (s.colHanded (4 * u.val) q 0x10 = true) ∧ ((s.unhand (4 * u.val) q).unitOut u = false)) 0 (W.rma 2 0x10) (W.hand (W.rma 2 0x10))) ∧
  ((fun (u : Fin 8) (q : Packet) (s : State) => (s.colHanded (4 * u.val) q 0x13 = true) ∧ ((s.unhand (4 * u.val) q).unitOut u = false)) 0 (W.rma 2 0x13) (W.hand (W.rma 2 0x13))) ∧
  ((fun (e : Fin 32) (q : Packet) (s : State) => (s.colHanded e q 0x11 = true) ∧ (e.val % 4 = 0) ∧ ((s.unhand e q).unitOut (unitOf e) = false)) 0 (W.rma 2 0x11) (W.hand (W.rma 2 0x11))) ∧
  ((fun (e : Fin 32) (q : Packet) (s : State) => (s.colHanded e q 0x11 = true) ∧ (e.val % 4 ≠ 0)) 1 (W.rma 2 0x11) (W.handTo 1 (W.rma 2 0x11))) ∧
  ((fun (e : Fin 32) (q : Packet) (s : State) => (s.colHanded e q 0x12 = true) ∧ (e.val % 4 = 0) ∧ ((s.unhand e q).unitOut (unitOf e) = false)) 0 (W.rma 2 0x12) (W.hand (W.rma 2 0x12))) ∧
  ((fun (e : Fin 32) (q : Packet) (s : State) => (s.colHanded e q 0x12 = true) ∧ (e.val % 4 ≠ 0)) 1 (W.rma 2 0x12) (W.handTo 1 (W.rma 2 0x12))) ∧
  ((fun (u : Fin 8) (v g m out : Nat) (l : List (Nat × Nat × Nat × Nat)) (s : State) => (takeFirst (fun n => n.1 == u.val) s.core.prunes = some ((v, g, m, out), l)) ∧ (s.unitOut u = false)) 0 0 3 4 5 [] { State.reset with core := { State.reset.core with prunes := [(0, 3, 4, 5)] } }) ∧
  ((fun (u : Fin 8) (g : Fin 4096) (x : Sequence) (s : State) => (s.seqOf u g = some x) ∧ (s.unitOut u = false) ∧ (s.gRoot g = true) ∧ (s.past x.timer (64 * s.get F.COL_CTL_TIMEOUT u) = true)) 0 0 ⟨0, 1, 0, 0, []⟩ (W.then { W.groupUp with units := [(0, { CUnit.reset with seqs := [⟨0, 1, 0, 0, []⟩] })] })) ∧
  ((fun (e : Fin 32) (c : Nat) (q : Fin 8) (x : Coll) (s : State) => ((s.collsOf e c q).find? (fun x => s.past x.last (64 * s.get F.COL_CTL_TIMEOUT (s.gUnit x.g) * (s.get F.COL_CTL_RETRY (s.gUnit x.g) + 2))) = some x)) 0 5 0 W.coll (W.then (W.eng fun x => { x with colls := [W.coll] }))) :=
  ⟨by decide +kernel, by decide +kernel, by decide +kernel, by decide +kernel, by decide +kernel, by decide +kernel, by decide +kernel, by decide +kernel, by decide, by decide, by decide, by decide, by decide +kernel, by decide, by decide, by decide +kernel, by decide +kernel⟩

theorem test_wit_TranslationCommands :
  ((fun (e : Fin 32) (c : Nat) (q : Fin 8) (b : Begun) (k : Ctx) (scope : Nat) (mine : Nat → Nat → Bool) (s : State) => (s.begunEntry e c q 0x10 = some b) ∧ (s.ctx e c = some k) ∧ (scope = bits (dw b.desc 1) 20 2) ∧ (mine = (fun f x => (match s.ctx f x with
      | some y => y.port == k.port && y.func == k.func
      | none => false) && (scope == 2 || (scope != 3 && x == bits (dw b.desc 1) 0 20))))) 0 5 0 (W.begun 0x10) (W.ctx id) 0 (fun f x => (match (W.started 0x10).ctx f x with | some y => y.port == (W.ctx id).port && y.func == (W.ctx id).func | none => false) && (0 == 2 || (0 != 3 && x == bits (dw (W.begun 0x10).desc 1) 0 20))) (W.started 0x10)) ∧
  ((fun (e : Fin 32) (v : Nat) (p : Nat → Bool) (s : State) => (s.invalBusy e = false) ∧ (bit v 48 = true) ∧ (p = (fun x => bits v 20 2 == 2 || (bits v 20 2 != 3 && x == bits v 0 20)))) 0 (2 ^ 48) (fun x => bits (2 ^ 48) 20 2 == 2 || (bits (2 ^ 48) 20 2 != 3 && x == bits (2 ^ 48) 0 20)) State.reset) ∧
  ((fun (e : Fin 32) (i : Inval) (l : List Inval) (s : State) => (takeFirst s.invalOver (s.eng e).invals = some (i, l)) ∧ (i.entry = none)) 0 ⟨none, [], []⟩ [] (W.eng fun x => { x with invals := [⟨none, [], []⟩] })) ∧
  ((fun (e : Fin 32) (i : Inval) (l : List Inval) (c q idx : Nat) (d : Desc) (s : State) => (takeFirst s.invalOver (s.eng e).invals = some (i, l)) ∧ (i.entry = some (c, q, idx, d))) 0 ⟨some (5, 0, 0, [0x10]), [], []⟩ [] 5 0 0 [0x10] (W.eng fun x => { x with invals := [⟨some (5, 0, 0, [0x10]), [], []⟩] })) :=
  ⟨⟨by decide, by decide, by decide, rfl⟩, ⟨by decide, by decide, rfl⟩, by decide, by decide⟩

theorem test_wit_LockUnitCommands :
  ((fun (e : Fin 32) (q : Packet) (s : State) => ((s.lockArrived e q 0x28).2 = true)) 0 (W.rma 0 0x28) ((W.hand (W.rma 0 0x28)).set F.LCK_CTL_EN 1 0)) ∧
  ((fun (e : Fin 32) (q : Packet) (s : State) => ((s.lockArrived e q 0x29).2 = true)) 0 (W.rma 0 0x29) ((W.hand (W.rma 0 0x29)).set F.LCK_CTL_EN 1 0)) ∧
  ((fun (e : Fin 32) (q : Packet) (s : State) => ((s.lockArrived e q 0x2A).2 = true)) 0 (W.rma 0 0x2A) ((W.hand (W.rma 0 0x2A)).set F.LCK_CTL_EN 1 0)) ∧
  ((fun (e : Fin 32) (q : Packet) (slot : Nat) (o : Op) (s : State) => ((s.response e q 0x46).2 = some (slot, o)) ∧ (o.held = none) ∧ (9 ≤ o.kind) ∧ (o.kind ≤ 11) ∧ (bits q.w5 0 8 = 3)) 0 { W.rma 1 0x46 with w5 := 3 } 3 (W.op 9) (W.opAt (W.op 9) (W.eng fun x => { x with ready := [{ W.rma 1 0x46 with w5 := 3 }] }))) ∧
  ((fun (e : Fin 32) (q : Packet) (slot : Nat) (o : Op) (s : State) => ((s.response e q 0x46).2 = some (slot, o)) ∧ (o.held = none) ∧ (9 ≤ o.kind) ∧ (o.kind ≤ 11) ∧ (bits q.w5 0 8 ≠ 3)) 0 (W.rma 1 0x46) 3 (W.op 9) (W.opAt (W.op 9) (W.ready 1 0x46))) ∧
  ((fun (u : Fin 8) (l : Fin 8192) (s : State) => (s.leaseOver u l = true) ∧ (s.savedInTime u l = false)) 0 3 (State.reset.setLock 0 3 1 32 1 1)) ∧
  ((fun (u : Fin 8) (src opid : Nat) (w : Waiter) (s : State) => ((s.cunit u).waiters.find? (fun w => w.src == src && w.opid == opid) = some w) ∧ (s.waiterGone u w = true)) 0 1 3 ⟨7, 1, 3, 5, 0, 0, 0, false, 0, 0⟩ (W.then { State.reset with units := [(0, { CUnit.reset with waiters := [⟨7, 1, 3, 5, 0, 0, 0, false, 0, 0⟩] })] })) ∧
  ((fun (u : Fin 8) (l : Fin 8192) (s : State) => (s.lBoosted u l = true) ∧ (s.past (Tab.get ⟨0, 0, 0, false⟩ (s.cunit u).holders l).boostAt (64 * s.get F.LCK_TIME_BOOST_REFRESH u) = true)) 0 3 (W.then (State.reset.setLock 0 3 1 33 1 1))) ∧
  ((fun (e : Fin 32) (q : Packet) (s : State) => (s.handed e q = true) ∧ (q.cls = 0) ∧ (pKind q = 0x2B) ∧ ((s.unhand e q).tooOld q = false)) 0 (W.rma 0 0x2B) (W.hand (W.rma 0 0x2B))) :=
  ⟨by decide +kernel, by decide +kernel, by decide +kernel, by decide, by decide, by decide +kernel, by decide +kernel, by decide +kernel, by decide⟩

theorem test_wit_HostLinkCommands :
  ((fun (h : Fin 64) (_gen _width : Nat) (s : State) => ((s.hport h).formed = true) ∧ ((s.hport h).perst = false) ∧ ((s.hport h).fenced = false) ∧ (2 ≤ s.boot.stage) ∧ (s.linkUp h = false) ∧ (s.get F.PWR_STAT_RUNG = 0)) 0 5 16 { W.host.set F.HPT_STAT_UP 0 0 with boot := { Boot.reset with stage := 2 } }) ∧
  ((fun (h : Fin 64) (gen width : Nat) (s : State) => ((s.hport h).formed = true) ∧ ((s.hport h).perst = false) ∧ ((s.hport h).fenced = false) ∧ (2 ≤ s.boot.stage) ∧ (s.linkUp h = true) ∧ (s.get F.PWR_STAT_RUNG = 0) ∧ ((s.get F.HPT_STAT_GEN h ≠ (min (max 1 gen) (s.get F.HPT_CTL_MAX_GEN h)) ∨ s.get F.HPT_STAT_WIDTH h ≠ (2 ^ (min width (s.hport h).width).log2)))) 0 5 8 { W.host with boot := { Boot.reset with stage := 2 } }) ∧
  ((fun (h : Fin 64) (s : State) => (s.linkUp h = true)) 0 W.host) ∧
  ((fun (p : Fin 16) (s : State) => ((s.hport (4 * p.val)).perst = true) ∧ (2 ≤ (s.each ((List.range 4).map (4 * p.val + ·)) fun s h => s.modHport h fun x => { x with perst := false, wake := false }).boot.stage)) 0 { State.reset with boot := { Boot.reset with stage := 2 } }) ∧
  ((fun (h : Fin 64) (s : State) => (s.linkUp h = true) ∧ (bit (s.fn h 0).l1 0 = true) ∧ (s.get F.HPT_STAT_PM h = 0) ∧ (s.parked.any (·.1 == h.val) = false) ∧ (s.npOut h = 0) ∧ (s.over (s.hport h).idleFrom (1000 * s.get F.HPT_CTL_L1_IDLE h) 1000 = true) ∧ (bit (s.fn h 0).l1 2 = true)) 0 (W.then { W.host with funcs := [(0, { FuncSt.reset with l1 := 5 })] })) ∧
  ((fun (h : Fin 64) (s : State) => (s.linkUp h = true) ∧ (bit (s.fn h 0).l1 0 = true) ∧ (s.get F.HPT_STAT_PM h = 0) ∧ (s.parked.any (·.1 == h.val) = false) ∧ (s.npOut h = 0) ∧ (s.over (s.hport h).idleFrom (1000 * s.get F.HPT_CTL_L1_IDLE h) 1000 = true) ∧ (bit (s.fn h 0).l1 2 = false) ∧ (bit (s.fn h 0).l1 1 = true)) 0 (W.then { W.host with funcs := [(0, { FuncSt.reset with l1 := 3 })] })) ∧
  ((fun (h : Fin 64) (s : State) => (s.linkUp h = true) ∧ (bit (s.fn h 0).l1 0 = true) ∧ (s.get F.HPT_STAT_PM h = 0) ∧ (s.parked.any (·.1 == h.val) = false) ∧ (s.npOut h = 0) ∧ (s.over (s.hport h).idleFrom (1000 * s.get F.HPT_CTL_L1_IDLE h) 1000 = true) ∧ (bit (s.fn h 0).l1 2 = false) ∧ (bit (s.fn h 0).l1 1 = false)) 0 (W.then { W.host with funcs := [(0, { FuncSt.reset with l1 := 1 })] })) ∧
  ((fun (h : Fin 64) (s : State) => (s.get F.HPT_STAT_PM h ≠ 0)) 0 (W.host.set F.HPT_STAT_PM 1 0)) ∧
  ((fun (tag : Nat) (r : HostReq) (s : State) => (s.reqOf tag = some r) ∧ (r.closed = false) ∧ (r.ended = false) ∧ (s.waitsBme r = false) ∧ (s.passed r.since (1000 * ctoMicros (s.fn r.port r.func).cto) = true)) 9 (W.hreq (.word0 5)) (W.then (W.asked (.word0 5)))) ∧
  ((fun (tag : Nat) (r : HostReq) (s : State) => (s.reqOf tag = some r) ∧ (r.why.fabric = true) ∧ (r.ended = false) ∧ (r.closed = false) ∧ (s.waitsBme r = false) ∧ (64 * s.get F.HPT_CTL_FAB_TO r.port < 1000 * ctoMicros (s.fn r.port r.func).cto) ∧ (s.over r.since (64 * s.get F.HPT_CTL_FAB_TO r.port) 64 = true)) 9 (W.hreq (.getTgt W.pkt)) (W.then (W.asked (.getTgt W.pkt)))) ∧
  ((fun (h : Fin 64) (s : State) => (s.capturePending (pageNo 27 h) = false)) 0 State.reset) ∧
  ((fun (h : Fin 64) (s : State) => (s.capturePending (pageNo 27 h) = true)) 0 (State.reset.capture (pageNo 27 0))) ∧
  ((fun (h : Fin 64) (_f : Fin 264) (_q : Tlp) (s : State) => (s.linkUp h = true) ∧ (s.get F.HPT_STAT_PM h = 0)) 0 0 .other W.host) ∧
  ((fun (h : Fin 64) (f : Fin 264) (q : Tlp) (s : State) => (s.linkUp h = true) ∧ (s.get F.HPT_STAT_PM h = 0) ∧ ((((s.modHport h fun x => { x with idleFrom := s.now }).count 26 h 0x43).count 26 h 0x45 (divUp q.bytes 64)).answers h f = false)) 0 3 .other { W.host with hports := [(0, { HostPort.reset with formed := false })] }) ∧
  ((fun (h : Fin 64) (f : Fin 264) (q : Tlp) (s : State) => (s.linkUp h = true) ∧ (s.get F.HPT_STAT_PM h = 0) ∧ ((((s.modHport h fun x => { x with idleFrom := s.now }).count 26 h 0x43).count 26 h 0x45 (divUp q.bytes 64)).answers h f = true) ∧ ((q.isCfg = true ∧ (((((s.modHport h fun x => { x with idleFrom := s.now }).count 26 h 0x43).count 26 h 0x45 (divUp q.bytes 64)).fn h f).flrAt.isSome = true ∨ (((s.modHport h fun x => { x with idleFrom := s.now }).count 26 h 0x43).count 26 h 0x45 (divUp q.bytes 64)).boot.stage < 3)))) 0 0 (.cfgRead .mse) { W.host with boot := { W.host.boot with stage := 2 } }) ∧
  ((fun (h : Fin 64) (f : Fin 264) (q : Tlp) (s : State) => (s.linkUp h = true) ∧ (s.get F.HPT_STAT_PM h = 0) ∧ ((((s.modHport h fun x => { x with idleFrom := s.now }).count 26 h 0x43).count 26 h 0x45 (divUp q.bytes 64)).answers h f = true) ∧ (q.isCfg = false) ∧ (((((s.modHport h fun x => { x with idleFrom := s.now }).count 26 h 0x43).count 26 h 0x45 (divUp q.bytes 64)).fn h f).flrAt.isSome = true)) 0 0 (.memRead 4 0 4) { W.host with funcs := [(0, { FuncSt.reset with flrAt := some 0 })] }) ∧
  ((fun (h : Fin 64) (f : Fin 264) (q : Tlp) (s : State) => (s.linkUp h = true) ∧ (s.get F.HPT_STAT_PM h = 0) ∧ ((((s.modHport h fun x => { x with idleFrom := s.now }).count 26 h 0x43).count 26 h 0x45 (divUp q.bytes 64)).answers h f = true) ∧ (((((s.modHport h fun x => { x with idleFrom := s.now }).count 26 h 0x43).count 26 h 0x45 (divUp q.bytes 64)).fn h f).flrAt.isSome = false) ∧ ((3 ≤ (((s.modHport h fun x => { x with idleFrom := s.now }).count 26 h 0x43).count 26 h 0x45 (divUp q.bytes 64)).boot.stage ∨ q.isCfg = false))) 0 0 (.memRead 4 0 4) W.host) ∧
  ((fun (h : Fin 64) (_f : Fin 264) (_q : Tlp) (s : State) => (s.linkUp h = true) ∧ (s.get F.HPT_STAT_PM h ≠ 0)) 0 0 .other (W.host.set F.HPT_STAT_PM 1 0)) ∧
  ((fun (h : Fin 64) (f : Fin 264) (q : Tlp) (s : State) => (s.linkUp h = true) ∧ (s.get F.HPT_STAT_PM h ≠ 0) ∧ (((((s.exitL1 h).modHport h fun x => { x with idleFrom := s.now }).count 26 h 0x43).count 26 h 0x45 (divUp q.bytes 64)).answers h f = false)) 0 3 .other ({ W.host with hports := [(0, { HostPort.reset with formed := false })] }.set F.HPT_STAT_PM 1 0)) ∧
  ((fun (h : Fin 64) (f : Fin 264) (q : Tlp) (s : State) => (s.linkUp h = true) ∧ (s.get F.HPT_STAT_PM h ≠ 0) ∧ (((((s.exitL1 h).modHport h fun x => { x with idleFrom := s.now }).count 26 h 0x43).count 26 h 0x45 (divUp q.bytes 64)).answers h f = true) ∧ ((q.isCfg = true ∧ ((((((s.exitL1 h).modHport h fun x => { x with idleFrom := s.now }).count 26 h 0x43).count 26 h 0x45 (divUp q.bytes 64)).fn h f).flrAt.isSome = true ∨ ((((s.exitL1 h).modHport h fun x => { x with idleFrom := s.now }).count 26 h 0x43).count 26 h 0x45 (divUp q.bytes 64)).boot.stage < 3)))) 0 0 (.cfgRead .mse) { W.host.set F.HPT_STAT_PM 1 0 with boot := { W.host.boot with stage := 2 } }) ∧
  ((fun (h : Fin 64) (f : Fin 264) (q : Tlp) (s : State) => (s.linkUp h = true) ∧ (s.get F.HPT_STAT_PM h ≠ 0) ∧ (((((s.exitL1 h).modHport h fun x => { x with idleFrom := s.now }).count 26 h 0x43).count 26 h 0x45 (divUp q.bytes 64)).answers h f = true) ∧ (q.isCfg = false) ∧ ((((((s.exitL1 h).modHport h fun x => { x with idleFrom := s.now }).count 26 h 0x43).count 26 h 0x45 (divUp q.bytes 64)).fn h f).flrAt.isSome = true)) 0 0 (.memRead 4 0 4) ({ W.host with funcs := [(0, { FuncSt.reset with flrAt := some 0 })] }.set F.HPT_STAT_PM 1 0)) ∧
  ((fun (h : Fin 64) (f : Fin 264) (q : Tlp) (s : State) => (s.linkUp h = true) ∧ (s.get F.HPT_STAT_PM h ≠ 0) ∧ (((((s.exitL1 h).modHport h fun x => { x with idleFrom := s.now }).count 26 h 0x43).count 26 h 0x45 (divUp q.bytes 64)).answers h f = true) ∧ ((((((s.exitL1 h).modHport h fun x => { x with idleFrom := s.now }).count 26 h 0x43).count 26 h 0x45 (divUp q.bytes 64)).fn h f).flrAt.isSome = false) ∧ ((3 ≤ ((((s.exitL1 h).modHport h fun x => { x with idleFrom := s.now }).count 26 h 0x43).count 26 h 0x45 (divUp q.bytes 64)).boot.stage ∨ q.isCfg = false))) 0 0 (.memRead 4 0 4) (W.host.set F.HPT_STAT_PM 1 0)) :=
  ⟨by decide, by decide, by decide, by decide, by decide, by decide, by decide, by decide, by decide, by decide, by decide, by decide +kernel, by decide +kernel, by decide +kernel, by decide +kernel, by decide +kernel, by decide +kernel, by decide +kernel, by decide +kernel, by decide +kernel, by decide +kernel, by decide +kernel⟩

theorem test_wit_HostFunctionCommands :
  ((fun (h : Fin 64) (f : Fin 264) (s : State) => (s.linkUp h = true) ∧ (s.funcExists h f = true) ∧ (f.val < 8)) 0 0 W.host) ∧
  ((fun (h : Fin 64) (f : Fin 264) (s : State) => (s.linkUp h = true) ∧ (s.funcExists h f = true) ∧ (8 ≤ f.val)) 0 8 { W.host with hports := [(0, { HostPort.reset with vfs := [1] })] }) ∧
  ((fun (h : Fin 64) (f : Fin 264) (s : State) => (s.linkUp h = true) ∧ (s.funcExists h f = true) ∧ ((s.fn h f).d3 = false)) 0 0 W.host) ∧
  ((fun (h : Fin 64) (f : Fin 264) (s : State) => ((s.fn h f).d3 = true)) 0 0 { W.host with funcs := [(0, { FuncSt.reset with d3 := true })] }) ∧
  ((fun (h : Fin 64) (f : Fin 264) (_on : Bool) (s : State) => (s.funcExists h f = true)) 0 0 true W.host) ∧
  ((fun (h : Fin 64) (f : Fin 264) (v : Fin 2048) (s : State) => ((s.vec h f v).pending = true) ∧ (s.vecOpen h f v = true)) 0 0 1 { W.host with funcs := [(0, { FuncSt.reset with bme := true, msix := true, vecs := [(1, ⟨64, 7, false, true⟩)] })] }) :=
  ⟨by decide, by decide, by decide, by decide, by decide, by decide⟩

theorem test_wit_RaisedEventSetsItsBitAndReachesTheCollectorWhenEnabled : (fun (_s : State) (b : Nat) => b < 64) State.reset 3 := by decide

theorem test_wit_BurstAgainstTheDirectionHasNoEffect :
  ((fun (s : State) => s.blockFenced 6 = false ∧ s.flag F.DPT_CTL_DIR = false) State.reset) ∧
  ((fun (s : State) => s.blockFenced 6 = false ∧ s.flag F.DPT_CTL_DIR = true) (State.reset.set F.DPT_CTL_DIR 1)) :=
  ⟨by decide, by decide⟩

theorem test_wit_InstancesBeyondAClassReadZero : (fun (off : Nat) => implemented (offCls (off % 2 ^ 28)) (offInst (off % 2 ^ 28)) = false) (31 * 2 ^ 22) := by decide

theorem test_wit_DevicePageAndItsReset : (fun (s : State) => s.blockFenced 0 = false) State.reset := by decide

theorem test_wit_ThermTripAssertsItsPin :
  ((fun (temp : Nat) => 115 ≤ temp) 115) ∧
  ((fun (s : State) => s.blockFenced 2 = false) State.reset) :=
  ⟨by decide, by decide⟩

theorem test_wit_BoostTableFollowsItsPackets : (fun (e : Fin 32) (q : Packet) (s u : State) (mine : Boost → Bool) => s.handed e q = true ∧ q.cls = 0 ∧ pKind q = 0x2B ∧ u = s.unhand e q ∧ u.tooOld q = false ∧ mine = (fun b : Boost => b.dev == q.src / 32 && b.unit == bits q.w4 13 3 && b.lock == bits q.w4 0 13)) 0 (W.rma 0 0x2B) (W.hand (W.rma 0 0x2B)) ((W.hand (W.rma 0 0x2B)).unhand 0 (W.rma 0 0x2B)) (fun b : Boost => b.dev == (W.rma 0 0x2B).src / 32 && b.unit == bits (W.rma 0 0x2B).w4 13 3 && b.lock == bits (W.rma 0 0x2B).w4 0 13) := ⟨by decide, by decide, by decide, rfl, by decide, rfl⟩

theorem test_wit_RatesRiseOncePerPeriod : (fun (e : Fin 32) (s : State) => s.past (Tab.get s.clk.base s.marks (markRate e)) (64 * s.get F.RMA_CC_INC_PERIOD e) = true) 0 (W.then State.reset) := by decide

theorem test_wit_AgeIsReadModuloTheStamp : (fun (s : State) (q : Packet) => s.isUnsure = false ∧ q.tu = false) (State.reset.set F.MT_STAT_STATE 1) W.pkt := by decide

theorem test_wit_DataPortWordStoresOnlyThere : (fun (off : Nat) (data : List Byte) (s : State) => s.blockFenced 6 = false ∧ badBurst off data.length = false ∧ s.flag F.DPT_CTL_DIR = true ∧ data.length = 8) 0 (List.replicate 8 7) (State.reset.set F.DPT_CTL_DIR 1) := by decide

theorem test_wit_FramesReadBackAsTheyAreLaidOut : (fun f : Frame => f.wf = true) (Frame.time W.head W.time) := by decide

/-! ### Well-formedness -/

theorem test_wf_refuses_0 : [
    Instr.devReset (2 ^ 16),
    Instr.regWrite (.fn 64 0) 0 .whole 0,
    Instr.regWrite .mctp 4 .whole 0,
    Instr.regWrite .mctp 0 .whole (2 ^ 64),
    Instr.mtNowRead (.fn 64 0),
    Instr.mtTodNextWrite (2 ^ 64),
    Instr.servoUpdate 0 (2 ^ 16) false,
    Instr.mtSrcWrite (2 ^ 64),
    Instr.timeFrameRx 0 0 [] (List.replicate 264 0) 0,
    Instr.timeFrameRx 0 0 (List.replicate 8 0) [] 0,
    Instr.ptmResponseRx false (2 ^ 64) 0,
    Instr.epochAtWrite 0 0 (2 ^ 64),
    Instr.feedLow 0 0 (2 ^ 16),
    Instr.feedQualified 0 0 (2 ^ 16),
    Instr.monitorRefresh 0 (2 ^ 16) 0 0 0,
    Instr.monitorRefresh 0 0 (2 ^ 16) 0 0,
    Instr.monitorRefresh 0 0 0 (2 ^ 16) 0,
    Instr.monitorRefresh 0 0 0 0 (2 ^ 16),
    Instr.portEnable 0 (2 ^ 64),
    Instr.portDisable 0 (2 ^ 64),
    Instr.capFrameRx 0 0 [] (List.replicate 264 0),
    Instr.capFrameRx 0 0 (List.replicate 8 0) [],
    Instr.rcalStep 0 (2 ^ 48) false,
    Instr.dataFrameRx 0 0 (List.replicate 271 0),
    Instr.idleFrameRx 0 0 (List.replicate 271 0)].all (fun i => !i.wf) = true := by decide +kernel

theorem test_wf_refuses_1 : [
    Instr.ackFrameRx 0 0 [] (List.replicate 264 0),
    Instr.ackFrameRx 0 0 (List.replicate 8 0) [],
    Instr.fenceFrameRx 0 0 (List.replicate 271 0),
    Instr.badFrameRx 0 (List.replicate 271 0),
    Instr.slotsWrite 0 (2 ^ 64),
    Instr.packetArrival 0 0 W.badPkt,
    Instr.devSelfWrite (2 ^ 64),
    Instr.gossipRx 0 W.badPkt,
    Instr.rteFenceWrite 0 (2 ^ 64),
    Instr.shaperCfgWrite 0 0 false (2 ^ 64),
    Instr.pmcWrite 0 0 0 (2 ^ 64),
    Instr.ctxRangeWrite 0 0 (2 ^ 64),
    Instr.enginePacketRx 0 W.badPkt,
    Instr.ctxWord0Return 0 (2 ^ 20) 0,
    Instr.ctxWord0Return 0 0 (2 ^ 64),
    Instr.ctxLoadDone 0 (2 ^ 20) (List.replicate 63 0),
    Instr.ctxLoadDone 0 0 (List.replicate 62 0),
    Instr.ctxLoadDone 0 0 (List.replicate 63 (2 ^ 64)),
    Instr.ctxLoadFail 0 (2 ^ 20),
    Instr.evict 0 (2 ^ 20),
    Instr.close 0 (2 ^ 20),
    Instr.queuePoll 0 (2 ^ 20) 0,
    Instr.pollReadReturn 0 0 false (List.replicate 4097 0),
    Instr.nudge 0 (2 ^ 20) 0 0 0,
    Instr.nudge 0 0 0 0 (264)].all (fun i => !i.wf) = true := by decide +kernel

theorem test_wf_refuses_2 : [
    Instr.wqInval 0 (2 ^ 20) 0 0 0 0,
    Instr.wqInval 0 0 0 (2 ^ 32) 0 0,
    Instr.wqInval 0 0 0 0 0 (264),
    Instr.wqCtlReset 0 (2 ^ 20) 0 0 0 0,
    Instr.wqCtlReset 0 0 0 (2 ^ 32) 0 0,
    Instr.wqCtlReset 0 0 0 0 0 (264),
    Instr.queueDrainDone 0 (2 ^ 20) 0,
    Instr.nop 0 (2 ^ 20) 0,
    Instr.completionRecordWrite 0 (2 ^ 20) 0,
    Instr.eventRecordWrite 0 (2 ^ 20),
    Instr.errorRecordWrite 0 (2 ^ 20),
    Instr.evqArm 0 (2 ^ 20) 0 0,
    Instr.evqArm 0 0 0 (264),
    Instr.userPageAccess 0 (2 ^ 20) 0 0 0 4 none,
    Instr.userPageAccess 0 0 0 (264) 0 4 none,
    Instr.userPageAccess 0 0 0 0 (4096) 4 none,
    Instr.userPageAccess 0 0 0 0 0 3 none,
    Instr.userPageAccess 0 0 0 0 0 4 (some (2 ^ 32)),
    Instr.fence 0 (2 ^ 20) 0,
    Instr.fenceFinish 0 (2 ^ 20) 0,
    Instr.recvPost 0 (2 ^ 20) 0,
    Instr.recvClaim 0 (2 ^ 20) 0,
    Instr.recvResume 0 (2 ^ 20) 0,
    Instr.coll 0 (2 ^ 20) 0,
    Instr.xltInval 0 (2 ^ 20) 0].all (fun i => !i.wf) = true := by decide +kernel

theorem test_wf_refuses_3 : [
    Instr.putPacketRx 0 W.badPkt,
    Instr.getReqRx 0 W.badPkt,
    Instr.atomicRequestRx 0 W.badPkt,
    Instr.flushRx 0 W.badPkt,
    Instr.atomicopCompletion 0 0 false (List.replicate 4097 0),
    Instr.hostReadCompletion 0 0 false (List.replicate 4097 0),
    Instr.ackRx 0 W.badPkt,
    Instr.sackRx 0 W.badPkt,
    Instr.nackBusyRx 0 W.badPkt,
    Instr.nackAccessRx 0 W.badPkt,
    Instr.getDataRx 0 W.badPkt,
    Instr.holeTimeout 0 false (2 ^ 24) 0,
    Instr.holeTimeout 0 false 0 (2 ^ 32),
    Instr.busyBackoffExpiry 0 0 (2 ^ 32),
    Instr.dupExpiry 0 (2 ^ 24) 0,
    Instr.dupExpiry 0 0 (2 ^ 32),
    Instr.regInval 0 (2 ^ 64),
    Instr.acacheFlush 0 (2 ^ 64),
    Instr.sendPacketRx 0 W.badPkt,
    Instr.rtsRx 0 W.badPkt,
    Instr.rdvGetRx 0 W.badPkt,
    Instr.rdvAcceptRx 0 W.badPkt,
    Instr.gapWindowExpiry 0 (2 ^ 24) 0 0 0,
    Instr.gapWindowExpiry 0 0 (2 ^ 20) 0 0,
    Instr.gapWindowExpiry 0 0 0 (8) 0].all (fun i => !i.wf) = true := by decide +kernel

theorem test_wf_refuses_4 : [
    Instr.gapWindowExpiry 0 0 0 0 (2 ^ 20),
    Instr.streamEntryExpiry 0 (2 ^ 20) 0 0 0,
    Instr.streamEntryExpiry 0 0 0 (2 ^ 24) 0,
    Instr.streamEntryExpiry 0 0 0 0 (2 ^ 20),
    Instr.setup 0 0 (2 ^ 16),
    Instr.reset 0 0 (2 ^ 16),
    Instr.contribRx 0 W.badPkt,
    Instr.resultRx 0 W.badPkt,
    Instr.reissueRx 0 W.badPkt,
    Instr.fencedRx 0 W.badPkt,
    Instr.collWaitTimeout 0 (2 ^ 20) 0,
    Instr.walkReadReturn 0 0 false (2 ^ 64),
    Instr.adCasReturn 0 0 false (2 ^ 64),
    Instr.xltInvalCmd 0 (2 ^ 64),
    Instr.lockAcqRx 0 W.badPkt,
    Instr.lockRelRx 0 W.badPkt,
    Instr.lockRenewRx 0 W.badPkt,
    Instr.lockRspRx 0 W.badPkt,
    Instr.waiterExpiry 0 (2 ^ 24) 0,
    Instr.waiterExpiry 0 0 (2 ^ 32),
    Instr.boostRx 0 W.badPkt,
    Instr.hostLinkUp 0 0 1,
    Instr.hostLinkUp 0 8 1,
    Instr.hostLinkUp 0 1 3,
    Instr.inboundRequest 0 0 (.memRead 0 0 0) false].all (fun i => !i.wf) = true := by decide +kernel

theorem test_wf_refuses_5 : [
    Instr.evtForce (.fn 64 0) 0 0 0,
    Instr.evtForce .mctp 0 0 (2 ^ 64),
    Instr.dptBurstWrite (.fn 64 0) 0 [0],
    Instr.dptBurstWrite .mctp (2 ^ 28) [0],
    Instr.dptBurstWrite .mctp 0 [],
    Instr.dptBurstRead (.fn 64 0) 0 8,
    Instr.dptBurstRead .mctp (2 ^ 28) 8,
    Instr.dptBurstRead .mctp 0 0,
    Instr.regRd W.badPkt,
    Instr.regWr W.badPkt,
    Instr.dptRd W.badPkt,
    Instr.dptWr W.badPkt,
    Instr.response W.badPkt,
    Instr.replyCacheExpiry (2 ^ 24) 0,
    Instr.replyCacheExpiry 0 (2 ^ 32),
    Instr.mctpRequest (2 ^ 64) 0 0 0 [],
    Instr.mctpRequest 0 (2 ^ 64) 0 0 [],
    Instr.mctpRequest 0 0 (2 ^ 64) 0 [],
    Instr.mctpRequest 0 0 0 (2 ^ 64) [],
    Instr.mctpRequest 0 0 0 0 (List.replicate 4097 0),
    Instr.thermWarn (2 ^ 8),
    Instr.thermTrip (2 ^ 8),
    Instr.bankBitWrite 0 false 0 (2 ^ 64),
    Instr.erase (.fn 64 0) 0,
    Instr.ownerWrite (.fn 64 0) .prot 0].all (fun i => !i.wf) = true := by decide +kernel

theorem test_wf_refuses_6 : [
    Instr.ownerWrite .mctp .prot (2 ^ 64),
    Instr.fuseProg (.fn 64 0),
    Instr.debugUnlock (.fn 64 0),
    Instr.lsrcBusPoll 0 false (2 ^ 8) false,
    Instr.decGapExpiry 0 (2 ^ 24)].all (fun i => !i.wf) = true := by decide +kernel

theorem test_wf_accepts_0 : [
    Instr.devReset 0,
    Instr.regWrite .mctp 0 .whole 0,
    Instr.mtNowRead .mctp,
    Instr.mtTodNextWrite 0,
    Instr.servoUpdate 0 0 false,
    Instr.mtSrcWrite 0,
    Instr.timeFrameRx 0 0 (List.replicate 8 0) (List.replicate 264 0) 0,
    Instr.ptmResponseRx false 0 0,
    Instr.epochAtWrite 0 0 0,
    Instr.feedLow 0 0 0,
    Instr.feedQualified 0 0 0,
    Instr.monitorRefresh 0 0 0 0 0,
    Instr.portEnable 0 0,
    Instr.portDisable 0 0,
    Instr.capFrameRx 0 0 (List.replicate 8 0) (List.replicate 264 0),
    Instr.rcalStep 0 0 false,
    Instr.dataFrameRx 0 0 (List.replicate 272 0),
    Instr.idleFrameRx 0 0 (List.replicate 272 0),
    Instr.ackFrameRx 0 0 (List.replicate 8 0) (List.replicate 264 0),
    Instr.fenceFrameRx 0 0 (List.replicate 272 0),
    Instr.badFrameRx 0 (List.replicate 272 0),
    Instr.slotsWrite 0 0,
    Instr.packetArrival 0 0 W.pkt,
    Instr.devSelfWrite 0,
    Instr.gossipRx 0 W.pkt,
    Instr.rteFenceWrite 0 0,
    Instr.shaperCfgWrite 0 0 false 0,
    Instr.pmcWrite 0 0 0 0,
    Instr.ctxRangeWrite 0 0 0,
    Instr.enginePacketRx 0 W.pkt,
    Instr.ctxWord0Return 0 0 0,
    Instr.ctxLoadDone 0 0 (List.replicate 63 0),
    Instr.ctxLoadFail 0 0,
    Instr.evict 0 0,
    Instr.close 0 0,
    Instr.queuePoll 0 0 0,
    Instr.pollReadReturn 0 0 false [],
    Instr.nudge 0 0 0 0 0,
    Instr.wqInval 0 0 0 0 0 0,
    Instr.wqCtlReset 0 0 0 0 0 0].all Instr.wf = true := by decide +kernel

theorem test_wf_accepts_1 : [
    Instr.queueDrainDone 0 0 0,
    Instr.nop 0 0 0,
    Instr.completionRecordWrite 0 0 0,
    Instr.eventRecordWrite 0 0,
    Instr.errorRecordWrite 0 0,
    Instr.evqArm 0 0 0 0,
    Instr.userPageAccess 0 0 0 0 0 4 none,
    Instr.fence 0 0 0,
    Instr.fenceFinish 0 0 0,
    Instr.recvPost 0 0 0,
    Instr.recvClaim 0 0 0,
    Instr.recvResume 0 0 0,
    Instr.coll 0 0 0,
    Instr.xltInval 0 0 0,
    Instr.putPacketRx 0 W.pkt,
    Instr.getReqRx 0 W.pkt,
    Instr.atomicRequestRx 0 W.pkt,
    Instr.flushRx 0 W.pkt,
    Instr.atomicopCompletion 0 0 false [],
    Instr.hostReadCompletion 0 0 false [],
    Instr.ackRx 0 W.pkt,
    Instr.sackRx 0 W.pkt,
    Instr.nackBusyRx 0 W.pkt,
    Instr.nackAccessRx 0 W.pkt,
    Instr.getDataRx 0 W.pkt,
    Instr.holeTimeout 0 false 0 0,
    Instr.busyBackoffExpiry 0 0 0,
    Instr.dupExpiry 0 0 0,
    Instr.regInval 0 0,
    Instr.acacheFlush 0 0,
    Instr.sendPacketRx 0 W.pkt,
    Instr.rtsRx 0 W.pkt,
    Instr.rdvGetRx 0 W.pkt,
    Instr.rdvAcceptRx 0 W.pkt,
    Instr.gapWindowExpiry 0 0 0 0 0,
    Instr.streamEntryExpiry 0 0 0 0 0,
    Instr.setup 0 0 0,
    Instr.reset 0 0 0,
    Instr.contribRx 0 W.pkt,
    Instr.resultRx 0 W.pkt].all Instr.wf = true := by decide +kernel

theorem test_wf_accepts_2 : [
    Instr.reissueRx 0 W.pkt,
    Instr.fencedRx 0 W.pkt,
    Instr.collWaitTimeout 0 0 0,
    Instr.walkReadReturn 0 0 false 0,
    Instr.adCasReturn 0 0 false 0,
    Instr.xltInvalCmd 0 0,
    Instr.lockAcqRx 0 W.pkt,
    Instr.lockRelRx 0 W.pkt,
    Instr.lockRenewRx 0 W.pkt,
    Instr.lockRspRx 0 W.pkt,
    Instr.waiterExpiry 0 0 0,
    Instr.boostRx 0 W.pkt,
    Instr.hostLinkUp 0 1 1,
    Instr.inboundRequest 0 0 .other false,
    Instr.evtForce .mctp 0 0 0,
    Instr.dptBurstWrite .mctp 0 [0],
    Instr.dptBurstRead .mctp 0 8,
    Instr.regRd W.pkt,
    Instr.regWr W.pkt,
    Instr.dptRd W.pkt,
    Instr.dptWr W.pkt,
    Instr.response W.pkt,
    Instr.replyCacheExpiry 0 0,
    Instr.mctpRequest 0 0 0 0 [],
    Instr.thermWarn 0,
    Instr.thermTrip 0,
    Instr.bankBitWrite 0 false 0 0,
    Instr.erase .mctp 0,
    Instr.ownerWrite .mctp .prot 0,
    Instr.fuseProg .mctp,
    Instr.debugUnlock .mctp,
    Instr.lsrcBusPoll 0 false 0 false,
    Instr.decGapExpiry 0 0].all Instr.wf = true := by decide +kernel

theorem test_wf_packet : ([
    { W.pkt with dst := 2 ^ 24 },
    { W.pkt with src := 2 ^ 24 },
    { W.pkt with cls := 4 },
    { W.pkt with sl := 8 },
    { W.pkt with rmode := 4 },
    { W.pkt with birth := 2 ^ 32 },
    { W.pkt with len := 4097 },
    { W.pkt with hops := 64 },
    { W.pkt with w2 := 2 ^ 64 },
    { W.pkt with w3 := 2 ^ 64 },
    { W.pkt with w4 := 2 ^ 64 },
    { W.pkt with w5 := 2 ^ 64 },
    { W.pkt with w6 := 2 ^ 64 },
    { W.pkt with w7 := 2 ^ 64 },
    { W.pkt with data := [0] }] : List Packet).all (fun q => !q.wf) = true := by decide

theorem test_wf_head : ([
    { W.head with seq := 2 ^ 20 },
    { W.head with sack := 2 ^ 16 },
    { W.head with crVc := 2 ^ 4 },
    { W.head with crCnt := 2 ^ 12 },
    { W.head with cong := 2 ^ 12 },
    { W.head with cack := 2 ^ 20 }] : List FrameHead).all (fun h => !h.wf) = true := by decide

theorem test_wf_cap : ([
    { W.cap with vers := 2 ^ 8 },
    { W.cap with feat := 2 ^ 16 },
    { W.cap with req := 2 ^ 2 },
    { W.cap with cfgWidth := 2 ^ 2 },
    { W.cap with laneIdx := 2 ^ 3 },
    { W.cap with lockedLanes := 2 ^ 8 },
    { W.cap with propLanes := 2 ^ 8 },
    { W.cap with nonce := 2 ^ 64 },
    { W.cap with group := 2 ^ 11 },
    { W.cap with device := 2 ^ 7 },
    { W.cap with port := 2 ^ 10 },
    { W.cap with ladder := 2 ^ 7 }] : List CapCell).all (fun c => !c.wf) = true := by decide

theorem test_wf_time : ([
    { W.time with state := 2 ^ 2 },
    { W.time with hops := 2 ^ 4 },
    { W.time with errNs := 2 ^ 16 },
    { W.time with xid := 2 ^ 32 },
    { W.time with txStamp := 2 ^ 64 },
    { W.time with echo := 2 ^ 64 }] : List TimeCell).all (fun c => !c.wf) = true := by decide

theorem test_wf_cells : ((Frame.data W.frame).wf && W.ack.wf && !(Frame.data { W.frame with vc := 16 }).wf && !(Frame.data W.badFrame).wf && !(FenceCell.wf ⟨256, 0, 0, 0, 0⟩) && !(AckCell.wf { W.ack with releases := [] }) &&
    !(AckCell.wf { W.ack with grants := List.replicate 16 4096 }) && !(AckCell.wf { W.ack with xsack := 2 ^ 1536 })) = true := by decide +kernel

theorem test_wf_masters : [Master.fn 63 263, .endpoint 0].all Master.wf && [Master.fn 64 0, .fn 0 264, .endpoint (2 ^ 24)].all (fun m => !m.wf) = true := by
  decide +kernel

theorem test_wf_tlps : [Tlp.memRead 0 0 4096, .memWrite 0 0 [0], .atomicOp 0 0 16 2 0 0].all Tlp.wf &&
    [Tlp.memRead 0 0 4097, .memWrite 0 0 [], .atomicOp 0 0 16 0 0 0, .atomicOp 0 0 3 2 0 0].all (fun q => !q.wf) = true := by decide +kernel

theorem test_wf_halves : (Half.lo.fits (2 ^ 32) || Half.hi.fits (2 ^ 32) || wordOffset (2 ^ 28)) = false := by decide

/-! ### Worked examples of the spec -/

/-- PORT_CTL of port 280 and EPOCH_AT of RTE 17 (after R594). -/
theorem test_example_offsets : regOffset 10 280 F.PORT_CTL_EN.off = 0x02918100 ∧ regOffset 14 17 (F.EPOCH_AT_NS.of 14).off = 0x038110C8 := by decide

/-- A packet stamped 15,000 at a tile whose stamp reads 16,250 is 1,250 units old (after R7). -/
theorem test_example_age : State.age { State.reset with clk := ⟨ns (16250 * 16), 0, 0, 0⟩ } 15000 = 1250 := by decide

/-- Engine 9 of device 40 in group 90 (after R30). -/
theorem test_example_address : endpoint 90 40 9 = 0x05A509 ∧ groupOf 0x05A509 = 90 ∧ deviceOf 0x05A509 = 40 ∧ engineOf 0x05A509 = 9 := by decide

/-- A PUT_FLAG of 10,000 bytes in three packets (after R368). -/
theorem test_example_pieces : (pieces 0 10000 0).map (fun g => (g.poff, g.len)) = [(0, 4096), (4096, 4096), (8192, 1808)] := by decide

/-- PKTS 17 and MARKS 8 from a destination at LINE leave 7,228 units (after R380). -/
theorem test_example_rate : State.reset.cutRate 0 1 ⟨8, 17, none⟩ = 7228 := by decide

/-- The published check value of the CRC-32 of IEEE Std 802.3 over the characters 1 to 9. -/
theorem test_crc32 : crc32 [0x31, 0x32, 0x33, 0x34, 0x35, 0x36, 0x37, 0x38, 0x39] = 0xCBF43926 := by decide +kernel

/-- The header word of an IDLE frame with NEXT 0x12345, RTX, SACK 0xABCD, CR_VC 7 and CONG 0x9E1, and its trailer with CACK 0x54321 and
CR_CNT 0xCDE, written out from Table 4.1. -/
theorem test_frame_layout : (Frame.idle ⟨0x12345, true, false, 0xABCD, 7, 0xCDE, 0x9E1, 0x54321⟩).body.take 8 =
      [0x45, 0x23, 0x11, 0x40, 0xCD, 0xAB, 0x17, 0x9E] ∧
    (Frame.idle ⟨0x12345, true, false, 0xABCD, 7, 0xCDE, 0x9E1, 0x54321⟩).body.drop 264 = [0x21, 0x43, 0xE5, 0xCD] := by decide +kernel

/-- Frames of three kinds read back. -/
theorem test_frame_roundtrip : [Frame.time W.head W.time, .cap W.head W.cap, .fence ⟨5, false, true, 1, 2, 3, 4, 6⟩ ⟨1, 2, 3, 4, 5⟩].all
    (fun f => frameOf f.bytes == some f) = true := by decide +kernel

/-- The normal fold of R: a, then 3.0, then d gives 4.0; on one device the ones are lost (after R450). -/
theorem test_example_fold : combine 1 0 (combine 1 0 0x4C000000 0x40400000) 0xCC000000 = 0x40800000 ∧
    combine 1 0 0x4C000000 0x3F800000 = 0x4C000000 := by decide +kernel

/-- The exact sum of the same five elements is 3.0. -/
theorem test_example_exact :
    roundAcc 0 ([0x3F800000, 0x3F800000, 0x3F800000, 0xCC000000].foldl (fun a x => addAcc a (toAcc 0 x)) (toAcc 0 0x4C000000)) = 0x40400000 := by
  decide +kernel

/-- SHP_RATE 67 and SHP_CFG 67 of SCH 17 leave the bucket at 16,384 bytes (after R255). -/
theorem test_example_shaper :
    let s := State.reset.did (exec (.shaperCfgWrite 17 67 true 0x0000400000019000) State.reset)
    let t := s.did (exec (.shaperCfgWrite 17 67 false 0x2103) s)
    t.get F.SHP_RATE_RATE 17 67 = 102400 ∧ t.get F.SHP_CFG_OVERHEAD 17 67 = 33 ∧ t.get F.SHP_TOK_TOK 17 67 = 16384 * 256 := by decide +kernel

/-- PERST, reset and power leave DPT_ADDR at 0; the first step takes the front command (log entry 3). -/
theorem test_step_front : step { State.reset with pending := [.refclkLoss, .l1Exit 0] } =
    exec .refclkLoss { State.reset with pending := [.l1Exit 0] } := rfl
end

/-!
The resets (R13, R43, R44, R612, R698, R746): what they leave of the main domains, of the clocks and of start-up.
-/
namespace Sys2Proof.Machine
open Sys2Proof

/-! ### Updates of status alone -/

/-- `t` is `s` but for register fields, the collector, the pins, the Almanac and the control processors. -/
def StatusOnly (s t : State) : Prop :=
  ∃ rf flt pins almanac cps, t = { s with rf := rf, flt := flt, pins := pins, almanac := almanac, cps := cps }

theorem StatusOnly.refl (s : State) : StatusOnly s s := ⟨_, _, _, _, _, rfl⟩

theorem StatusOnly.trans {s t u : State} (h : StatusOnly s t) (h' : StatusOnly t u) : StatusOnly s u := by
  obtain ⟨_, _, _, _, _, rfl⟩ := h
  obtain ⟨_, _, _, _, _, rfl⟩ := h'
  exact ⟨_, _, _, _, _, rfl⟩

theorem StatusOnly.each {α : Type} (l : List α) (f : State → α → State) (h : ∀ s a, StatusOnly s (f s a)) (s : State) :
    StatusOnly s (s.each l f) := by
  induction l generalizing s with
  | nil => exact .refl s
  | cons a l ih => exact (h s a).trans (ih (f s a))

theorem StatusOnly.set (s : State) (f : Fld) (v i n k : Nat) : StatusOnly s (s.set f v i n k) := ⟨_, _, _, _, _, rfl⟩

theorem StatusOnly.event (s : State) (f : Fld) (b i n : Nat) : StatusOnly s (s.event f b i n) := ⟨_, _, _, _, _, rfl⟩

theorem StatusOnly.hw (s : State) (f : Fld) (v i n k : Nat) : StatusOnly s (s.hw f v i n k) := by
  unfold State.hw
  split
  · exact .refl s
  · exact .set s f v i n k

theorem HdrOnly.statusOnly {s t : State} (h : HdrOnly s t) : StatusOnly s t := by
  obtain ⟨⟨_, _, _, _, rfl⟩, _⟩ := h
  exact ⟨_, _, _, _, _, rfl⟩

theorem StatusOnly.raise (s : State) (e : Evt) (i : Nat) : StatusOnly s (s.raise e i) := (raise_hdr s e i).statusOnly

theorem StatusOnly.refreshPins (s : State) : StatusOnly s s.refreshPins := ⟨_, _, _, _, _, rfl⟩

/-- R713: a boot of the control processors touches them, the Almanac's image fields and an event. -/
theorem StatusOnly.cpsBoot (s : State) : StatusOnly s s.cpsBoot := by
  unfold State.cpsBoot
  dsimp only
  split
  · exact ⟨_, _, _, _, _, rfl⟩
  · split
    · refine .trans ?_ ((StatusOnly.event _ F.ALM_FW_FALLBACK 0 0 0).trans (.raise _ E.ALM_FW_FALLBACK 0))
      exact ⟨_, _, _, _, _, rfl⟩
    · exact ⟨_, _, _, _, _, rfl⟩

theorem StatusOnly.showPrsnt (s : State) : StatusOnly s s.showPrsnt := by
  unfold State.showPrsnt
  exact .each _ _ (fun s e => .set s _ _ _ _ _) s

theorem StatusOnly.countDowns (s : State) : StatusOnly s s.countDowns := by
  unfold State.countDowns
  exact .each _ _ (fun s r => .hw s _ _ _ _ _) s

theorem StatusOnly.recordWake (s : State) (rung cause : Nat) : StatusOnly s (s.recordWake rung cause) := by
  unfold State.recordWake
  split
  · exact .refl s
  · exact (StatusOnly.set s F.PWR_STAT_WAKE_CAUSE cause 0 0 0).trans (.raise _ E.PWR_WAKE 0)

theorem StatusOnly.clk {s t : State} (h : StatusOnly s t) : t.clk = s.clk := by
  obtain ⟨_, _, _, _, _, rfl⟩ := h
  rfl

theorem StatusOnly.servo {s t : State} (h : StatusOnly s t) : t.servo = s.servo := by
  obtain ⟨_, _, _, _, _, rfl⟩ := h
  rfl

theorem StatusOnly.boot {s t : State} (h : StatusOnly s t) : t.boot = s.boot := by
  obtain ⟨_, _, _, _, _, rfl⟩ := h
  rfl

theorem StatusOnly.nextTag {s t : State} (h : StatusOnly s t) : t.nextTag = s.nextTag := by
  obtain ⟨_, _, _, _, _, rfl⟩ := h
  rfl

/-! ### The main domains held in reset -/

/-- Nothing in table space, no state of a port, link, tile, engine, context or unit, and the restore at its start. -/
structure MainEmpty (s : State) : Prop where
  mem : s.mem = []
  ports : s.ports = []
  links : s.links = []
  tiles : s.tiles = []
  engs : s.engs = []
  ctxs : s.ctxs = []
  units : s.units = []
  stage : s.boot.stage = 0

theorem StatusOnly.mainEmpty {s t : State} (h : StatusOnly s t) (hs : MainEmpty s) : MainEmpty t := by
  obtain ⟨_, _, _, _, _, rfl⟩ := h
  exact { hs with }

/-- Meridian time made as at cold reset keeps the main domains empty. -/
theorem MainEmpty.coldTime {s : State} (hs : MainEmpty s) : MainEmpty s.coldTime :=
  StatusOnly.mainEmpty (.each _ _ (fun s f => .set s f _ 0 0 0) _) { hs with }

/-- R44: MT starts at 0, and elapsed time is counted anew from now. -/
theorem State.coldTime_clk (s : State) : s.coldTime.clk = { s.clk with mt := 0, base := s.clk.emt } :=
  (StatusOnly.each _ _ (fun s f => .set s f _ 0 0 0) _).clk

theorem State.coldTime_boot (s : State) : s.coldTime.boot = s.boot :=
  (StatusOnly.each _ _ (fun s f => .set s f _ 0 0 0) _).boot

/-! ### The servo's source at a reset (R746) -/

theorem StatusOnly.servoTo (s : State) (st : Nat) : StatusOnly s (s.servoTo st) := by
  unfold State.servoTo
  dsimp only
  split
  · exact .refl s
  · exact (((StatusOnly.set s _ _ _ _ _).trans (.raise _ _ _)).trans (raiseIf_hdr _ _ _ _).statusOnly).trans
      (raiseIf_hdr _ _ _ _).statusOnly

/-- A change of the servo's state leaves every field above the page headers but MT_STAT.STATE. -/
theorem State.get_servoTo (s : State) (st : Nat) (g : Fld) (j m l : Nat) (h1 : 16384 ≤ g.low m l) (h2 : g.low m l < 262144)
    (h3 : g.low m l ≠ F.MT_STAT_STATE.low 0 0) : (s.servoTo st).get g j m l = s.get g j m l := by
  unfold State.servoTo
  dsimp only
  split
  · rfl
  · rw [State.get_raiseIf _ _ _ _ _ _ _ _ h1 h2, State.get_raiseIf _ _ _ _ _ _ _ _ h1 h2, State.get_raise _ _ _ _ _ _ _ h1 h2,
      State.get_set_low _ _ _ _ _ _ _ _ _ _ (by decide) h2 h3]

theorem State.loseSource_clk (s : State) : s.loseSource.clk = s.clk := by
  unfold State.loseSource
  dsimp only
  split
  · exact (StatusOnly.servoTo _ _).clk
  · split <;> rfl

theorem State.loseSource_rung (s : State) : s.loseSource.get F.PWR_STAT_RUNG = s.get F.PWR_STAT_RUNG := by
  unfold State.loseSource
  dsimp only
  split
  · exact State.get_servoTo _ _ F.PWR_STAT_RUNG 0 0 0 (by decide) (by decide) (by decide)
  · split <;> rfl

/-! ### Every reset but a cold one -/

/-- The first step of `warmReset`: the servo's source is lost where it is PTM or a fabric port, or whatever its kind under `any`. -/
def State.dropSource (s : State) (any : Bool) : State :=
  if any || s.get F.MT_SRC_KIND == 2 || s.get F.MT_SRC_KIND == 3 then s.loseSource else s

/-- The main domains emptied, the control processors started, and the restore at its start; the clocks stay. -/
def State.restarted (s : State) : State :=
  let t := s.countDowns.mainReset.showPrsnt
  State.refreshPins (State.cpsBoot { t with boot := ⟨t.boot.pwrGood, 0, false, t.now, !(s.get F.PWR_STAT_RUNG == 5)⟩ })

theorem State.warmReset_eq (s : State) (any : Bool) : s.warmReset any =
    if (s.dropSource any).get F.PWR_STAT_RUNG == 5 then (s.dropSource any).restarted.coldTime else (s.dropSource any).restarted := rfl

theorem State.dropSource_clk (s : State) (any : Bool) : (s.dropSource any).clk = s.clk := by
  unfold State.dropSource
  split
  · exact s.loseSource_clk
  · rfl

theorem State.dropSource_rung (s : State) (any : Bool) : (s.dropSource any).get F.PWR_STAT_RUNG = s.get F.PWR_STAT_RUNG := by
  unfold State.dropSource
  split
  · exact s.loseSource_rung
  · rfl

theorem State.mainReset_showPrsnt_empty (s : State) (b : Boot) (hb : b.stage = 0) : MainEmpty { s.mainReset.showPrsnt with boot := b } := by
  obtain ⟨_, _, _, _, _, h⟩ := StatusOnly.showPrsnt s.mainReset
  rw [h]
  exact ⟨rfl, rfl, rfl, rfl, rfl, rfl, rfl, hb⟩

theorem State.restarted_empty (s : State) : MainEmpty s.restarted :=
  ((StatusOnly.cpsBoot _).trans (.refreshPins _)).mainEmpty (State.mainReset_showPrsnt_empty _ _ rfl)

theorem State.restarted_clk (s : State) : s.restarted.clk = s.clk :=
  calc s.restarted.clk = s.countDowns.mainReset.showPrsnt.clk := ((StatusOnly.cpsBoot _).trans (.refreshPins _)).clk
    _ = s.countDowns.mainReset.clk := (StatusOnly.showPrsnt _).clk
    _ = s.clk := (StatusOnly.countDowns s).clk

theorem State.restarted_warm (s : State) : s.restarted.boot.warm = (s.get F.PWR_STAT_RUNG != 5) :=
  congrArg Boot.warm ((StatusOnly.cpsBoot _).trans (.refreshPins _)).boot

theorem State.warmReset_empty (s : State) (any : Bool) : MainEmpty (s.warmReset any) := by
  rw [State.warmReset_eq]
  split
  · exact (State.restarted_empty _).coldTime
  · exact State.restarted_empty _

/-- R44: the clocks stay, but where the device was Dark MT starts at 0 and elapsed time is counted anew. -/
theorem State.warmReset_clk (s : State) (any : Bool) :
    (s.warmReset any).clk = if s.get F.PWR_STAT_RUNG = 5 then { s.clk with mt := 0, base := s.clk.emt } else s.clk := by
  rw [State.warmReset_eq, State.dropSource_rung]
  by_cases h : s.get F.PWR_STAT_RUNG = 5
  · simp only [h, beq_self_eq_true, if_true, State.coldTime_clk, State.restarted_clk, State.dropSource_clk]
  · simp only [h, beq_iff_eq, if_false, State.restarted_clk, State.dropSource_clk]

/-- The restore is the warm one unless the device was Dark (R44, R698). -/
theorem State.warmReset_warm (s : State) (any : Bool) : (s.warmReset any).boot.warm = (s.get F.PWR_STAT_RUNG != 5) := by
  have h : (s.dropSource any).restarted.boot.warm = (s.get F.PWR_STAT_RUNG != 5) := by
    rw [State.restarted_warm, State.dropSource_rung]
  rw [State.warmReset_eq]
  split
  · rw [State.coldTime_boot, h]
  · exact h

/-! ### The commands -/

/-- R13, R43: from any state a cold reset leaves Meridian time, the servo and start-up as after reset; the count of host tags goes on. -/
theorem exec_coldReset (s : State) : ∃ t, exec .coldReset s = .next t ∧ MainEmpty t ∧
    t.clk = State.reset.clk ∧ t.servo = State.reset.servo ∧ t.boot = State.reset.boot ∧ t.nextTag = s.nextTag := by
  have h : ∀ u : State, StatusOnly u u.showPrsnt.cpsBoot.refreshPins := fun u =>
    ((StatusOnly.showPrsnt u).trans (.cpsBoot _)).trans (.refreshPins _)
  exact ⟨_, rfl, (h _).mainEmpty ⟨rfl, rfl, rfl, rfl, rfl, rfl, rfl, rfl⟩, (h _).clk, (h _).servo, (h _).boot, (h _).nextTag⟩

theorem exec_warmReset (s : State) : exec .warmReset s = .next ((s.warmReset false).recordWake (s.get F.PWR_STAT_RUNG) 2) := rfl

/-- R612: DEV_RESET starts a warm reset with its key. -/
theorem exec_devReset_key (s : State) : exec (.devReset 0x5752) s = .next (s.warmReset false) := rfl

/-- R612: any other value is ignored. -/
theorem exec_devReset_other (s : State) {key : Nat} (h : key % 2 ^ 16 ≠ 0x5752) : exec (.devReset key) s = .next s := if_neg h

/-- R746: PWR_GOOD falling resets the main domains and takes the servo's source whatever its kind. -/
theorem exec_pwrGoodFall (s : State) (h : s.boot.pwrGood = true) : exec .pwrGoodFall s =
    .next { s.warmReset true with boot := { (s.warmReset true).boot with pwrGood := false } } := if_pos h

/-- Settles O10: a cold reset starts from the reset state, and the three others are one `warmReset` that empties the main domains and
keeps the clocks unless the device was Dark. -/
theorem resetsEmptyTheMainDomains : Obligations.ResetsEmptyTheMainDomains := by
  unfold Obligations.ResetsEmptyTheMainDomains
  refine ⟨fun s => ?_, fun s => ?_, fun s => ?_, fun s key h => exec_devReset_other s h, fun s h => ?_⟩
  · obtain ⟨t, ht, he, hrest⟩ := exec_coldReset s
    exact ⟨t, ht, he.mem, he.ports, he.links, he.tiles, he.engs, he.ctxs, he.units, he.stage, hrest⟩
  · have hw := StatusOnly.recordWake (s.warmReset false) (s.get F.PWR_STAT_RUNG) 2
    have he := hw.mainEmpty (s.warmReset_empty false)
    exact ⟨_, exec_warmReset s, he.mem, he.ports, he.links, he.tiles, he.engs, he.ctxs, he.units, he.stage,
      hw.clk.trans (s.warmReset_clk false)⟩
  · have he := s.warmReset_empty false
    exact ⟨_, exec_devReset_key s, he.mem, he.ports, he.links, he.tiles, he.engs, he.ctxs, he.units, he.stage,
      s.warmReset_warm false, s.warmReset_clk false⟩
  · have he := s.warmReset_empty true
    exact ⟨_, exec_pwrGoodFall s h, he.mem, he.ports, he.links, he.tiles, he.engs, he.ctxs, he.units, he.stage, rfl,
      s.warmReset_clk true⟩

end Sys2Proof.Machine

/-!
Register writes (R8, R15, R591, R593, R765), forced events (R598) and armed checkers (R640).
-/
namespace Sys2Proof.Machine
open Sys2Proof

/-! ### Whole writes of plain fields -/

/-- A field under a mask of all its bits: what the register held in them is gone. -/
theorem masked_full_mod (old new w : Nat) : masked old (new % 2 ^ w) (2 ^ w - 1) % 2 ^ w = new % 2 ^ w := by
  have hand : ∀ x, Nat.land x (2 ^ w - 1) = x % 2 ^ w := fun x => Nat.and_two_pow_sub_one_eq_mod x w
  have hold : old - old % 2 ^ w = 2 ^ w * (old / 2 ^ w) := by
    have := Nat.div_add_mod old (2 ^ w)
    omega
  unfold masked
  rw [hand, hand, hold, Nat.mul_add_mod_self_left, Nat.mod_mod, Nat.mod_mod]

/-- A software write stores its value cut to the field's width. -/
theorem State.write_congr (s : State) (f : Fld) {v v' : Nat} (i n k : Nat) (h : v % 2 ^ f.w = v' % 2 ^ f.w) :
    s.write f v i n k = s.write f v' i n k := by
  simp only [State.write, RegFile.set, h]

/-- R8, R591: a write whose mask covers a plain RW field stores the written bits there. -/
theorem State.fieldWrite_rw_full (s : State) (i mask v : Nat) (f : Fld) (n k : Nat)
    (hmask : bits mask (f.lo + f.sub * k) f.w = 2 ^ f.w - 1) (hw : 0 < f.w) (hacc : f.acc = .rw) (hpres : f.present i n k = true)
    (hinj : f ≠ F.INJ_MASK.of f.cls) (hsev : f ≠ F.FLT_SEV_SEV) :
    s.fieldWrite i mask v (f, n, k) = s.write f (bits v (f.lo + f.sub * k) f.w) (f.page i) n k := by
  have hm : 2 ^ f.w - 1 ≠ 0 := by
    have := Nat.pow_lt_pow_right (a := 2) (by decide) hw
    omega
  unfold State.fieldWrite
  simp only [hmask, hm, hpres, hacc, hinj, hsev, Bool.true_eq_false, false_or, false_and, if_false]
  refine s.write_congr f _ _ _ ?_
  unfold bits
  rw [masked_full_mod, Nat.mod_mod]

/-- A field of the low 64 bits does not see the cut of a written word (R591). -/
theorem bits_mod_word {v lo w : Nat} (h : lo + w ≤ 64) : bits (v % 2 ^ 64) lo w = bits v lo w := by
  unfold bits
  rw [show 64 = lo + (64 - lo) by omega, Nat.pow_add, Nat.mod_mul_right_div_self, Nat.mod_mod_of_dvd]
  exact Nat.pow_dvd_pow 2 (by omega)

/-! ### MT_SLEW -/

/-- The register at offset 0x130 of the MT page holds the two fields of MT_SLEW. -/
theorem fieldsAt_mtSlew : fieldsAt 1 0x130 = [(F.MT_SLEW_MAX_PPB, 0, 0), (F.MT_SLEW_STEP_THRESH, 0, 0)] := by decide

theorem State.plainWrite_mtSlew (s : State) (v : Nat) : s.plainWrite 1 0 0x130 (2 ^ 64 - 1) (v % 2 ^ 64) =
    (s.write F.MT_SLEW_MAX_PPB (bits v 0 16)).write F.MT_SLEW_STEP_THRESH (bits v 16 32) := by
  have h1 : ∀ u : State, u.fieldWrite 0 (2 ^ 64 - 1) (v % 2 ^ 64) (F.MT_SLEW_MAX_PPB, 0, 0) =
      u.write F.MT_SLEW_MAX_PPB (bits v 0 16) := fun u => by
    rw [u.fieldWrite_rw_full _ _ _ _ _ _ (by decide) (by decide) rfl (by decide) (by decide) (by decide)]
    exact congrArg (u.write F.MT_SLEW_MAX_PPB) (bits_mod_word (by decide))
  have h2 : ∀ u : State, u.fieldWrite 0 (2 ^ 64 - 1) (v % 2 ^ 64) (F.MT_SLEW_STEP_THRESH, 0, 0) =
      u.write F.MT_SLEW_STEP_THRESH (bits v 16 32) := fun u => by
    rw [u.fieldWrite_rw_full _ _ _ _ _ _ (by decide) (by decide) rfl (by decide) (by decide) (by decide)]
    exact congrArg (u.write F.MT_SLEW_STEP_THRESH) (bits_mod_word (by decide))
  unfold State.plainWrite
  rw [fieldsAt_mtSlew]
  simp only [State.each, List.foldl_cons, List.foldl_nil, h1, h2]

/-- No special rule of the MT page names MT_SLEW: its write is a plain one. -/
theorem State.devWrite_mtSlew (s : State) (mask v : Nat) : s.devWrite 1 0x130 mask v = s.plainWrite 1 0 0x130 mask v := by
  have halm : (F.MT_ALM_TIME_NS.index 0x130 <|> F.MT_ALM_CTL_EN.index 0x130) = none := by decide
  unfold State.devWrite
  simp [halm, F.MT_SRC_KIND, F.MT_TOD_NEXT_NS, F.MT_ACC_LIMIT, F.MT_PPS_OUT_EN]

/-! ### Where a register write goes -/

/-- R593: a write to a page that does not exist is ignored. -/
theorem State.maskWrite_absent (s : State) (m : Master) (o mask v : Nat) (h : implemented (offCls o) (offInst o) = false) :
    s.maskWrite m o mask v = s := if_pos (.inl h)

/-- R765: a fenced block takes no write but those that clear its events. -/
theorem State.maskWrite_fenced (s : State) (m : Master) (o mask v : Nat) (hf : s.blockFenced (offCls o) = true)
    (he : offReg o ≠ F.EVT_STAT_EVT.off) (hc : offReg o ≠ F.STAT_CAP_VALID.off) : s.maskWrite m o mask v = s := by
  by_cases h : implemented (offCls o) (offInst o) = false ∨ writeReaches (offCls o) (offReg o) mask = false
  · exact if_pos h
  · exact (if_neg h).trans ((if_pos hf).trans (if_neg (not_or.2 ⟨he, hc⟩)))

/-- A write that reaches a field of MT_SLEW goes to the rules of the MT page. -/
theorem State.maskWrite_mtSlew (s : State) (m : Master) (mask v : Nat) (hf : s.blockFenced 1 = false)
    (hreach : writeReaches 1 0x130 mask = true) :
    s.maskWrite m (regOffset 1 0 0x130) mask v = s.devWrite 1 0x130 mask v := by
  have hcls : offCls (regOffset 1 0 0x130) = 1 := by decide
  have hinst : offInst (regOffset 1 0 0x130) = 0 := by decide
  have hreg : offReg (regOffset 1 0 0x130) = 0x130 := by decide
  have himp : implemented 1 0 = true := by decide
  unfold State.maskWrite
  simp [hcls, hinst, hreg, himp, hreach, hf]

/-! ### The commands -/

theorem exec_regWrite (m : Master) (off : Nat) (h : Half) (v : Nat) (s : State) :
    exec (.regWrite m off h v) s = .next (s.maskWrite m (off % 2 ^ 28) h.mask (h.place v)) := rfl

theorem exec_evtForce (m : Master) (cls : Fin 31) (i : Fin 1024) (v : Nat) (s : State) (hi : implemented cls i = true)
    (hf : s.blockFenced cls = false) :
    exec (.evtForce m cls i v) s = .next (s.each (setBitsOf v 64) fun s b => s.forceEvent m cls i b) :=
  if_pos (by rw [hi, hf]; rfl)

theorem exec_injArm (cls : Fin 31) (i : Fin 1024) (s : State) (hi : implemented cls i = true) (hf : s.blockFenced cls = false) :
    exec (.injArm cls i) s = .next { s with
      flt := { s.flt with
        inj := if s.get (F.INJ_MASK.of cls) i = 0 then Tab.erase s.flt.inj (pageNo cls i)
          else Tab.insert s.flt.inj (pageNo cls i) (s.get (F.INJ_MASK.of cls) i) } } :=
  if_pos (by rw [hi, hf]; rfl)

/-- Settles O36: MT_SLEW is written by the plain rule, absent and fenced pages keep the state, and EVT_FORCE and INJ_ARM act in an
implemented, unfenced page. -/
theorem registerCommands : Obligations.RegisterCommands := by
  unfold Obligations.RegisterCommands
  refine ⟨fun m v s hf => ?_, fun m off v h s hi => ?_, fun m off v h s hf he hc => ?_, exec_evtForce, exec_injArm⟩
  · have hoff : regOffset 1 0 0x130 % 2 ^ 28 = regOffset 1 0 0x130 := by decide
    rw [exec_regWrite, hoff]
    exact congrArg _ ((s.maskWrite_mtSlew m _ _ hf (by decide)).trans ((s.devWrite_mtSlew _ _).trans (s.plainWrite_mtSlew v)))
  · rw [exec_regWrite, s.maskWrite_absent m _ _ _ hi]
  · rw [exec_regWrite, s.maskWrite_fenced m _ _ _ hf he hc]

end Sys2Proof.Machine

/-!
The core clock: what it advances Meridian time by (R40, R58).
-/
namespace Sys2Proof.Machine
open Sys2Proof

/-! ### The clock under a core clock (R40, R58) -/

theorem StatusOnly.engClk {s t : State} (h : StatusOnly s t) : t.engClk = s.engClk := by
  obtain ⟨_, _, _, _, _, rfl⟩ := h
  rfl

theorem State.quotas_engClk (s : State) : s.quotas.engClk = s.engClk := by
  unfold State.quotas
  refine State.each_engClk _ _ (fun s t => ?_) s
  unfold State.checkQuota
  dsimp only
  split
  · exact (State.raise_engClk _ _ _).trans (StatusOnly.set _ _ _ _ _ _).engClk
  · exact (StatusOnly.set _ _ _ _ _ _).engClk

theorem State.raisePeak_engClk (s : State) (f : Fld) (used i : Nat) : (s.raisePeak f used i).engClk = s.engClk := by
  unfold State.raisePeak
  split
  · exact s.hw_engClk _ _ _ _ _
  · rfl

theorem State.peaks_engClk (s : State) : s.peaks.engClk = s.engClk := by
  unfold State.peaks
  dsimp only
  rw [State.each_engClk _ _ fun s u => (State.raisePeak_engClk _ _ _ _).trans (s.raisePeak_engClk _ _ _),
    State.each_engClk _ _ fun s m => s.raisePeak_engClk _ _ _, State.each_engClk _ _ fun s p => s.raisePeak_engClk _ _ _]

theorem State.joins_engClk (s : State) : s.joins.engClk = s.engClk := by
  unfold State.joins
  exact State.each_engClk _ _ (fun s p => s.drrJoin_engClk p) s

theorem State.hwFenceOn_engClk (s : State) (t mask : Nat) : (s.hwFenceOn t mask).engClk = s.engClk := by
  unfold State.hwFenceOn
  dsimp only
  split <;> rfl

theorem State.hwFences_engClk (s : State) (wrote : List Nat) : (s.hwFences wrote).engClk = s.engClk := by
  unfold State.hwFences
  exact State.each_engClk _ _ (fun s t => s.hwFenceOn_engClk t _) s

theorem State.clockCounter_hdr (old : State) (cls i : Nat) (s : State) {k : Nat} (hk : k < 8) : HdrOnly s (old.clockCounter cls i s k) := by
  unfold State.clockCounter
  extract_lets filt d
  split
  · exact countIn_hdr s cls i d k hk
  · exact .refl s

/-- The programmable counters are header fields: advancing those of a page leaves the clock. -/
theorem State.clockPage_engClk (old s : State) (cls i : Nat) : (old.clockPage s cls i).engClk = s.engClk := by
  unfold State.clockPage
  split
  · rfl
  · exact (HdrOnly.fold _ _ (fun s k hk =>
      old.clockCounter_hdr cls i s (Nat.lt_of_lt_of_le (List.mem_range.1 hk) (pmcNum_le cls))) s).engClk

theorem State.tick_engClk (s : State) : s.tick.engClk = s.clock.engClk := by
  unfold State.tick
  refine (State.each_engClk _ _ (fun t ⟨c, i⟩ => s.clockPage_engClk t c i) _).trans ?_
  rw [State.hwFences_engClk, State.joins_engClk, State.peaks_engClk, State.quotas_engClk]

/-- Of all that one core clock does, the clock itself is moved by `State.clock` alone. -/
theorem State.tick_clk (s : State) : s.tick.clk = s.clock.clk := congrArg Prod.snd s.tick_engClk

/-! ### The rate of MT (R58) -/

theorem clampInt_bounds {lo hi : Int} (h : lo ≤ hi) (x : Int) : lo ≤ clampInt lo hi x ∧ clampInt lo hi x ≤ hi := by
  unfold clampInt
  split
  · omega
  · split <;> omega

/-- The units that MT advances in a core clock outside Dark: 10^9 with the frequency and the slew, held within MAX_PPB (R58). -/
def State.clockUnits (s : State) : Nat :=
  (1000000000 + clampInt (-(s.get F.MT_SLEW_MAX_PPB : Int)) (s.get F.MT_SLEW_MAX_PPB) (s.servo.freq + s.servo.slew)).toNat

theorem State.clockUnits_bounds (s : State) : 1000000000 ≤ s.clockUnits + s.get F.MT_SLEW_MAX_PPB ∧
    s.clockUnits ≤ 1000000000 + s.get F.MT_SLEW_MAX_PPB := by
  have h := clampInt_bounds (lo := -(s.get F.MT_SLEW_MAX_PPB : Int)) (hi := s.get F.MT_SLEW_MAX_PPB) (by omega) (s.servo.freq + s.servo.slew)
  unfold State.clockUnits
  omega

theorem State.dark_eq_false {s : State} (h : s.get F.PWR_STAT_RUNG ≠ 5) : s.dark = false := by
  unfold State.dark
  rw [beq_false_of_ne h, Bool.false_and]

theorem State.clock_clk {s : State} (h : s.dark = false) :
    s.clock.clk = ⟨(s.clk.mt + s.clockUnits) % mtSpan, s.clk.emt + s.clockUnits, s.clk.cyc + 1, s.clk.base⟩ := by
  unfold State.clock
  simp only [h, Bool.false_eq_true, if_false]
  rfl

theorem step_idle {s : State} (h : s.pending = []) : step s = .next s.tick := by
  unfold step
  rw [h]

/-- Settles O18: a step on an empty queue is one tick, whose clock moves by `State.clockUnits`. -/
theorem slewIsBounded : Obligations.SlewIsBounded := by
  unfold Obligations.SlewIsBounded
  intro s hidle hawake _
  have hclk : s.tick.clk = _ := s.tick_clk.trans (State.clock_clk (State.dark_eq_false hawake))
  exact ⟨s.tick, s.clockUnits, step_idle hidle, congrArg Clock.mt hclk, congrArg Clock.emt hclk, s.clockUnits_bounds⟩

end Sys2Proof.Machine

/-!
The servo (R40, R46, R51, R54, R57, R58, Table 2.2): a case of each operation per lemma, then the commands.
-/
namespace Sys2Proof.Machine
open Sys2Proof

/-! ### The servo states -/

theorem State.isUnsure_iff (s : State) : s.isUnsure = true ↔ s.get F.MT_STAT_STATE = unsure := beq_iff_eq

theorem State.isUnsure_eq_false {s : State} (h : s.get F.MT_STAT_STATE ≠ unsure) : s.isUnsure = false := beq_false_of_ne h

/-! ### The loss of the source (Table 2.2) -/

theorem State.loseSource_locked {s : State} (h : s.get F.MT_STAT_STATE = locked) : s.loseSource =
    State.servoTo { s with servo := { s.servo with slew := 0, lossAt := s.now, lossErr := s.get F.MT_STAT_ERR_NS } } holdover := if_pos h

theorem State.loseSource_unsure {s : State} (h : s.get F.MT_STAT_STATE = unsure) :
    s.loseSource = { s with servo := { s.servo with qualSince := none } } := by
  have hl : ¬ s.get F.MT_STAT_STATE = locked := by
    rw [h]
    decide
  exact (if_neg hl).trans (if_pos h)

theorem State.loseSource_holdover {s : State} (hl : s.get F.MT_STAT_STATE ≠ locked) (hu : s.get F.MT_STAT_STATE ≠ unsure) :
    s.loseSource = s := (if_neg hl).trans (if_neg hu)

theorem exec_sourceLost_gone {s : State} (h : s.sourceGone = true) : exec .sourceLost s = .next s.loseSource := if_pos h

theorem exec_sourceLost_present {s : State} (h : s.sourceGone = false) : exec .sourceLost s = .next s :=
  if_neg (Bool.eq_false_iff.1 h)

theorem exec_holdoverLimit_passed {s : State} (h : s.get F.MT_STAT_STATE = holdover) (hl : s.get F.MT_ACC_LIMIT < s.errNow) :
    exec .holdoverLimit s = .next (s.setErr s.errNow).goUnsure := if_pos ⟨h, hl⟩

theorem exec_holdoverLimit_within {s : State} (h : s.get F.MT_STAT_STATE ≠ holdover ∨ s.errNow ≤ s.get F.MT_ACC_LIMIT) :
    exec .holdoverLimit s = .next s :=
  if_neg fun ⟨hst, hl⟩ => h.elim (· hst) (Nat.not_le.2 hl)

/-! ### Updates of the servo (Table 2.2) -/

/-- The instant and the offset of an update that may be locked to, kept by the servo. -/
def State.noteUpdate (s : State) (off : Int) : State := { s with servo := { s.servo with lastGood := s.now, lastOff := off } }

theorem State.update_unqualified {s : State} (hs : s.get F.MT_STAT_STATE ≠ unsure) (off : Int) (err : Nat) :
    s.update off err false = s := if_neg (Bool.eq_false_iff.1 (State.isUnsure_eq_false hs))

/-- R51: outside UNSURE an update that may be locked to is one of LOCKED or HOLDOVER. -/
theorem State.update_known {s : State} (hs : s.get F.MT_STAT_STATE ≠ unsure) (off : Int) (err : Nat) :
    s.update off err true = (s.noteUpdate off).updateLocked off err :=
  if_neg (Bool.eq_false_iff.1 (State.isUnsure_eq_false (s := s.noteUpdate off) hs))

theorem State.update_unsure {s : State} (hs : s.get F.MT_STAT_STATE = unsure) (off : Int) {err : Nat} (he : err ≤ s.get F.MT_ACC_LIMIT) :
    s.update off err true = State.setErr
      { s with servo := { s.servo with lastGood := s.now, lastOff := off, qualSince := s.servo.qualSince <|> some s.now } } err := by
  have hu : (s.noteUpdate off).isUnsure = true := (State.isUnsure_iff _).2 hs
  refine (if_pos hu).trans ?_
  simp only [he, Bool.true_and, decide_true, if_true]
  rfl

theorem State.updateLocked_inaccurate {s : State} (off : Int) {err : Nat} (h : s.get F.MT_ACC_LIMIT < err) :
    s.updateLocked off err = (s.setErr err).goUnsure := if_pos h

theorem State.updateLocked_locked {s : State} (hs : s.get F.MT_STAT_STATE = locked) (off : Int) {err : Nat}
    (h : err ≤ s.get F.MT_ACC_LIMIT) : s.updateLocked off err = (s.setErr err).train.slewBy off := by
  have hh : (!(s.get F.MT_STAT_STATE == holdover)) = true := by
    rw [hs]
    rfl
  exact (if_neg (Nat.not_lt.2 h)).trans (if_pos hh)

theorem State.updateLocked_holdover {s : State} (hs : s.get F.MT_STAT_STATE = holdover) (off : Int) {err : Nat}
    (h : err ≤ s.get F.MT_ACC_LIMIT) : s.updateLocked off err =
      if off.natAbs ≤ ns (s.get F.MT_ACC_LIMIT) then (((s.setErr err).servoTo locked).train).slewBy off
      else ((s.setErr err).raise E.MT_HOLD_BREACH).goUnsure := by
  have hh : ¬ (!(s.get F.MT_STAT_STATE == holdover)) = true := by
    rw [hs]
    decide
  exact (if_neg (Nat.not_lt.2 h)).trans (if_neg hh)

theorem exec_servoUpdate {s : State} (h : s.get F.MT_SRC_KIND ≠ 0) (offPs : Int) (err : Nat) (qual : Bool) :
    exec (.servoUpdate offPs err qual) s = .next (s.update (psUnits offPs) err qual) := if_neg h

theorem exec_servoUpdate_noSource {s : State} (h : s.get F.MT_SRC_KIND = 0) (offPs : Int) (err : Nat) (qual : Bool) :
    exec (.servoUpdate offPs err qual) s = .next s := if_pos h

theorem exec_servoUpdate_known {s : State} (hk : s.get F.MT_SRC_KIND ≠ 0) (hs : s.get F.MT_STAT_STATE ≠ unsure) (offPs : Int) (err : Nat) :
    exec (.servoUpdate offPs err true) s = .next ((s.noteUpdate (psUnits offPs)).updateLocked (psUnits offPs) err) :=
  (exec_servoUpdate hk offPs err true).trans (congrArg _ (State.update_known hs _ err))

/-! ### The end of settling (R57, R58) -/

/-- The servo locked for the first time since it was UNSURE, with the frequency trained and `off` left to slew. -/
def State.firstLock (s : State) (off : Int) : State := (((s.set F.MT_STAT_FIRST_LOCK 1).servoTo locked).train).slewBy off

theorem exec_settleQualified_none {s : State} (h : s.servo.qualSince = none) : exec .settleQualified s = .next s := by
  change execSettleQualified s = _
  unfold execSettleQualified
  rw [h]

/-- A run of qualifying updates that began at `at_`. -/
theorem exec_settleQualified_since {s : State} {at_ : Nat} (h : s.servo.qualSince = some at_) : exec .settleQualified s =
    if s.isUnsure && decide (at_ + ns (s.get F.MT_ACC_SETTLE * 10000000) ≤ s.now) then
      .next (if ns (s.get F.MT_SLEW_STEP_THRESH) < s.servo.lastOff.natAbs then (s.stepMt (-s.servo.lastOff)).firstLock 0
        else s.firstLock s.servo.lastOff)
    else .next s := by
  change execSettleQualified s = _
  unfold execSettleQualified
  rw [h]
  by_cases hstep : ns (s.get F.MT_SLEW_STEP_THRESH) < s.servo.lastOff.natAbs
  · simp only [hstep, decide_true, if_true]
    rfl
  · simp only [hstep, decide_false, Bool.false_eq_true, if_false]
    rfl

theorem exec_settleQualified_settled {s : State} {at_ : Nat} (h : s.servo.qualSince = some at_) (hu : s.isUnsure = true)
    (ht : at_ + ns (s.get F.MT_ACC_SETTLE * 10000000) ≤ s.now) : exec .settleQualified s =
      .next (if ns (s.get F.MT_SLEW_STEP_THRESH) < s.servo.lastOff.natAbs then (s.stepMt (-s.servo.lastOff)).firstLock 0
        else s.firstLock s.servo.lastOff) :=
  (exec_settleQualified_since h).trans (if_pos (by rw [hu, decide_eq_true ht]; rfl))

theorem exec_settleQualified_early {s : State} {at_ : Nat} (h : s.servo.qualSince = some at_)
    (ht : s.now < at_ + ns (s.get F.MT_ACC_SETTLE * 10000000)) : exec .settleQualified s = .next s :=
  (exec_settleQualified_since h).trans (if_neg (by rw [decide_eq_false (Nat.not_le.2 ht), Bool.and_false]; decide))

theorem exec_settleQualified_known {s : State} (h : s.isUnsure = false) : exec .settleQualified s = .next s := by
  cases hq : s.servo.qualSince with
  | none => exact exec_settleQualified_none hq
  | some at_ => exact (exec_settleQualified_since hq).trans (if_neg (by rw [h, Bool.false_and]; decide))

/-! ### The statements -/

/-- Settles O12: both commands run on every state, with the next state that their definitions give. -/
theorem mtReadAndTimeOfDayWrite : Obligations.MtReadAndTimeOfDayWrite := by
  unfold Obligations.MtReadAndTimeOfDayWrite
  exact ⟨fun _ _ => rfl, fun _ _ => rfl⟩

/-- Settles O13: a write of MT_SRC and a loss are one `loseSource`, taken by the servo's state; the limit of HOLDOVER is `goUnsure`. -/
theorem sourceSelectionAndLoss : Obligations.SourceSelectionAndLoss := by
  unfold Obligations.SourceSelectionAndLoss
  refine ⟨fun v s => rfl, fun s hg hl => ?_, fun s hg hu => ?_, fun s hg hl hu => ?_, fun s hg => exec_sourceLost_present hg,
    fun s hh hl => exec_holdoverLimit_passed hh hl, fun s h => exec_holdoverLimit_within h⟩
  · rw [exec_sourceLost_gone hg, State.loseSource_locked hl]
  · rw [exec_sourceLost_gone hg, State.loseSource_unsure hu]
  · rw [exec_sourceLost_gone hg, State.loseSource_holdover hl hu]

/-- Settles O14: each clause is the case of `update` or of the end of settling that its premises choose (Table 2.2). -/
theorem servoUpdatesAndSettling : Obligations.ServoUpdatesAndSettling := by
  unfold Obligations.ServoUpdatesAndSettling
  have hlu : locked ≠ unsure := by decide
  have hhu : holdover ≠ unsure := by decide
  refine ⟨fun off err s hk hs he => ?_, fun off err s hk hs he ho => ?_, fun off err s hk hs he ho => ?_, fun off err s hk hs he => ?_,
    fun off err s hk hs he => ?_, fun off err s hs => ?_, fun off err q s hk => exec_servoUpdate_noSource hk off err q,
    fun at_ s hq hu ht ho => ?_, fun at_ s hq hu ht ho => ?_, fun s h => ?_, fun at_ s hq ht => exec_settleQualified_early hq ht⟩
  · rw [exec_servoUpdate_known hk (hs ▸ hlu)]
    exact congrArg _ (State.updateLocked_locked (s := s.noteUpdate _) hs _ he)
  · rw [exec_servoUpdate_known hk (hs ▸ hhu)]
    exact congrArg _ ((State.updateLocked_holdover (s := s.noteUpdate _) hs _ he).trans (if_pos ho))
  · rw [exec_servoUpdate_known hk (hs ▸ hhu)]
    exact congrArg _ ((State.updateLocked_holdover (s := s.noteUpdate _) hs _ he).trans (if_neg (Nat.not_le.2 ho)))
  · rw [exec_servoUpdate_known hk hs]
    exact congrArg _ (State.updateLocked_inaccurate (s := s.noteUpdate _) _ he)
  · rw [exec_servoUpdate hk, State.update_unsure hs _ he]
  · by_cases hk : s.get F.MT_SRC_KIND = 0
    · exact exec_servoUpdate_noSource hk off err false
    · rw [exec_servoUpdate hk, State.update_unqualified hs]
  · rw [exec_settleQualified_settled hq hu ht, if_neg (Nat.not_lt.2 ho)]
    rfl
  · rw [exec_settleQualified_settled hq hu ht, if_pos ho]
    rfl
  · obtain hq | hu := h
    · exact exec_settleQualified_none hq
    · exact exec_settleQualified_known hu

end Sys2Proof.Machine

/-!
The sources of time (R45 to R48, R54, R128, R731): edges of the external reference, PTM dialogs, TIME requests and frames, and
TIME_PPS_OUT.
-/
namespace Sys2Proof.Machine
open Sys2Proof

/-! ### External reference (R45, R46) -/

/-- The instant of an edge at which TIME_CLK_IN runs, noted. -/
def State.noteClk (s : State) (clk : Bool) : State := if clk then { s with servo := { s.servo with lastClk := s.now } } else s

/-- Noting the clock input changes the instant noted and nothing else. -/
theorem State.noteClk_eq (s : State) (clk : Bool) : ∃ c, s.noteClk clk = { s with servo := { s.servo with lastClk := c } } := by
  unfold State.noteClk
  split
  · exact ⟨_, rfl⟩
  · exact ⟨_, rfl⟩

@[simp] theorem State.noteClk_tod (s : State) (clk : Bool) : (s.noteClk clk).servo.tod = s.servo.tod := by
  obtain ⟨c, h⟩ := s.noteClk_eq clk
  rw [h]

@[simp] theorem State.noteClk_clk (s : State) (clk : Bool) : (s.noteClk clk).clk = s.clk := by
  obtain ⟨c, h⟩ := s.noteClk_eq clk
  rw [h]

@[simp] theorem State.noteClk_rf (s : State) (clk : Bool) : (s.noteClk clk).rf = s.rf := by
  obtain ⟨c, h⟩ := s.noteClk_eq clk
  rw [h]

theorem State.get_noteClk (s : State) (clk : Bool) (f : Fld) (i n k : Nat) : (s.noteClk clk).get f i n k = s.get f i n k := by
  unfold State.get
  rw [State.noteClk_rf]

theorem State.noteClk_isUnsure (s : State) (clk : Bool) : (s.noteClk clk).isUnsure = s.isUnsure :=
  congrArg (· == unsure) (s.get_noteClk clk _ _ _ _)

/-- MT at a reference edge, corrected by EXT_COMP (R45). -/
def State.edgeRef (s : State) : Int := (s.clk.mt : Int) - psUnits (s.sget F.MT_EXT_COMP_PS)

theorem State.noteClk_edgeRef (s : State) (clk : Bool) : (s.noteClk clk).edgeRef = s.edgeRef := by
  unfold State.edgeRef State.sget
  rw [State.noteClk_clk, State.get_noteClk]

/-- An edge at which a time of day `v`, written at `at_`, has been pending for 1 ms (R46). -/
def State.todEdge (s : State) (v at_ residual : Nat) : State :=
  if s.isUnsure then ((s.stepMt (wrapDiff (ns v : Nat) s.edgeRef)).todDone).ppsUpdate (ns v : Nat) residual
  else if (wrapDiff (ns v : Nat) s.edgeRef).natAbs ≤ ns (s.get F.MT_ACC_LIMIT) then s.todDone.ppsUpdate s.edgeRef residual
  else
    let w := { s with servo := { s.servo with tod := some ((v + 1000000000) % 2 ^ 64, at_), lastGood := s.now } }
    ((w.setErr w.boundAbove).drawn).goUnsure

theorem exec_ppsInEdge_unheard {s : State} (h : s.get F.MT_SRC_KIND ≠ 1 ∨ s.boot.pwrGood = false) (x : PpsEdge) :
    exec (.ppsInEdge x) s = .next s := by
  refine if_pos ?_
  obtain h | h := h
  · rw [decide_eq_true h, Bool.true_or]
  · rw [h, Bool.not_false, Bool.or_true]

section
variable {s : State} (hk : s.get F.MT_SRC_KIND = 1) (hp : s.boot.pwrGood = true)
include hk hp

theorem edge_not_unheard : ¬ (decide (s.get F.MT_SRC_KIND ≠ 1) || !s.boot.pwrGood) = true := by simp [hk, hp]

theorem exec_ppsInEdge_noTod (ht : s.servo.tod = none) (x : PpsEdge) :
    exec (.ppsInEdge x) s = .next ((s.noteClk x.clk).ppsUpdate (s.noteClk x.clk).edgeRef x.residual) := by
  have hu := (s.noteClk_tod x.clk).trans ht
  unfold State.noteClk at hu
  refine (if_neg (edge_not_unheard hk hp)).trans ?_
  dsimp only
  rw [hu]
  rfl

theorem exec_ppsInEdge_tod {v at_ : Nat} (ht : s.servo.tod = some (v, at_)) (x : PpsEdge) : exec (.ppsInEdge x) s =
    .next (if s.now < at_ + ns 1000000 then (s.noteClk x.clk).ppsUpdate (s.noteClk x.clk).edgeRef x.residual
      else (s.noteClk x.clk).todEdge v at_ x.residual) := by
  have hu := (s.noteClk_tod x.clk).trans ht
  have hn : (s.noteClk x.clk).now = s.now := congrArg Clock.emt (s.noteClk_clk x.clk)
  rw [← hn]
  unfold State.noteClk at hu
  refine (if_neg (edge_not_unheard hk hp)).trans ?_
  dsimp only
  rw [hu]
  unfold State.todEdge
  rw [apply_ite Host.Outcome.next, apply_ite Host.Outcome.next, apply_ite Host.Outcome.next]
  rfl

theorem exec_ppsInEdge_todDue {v at_ : Nat} (ht : s.servo.tod = some (v, at_)) (hn : at_ + ns 1000000 ≤ s.now) (x : PpsEdge) :
    exec (.ppsInEdge x) s = .next ((s.noteClk x.clk).todEdge v at_ x.residual) :=
  (exec_ppsInEdge_tod hk hp ht x).trans (congrArg _ (if_neg (Nat.not_lt.2 hn)))
end

theorem State.todEdge_unsure {s : State} (h : s.isUnsure = true) (v at_ residual : Nat) : s.todEdge v at_ residual =
    ((s.stepMt (wrapDiff (ns v : Nat) s.edgeRef)).todDone).ppsUpdate (ns v : Nat) residual := if_pos h

/-- A time of day that agrees with MT to within LIMIT is used up by the edge (R46). -/
theorem State.todEdge_near {s : State} (h : s.isUnsure = false) {v : Nat}
    (ho : (wrapDiff (ns v : Nat) s.edgeRef).natAbs ≤ ns (s.get F.MT_ACC_LIMIT)) (at_ residual : Nat) :
    s.todEdge v at_ residual = s.todDone.ppsUpdate s.edgeRef residual := (if_neg (Bool.eq_false_iff.1 h)).trans (if_pos ho)

/-- A time of day further from MT stays pending for the next edge, and the servo enters UNSURE (R46). -/
theorem State.todEdge_far {s : State} (h : s.isUnsure = false) {v : Nat}
    (ho : ¬ (wrapDiff (ns v : Nat) s.edgeRef).natAbs ≤ ns (s.get F.MT_ACC_LIMIT)) (at_ residual : Nat) : s.todEdge v at_ residual =
      let w := { s with servo := { s.servo with tod := some ((v + 1000000000) % 2 ^ 64, at_), lastGood := s.now } }
      ((w.setErr w.boundAbove).drawn).goUnsure := (if_neg (Bool.eq_false_iff.1 h)).trans (if_neg ho)

/-- Noting the clock input does not change how a time of day compares with MT. -/
theorem State.noteClk_near (s : State) (clk : Bool) (v : Nat) :
    (wrapDiff (ns v : Nat) (s.noteClk clk).edgeRef).natAbs ≤ ns ((s.noteClk clk).get F.MT_ACC_LIMIT) ↔
      (wrapDiff (ns v : Nat) s.edgeRef).natAbs ≤ ns (s.get F.MT_ACC_LIMIT) := by
  rw [s.noteClk_edgeRef, s.get_noteClk]

/-! ### TIME_PPS_OUT (R48) -/

theorem exec_ppsOutRise_now {s : State} (he : s.flag F.MT_PPS_OUT_EN = true) (hn : s.ppsNow = true)
    (hm : Tab.get 0 s.marks markPps ≠ s.ppsCount) : exec .ppsOutRise s =
      .next { s with marks := s.marks.insert markPps s.ppsCount,
                     pins := { s.pins with ppsOut := some (s.now + ns (s.get F.MT_PPS_OUT_WIDTH * 1000)) } } :=
  if_pos (by rw [he, hn, bne_iff_ne.2 hm]; rfl)

theorem exec_ppsOutRise_not {s : State} (h : s.flag F.MT_PPS_OUT_EN = false ∨ s.ppsNow = false ∨ Tab.get 0 s.marks markPps = s.ppsCount) :
    exec .ppsOutRise s = .next s := by
  refine if_neg ?_
  obtain h | h | h := h <;> simp [h]

/-- Settles O15: an edge that is heard is an update, or settles the time of day that is pending; the output rises once per second. -/
theorem referenceEdgesAndPpsOutput : Obligations.ReferenceEdgesAndPpsOutput := by
  unfold Obligations.ReferenceEdgesAndPpsOutput
  refine ⟨fun r c s hk hp ht => exec_ppsInEdge_noTod hk hp ht ⟨r, c⟩, fun r v a c s hk hp ht hn => ?_,
    fun r v a c s hk hp ht hn hu => ?_, fun r v a c s hk hp ht hn hu ho => ?_, fun r v a c s hk hp ht hn hu ho => ?_,
    fun r c s h => exec_ppsInEdge_unheard h ⟨r, c⟩, fun s he hn hm => exec_ppsOutRise_now he (decide_eq_true hn) hm,
    fun s h => exec_ppsOutRise_not h⟩
  · exact (exec_ppsInEdge_tod hk hp ht ⟨r, c⟩).trans (congrArg _ (if_pos hn))
  · rw [exec_ppsInEdge_todDue hk hp ht hn, State.todEdge_unsure ((s.noteClk_isUnsure c).trans hu)]
    rfl
  · rw [exec_ppsInEdge_todDue hk hp ht hn, State.todEdge_near ((s.noteClk_isUnsure c).trans hu) ((s.noteClk_near c v).2 ho)]
    rfl
  · have hfar := mt (s.noteClk_near c v).1 (Nat.not_le.2 ho)
    rw [exec_ppsInEdge_todDue hk hp ht hn, State.todEdge_far ((s.noteClk_isUnsure c).trans hu) hfar]
    rfl

/-! ### PTM (R47) -/

theorem exec_ptmDialog_due {s : State} (hk : s.get F.MT_SRC_KIND = 2) (hd : s.due markPtm (2 ^ s.get F.MT_SYNC_PTM_K) = true) :
    exec .ptmDialog s =
      let m := s.mark markPtm (2 ^ s.get F.MT_SYNC_PTM_K)
      if m.ptmReady (s.get F.MT_SRC_PTM_PORT) then
        let u := if m.servo.ptmOut then m.ptmFailed else m
        .next ({ u with servo := { u.servo with ptmOut := true } }.emit (.ptmRequest (s.get F.MT_SRC_PTM_PORT)))
      else .next m.loseSource :=
  if_pos (by rw [hk, hd]; rfl)

/-- A response to a dialog that is out (R45, R47). -/
theorem exec_ptmResponseRx_out {s : State} (hk : s.get F.MT_SRC_KIND = 2) (ho : s.servo.ptmOut = true) (ok : Bool) (t residual : Nat) :
    exec (.ptmResponseRx ok t residual) s =
      if ok then
        let u := State.set { s with servo := { s.servo with ptmOut := false, ptmFails := 0 } } F.MT_STAT_HOPS 0
        .next (u.update (wrapDiff s.clk.mt (ns ((t + 2 ^ 64 - s.get F.MT_PTM_OFS_NS) % 2 ^ 64))) (s.get F.MT_REF_ERR_PTM_ERR + 2 + residual) true)
      else .next s.ptmFailed :=
  if_pos (by rw [hk, ho]; rfl)

/-! ### TIME requests and frames (R128) -/

theorem exec_timeRequestDue {p : Fin 1024} {s : State} (ht : s.hasTime p = true)
    (hd : s.due (markTime p) (2 ^ s.get F.MT_SYNC_TIME_K) = true) : exec (.timeRequestDue p) s =
      .next ((s.mark (markTime p) (2 ^ s.get F.MT_SYNC_TIME_K)).modXfer p fun x => { x with reqDue := true }) :=
  if_pos (by rw [ht, hd]; rfl)

/-- A TIME frame with good CRC: what becomes of it is settled by its lane and its port. -/
theorem exec_timeFrameRx {p : Fin 1024} {k : Fin 8} {hd rest : List Byte} {h : FrameHead} {c : TimeCell}
    (hf : frameOf (hd ++ rest) = some (.time h c)) (residual : Nat) (s : State) : exec (.timeFrameRx p k hd rest residual) s =
      let t := (s.heard p k).notFence p
      if !s.hears p k then .next t else if t.accepts p then .next (t.timeHeard p h c residual) else .next (t.applyAlways p h) := by
  change execTimeFrameRx p k hd rest residual s = _
  unfold execTimeFrameRx
  rw [hf]

/-- A port that carries no TIME frames takes the header alone. -/
theorem State.timeHeard_eq (s : State) (p : Nat) (h : FrameHead) (c : TimeCell) (residual : Nat) : s.timeHeard p h c residual =
    let u := s.applyHead p h h.sack 16
    if u.hasTime p then if c.response then u.timeResponse p c else u.timeRequest p c residual else u := by
  unfold State.timeHeard
  generalize s.applyHead p h h.sack 16 = u
  cases ht : u.hasTime p with
  | false => simp only [ht, Bool.not_false, Bool.false_eq_true, if_true, if_false]
  | true => simp only [ht, Bool.not_true, Bool.false_eq_true, if_true, if_false]

/-- Settles O16: a dialog and a response by what the port and the dialog are, a request by its period, a frame by its lane and port. -/
theorem ptmDialogsAndTimeFrames : Obligations.PtmDialogsAndTimeFrames := by
  unfold Obligations.PtmDialogsAndTimeFrames
  refine ⟨fun s hk hd hr => ?_, fun s hk hd hr => ?_, fun t r s hk ho => exec_ptmResponseRx_out hk ho true t r,
    fun t r s hk ho => exec_ptmResponseRx_out hk ho false t r, fun p s ht hd => exec_timeRequestDue ht hd,
    fun p k hd rest h c r s hf hh ha => ?_, fun p k hd rest h c r s hf hh => ?_, fun p k hd rest h c r s hf hh ha => ?_⟩
  · exact (exec_ptmDialog_due hk hd).trans (if_pos hr)
  · exact (exec_ptmDialog_due hk hd).trans (if_neg (Bool.eq_false_iff.1 hr))
  · rw [exec_timeFrameRx hf, hh]
    exact (if_pos ha).trans (congrArg _ (State.timeHeard_eq _ p h c r))
  · rw [exec_timeFrameRx hf, hh]
    rfl
  · rw [exec_timeFrameRx hf, hh]
    exact if_neg (Bool.eq_false_iff.1 ha)

end Sys2Proof.Machine

/-!
Alarms and the arming of pages (R66 to R72, R227, R600 to R603).
-/
namespace Sys2Proof.Machine
open Sys2Proof

/-! ### Alarm slots (R66 to R72) -/

theorem State.slotDue_iff (s : State) (n : Nat) :
    s.slotDue n = true ↔ s.flag F.MT_ALM_CTL_EN 0 n = true ∧ ns (s.get F.MT_ALM_TIME_NS 0 n) ≤ s.clk.mt := by
  simp only [State.slotDue, Bool.and_eq_true, decide_eq_true_eq]

/-- R68, R602: a slot fires late more than LIMIT after its instant, or where its instant was past when it was taken. -/
theorem State.slotLate_iff (s : State) (n : Nat) :
    s.slotLate n = true ↔ ns (s.get F.MT_ALM_TIME_NS 0 n + s.get F.MT_ACC_LIMIT) < s.clk.mt ∨ n ∈ s.rf.past := by
  simp only [State.slotLate, Bool.or_eq_true, decide_eq_true_eq, List.contains_iff_mem]

theorem State.fireDue_idle {s : State} {n : Nat} (h : ¬ s.slotDue n = true) : s.fireDue n = s := if_neg h

theorem State.fireDue_capturing {s : State} {n : Nat} (h : s.slotDue n = true) (hc : s.captures n = true) : s.fireDue n = s.fireCaptures :=
  (if_pos h).trans (if_pos hc)

theorem State.fireDue_other {s : State} {n : Nat} (h : s.slotDue n = true) (hc : s.captures n = false) :
    s.fireDue n = s.fireCaptures.fireSlot n := (if_pos h).trans (if_neg (Bool.eq_false_iff.1 hc))

theorem exec_alarmFire (n : Fin 64) (s : State) : exec (.alarmFire n) s = .next (s.fireDue n) := rfl

/-- What a firing slot does, by whether it fires late. -/
theorem State.fireSlot_eq {s : State} {n : Nat} {late : Bool} (h : s.slotLate n = late) : s.fireSlot n =
    ((((if late then ((s.event F.MT_ALM_STAT_BITS n).event F.MT_ALM_LATE_BITS n).raise E.MT_ALARM_LATE
      else s.event F.MT_ALM_STAT_BITS n).raiseIf (s.flag F.MT_ALM_CTL_INT 0 n) E.MT_ALARM).rearm n (s.get F.MT_ALM_TIME_NS 0 n) late).alarmAction n
      (s.get F.MT_ALM_CTL_ACTION 0 n) (s.get F.MT_ALM_CTL_ARG 0 n) (s.get F.MT_ALM_TIME_NS 0 n) late) := by
  subst h
  rfl

/-! ### Arming a page (R69, R602) -/

/-- EPOCH_AT of a page set to the instant `t`, the page in no slot: its slot has fired first where it was due (R602, R603). -/
def State.epochSet (s : State) (cls i t : Nat) : State := ((s.fireArmed (pageNo cls i)).set (F.EPOCH_AT_NS.of cls) t i).disarm (pageNo cls i)

/-- A page armed in the slot found for its instant `t`, a new one or one that holds the instant already; ALM_EXHAUSTED where none is (R69). -/
def State.armIn (s : State) (page t : Nat) : Option (Nat × Bool) → State
  | none => s.raise E.MT_ALM_EXHAUSTED
  | some (n, new) =>
    let u := if new then s.takeSlot n t else s
    let u := { u with rf := { u.rf with armed := Tab.insert u.rf.armed page n } }
    u.hw F.MT_ALM_CTL_ARG (u.pagesIn n).length 0 n

section
variable {cls : Fin 31} {i : Fin 1024} (hc : shadowClass cls = true) (hi : implemented cls i = true)
include hc hi

theorem shadow_and_implemented : (shadowClass cls && implemented cls i) = true := by rw [hc, hi]; rfl

theorem exec_epochAtWrite (t : Nat) (s : State) : exec (.epochAtWrite cls i t) s =
    .next ((s.epochSet cls i (t % 2 ^ 64)).armIn (pageNo cls i) (t % 2 ^ 64) ((s.epochSet cls i (t % 2 ^ 64)).slotFor (t % 2 ^ 64))) := by
  refine (if_pos (shadow_and_implemented hc hi)).trans ?_
  unfold State.epochSet
  dsimp only
  split
  · next h => rw [h]; rfl
  · next h => rw [h]; rfl

/-! ### The shadow commands (R600, R601, R603) -/

theorem exec_shadowCommit {s : State} (hp : s.capturePending (pageNo cls i) = false) (hs : s.swappedNow (pageNo cls i) = false) :
    exec (.shadowCommit cls i) s = .next ((s.disarm (pageNo cls i)).capture (pageNo cls i)) :=
  if_pos (by rw [shadow_and_implemented hc hi, hp, hs]; rfl)

theorem exec_shadowDiscard (s : State) : exec (.shadowDiscard cls i) s =
    .next (if cls.val = 14 then (s.discardShadow cls i).copyBank i else s.discardShadow cls i) := if_pos (shadow_and_implemented hc hi)
end

/-- R227: the retired bank leaves its hold once HOLD has passed. -/
theorem exec_holdEnd {t : Fin 72} {s : State} (hh : s.flag F.RTE_STAT_HOLD t = true)
    (ho : s.over (Tab.get 0 s.rte.holdAt t) (16 * s.get F.RTE_EPOCH_CFG_HOLD t) 16 = true) :
    exec (.holdEnd t) s = .next (s.set F.RTE_STAT_HOLD 0 t) := if_pos (by rw [hh, ho]; rfl)

/-- Settles O17: a page's write by the slot that its instant finds, an alarm by whether its slot is due, captures, and is late. -/
theorem armingAndAlarmCommands : Obligations.ArmingAndAlarmCommands := by
  unfold Obligations.ArmingAndAlarmCommands
  refine ⟨fun cls i t s hc hi h => ?_, fun cls i t n new s hc hi h => ?_,
    fun cls i s hc hi hp hs => exec_shadowCommit hc hi hp hs, fun cls i s hc hi h => ?_, fun cls i s hc hi h => ?_,
    fun cls i s => rfl, fun s page => rfl, fun t s hh ho => exec_holdEnd hh ho, fun n s h => ?_, fun n s hd hc => ?_, fun n s hd hc => ?_,
    fun n s ht hp => ?_, fun n s h => ?_⟩
  · exact (exec_epochAtWrite hc hi t s).trans (congrArg (Host.Outcome.next <| State.armIn _ _ _ ·) h)
  · exact (exec_epochAtWrite hc hi t s).trans (congrArg (Host.Outcome.next <| State.armIn _ _ _ ·) h)
  · exact (exec_shadowDiscard hc hi s).trans (congrArg _ (if_neg h))
  · exact (exec_shadowDiscard hc hi s).trans (congrArg _ (if_pos h))
  · rw [exec_alarmFire, State.fireDue_idle (mt (s.slotDue_iff n).1 h)]
  · exact (exec_alarmFire n s).trans (congrArg _ (State.fireDue_capturing hd hc))
  · exact (exec_alarmFire n s).trans (congrArg _ (State.fireDue_other hd hc))
  · have hlate : ¬ s.slotLate n = true := fun h => ((s.slotLate_iff n).1 h).elim (Nat.not_lt.2 ht) hp
    rw [State.fireSlot_eq (Bool.eq_false_iff.2 hlate), if_neg Bool.false_ne_true]
  · rw [State.fireSlot_eq ((s.slotLate_iff n).2 h), if_pos rfl]

end Sys2Proof.Machine

/-!
Optical engines and their laser modules (R80 to R85, R737): each command by the case of its guard.
-/
namespace Sys2Proof.Machine
open Sys2Proof

/-! ### Reach (R80) -/

theorem exec_optReachWrite_change {e : Fin 16} {reach : Fin 2} {s : State} (h : s.get F.OPT_CTL_REACH e ≠ reach) :
    exec (.optReachWrite e reach) s =
      if (s.portsOn (lanesOfOpt e)).isEmpty then .next (s.set F.OPT_CTL_REACH reach e)
      else .next ((s.event F.OPT_STAT_REACH_REJ 0 e).raise E.OPT_REACH_REJ e) := if_neg h

/-! ### Feed power (R82, R84) -/

/-- R82: power that falls below the warning level is loaded, and FEED_LOW is raised over it. -/
theorem State.feedPower_fell {s : State} {e f pwr : Nat} (hlow : signedOf (pwr % 2 ^ 16) 16 < s.sget F.OPT_CTL_FEED_LOW e)
    (hnew : (s.optic e).low.contains f = false) : ∃ u : State, s.feedPower e f pwr = u.raise E.OPT_FEED_LOW e ∧
      u.rf = s.rf.set F.OPT_FEED_PWR pwr e f 0 ∧ u.ports = s.ports ∧ u.mem = s.mem := by
  have hfell : (decide (signedOf (pwr % 2 ^ 16) 16 < s.sget F.OPT_CTL_FEED_LOW e) && !(s.optic e).low.contains f) = true := by
    rw [decide_eq_true hlow, hnew]
    rfl
  unfold State.feedPower State.raiseIf
  dsimp only
  rw [if_pos hfell]
  exact ⟨_, rfl, rfl, rfl, rfl⟩

theorem exec_feedLow (e : Fin 16) (f : Fin 8) (pwr : Nat) (s : State) : exec (.feedLow e f pwr) s = .next (s.feedPower e f pwr) := rfl

/-- A feed below FEED_MIN since `at_`, for 1 us, and not yet reported lost (R82; log entry 147). -/
theorem exec_feedLost_due {e : Fin 16} {f : Fin 8} {k at_ : Nat} {s : State}
    (hb : (s.optic e).below.find? (·.1 == f.val) = some (k, at_)) (ht : at_ + ns 1000 ≤ s.now)
    (hl : (s.optic e).lost.contains f.val = false) : exec (.feedLost e f) s =
      .next ((State.darken ((s.modOpt e fun x => { x with lost := x.lost ++ [f.val] }).setBit F.OPT_STAT_FEED_OK f false e)
        (lanesOfFeed e f)).raise E.OPT_FEED_LOST e) := by
  change execFeedLost e f s = _
  unfold execFeedLost
  rw [hb]
  exact if_pos ⟨ht, by rw [hl]; rfl⟩

/-- A feed above the warning level since `at_`, for 10 ms, that FEED_OK does not show yet (R84). -/
theorem exec_feedQualified_due {e : Fin 16} {f : Fin 8} {pwr k at_ : Nat} {s : State}
    (ha : ((s.feedPower e f pwr).optic e).above.find? (·.1 == f.val) = some (k, at_))
    (ht : at_ + ns 10000000 ≤ (s.feedPower e f pwr).now) (hok : (s.feedPower e f pwr).getBit F.OPT_STAT_FEED_OK f e = false)
    (hp : ((s.feedPower e f pwr).optic e).prsnt = true) : exec (.feedQualified e f pwr) s =
      .next (State.each ((s.feedPower e f pwr).portsOn (lanesOfFeed e f)) State.litAgain
        ((s.feedPower e f pwr).setBit F.OPT_STAT_FEED_OK f true e)) := by
  change execFeedQualified e f pwr s = _
  unfold execFeedQualified
  dsimp only
  rw [ha]
  exact if_pos (by rw [decide_eq_true ht, hok, hp]; rfl)

/-! ### Laser modules (R83 to R85, R737) -/

theorem exec_lsrcInserted_absent {e : Fin 16} {s : State} (h : (s.optic e).prsnt = false) : exec (.lsrcInserted e) s =
    .next ((s.modOpt e fun x => { x with prsnt := true, prsntAt := s.now }).set F.OPT_STAT_LSRC_PRSNT 1 e) :=
  if_pos (by rw [h]; rfl)

theorem exec_lsrcInserted_settled {e : Fin 16} {s : State} (hp : (s.optic e).prsnt = true) (hi : (s.optic e).inserted = false)
    (ht : (s.optic e).prsntAt + ns 50000000 ≤ s.now) : exec (.lsrcInserted e) s =
      .next ((s.modOpt e fun x => { x with inserted := true }).raise E.OPT_LSRC_INSERTED e) :=
  (if_neg (by rw [hp]; decide)).trans (if_pos (by rw [hi, decide_eq_true ht]; rfl))

/-- The instant of the next poll of a module: 100 ms after its insertion, thus 150 ms after it is seen, then each second (R84, R737). -/
def State.pollAt (s : State) (e : Nat) : Nat :=
  if Tab.get 0 s.marks (markLsrc e) < (s.optic e).prsntAt + ns 150000000 then (s.optic e).prsntAt + ns 150000000
  else Tab.get 0 s.marks (markLsrc e) + ns 1000000000

theorem exec_lsrcBusPoll_due {e : Fin 16} {s : State} (hi : (s.optic e).inserted = true) (ht : s.pollAt e ≤ s.now) (ok : Bool) (id : Nat)
    (ready : Bool) : exec (.lsrcBusPoll e ok id ready) s =
      let u := { s with marks := s.marks.insert (markLsrc e) s.now }
      if ok then .next (((u.set F.OPT_LSRC_ID id e).setFlag F.OPT_LSRC_READY ready e).set F.OPT_LSRC_VALID 1 e)
      else .next ((u.event F.OPT_LSRC_BUS_ERR 0 e).set F.OPT_LSRC_VALID 0 e) := by
  unfold State.pollAt at ht
  exact if_pos (by rw [hi, decide_eq_true ht]; rfl)

/-! ### Monitors (R85) -/

theorem exec_monitorRefresh_due {l : Fin 1024} {s : State} (h : s.due (markMonitor l) (2 ^ 20) = true) (rx bias temp feed : Nat) :
    exec (.monitorRefresh l rx bias temp feed) s =
      .next ((((s.mark (markMonitor l) (2 ^ 20)).set F.LANE_MON_RX_PWR rx l).set F.LANE_MON_MOD_BIAS bias l).set F.LANE_MON_TEMP temp l
        |>.set F.OPT_FEED_PWR feed (l.val / 64) (l.val % 64 / 8)) := if_pos h

/-- Settles O19: every command is the case of its guard that the premises choose; FEED_LOW is the feed power's own case. -/
theorem opticsCommands : Obligations.OpticsCommands := by
  unfold Obligations.OpticsCommands
  refine ⟨fun e reach s hr hp => ?_, fun e reach s hr hp => ?_, exec_feedLow, fun e f pwr s hlow hnew => ?_,
    fun e f k at_ s hb ht hl => exec_feedLost_due hb ht hl, fun e s => rfl, fun e s hp => exec_lsrcInserted_absent hp,
    fun e s hp hi ht => exec_lsrcInserted_settled hp hi ht, fun e f pwr k at_ s ha ht hok hp => exec_feedQualified_due ha ht hok hp,
    fun l rx bias temp feed s h => exec_monitorRefresh_due h rx bias temp feed,
    fun e id ready s hi ht => exec_lsrcBusPoll_due hi ht true id ready⟩
  · exact (exec_optReachWrite_change hr).trans (if_pos hp)
  · exact (exec_optReachWrite_change hr).trans (if_neg (Bool.eq_false_iff.1 hp))
  · obtain ⟨u, hu, hrf, hports, hmem⟩ := State.feedPower_fell hlow hnew
    exact ⟨_, exec_feedLow e f pwr s, ⟨u, hu, hrf⟩, by rw [hu, State.raise_ports, hports], by rw [hu, State.raise_mem, hmem]⟩

end Sys2Proof.Machine

/-!
Enabling a port and its bring-up (R79, R87 to R94): each command by the case of its guard.
-/
namespace Sys2Proof.Machine
open Sys2Proof

/-- What a port's record holds after an update of it. -/
@[simp] theorem State.port_modPort (s : State) (p : Nat) (g : PortSt → PortSt) : (s.modPort p g).port p = g (s.port p) :=
  Tab.get_modify_same _ _ _ _

/-! ### PORT_CTL (R87) -/

theorem exec_portEnable (p : Fin 1024) (v : Nat) (s : State) : exec (.portEnable p v) s =
    if (s.setModes p v).flag F.PORT_CTL_EN p then
      .next (((s.setModes p v).raiseIf ((s.setModes p v).formChanges p v) E.PORT_FORM_ERR p).autoWiden p)
    else .next (((s.setModes p v).setForm p v).enablePort p) := rfl

theorem exec_portDisable (p : Fin 1024) (v : Nat) (s : State) : exec (.portDisable p v) s =
    if (s.setModes p v).flag F.PORT_CTL_EN p then
      .next (((s.setModes p v).raiseIf ((s.setModes p v).formChanges p v) E.PORT_FORM_ERR p).disablePort p)
    else .next ((s.setModes p v).setForm p v) := rfl

/-! ### The lock of a lane (R90) -/

/-- A lane that found lock in training: LOCK shown, with its count of good frames and its loss forgotten. -/
def State.laneLocked (s : State) (l : Nat) : State := (s.set F.LANE_STAT_LOCK 1 l).modLane l fun x => { x with good := 0, loss := none }

/-- A live word found for a lane without valid equalisation (R90; log entry 146). -/
def State.equalised (s : State) (l : Nat) : State := if s.flag F.LANE_EQ_VALID l then s else (s.set F.LANE_EQ_LIVE_LIVE s.peek l).drawn

theorem State.equalised_valid {s : State} {l : Nat} (h : s.flag F.LANE_EQ_VALID l = true) : s.equalised l = s := if_pos h

theorem State.equalised_invalid {s : State} {l : Nat} (h : s.flag F.LANE_EQ_VALID l = false) :
    s.equalised l = (s.set F.LANE_EQ_LIVE_LIVE s.peek l).drawn := if_neg (Bool.eq_false_iff.1 h)

theorem exec_laneSymbolLock_active {l : Fin 1024} {p : Nat} {s : State} (ho : s.owner l = some p)
    (hst : s.get F.PORT_STAT_STATE p = stActive) : exec (.laneSymbolLock l) s =
      .next ((s.modLane l fun x => { x with relock := some s.now }).set F.LANE_STAT_LOCK 1 l) := by
  change execLaneSymbolLock l s = _
  unfold execLaneSymbolLock
  rw [ho]
  exact if_pos hst

/-- In bring-up a lane's lock shows its equalisation, and the first of a port is noted (R90). -/
theorem exec_laneSymbolLock_bringup {l : Fin 1024} {p : Nat} {s : State} (ho : s.owner l = some p)
    (hst : s.get F.PORT_STAT_STATE p = stBringup) (hm : s.mayLock p l = true) : exec (.laneSymbolLock l) s =
      .next (((s.laneLocked l).equalised l).modPort p fun x =>
        { x with firstLock := x.firstLock <|> some ((s.laneLocked l).equalised l).now }) := by
  have hactive : ¬ s.get F.PORT_STAT_STATE p = stActive := by
    rw [hst]
    decide
  have hon : s.get F.PORT_STAT_STATE p ≠ stDisabled := by
    rw [hst]
    decide
  change execLaneSymbolLock l s = _
  unfold execLaneSymbolLock
  rw [ho]
  exact (if_neg hactive).trans (if_pos ⟨hon, hm⟩)

/-! ### The course of BRINGUP (R90, R94) -/

theorem exec_bringupDone_waited {p : Fin 1024} {at_ : Nat} {s : State} (hf : (s.port p).firstLock = some at_)
    (hst : s.get F.PORT_STAT_STATE p = stBringup) (hr : (s.port p).restartAt = none) (hc : (s.port p).awaitCap = false)
    (hb : bestBlock (s.healthyMask p) ≠ 0) (ht : at_ + ns 1000000 ≤ s.now) : exec (.bringupDone p) s = .next (s.portTo p stCapx) := by
  change execBringupDone p s = _
  unfold execBringupDone
  dsimp only
  rw [hf]
  exact if_pos ⟨hst, hr, hc, hb, .inr ht⟩

theorem exec_bringupTimeout_due {p : Fin 1024} {s : State} (hst : s.get F.PORT_STAT_STATE p = stBringup) (hm : s.healthyMask p = 0)
    (ht : (s.port p).start + ns 200000000 ≤ s.now) : exec (.bringupTimeout p) s =
      .next ((s.raise E.PORT_TRAIN_FAIL p).modPort p fun x => { x with start := s.now }) :=
  if_pos ⟨hst, hm, ht⟩

theorem exec_bringupRateAlternate_due {p : Fin 1024} {s : State} (hst : s.get F.PORT_STAT_STATE p = stBringup)
    (hc : s.flag F.PORT_CTL_COMPAT_EN p = true) (hm : s.lockedMask p = 0) (ht : (s.port p).rateAt + ns 5000000 ≤ s.now) :
    exec (.bringupRateAlternate p) s = .next (s.modPort p fun x => { x with slow := !x.slow, rateAt := s.now }) :=
  if_pos ⟨hst, hc, hm, ht⟩

theorem exec_frameLock_both {p : Fin 1024} {s : State} (hf : s.frameLocked p = true) (hg : (s.port p).gotLocked = true) :
    exec (.frameLock p) s = .next (s.portUp p) := if_pos (by rw [hf, hg]; rfl)

/-! ### New nonces and restarts (R92 to R94) -/

/-- A new nonce drawn for a port; outside ACTIVE the peer's is forgotten as well. -/
def State.redrawNonce (s : State) (p : Nat) : State :=
  ((s.set F.PORT_NONCE_LOCAL s.peek p).drawn).modPort p fun x =>
    { x with redrawAt := none, peerNonce := if s.active p then x.peerNonce else none }

theorem State.redrawNonce_widthReq (s : State) (p : Nat) : ((s.redrawNonce p).port p).widthReq = (s.port p).widthReq := by
  unfold State.redrawNonce
  rw [State.port_modPort]
  rfl

theorem exec_nonceRedraw_training {p : Fin 1024} {at_ : Nat} {s : State} (hr : (s.port p).redrawAt = some at_) (ht : at_ ≤ s.now)
    (hw : (s.port p).widthReq = none) : exec (.nonceRedraw p) s =
      .next ((s.redrawNonce p).sendCaps p ((s.redrawNonce p).lockedMask p) 0 0 false 0) := by
  have hw' := (s.redrawNonce_widthReq p).trans hw
  unfold State.redrawNonce at hw'
  change execNonceRedraw p s = _
  unfold execNonceRedraw
  rw [hr]
  refine (if_pos ht).trans ?_
  dsimp only
  rw [hw']
  rfl

theorem exec_trainRestart_due {p : Fin 1024} {at_ : Nat} {s : State} (hr : (s.port p).restartAt = some at_) (ht : at_ ≤ s.now)
    (hst : s.get F.PORT_STAT_STATE p = stBringup) : exec (.trainRestart p) s = .next (s.enterBringup p (s.port p).retrain 0 false) := by
  change execTrainRestart p s = _
  unfold execTrainRestart
  rw [hr]
  exact if_pos (by rw [decide_eq_true ht, hst]; rfl)

/-- Settles O20: every command is the case of its guard that the premises choose, a lane's lock by the state of its port. -/
theorem portBringupCommands : Obligations.PortBringupCommands := by
  unfold Obligations.PortBringupCommands
  refine ⟨fun p v s _ hen => ?_, fun p v s hen => ?_, fun p v s hen => ?_, fun p v s hen => ?_,
    fun l p s ho hst => exec_laneSymbolLock_active ho hst, fun l p s ho hst hm hv => ?_, fun l p s ho hst hm hv => ?_,
    fun p at_ s hf hst hr hc hb ht => exec_bringupDone_waited hf hst hr hc hb ht, fun p s hst hm ht => exec_bringupTimeout_due hst hm ht,
    fun p s hst hc hm ht => exec_bringupRateAlternate_due hst hc hm ht, fun p s hf hg => exec_frameLock_both hf hg,
    fun p at_ s hr ht hw => exec_nonceRedraw_training hr ht hw, fun p at_ s hr ht hst => exec_trainRestart_due hr ht hst⟩
  · exact (exec_portEnable p v s).trans (if_neg (Bool.eq_false_iff.1 hen))
  · exact (exec_portEnable p v s).trans (if_pos hen)
  · exact (exec_portDisable p v s).trans (if_pos hen)
  · exact (exec_portDisable p v s).trans (if_neg (Bool.eq_false_iff.1 hen))
  · rw [exec_laneSymbolLock_bringup ho hst hm, State.equalised_valid (s := s.laneLocked l) hv]
    rfl
  · rw [exec_laneSymbolLock_bringup ho hst hm, State.equalised_invalid (s := s.laneLocked l) hv]
    rfl

end Sys2Proof.Machine

/-!
The capability exchange and requests for another width (R91 to R102): each command by the case of its guard.
-/
namespace Sys2Proof.Machine
open Sys2Proof

/-! ### CAP frames sent (R91, R96, R100) -/

/-- In the exchange the CAP frames name the agreed set that is echoed, and sending it may settle the agreement (R92). -/
theorem exec_capSend_training {p : Fin 1024} {s : State} (hst : s.get F.PORT_STAT_STATE p = stCapx ∨ s.get F.PORT_STAT_STATE p = stFrameLock)
    (hd : s.due (markCap p) 256 = true) : exec (.capSend p) s =
      .next (((State.sendCaps (s.mark (markCap p) 256) p (s.lockedMask p) 0 (s.port p).setTx (s.frameLocked p) 0).modPort p fun y =>
        { y with setSent := (s.port p).setTx }).tryAgree p) := if_pos ⟨hst, hd⟩

/-- A width request is sent again until it is answered (R100). -/
theorem exec_capSend_widthReq {p : Fin 1024} {prop : Nat} {wide : Bool} {s : State} (hst : s.get F.PORT_STAT_STATE p = stActive)
    (hd : s.due (markCap p) 64 = true) (hw : (s.port p).widthReq = some (prop, wide)) :
    exec (.capSend p) s = .next ((s.mark (markCap p) 64).sendCaps p prop 2 prop false 0) := by
  have htrain : ¬ ((s.get F.PORT_STAT_STATE p = stCapx ∨ s.get F.PORT_STAT_STATE p = stFrameLock) ∧ s.due (markCap p) 256 = true) := by
    rw [hst]
    exact fun h => absurd h.1 (by decide)
  refine (if_neg htrain).trans ((if_pos ⟨hst, hd⟩).trans ?_)
  dsimp only
  rw [hw]

/-! ### CAP frames received (R92, R97) -/

/-- A CAP frame on a lane that is delineated, outside the safe state (R641), is taken by the port. -/
theorem exec_capFrameRx_heard {p : Fin 1024} {k : Fin 8} {hd rest : List Byte} {h : FrameHead} {c : CapCell} {s : State}
    (hf : frameOf (hd ++ rest) = some (.cap h c)) (hl : (s.lane (s.base p + k)).delineated = true) (hs : s.safe = false) :
    exec (.capFrameRx p k hd rest) s = .next ((((s.goodFrame (s.base p + k)).notFence p).wakeSeen p k).capHeard p k h c) := by
  change execCapFrameRx p k hd rest s = _
  unfold execCapFrameRx
  rw [hf]
  exact if_pos (by rw [hl, hs]; rfl)

/-- What a CAP frame does before the port's state is consulted: its header taken where link state is kept, and the peer's nonce noted. -/
def State.capNoted (s : State) (p : Nat) (h : FrameHead) (c : CapCell) : State :=
  ((if s.keepsLink p then s.applyHead p h h.sack 16 else s).modPort p fun x => { x with awaitCap := false }).heardNonce p c

/-- A CAP frame heard in training: a changed nonce during a retrain is a link down, before all else (R97). -/
theorem State.capHeard_training {s : State} {p : Nat} (ha : s.get F.PORT_STAT_STATE p ≠ stActive) (hd : s.get F.PORT_STAT_STATE p ≠ stDisabled)
    (k : Nat) (h : FrameHead) (c : CapCell) : s.capHeard p k h c =
      if ((s.capNoted p h c).port p).retrain && ((s.capNoted p h c).port p).recNonce != some c.nonce then (s.capNoted p h c).linkDown p
      else if s.get F.PORT_STAT_STATE p = stCapx then (s.capNoted p h c).capExchange p k c
      else if s.get F.PORT_STAT_STATE p = stFrameLock then (s.capNoted p h c).capFrameLock p k c
      else s.capNoted p h c := (if_neg ha).trans (if_neg hd)

theorem State.capHeard_capx {s : State} {p : Nat} {h : FrameHead} {c : CapCell} (hst : s.get F.PORT_STAT_STATE p = stCapx)
    (hr : ((s.capNoted p h c).port p).retrain = false) (k : Nat) : s.capHeard p k h c = (s.capNoted p h c).capExchange p k c := by
  rw [State.capHeard_training (by rw [hst]; decide) (by rw [hst]; decide), hr, Bool.false_and, if_neg Bool.false_ne_true, if_pos hst]

theorem State.capHeard_frameLock_newNonce {s : State} {p : Nat} {h : FrameHead} {c : CapCell} (hst : s.get F.PORT_STAT_STATE p = stFrameLock)
    (hr : ((s.capNoted p h c).port p).retrain = true) (hn : ((s.capNoted p h c).port p).recNonce ≠ some c.nonce) (k : Nat) :
    s.capHeard p k h c = (s.capNoted p h c).linkDown p := by
  rw [State.capHeard_training (by rw [hst]; decide) (by rw [hst]; decide), hr, Bool.true_and, if_pos (bne_iff_ne.2 hn)]

/-! ### PORT_CMD (R94, R102) -/

/-- The block that PORT_CMD.RESTORE would widen to: the best of the lanes active or ready (R102). -/
def State.restoreBlock (s : State) (p : Nat) : Nat :=
  bestBlock (Nat.land (Nat.lor (s.port p).act (s.get F.PORT_STAT_READY p)) (s.fullMask p))

theorem exec_portRestore_wider {p : Fin 1024} {s : State} (ha : s.active p = true)
    (hw : laneCount (s.port p).act < laneCount (s.restoreBlock p)) : exec (.portRestore p) s = .next (s.askWidth p (s.restoreBlock p) true) :=
  if_pos (by rw [ha, Bool.true_and]; exact decide_eq_true hw)

/-- On an ACTIVE port a retrain waits for the port to wake where it is in a rung or waking. -/
theorem exec_portRetrain_active {p : Fin 1024} {s : State} (ha : s.active p = true) : exec (.portRetrain p) s =
    if s.get F.PORT_PWR_STAT_RUNG p != 0 || (s.port p).wake.isSome then .next ((s.wakePort p).modPort p fun x => { x with retrainDue := true })
    else .next (s.askRetrain p) := if_pos ha

/-- Settles O21: each clause is the case of the guard, or of the port's state as a CAP frame is heard, that its premises choose. -/
theorem capabilityExchangeCommands : Obligations.CapabilityExchangeCommands := by
  unfold Obligations.CapabilityExchangeCommands
  refine ⟨fun p s hst hd => exec_capSend_training (.inl hst) hd, fun p prop wide s hst hd hw => exec_capSend_widthReq hst hd hw,
    fun p k hd rest h c s hf hl hs => exec_capFrameRx_heard hf hl hs, fun p k h c s hst hr => State.capHeard_capx hst hr k,
    fun p k h c s hst hr hn => State.capHeard_frameLock_newNonce hst hr hn k, fun p s ha hw => exec_portRestore_wider ha hw,
    fun p s ha hr hw => ?_, fun p s ha hr => ?_⟩
  · rw [exec_portRetrain_active ha, hr, hw]
    rfl
  · rw [exec_portRetrain_active ha, bne_iff_ne.2 hr]
    rfl

end Sys2Proof.Machine

/-!
The loss of lanes and of links (R98 to R110): each command by the case of its guard.
-/
namespace Sys2Proof.Machine
open Sys2Proof

/-! ### Lanes of a port (R98, R99) -/

/-- A lane whose LOCK is cleared: its loss counted and reported, its loss timer started unless it runs (R98). -/
def State.laneUnlocked (s : State) (l : Nat) : State :=
  (((s.set F.LANE_STAT_LOCK 0 l).count 8 l 0x42).raise E.LANE_LOCK_LOSS l).modLane l fun x =>
    { x with loss := some ((s.lossStart l).getD s.now), relock := none }

/-- R767: in CAPX any locked lane that loses lock makes the ends agree anew. -/
theorem exec_symbolLockLoss_capx {l : Fin 1024} {p : Nat} {s : State} (ho : s.owner l = some p) (hk : s.flag F.LANE_STAT_LOCK l = true)
    (hr : s.get F.PORT_PWR_STAT_RUNG p = 0) (hst : s.get F.PORT_STAT_STATE p = stCapx) :
    exec (.symbolLockLoss l) s = .next ((s.laneUnlocked l).reagree p) := by
  change execSymbolLockLoss l s = _
  unfold execSymbolLockLoss
  rw [ho]
  exact (if_neg (by rw [hk, hr]; decide)).trans (if_pos (.inl hst))

theorem exec_laneLossExpiry_due {l : Fin 1024} {p at_ : Nat} {s : State} (ho : s.owner l = some p) (hl : s.lossStart l = some at_)
    (ha : s.active p = true) (hf : s.flag F.LANE_STAT_FAILED l = false)
    (ht : s.over at_ (16 * min (s.get F.PORT_TIMERS_LANE_LOSS p) (s.get F.PORT_TIMERS_LOCK_LOSS p)) 16 = true) :
    exec (.laneLossExpiry l) s = .next (s.failLane p l) := by
  change execLaneLossExpiry l s = _
  unfold execLaneLossExpiry
  rw [ho, hl]
  exact if_pos (by rw [ha, hf, ht]; rfl)

/-- The codewords of a window counted, and FEC_UNCORR raised where any was uncorrectable. -/
def State.codewordsCounted (s : State) (l corr uncorr : Nat) : State :=
  (((((s.mark (markUncorr l) (2 ^ 20)).inc F.LANE_FEC_CORR l (d := corr)).inc F.LANE_FEC_UNCORR l (d := uncorr)).count 8 l 0x40 corr).count 8 l
    0x41 uncorr).raiseIf (decide (0 < uncorr)) E.LANE_FEC_UNCORR l

theorem exec_uncorrWindow_unowned {l : Fin 1024} {corr uncorr : Nat} {s : State} (hd : s.due (markUncorr l) (2 ^ 20) = true)
    (ho : (s.codewordsCounted l corr uncorr).owner l = none) :
    exec (.uncorrWindow l corr uncorr) s = .next (s.codewordsCounted l corr uncorr) := by
  unfold State.codewordsCounted at ho
  refine (if_pos hd).trans ?_
  rw [ho]
  rfl

/-! ### Attempts of a lane out of use (R102) -/

section
variable {l : Fin 1024} {p : Nat} {s : State} (ho : s.owner l = some p) (ha : s.active p = true)
  (hact : bit (s.port p).act (s.idxOf p l) = false) (hready : s.getBit F.PORT_STAT_READY (s.idxOf p l) p = false)
  (hf : (s.lane l).fenced = false) (hlit : s.lit l = true) (hloop : s.get F.LANE_CTL_LOOPBACK l = 0) (hprbs : s.get F.LANE_CTL_PRBS l = 0)
  (ht : (s.lane l).attemptAt + ns 10000000 ≤ s.now)
include ho ha hact hready hf hlit hloop hprbs ht

/-- The attempt of a lane that is due one, by the lock and the index that it found. -/
theorem exec_laneRetryAttempt_due (locked : Bool) (idx : Fin 8) : exec (.laneRetryAttempt l locked idx) s =
    let t := s.modLane l fun x => { x with attemptAt := s.now, idxRx := if locked then some idx.val else none }
    let u := if locked then t.sendCaps p (2 ^ s.idxOf p l) 0 0 false 0 else t
    if !locked then .next u
    else if idx.val ≠ s.idxOf p l then .next (u.misorder l idx)
    else .next ((State.modLane (((u.set F.LANE_STAT_LOCK 1 l).set F.LANE_STAT_FAILED 0 l).setBit F.PORT_STAT_READY (s.idxOf p l) true p) l
      fun x => { x with misordered := false, loss := none, relock := none, good := 8, bad := 0, delineated := true }).autoWiden p) := by
  change execLaneRetryAttempt l locked idx s = _
  unfold execLaneRetryAttempt
  rw [ho]
  exact if_pos (by rw [ha, hact, hready, hf, hlit, hloop, hprbs, decide_eq_true ht]; rfl)
end

/-! ### The link down and its grace (R103, R106) -/

theorem exec_portDown (p : Fin 1024) (s : State) : exec (.portDown p) s = .next (s.linkDown p) := rfl

/-- An active lane has been out of lock for LOCK_LOSS (R103). -/
def State.laneGone (s : State) (p k : Nat) : Bool :=
  match s.lossStart (s.base p + k) with
  | some at_ => s.over at_ (16 * s.get F.PORT_TIMERS_LOCK_LOSS p) 16
  | none => false

theorem exec_lockLossExpiry_all {p : Fin 1024} {s : State} (ha : s.active p = true) (hr : s.get F.PORT_PWR_STAT_RUNG p = 0)
    (hg : (setBitsOf (s.port p).act 8).all (s.laneGone p) = true) : exec (.lockLossExpiry p) s = .next (s.linkDown p) :=
  if_pos (by rw [ha, hr]; exact hg)

theorem exec_graceExpiry_due {p : Fin 1024} {at_ : Nat} {s : State} (hg : (s.port p).grace = some at_) (ha : s.active p = false)
    (hf : s.flag F.PORT_STAT_FLUSHING p = false) (he : s.flag F.PORT_CTL_EN p = true)
    (ht : s.over at_ (16 * s.get F.PORT_TIMERS_GRACE p) 16 = true) : exec (.graceExpiry p) s =
      .next ((((s.sourcePortDown p).discardLink p).flushPort p).modPort p fun x => { x with retrain := false }) := by
  change execGraceExpiry p s = _
  unfold execGraceExpiry
  rw [hg]
  exact if_pos (by rw [ha, hf, he, ht]; rfl)

/-! ### Recalibration (R110, R111) -/

theorem exec_rcalStep_due {l : Fin 1024} {s : State} (he : s.flag F.LANE_CTL_RCAL_EN l = true) (ht : (s.lane l).rcalAt + ns (2 ^ 17) ≤ s.now)
    (live : Nat) (drifted : Bool) : exec (.rcalStep l live drifted) s =
      .next (((s.set F.LANE_EQ_LIVE_LIVE live l).modLane l fun x => { x with rcalAt := s.now }).raiseIf drifted E.LANE_RCAL_DRIFT l) :=
  if_pos (by rw [he, decide_eq_true ht]; rfl)

/-- Settles O22: each clause is the case of the guard that its premises choose; the three of an attempt are one lemma's cases. -/
theorem laneLossCommands : Obligations.LaneLossCommands := by
  unfold Obligations.LaneLossCommands
  refine ⟨fun l p s ho hk hr hst => exec_symbolLockLoss_capx ho hk hr hst,
    fun l p at_ s ho hl ha _ hf ht => exec_laneLossExpiry_due ho hl ha hf ht, fun l corr uncorr s hd ho => exec_uncorrWindow_unowned hd ho,
    fun l p idx s ho ha hact hready hf hlit hloop hprbs ht => ?_, fun l p idx s ho ha hact hready hf hlit hloop hprbs ht hidx => ?_,
    fun l p idx s ho ha hact hready hf hlit hloop hprbs ht hidx => ?_, exec_portDown,
    fun p s ha hr hg => exec_lockLossExpiry_all ha hr hg, fun p at_ s hg ha hf he ht => exec_graceExpiry_due hg ha hf he ht,
    fun l live drifted s he ht => exec_rcalStep_due he ht live drifted⟩
  · rw [exec_laneRetryAttempt_due ho ha hact hready hf hlit hloop hprbs ht]
    rfl
  · rw [exec_laneRetryAttempt_due ho ha hact hready hf hlit hloop hprbs ht]
    exact if_pos hidx
  · rw [exec_laneRetryAttempt_due ho ha hact hready hf hlit hloop hprbs ht]
    exact if_neg (not_not_intro hidx)

end Sys2Proof.Machine

/-!
Frames laid out and read back (R115, R118, R120, R126): a word as the row of its fields, the words of a cell, and the two ends of a frame.
-/
namespace Sys2Proof
open Machine

/-! ### Words as rows of fields -/

/-- Values side by side from bit 0 upward, each cut to its width. -/
def packed : List (Nat × Nat) → Nat
  | [] => 0
  | (v, w) :: l => v % 2 ^ w + 2 ^ w * packed l

/-- The lowest bit of the `i`-th value of a row. -/
def lowBit (l : List (Nat × Nat)) (i : Nat) : Nat := ((l.take i).map Prod.snd).sum

theorem bits_packed_first (v w r : Nat) : bits (v % 2 ^ w + 2 ^ w * r) 0 w = v % 2 ^ w := by
  rw [bits, Nat.pow_zero, Nat.div_one, Nat.add_mul_mod_self_left, Nat.mod_mod]

theorem bits_packed_next (v w r lo n : Nat) : bits (v % 2 ^ w + 2 ^ w * r) (w + lo) n = bits r lo n := by
  have hp : 0 < 2 ^ w := Nat.two_pow_pos w
  rw [bits, Nat.pow_add, ← Nat.div_div_eq_div_mul, Nat.add_mul_div_left _ _ hp, Nat.div_eq_of_lt (Nat.mod_lt _ hp), Nat.zero_add, bits]

/-- Each value of a row reads back from its own bits, cut to its width. -/
theorem bits_packed (l : List (Nat × Nat)) (i : Nat) :
    bits (packed l) (lowBit l i) (l.getD i (0, 0)).2 = (l.getD i (0, 0)).1 % 2 ^ (l.getD i (0, 0)).2 := by
  induction l generalizing i with
  | nil => exact Nat.mod_one _
  | cons x l ih =>
    cases i with
    | zero => exact bits_packed_first x.1 x.2 (packed l)
    | succ i => exact (bits_packed_next x.1 x.2 (packed l) (lowBit l i) _).trans (ih i)

theorem mod_of_fits {w v : Nat} (h : fits w v = true) : v % 2 ^ w = v := Nat.mod_eq_of_lt (of_decide_eq_true h)

/-- A value that fits its width reads back whole. -/
theorem bits_packed_of_fits (l : List (Nat × Nat)) (i : Nat) (h : fits (l.getD i (0, 0)).2 (l.getD i (0, 0)).1 = true) :
    bits (packed l) (lowBit l i) (l.getD i (0, 0)).2 = (l.getD i (0, 0)).1 :=
  (bits_packed l i).trans (mod_of_fits h)

/-- A flag in a field of one bit reads back. -/
theorem bit_packed (l : List (Nat × Nat)) (i : Nat) {b : Bool} (h : l.getD i (0, 0) = (b2n b, 1)) : bit (packed l) (lowBit l i) = b := by
  have hb : bits (packed l) (lowBit l i) 1 = b2n b % 2 ^ 1 := by
    have := bits_packed l i
    rwa [h] at this
  change (bits (packed l) (lowBit l i) 1 == 1) = b
  rw [hb]
  cases b <;> rfl

/-- A row is below the power of two of its total width. -/
theorem packed_lt (l : List (Nat × Nat)) : packed l < 2 ^ (l.map Prod.snd).sum := by
  induction l with
  | nil => exact Nat.one_pos
  | cons x l ih =>
    have hx : x.1 % 2 ^ x.2 < 2 ^ x.2 := Nat.mod_lt _ (Nat.two_pow_pos _)
    calc packed (x :: l) = x.1 % 2 ^ x.2 + 2 ^ x.2 * packed l := rfl
      _ < 2 ^ x.2 * (packed l + 1) := by rw [Nat.mul_add, Nat.mul_one]; omega
      _ ≤ 2 ^ x.2 * 2 ^ (l.map Prod.snd).sum := Nat.mul_le_mul_left _ ih
      _ = 2 ^ ((x :: l).map Prod.snd).sum := by rw [← Nat.pow_add]; rfl

theorem packed_mod (l : List (Nat × Nat)) {n : Nat} (h : ((l.map Prod.snd).sum).ble n = true) : packed l % 2 ^ n = packed l :=
  Nat.mod_eq_of_lt (Nat.lt_of_lt_of_le (packed_lt l) (Nat.pow_le_pow_right Nat.two_pos (Nat.le_of_ble_eq_true h)))

/-! ### The header and the trailer (Table 4.1) -/

/-- The fields of a header word, lowest first. -/
def FrameHead.row (h : FrameHead) (kind vc : Nat) (ep sop eop : Bool) : List (Nat × Nat) :=
  [(h.seq, 20), (kind, 3), (b2n ep, 1), (vc, 4), (b2n sop, 1), (b2n eop, 1), (b2n h.rtx, 1), (b2n h.nak, 1), (h.sack, 16), (h.crVc, 4),
    (h.cong, 12)]

/-- The fields of a trailer below its CRC. -/
def FrameHead.tailRow (h : FrameHead) : List (Nat × Nat) := [(h.cack, 20), (h.crCnt, 12)]

theorem FrameHead.word_mod (h : FrameHead) (kind vc : Nat) (ep sop eop : Bool) :
    h.word kind vc ep sop eop % 2 ^ 64 = packed (h.row kind vc ep sop eop) := by
  have he : h.word kind vc ep sop eop = packed (h.row kind vc ep sop eop) := by
    simp only [FrameHead.word, FrameHead.row, packed, field]
    omega
  rw [he, packed_mod _ rfl]

theorem FrameHead.tail_mod (h : FrameHead) : h.tail % 2 ^ 32 = packed h.tailRow := by
  have he : h.tail = packed h.tailRow := by
    simp only [FrameHead.tail, FrameHead.tailRow, packed, field]
    omega
  rw [he, packed_mod _ rfl]

/-- The header and trailer fields that were laid out are those that are read. -/
theorem headOf_laid {b : List Byte} {h : FrameHead} {kind vc : Nat} {ep sop eop : Bool}
    (hb : ofLeBytes (b.take 8) = packed (h.row kind vc ep sop eop)) (ht : ofLeBytes ((b.drop 264).take 4) = packed h.tailRow)
    (hw : h.wf = true) : headOf b = h := by
  simp only [FrameHead.wf, Bool.and_eq_true] at hw
  obtain ⟨⟨⟨⟨⟨hseq, hsack⟩, hcrVc⟩, hcrCnt⟩, hcong⟩, hcack⟩ := hw
  obtain ⟨seq, rtx, nak, sack, crVc, crCnt, cong, cack⟩ := h
  simp only [headOf, hb, ht, FrameHead.mk.injEq]
  exact ⟨bits_packed_of_fits _ 0 hseq, bit_packed _ 6 rfl, bit_packed _ 7 rfl, bits_packed_of_fits _ 8 hsack, bits_packed_of_fits _ 9 hcrVc,
    bits_packed_of_fits _ 1 hcrCnt, bits_packed_of_fits _ 10 hcong, bits_packed_of_fits _ 0 hcack⟩

/-! ### The words of a cell (R126) -/

theorem bytesOfWords_length (l : List Nat) : (bytesOfWords l).length = 8 * l.length := by
  induction l with
  | nil => rfl
  | cons x l ih =>
    have hc : bytesOfWords (x :: l) = leBytes 8 x ++ bytesOfWords l := rfl
    rw [hc, List.length_append, leBytes_length, ih, List.length_cons]
    omega

/-- The bytes of the `i`-th of some words. -/
theorem bytesOfWords_at (l : List Nat) {i x : Nat} (h : l[i]? = some x) : ((bytesOfWords l).drop (8 * i)).take 8 = leBytes 8 x := by
  induction l generalizing i with
  | nil => cases h
  | cons y l ih =>
    have hc : bytesOfWords (y :: l) = leBytes 8 y ++ bytesOfWords l := rfl
    cases i with
    | zero =>
      obtain rfl : y = x := Option.some.inj h
      exact List.take_left' (leBytes_length 8 y)
    | succ i =>
      have hd : (bytesOfWords (y :: l)).drop (8 * (i + 1)) = (bytesOfWords l).drop (8 * i) := by
        rw [hc, Nat.mul_succ, Nat.add_comm, ← List.drop_drop, List.drop_left' (leBytes_length 8 y)]
      rw [hd]
      exact ih h

theorem padCell_length (b : List Byte) : (padCell b).length = 256 := by
  rw [padCell, List.length_take, List.length_append, List.length_replicate]
  omega

theorem padCell_full {b : List Byte} (h : b.length = 256) : padCell b = b := by
  rw [padCell, h, Nat.sub_self, List.replicate_zero, List.append_nil, ← h, List.take_length]

/-- A word of a cell reads back from its place. -/
theorem padCell_word {l : List Nat} (hl : l.length ≤ 32) {i x : Nat} (h : l[i]? = some x) :
    ofLeBytes (((padCell (bytesOfWords l)).drop (8 * i)).take 8) = x % 2 ^ 64 := by
  have hi := (List.getElem?_eq_some_iff.1 h).1
  have hb := bytesOfWords_length l
  have hp : 256 ^ 8 = 2 ^ 64 := rfl
  rw [padCell, List.drop_take, List.take_take, Nat.min_eq_left (by omega), List.drop_append_of_le_length (by omega),
    List.take_append_of_le_length (by rw [List.length_drop]; omega), bytesOfWords_at l h, ofLeBytes_leBytes, hp]

/-! ### The CRC (R118) -/

theorem crc32Bit_lt {r : Nat} (h : r < 2 ^ 32) : crc32Bit r < 2 ^ 32 := by
  have hh : r / 2 < 2 ^ 32 := by omega
  unfold crc32Bit
  split
  · exact Nat.xor_lt_two_pow hh (by decide)
  · exact hh

theorem crc32Byte_lt {r : Nat} (h : r < 2 ^ 32) (b : Byte) : crc32Byte r b < 2 ^ 32 := by
  have hb : b.toNat < 2 ^ 32 := Nat.lt_of_lt_of_le b.isLt (by decide)
  have hx : Nat.xor r b.toNat < 2 ^ 32 := Nat.xor_lt_two_pow h hb
  unfold crc32Byte
  exact crc32Bit_lt (crc32Bit_lt (crc32Bit_lt (crc32Bit_lt (crc32Bit_lt (crc32Bit_lt (crc32Bit_lt (crc32Bit_lt hx)))))))

theorem crc32From_lt (l : List Byte) {r : Nat} (h : r < 2 ^ 32) : crc32From l r < 2 ^ 32 := by
  induction l generalizing r with
  | nil => exact h
  | cons b l ih =>
    cases r with
    | zero => exact ih (crc32Byte_lt h b)
    | succ r => exact ih (crc32Byte_lt h b)

theorem crc32_lt (l : List Byte) : crc32 l < 2 ^ 32 := Nat.xor_lt_two_pow (crc32From_lt l (by decide)) (by decide)

/-! ### The bytes of a frame (R115) -/

theorem Frame.cell_length (f : Frame) : f.parts.2.2.length = 256 := by
  cases f <;> exact padCell_length _

theorem Frame.body_length (f : Frame) : f.body.length = 268 := by
  simp only [Frame.body, List.length_append, leBytes_length, f.cell_length]

/-- A frame's CRC is good as it was laid out. -/
theorem Frame.goodCrc_bytes (f : Frame) : goodCrc f.bytes = true := by
  have hp : 256 ^ 4 = 2 ^ 32 := rfl
  unfold goodCrc Frame.bytes
  rw [List.drop_left' f.body_length, List.take_left' f.body_length, ofLeBytes_leBytes, hp, Nat.mod_eq_of_lt (crc32_lt _), List.length_append,
    f.body_length, leBytes_length]
  exact Bool.and_eq_true_iff.2 ⟨rfl, beq_self_eq_true _⟩

/-- The bytes of a frame in the order of its header, its cell and its trailer. -/
theorem Frame.bytes_eq (f : Frame) :
    f.bytes = leBytes 8 f.parts.1 ++ (f.parts.2.2 ++ (leBytes 4 f.parts.2.1 ++ leBytes 4 (crc32 f.body))) := by
  rw [Frame.bytes, Frame.body, List.append_assoc, List.append_assoc]

theorem Frame.header_bytes (f : Frame) : ofLeBytes (f.bytes.take 8) = f.parts.1 % 2 ^ 64 := by
  have hp : 256 ^ 8 = 2 ^ 64 := rfl
  rw [f.bytes_eq, List.take_left' (leBytes_length 8 _), ofLeBytes_leBytes, hp]

theorem Frame.cell_bytes (f : Frame) : (f.bytes.drop 8).take 256 = f.parts.2.2 := by
  rw [f.bytes_eq, List.drop_left' (leBytes_length 8 _), List.take_left' f.cell_length]

theorem Frame.trailer_bytes (f : Frame) : ofLeBytes ((f.bytes.drop 264).take 4) = f.parts.2.1 % 2 ^ 32 := by
  have hp : 256 ^ 4 = 2 ^ 32 := rfl
  have hd : f.bytes.drop 264 = (f.bytes.drop 8).drop 256 := by rw [List.drop_drop]
  rw [hd, f.bytes_eq, List.drop_left' (leBytes_length 8 _), List.drop_left' f.cell_length, List.take_left' (leBytes_length 4 _),
    ofLeBytes_leBytes, hp]

/-! ### The cells of control frames read back (Table 4.2) -/

/-- Words read as some words were laid out, each 64 bits of a cell. -/
def ReadsAs (w : Nat → Nat) (l : List Nat) : Prop := ∀ i x, l[i]? = some x → w i = x % 2 ^ 64

theorem ReadsAs.row {w : Nat → Nat} {l : List Nat} (h : ReadsAs w l) {i : Nat} {r : List (Nat × Nat)} (he : l[i]? = some (packed r))
    (hr : ((r.map Prod.snd).sum).ble 64 = true) : w i = packed r :=
  (h i _ he).trans (packed_mod r hr)

theorem ReadsAs.word {w : Nat → Nat} {l : List Nat} (h : ReadsAs w l) {i x : Nat} (he : l[i]? = some x) (hf : fits 64 x = true) : w i = x :=
  (h i x he).trans (mod_of_fits hf)

/-- The fields of an identity word, in the layout of PORT_PEER. -/
def identityRow (group device port : Nat) : List (Nat × Nat) := [(group, 11), (0, 5), (device, 7), (0, 9), (port, 10)]

theorem identityWord_eq (group device port : Nat) : identityWord group device port = packed (identityRow group device port) := by
  simp only [identityWord, identityRow, packed, field]
  omega

theorem field_eq_packed (v w : Nat) : field v 0 w = packed [(v, w)] := by
  rw [field, Nat.pow_zero, Nat.mul_one, packed, packed, Nat.mul_zero, Nat.add_zero]

/-- The fields of the first word of a CAP cell. -/
def CapCell.row (c : CapCell) : List (Nat × Nat) :=
  [(c.vers, 8), (c.feat, 16), (c.req, 2), (b2n c.locked, 1), (c.cfgWidth, 2), (c.laneIdx, 3), (c.lockedLanes, 8), (c.propLanes, 8)]

theorem CapCell.words_eq (c : CapCell) :
    c.words = [packed c.row, c.nonce, packed (identityRow c.group c.device c.port), packed [(c.ladder, 7)]] := by
  have h0 : field c.vers 0 8 + field c.feat 8 16 + field c.req 24 2 + field (b2n c.locked) 26 1 + field c.cfgWidth 27 2 + field c.laneIdx 29 3
      + field c.lockedLanes 32 8 + field c.propLanes 40 8 = packed c.row := by
    simp only [CapCell.row, packed, field]
    omega
  rw [CapCell.words, h0, identityWord_eq, field_eq_packed]

theorem capOf_laid {w : Nat → Nat} {c : CapCell} (h : ReadsAs w c.words) (hc : c.wf = true) : capOf w = c := by
  rw [c.words_eq] at h
  simp only [CapCell.wf, Bool.and_eq_true] at hc
  obtain ⟨⟨⟨⟨⟨⟨⟨⟨⟨⟨⟨hvers, hfeat⟩, hreq⟩, hwidth⟩, hidx⟩, hlocked⟩, hprop⟩, hnonce⟩, hgroup⟩, hdevice⟩, hport⟩, hladder⟩ := hc
  have h0 : w 0 = packed c.row := h.row rfl rfl
  have h1 : w 1 = c.nonce := h.word rfl hnonce
  have h2 : w 2 = packed (identityRow c.group c.device c.port) := h.row rfl rfl
  have h3 : w 3 = packed [(c.ladder, 7)] := h.row rfl rfl
  obtain ⟨vers, feat, req, locked, cfgWidth, laneIdx, lockedLanes, propLanes, nonce, group, device, port, ladder⟩ := c
  simp only [capOf, h0, h1, h2, h3, CapCell.mk.injEq]
  exact ⟨bits_packed_of_fits _ 0 hvers, bits_packed_of_fits _ 1 hfeat, bits_packed_of_fits _ 2 hreq, bit_packed _ 3 rfl,
    bits_packed_of_fits _ 4 hwidth, bits_packed_of_fits _ 5 hidx, bits_packed_of_fits _ 6 hlocked, bits_packed_of_fits _ 7 hprop, trivial,
    bits_packed_of_fits _ 0 hgroup, bits_packed_of_fits _ 2 hdevice, bits_packed_of_fits _ 4 hport, bits_packed_of_fits _ 0 hladder⟩

/-- The fields of the first word of a TIME cell. -/
def TimeCell.row (c : TimeCell) : List (Nat × Nat) :=
  [(b2n c.response, 1), (c.state, 2), (0, 1), (c.hops, 4), (0, 8), (c.errNs, 16), (c.xid, 32)]

theorem TimeCell.words_eq (c : TimeCell) : c.words = [packed c.row, c.txStamp, c.echo] := by
  have h0 : field (b2n c.response) 0 1 + field c.state 1 2 + field c.hops 4 4 + field c.errNs 16 16 + field c.xid 32 32 = packed c.row := by
    simp only [TimeCell.row, packed, field]
    omega
  rw [TimeCell.words, h0]

theorem timeOf_laid {w : Nat → Nat} {c : TimeCell} (h : ReadsAs w c.words) (hc : c.wf = true) : timeOf w = c := by
  rw [c.words_eq] at h
  simp only [TimeCell.wf, Bool.and_eq_true] at hc
  obtain ⟨⟨⟨⟨⟨hstate, hhops⟩, herr⟩, hxid⟩, hstamp⟩, hecho⟩ := hc
  have h0 : w 0 = packed c.row := h.row rfl rfl
  have h1 : w 1 = c.txStamp := h.word rfl hstamp
  have h2 : w 2 = c.echo := h.word rfl hecho
  obtain ⟨response, state, hops, errNs, xid, txStamp, echo⟩ := c
  simp only [timeOf, h0, h1, h2, TimeCell.mk.injEq]
  exact ⟨bit_packed _ 0 rfl, bits_packed_of_fits _ 1 hstate, bits_packed_of_fits _ 3 hhops, bits_packed_of_fits _ 5 herr,
    bits_packed_of_fits _ 6 hxid, trivial, trivial⟩

theorem FenceCell.words_eq (c : FenceCell) :
    c.words = [packed [(c.reason, 8)], c.mt, packed (identityRow c.group c.device c.port)] := by
  rw [FenceCell.words, identityWord_eq, field_eq_packed]

theorem fenceOf_laid {w : Nat → Nat} {c : FenceCell} (h : ReadsAs w c.words) (hc : c.wf = true) : fenceOf w = c := by
  rw [c.words_eq] at h
  simp only [FenceCell.wf, Bool.and_eq_true] at hc
  obtain ⟨⟨⟨⟨hreason, hmt⟩, hgroup⟩, hdevice⟩, hport⟩ := hc
  have h0 : w 0 = packed [(c.reason, 8)] := h.row rfl rfl
  have h1 : w 1 = c.mt := h.word rfl hmt
  have h2 : w 2 = packed (identityRow c.group c.device c.port) := h.row rfl rfl
  obtain ⟨reason, mt, group, device, port⟩ := c
  simp only [fenceOf, h0, h1, h2, FenceCell.mk.injEq]
  exact ⟨bits_packed_of_fits _ 0 hreason, trivial, bits_packed_of_fits _ 0 hgroup, bits_packed_of_fits _ 2 hdevice, bits_packed_of_fits _ 4 hport⟩

/-! ### The cell of an ACK frame -/

theorem map_range_length (g : Nat → Nat) (n : Nat) : ((List.range n).map g).length = n := by
  rw [List.length_map, List.length_range]

theorem map_range_at (g : Nat → Nat) {n i : Nat} (hi : i < n) : ((List.range n).map g)[i]? = some (g i) := by
  rw [List.getElem?_map, List.getElem?_range hi, Option.map_some]

/-- The counts of word `i` of an ACK cell: those of VC 2i and of VC 2i + 1. -/
def AckCell.row (c : AckCell) (i : Nat) : List (Nat × Nat) :=
  [(c.grants.getD (2 * i) 0, 12), (0, 4), (c.releases.getD (2 * i) 0, 12), (0, 4), (c.grants.getD (2 * i + 1) 0, 12), (0, 4),
    (c.releases.getD (2 * i + 1) 0, 12)]

theorem AckCell.words_eq (c : AckCell) :
    c.words = (List.range 8).map (fun i => packed (c.row i)) ++ (List.range 24).map fun i => bits c.xsack (64 * i) 64 := by
  unfold AckCell.words
  congr 1
  refine List.map_congr_left fun i _ => ?_
  simp only [AckCell.row, packed, field]
  omega

theorem AckCell.words_length (c : AckCell) : c.words.length = 32 := by
  rw [c.words_eq, List.length_append, map_range_length, map_range_length]

section
variable {w : Nat → Nat} {c : AckCell} (h : ReadsAs w c.words)
include h

theorem ackWord_counts {i : Nat} (hi : i < 8) : w i = packed (c.row i) := by
  have he : c.words[i]? = some (packed (c.row i)) := by
    rw [c.words_eq, List.getElem?_append_left (Nat.lt_of_lt_of_eq hi (map_range_length _ 8).symm), map_range_at _ hi]
  exact h.row he rfl

theorem ackWord_xsack {i : Nat} (hi : i < 24) : w (8 + i) = bits c.xsack (64 * i) 64 := by
  have he : c.words[8 + i]? = some (bits c.xsack (64 * i) 64) := by
    rw [c.words_eq, List.getElem?_append_right (Nat.le_trans (Nat.le_of_eq (map_range_length _ 8)) (Nat.le_add_right 8 i)), map_range_length,
      Nat.add_sub_cancel_left, map_range_at _ hi]
  rw [h _ _ he, bits, Nat.mod_mod]
end

/-- The 64-bit groups of a number, put back in their places, are the number cut to them. -/
theorem sum_groups (x n : Nat) : ((List.range n).map fun i => bits x (64 * i) 64 * 2 ^ (64 * i)).sum = x % 2 ^ (64 * n) := by
  induction n with
  | zero => exact (Nat.mod_one x).symm
  | succ n ih =>
    rw [List.range_succ, List.map_append, List.sum_append, ih, List.map_singleton, List.sum_singleton, Nat.mul_succ, Nat.pow_add, Nat.mod_mul,
      bits, Nat.mul_comm (_ % 2 ^ 64)]

theorem fits_getD {w : Nat} {l : List Nat} (h : l.all (fits w) = true) (v : Nat) : fits w (l.getD v 0) = true := by
  rw [List.getD_eq_getElem?_getD]
  cases hx : l[v]? with
  | none => exact decide_eq_true (Nat.two_pow_pos w)
  | some x => exact List.all_eq_true.1 h x (List.mem_of_getElem? hx)

theorem map_range_getD {l : List Nat} {n : Nat} (hl : l.length = n) {g : Nat → Nat} (hg : ∀ v, v < n → g v = l.getD v 0) :
    (List.range n).map g = l := by
  refine List.ext_getElem ((map_range_length g n).trans hl.symm) fun v hv hv' => ?_
  rw [List.getElem_map, List.getElem_range, hg v (hl ▸ hv'), List.getD_eq_getElem?_getD, List.getElem?_eq_getElem hv', Option.getD_some]

/-- Of two neighbouring VCs the even one stands in the lower half of their word. -/
theorem even_or_odd_vc {v : Nat} (hv : v < 16) : ∃ i, i < 8 ∧ v / 2 = i ∧ ((v = 2 * i ∧ v % 2 = 0) ∨ (v = 2 * i + 1 ∧ v % 2 = 1)) :=
  ⟨v / 2, by omega, rfl, by omega⟩

theorem ackOf_laid {w : Nat → Nat} {c : AckCell} (h : ReadsAs w c.words) (hc : c.wf = true) : ackOf w = c := by
  simp only [AckCell.wf, Bool.and_eq_true, beq_iff_eq] at hc
  obtain ⟨⟨⟨⟨hglen, hrlen⟩, hgfit⟩, hrfit⟩, hx⟩ := hc
  have hg : (List.range 16).map (fun v => bits (w (v / 2)) (32 * (v % 2)) 12) = c.grants := by
    refine map_range_getD hglen fun v hv => ?_
    obtain ⟨i, hi, hd, ⟨he, hm⟩ | ⟨he, hm⟩⟩ := even_or_odd_vc hv
    · rw [hd, hm, he, ackWord_counts h hi]
      exact bits_packed_of_fits (c.row i) 0 (fits_getD hgfit _)
    · rw [hd, hm, he, ackWord_counts h hi]
      exact bits_packed_of_fits (c.row i) 4 (fits_getD hgfit _)
  have hr : (List.range 16).map (fun v => bits (w (v / 2)) (32 * (v % 2) + 16) 12) = c.releases := by
    refine map_range_getD hrlen fun v hv => ?_
    obtain ⟨i, hi, hd, ⟨he, hm⟩ | ⟨he, hm⟩⟩ := even_or_odd_vc hv
    · rw [hd, hm, he, ackWord_counts h hi]
      exact bits_packed_of_fits (c.row i) 2 (fits_getD hrfit _)
    · rw [hd, hm, he, ackWord_counts h hi]
      exact bits_packed_of_fits (c.row i) 6 (fits_getD hrfit _)
  have hn : 64 * 24 = 1536 := rfl
  have hs : ((List.range 24).map fun i => w (8 + i) * 2 ^ (64 * i)).sum = c.xsack := by
    rw [List.map_congr_left fun i hi => by rw [ackWord_xsack h (List.mem_range.1 hi)], sum_groups, hn, mod_of_fits hx]
  rw [ackOf, hg, hr, hs]

/-! ### Frames read back -/

/-- Word `i` of a frame's cell. -/
def Frame.cellWord (f : Frame) (i : Nat) : Nat := ofLeBytes ((f.parts.2.2.drop (8 * i)).take 8)

theorem Frame.cellWord_readsAs {f : Frame} {l : List Nat} (hf : f.parts.2.2 = padCell (bytesOfWords l)) (hl : l.length ≤ 32) :
    ReadsAs f.cellWord l := by
  intro i x hx
  rw [Frame.cellWord, hf, padCell_word hl hx]

/-- What the bytes of a frame are read as, by the kind in its header word (R120). -/
theorem Frame.frameOf_bytes (f : Frame) {h : FrameHead} {kind vc : Nat} {ep sop eop : Bool} (hw : f.parts.1 = h.word kind vc ep sop eop)
    (ht : f.parts.2.1 = h.tail) (hk : fits 3 kind = true) (hv : fits 4 vc = true) (hh : h.wf = true) : frameOf f.bytes =
      if kind = 0 then some (.data ⟨h, ep, vc, sop, eop, f.parts.2.2⟩)
      else if kind = 1 then some (.idle h)
      else if kind = 2 then some (.ack h (ackOf f.cellWord))
      else if kind = 3 then some (.time h (timeOf f.cellWord))
      else if kind = 4 then some (.fence h (fenceOf f.cellWord))
      else if kind = 5 then some (.cap h (capOf f.cellWord))
      else none := by
  have hx : ofLeBytes (f.bytes.take 8) = packed (h.row kind vc ep sop eop) := by rw [f.header_bytes, hw, h.word_mod]
  have hy : ofLeBytes ((f.bytes.drop 264).take 4) = packed h.tailRow := by rw [f.trailer_bytes, ht, h.tail_mod]
  have hkind : bits (packed (h.row kind vc ep sop eop)) 20 3 = kind := bits_packed_of_fits _ 1 hk
  have hep : bit (packed (h.row kind vc ep sop eop)) 23 = ep := bit_packed _ 2 rfl
  have hvc : bits (packed (h.row kind vc ep sop eop)) 24 4 = vc := bits_packed_of_fits _ 3 hv
  have hsop : bit (packed (h.row kind vc ep sop eop)) 28 = sop := bit_packed _ 4 rfl
  have heop : bit (packed (h.row kind vc ep sop eop)) 29 = eop := bit_packed _ 5 rfl
  simp only [frameOf, f.goodCrc_bytes, headOf_laid hx hy hh, hx, hkind, hep, hvc, hsop, heop, f.cell_bytes]
  rfl

/-- Settles O60: the header word names the kind, and the cell of each kind reads back from its words. -/
theorem framesReadBackAsTheyAreLaidOut : Obligations.FramesReadBackAsTheyAreLaidOut := by
  unfold Obligations.FramesReadBackAsTheyAreLaidOut
  intro f hf
  cases f with
  | data d =>
    simp only [Frame.wf, Bool.and_eq_true, beq_iff_eq] at hf
    obtain ⟨⟨hh, hv⟩, hc⟩ := hf
    have hcell : padCell d.cell = d.cell := padCell_full hc
    refine (Frame.frameOf_bytes (.data d) rfl rfl rfl hv hh).trans ?_
    exact congrArg (fun b => some (Frame.data { d with cell := b })) hcell
  | idle h => exact Frame.frameOf_bytes (.idle h) rfl rfl rfl rfl hf
  | ack h c =>
    obtain ⟨hh, hc⟩ := Bool.and_eq_true_iff.1 hf
    refine (Frame.frameOf_bytes (.ack h c) rfl rfl rfl rfl hh).trans ?_
    exact congrArg (fun x => some (Frame.ack h x)) (ackOf_laid (Frame.cellWord_readsAs rfl (Nat.le_of_eq c.words_length)) hc)
  | time h c =>
    obtain ⟨hh, hc⟩ := Bool.and_eq_true_iff.1 hf
    refine (Frame.frameOf_bytes (.time h c) rfl rfl rfl rfl hh).trans ?_
    exact congrArg (fun x => some (Frame.time h x)) (timeOf_laid (Frame.cellWord_readsAs rfl (Nat.le_of_ble_eq_true rfl)) hc)
  | fence h c =>
    obtain ⟨hh, hc⟩ := Bool.and_eq_true_iff.1 hf
    refine (Frame.frameOf_bytes (.fence h c) rfl rfl rfl rfl hh).trans ?_
    exact congrArg (fun x => some (Frame.fence h x)) (fenceOf_laid (Frame.cellWord_readsAs rfl (Nat.le_of_ble_eq_true rfl)) hc)
  | cap h c =>
    obtain ⟨hh, hc⟩ := Bool.and_eq_true_iff.1 hf
    refine (Frame.frameOf_bytes (.cap h c) rfl rfl rfl rfl hh).trans ?_
    exact congrArg (fun x => some (Frame.cap h x)) (capOf_laid (Frame.cellWord_readsAs rfl (Nat.le_of_ble_eq_true rfl)) hc)

end Sys2Proof

/-!
Frames sent and received on a link (R117, R124, R129 to R132, R145, R157): each command by the case of its guard.
-/
namespace Sys2Proof.Machine
open Sys2Proof

/-! ### Frame slots (R119, R124) -/

theorem exec_frameSlot_safe {p : Fin 1024} {k : Fin 8} {s : State} (hs : s.safe = true) (ht : (s.lane (s.base p + k)).tx = true)
    (hw : k.val < s.width p) : exec (.frameSlot p k) s = .next (s.sendControl p k fun h => .fence h (s.fenceCell p)) := by
  refine (if_pos hs).trans (congrArg _ (if_pos ?_))
  rw [ht, decide_eq_true hw]
  rfl

theorem exec_frameSlot_active {p : Fin 1024} {k : Fin 8} {s : State} (hs : s.safe = false) (hst : s.get F.PORT_STAT_STATE p = stActive)
    (hk : bit (s.port p).act k = true) (hr : s.get F.PORT_PWR_STAT_RUNG p = 0) :
    exec (.frameSlot p k) s = .next (s.activeSlot p k) :=
  (if_neg (ne_true_of_eq_false hs)).trans (if_pos (by rw [hst, hk, hr]; rfl))

theorem exec_frameSlot_frameLock {p : Fin 1024} {k : Fin 8} {s : State} (hs : s.safe = false)
    (hst : s.get F.PORT_STAT_STATE p = stFrameLock) (hk : bit (s.port p).act k = true) :
    exec (.frameSlot p k) s = .next (s.sendControl p k .idle) := by
  refine (if_neg (ne_true_of_eq_false hs)).trans ((if_neg ?_).trans (if_pos ?_))
  · rw [hst]
    exact Bool.false_ne_true
  · rw [hst, hk]
    rfl

/-! ### Frames received (R129 to R132, R157)

What becomes of a frame with good CRC is settled by its lane and its port. -/

theorem exec_dataFrameRx {p : Fin 1024} {k : Fin 8} {b : List Byte} {f : DataFrame} (hf : frameOf b = some (.data f)) (s : State) :
    exec (.dataFrameRx p k b) s =
      let t := (s.heard p k).notFence p
      if !s.hears p k then .next t else if t.accepts p then .next (t.dataHeard p f) else .next (t.applyAlways p f.head) := by
  change execDataFrameRx p k b s = _
  unfold execDataFrameRx
  rw [hf]

theorem exec_idleFrameRx_heard {p : Fin 1024} {k : Fin 8} {b : List Byte} {h : FrameHead} {s : State} (hf : frameOf b = some (.idle h))
    (hl : s.hears p k = true) : exec (.idleFrameRx p k b) s = .next (((s.heard p k).notFence p).applyAlways p h) := by
  change execIdleFrameRx p k b s = _
  unfold execIdleFrameRx
  rw [hf]
  exact if_pos hl

theorem exec_ackFrameRx_heard {p : Fin 1024} {k : Fin 8} {hd rest : List Byte} {h : FrameHead} {c : AckCell} {s : State}
    (hf : frameOf (hd ++ rest) = some (.ack h c)) (hl : s.hears p k = true) (hp : ((s.heard p k).notFence p).keepsLink p = true) :
    exec (.ackFrameRx p k hd rest) s = .next (((s.heard p k).notFence p).ackHeard p h c) := by
  change execAckFrameRx p k hd rest s = _
  unfold execAckFrameRx
  rw [hf]
  exact if_pos (by rw [hl, hp]; rfl)

/-- A FENCE frame lengthens the run of its port, and the fourth in a row takes the link down (R129). -/
theorem exec_fenceFrameRx_heard {p : Fin 1024} {k : Fin 8} {b : List Byte} {h : FrameHead} {c : FenceCell} {s : State}
    (hf : frameOf b = some (.fence h c)) (hl : s.hears p k = true) (hst : s.get F.PORT_STAT_STATE p ≠ stDisabled) :
    exec (.fenceFrameRx p k b) s =
      let t := (s.heard p k).applyAlways p h
      let u := t.modLink p fun x => { x with fenceRun := (t.link p).fenceRun + 1 }
      .next (if (t.link p).fenceRun + 1 = 4 then u.peerFenced p else u) := by
  change execFenceFrameRx p k b s = _
  unfold execFenceFrameRx
  rw [hf]
  exact if_pos (by rw [hl, bne_iff_ne.2 hst]; rfl)

/-- Settles O24: each clause is the case of the guard that its premises choose; the two of a DATA frame and of a FENCE frame are one
lemma's cases. -/
theorem linkFrameCommands : Obligations.LinkFrameCommands := by
  unfold Obligations.LinkFrameCommands
  refine ⟨fun p k s hs ht hw => exec_frameSlot_safe hs ht hw, fun p k s hs hst hk hr => exec_frameSlot_active hs hst hk hr,
    fun p k s hs hst hk => exec_frameSlot_frameLock hs hst hk, fun p k b f s hf hl ha => ?_, fun p k b f s hf hl ha => ?_,
    fun p f s hm => if_neg hm, fun p f s hm => if_pos hm, fun p k b h s hf hl => exec_idleFrameRx_heard hf hl,
    fun p k hd rest h c s hf hl hp => exec_ackFrameRx_heard hf hl hp, fun p h c s hm => if_neg hm,
    fun p k b h c s hf hl hst hn => ?_, fun p k b h c s hf hl hst hn => ?_⟩
  · rw [exec_dataFrameRx hf, hl]
    exact if_pos ha
  · rw [exec_dataFrameRx hf, hl]
    exact if_neg (ne_true_of_eq_false ha)
  · rw [exec_fenceFrameRx_heard hf hl hst]
    dsimp only
    rw [hn]
    rfl
  · rw [exec_fenceFrameRx_heard hf hl hst]
    exact congrArg _ (if_neg fun he => hn (Nat.succ.inj he))

end Sys2Proof.Machine

/-!
Bad frames, the replay timer, credit and replay slots (R117, R118, R135 to R149): each command by the case of its guard.
-/
namespace Sys2Proof.Machine
open Sys2Proof

/-! ### Lanes on frames (R117, R118) -/

/-- A frame with a bad CRC counted and reported on the page of its port (R118). -/
def State.crcFailed (s : State) (p : Nat) : State := ((s.inc F.LNK_CNT_ERR_CRC p).count 11 p 0x43).raise E.LNK_CRC_ERR p

/-- A bad frame that is not yet the eighth in a row only lengthens the run of its lane (R117). -/
theorem exec_badFrameRx_run {p : Nat} {lane : Fin 1024} {b : List Byte} {s : State} (ho : s.owner lane = some p) (hc : goodCrc b = false)
    (hn : ((s.crcFailed p).lane lane).bad + 1 < 8) : exec (.badFrameRx lane b) s =
      .next ((s.crcFailed p).modLane lane fun x => { x with good := 0, bad := ((s.crcFailed p).lane lane).bad + 1 }) := by
  change execBadFrameRx lane b s = _
  unfold execBadFrameRx
  rw [ho, hc]
  exact if_neg (not_and_of_not_left _ (Nat.not_le_of_lt hn))

theorem exec_laneDelineated_due {lane : Fin 1024} {s : State} (hg : 8 ≤ (s.lane lane).good) (hd : (s.lane lane).delineated = false) :
    exec (.laneDelineated lane) s = .next (s.modLane lane fun x => { x with delineated := true }) :=
  if_pos ⟨hg, by rw [hd]; rfl⟩

/-! ### The replay timer (R135, R136) -/

/-- An expiry on an ACTIVE port: the number of expiries in a row settles whether the link goes down. -/
theorem exec_replayTimeout_due {p : Fin 1024} {at_ : Nat} {s : State} (ht : (s.link p).timer = some at_) (ha : s.active p = true)
    (ho : s.over at_ (16 * s.get F.LNK_RTX_TIMEOUT p) 16 = true) : exec (.replayTimeout p) s =
      let t := s.replayExpired p
      if t.get F.LNK_RTX_MAX_EXP p ≤ t.get F.LNK_RTX_EXP_NOW p then
        .next (((t.inc F.LNK_CNT_MISC_EXHAUST p).raise E.LNK_RTX_EXHAUST p).linkDown p)
      else .next t := by
  change execReplayTimeout p s = _
  unfold execReplayTimeout
  rw [ht]
  exact if_pos (by rw [ha, ho]; rfl)

/-! ### Credit (R141, R143) -/

/-- A grant opportunity with a free unit in the tile serves the chosen VC; one that is lent moves the rotation on. -/
theorem exec_creditGrant_chosen {p : Fin 1024} {vc : Nat} {lent : Bool} {s : State} (ha : s.active p = true) (hs : s.safe = false)
    (hu : s.unitsClaimed (tileOf p) + 1 ≤ s.inUnits (tileOf p)) (hc : s.grantChoice p = some (vc, lent)) : exec (.creditGrant p) s =
      let t := s.grantUnit p vc
      .next (if lent then t.modLink p fun x => { x with rrGrant := (vc + 1) % 16 } else t) := by
  refine (if_pos (by rw [ha, hs, decide_eq_true hu]; rfl)).trans ?_
  rw [hc]

theorem exec_creditRelease_units {p : Fin 1024} {vc : Fin 16} {at_ : Nat} {s : State} (hi : (s.vcSt p vc).idleSince = some at_)
    (hm : s.mode p = 1) (hr : (s.vcSt p vc).released = false) (ho : s.over at_ (64 * s.get F.LNK_CTL_REL_IDLE p) 64 = true)
    (hu : s.txAvail p vc / 4 ≠ 0) : exec (.creditRelease p vc) s =
      .next ((s.modVc p vc fun v => { v with r := v.r + s.txAvail p vc / 4, released := true }).modLink p fun x => { x with ackOwed := true }) := by
  change execCreditRelease p vc s = _
  unfold execCreditRelease
  dsimp only
  rw [hi]
  exact (if_pos (by rw [hm, hr, ho]; rfl)).trans (congrArg _ (if_neg hu))

/-! ### Replay slots (R149) -/

theorem exec_slotsWrite_taken {p : Fin 1024} {v : Nat} {s : State} (he : (s.write F.LNK_REPLAY_PEAK (bits v 32 13) p).flag F.PORT_CTL_EN p = false)
    (hn : (s.write F.LNK_REPLAY_PEAK (bits v 32 13) p).slotsOthers p + bits v 0 13 ≤
      (s.write F.LNK_REPLAY_PEAK (bits v 32 13) p).replaySlots (tileOf p)) : exec (.slotsWrite p v) s =
      .next ((s.write F.LNK_REPLAY_PEAK (bits v 32 13) p).set F.LNK_REPLAY_SLOTS (bits v 0 13) p) := by
  refine if_neg ?_
  rw [he, decide_eq_false (Nat.not_lt_of_le hn)]
  exact Bool.false_ne_true

theorem exec_slotsWrite_enabled {p : Fin 1024} {v : Nat} {s : State}
    (he : (s.write F.LNK_REPLAY_PEAK (bits v 32 13) p).flag F.PORT_CTL_EN p = true) :
    exec (.slotsWrite p v) s = .next ((s.write F.LNK_REPLAY_PEAK (bits v 32 13) p).raise E.LNK_SLOTS_REJ p) :=
  if_pos (by rw [he]; rfl)

/-- Settles O25: each clause is the case of the guard that its premises choose; the two of an expiry and of a grant are one lemma's cases. -/
theorem linkRecoveryCommands : Obligations.LinkRecoveryCommands := by
  unfold Obligations.LinkRecoveryCommands
  refine ⟨fun p lane b s ho hc hn => exec_badFrameRx_run ho hc hn, fun lane s hg hd => exec_laneDelineated_due hg hd,
    fun p at_ s ht ha ho hx => ?_, fun p at_ s ht ha ho hx => ?_, fun p vc s ha hs hu hc => exec_creditGrant_chosen ha hs hu hc,
    fun p vc s ha hs hu hc => exec_creditGrant_chosen ha hs hu hc, fun p vc at_ s hi hm hr ho hu => exec_creditRelease_units hi hm hr ho hu,
    fun p v s he hn => exec_slotsWrite_taken he hn, fun p v s he => exec_slotsWrite_enabled he⟩
  · rw [exec_replayTimeout_due ht ha ho]
    exact if_neg (Nat.not_le_of_lt hx)
  · rw [exec_replayTimeout_due ht ha ho]
    exact if_pos hx

end Sys2Proof.Machine

/-!
Packets in the switch core (R163 to R173, R183, R184): the age of a packet, and each command by the case of its guard.
-/
namespace Sys2Proof.Machine
open Sys2Proof

/-! ### Age (R183) -/

/-- A difference modulo `m` that counts only below `h`, written with the subtrahend's complement. -/
theorem wrapped_below {x b m h : Nat} (hb : b ≤ m) : (if h ≤ (x + m - b) % m then 0 else (x + m - b) % m) =
    if (x + (m - b)) % m < h then (x + (m - b)) % m else 0 := by
  rw [Nat.add_sub_assoc hb]
  by_cases hlt : (x + (m - b)) % m < h
  · rw [if_pos hlt, if_neg (Nat.not_le.2 hlt)]
  · rw [if_neg hlt, if_pos (Nat.not_lt.1 hlt)]

/-- The stamp is MT bits [35:4], so that the model's age is the wrapped difference of R183. -/
theorem State.age_eq (s : State) (birth : Nat) : s.age birth =
    (let a := (bits s.mtNs 4 32 + (2 ^ 32 - birth % 2 ^ 32)) % 2 ^ 32; if a < 2 ^ 31 then a else 0) :=
  wrapped_below (Nat.le_of_lt (Nat.mod_lt birth (Nat.two_pow_pos 32)))

theorem State.tooOld_iff (s : State) (q : Packet) :
    s.tooOld q = true ↔ s.isUnsure = false ∧ q.tu = false ∧ s.get F.CORE_AGE_LIMIT 0 q.cls < s.age q.birth := by
  rw [State.tooOld, Bool.and_eq_true, Bool.and_eq_true, Bool.not_eq_true', Bool.not_eq_true', decide_eq_true_eq, and_assoc]

/-- Settles O58: the age is the model's difference of stamps, and of the three conditions of a drop on age two are premises. -/
theorem ageIsReadModuloTheStamp : Obligations.AgeIsReadModuloTheStamp := by
  unfold Obligations.AgeIsReadModuloTheStamp
  exact fun s birth => ⟨s.age_eq birth, fun q hu ht =>
    ⟨fun h => ((s.tooOld_iff q).1 h).2.2, fun h => (s.tooOld_iff q).2 ⟨hu, ht, h⟩⟩⟩

/-! ### Arrival (R166, R176) -/

theorem exec_packetArrival_fabric {t : Fin 72} (ht : t.val < 64) (inPort : Fin 1024) (pkt : Packet) (s : State) :
    exec (.packetArrival t inPort pkt) s = .next ((s.presented t inPort pkt).2.arrive t (s.presented t inPort pkt).1) := if_pos ht

/-- At an engine tile with room a packet that nothing holds back is charged, starts what its injection starts, and arrives. -/
theorem exec_packetArrival_engine {t : Fin 72} {inPort : Fin 1024} {pkt : Packet} {s : State} (ht : 64 ≤ t.val)
    (hm : s.engMute (s.presented t inPort pkt).1 = false) (hr : s.asBefore.engRoom t inPort (vcOf pkt.cls 0) pkt.ncells = true) :
    exec (.packetArrival t inPort pkt) s =
      .next (let x := s.presented t inPort pkt
        let y := (x.2.engCharge x.1).started inPort x.1
        y.1.arrive t { x.1 with pkt := y.2 }) := by
  refine (if_neg (Nat.not_lt.2 ht)).trans (if_neg ?_)
  rw [hm, hr]
  exact Bool.false_ne_true

/-! ### Reservations (R167, R178, R184) -/

theorem exec_reservationRequest_waiting {t out : Fin 72} {port : Fin 1024} {vc : Fin 16} {mc : Bool} {h : Held} {s : State}
    (hh : (s.tile t).head mc out port vc = some h) (hp : h.phase = .waiting) : exec (.reservationRequest t out port vc mc) s =
      .next ((s.modHeld t h.id fun x => { x with phase := .requested }).modTile out fun x =>
        { x with reqs := x.reqs ++ [⟨t, h.id, mc, port, vc, h.pkt.sl, h.pkt.ncells, h.pkt.cls, h.pkt.birth⟩] }) := by
  change execReservationRequest t out port vc mc s = _
  unfold execReservationRequest
  rw [hh]
  exact if_pos hp

section Grant

variable {out : Fin 72} {port : Fin 1024} {vc : Fin 16} {mc : Bool} {q : ResReq} {h : Held} {s : State}

/-- Output memory has room for a request at one member: what R174 and the quota rule admit (R178). -/
def State.memberAdmits (s : State) (out : Nat) (q : ResReq) (p : Nat) : Bool :=
  s.asBefore.outAdmits out p q.vc q.sl q.n && s.asBefore.quotaAdmits out p q.n

/-- The branches that a multicast request has pruned as it is granted (R195). -/
def State.pruneFenced (s : State) (out : Nat) (q : ResReq) (h : Held) : State :=
  if q.mc then s.each ((s.mcMembers out q.inTile h.inPort h.pkt).filter fun p => s.memberFenced out p h.pkt) (fun s p => s.prune out p h.pkt)
  else s

/-- The oldest request of a packet that still waits: granted where every member has room, unless age or the spare of staging drops it. -/
theorem exec_reservationGrant_oldest (hq : (s.tile out).oldestReq mc port vc = some q) (hh : (s.tile q.inTile).byId q.id = some h) :
    exec (.reservationGrant out port vc mc) s =
      let members := s.reqMembers out q h.pkt h.inPort
      if toStaging out h.pkt || members.all (s.memberAdmits out q) then
        if s.tooOld h.pkt then .next ((s.removeHeld q.inTile q.id).dropAge q.inTile h.pkt.cls)
        else if s.toSpare out h.pkt && decide (s.spareCells out < s.spareUsed out + q.n) then .next (s.spareDrop q q.port)
        else .next (((s.pruneFenced out q h).grant out q h members).checkQuota out)
      else if members.any (fun p => !s.asBefore.outAdmits out p q.vc q.sl q.n) then .next (s.count 13 out 0x47)
      else .next s := by
  change execReservationGrant out port vc mc s = _
  unfold execReservationGrant
  rw [hq]
  dsimp only
  rw [hh]
  rfl

theorem exec_reservationGrant_admitted (hq : (s.tile out).oldestReq mc port vc = some q) (hh : (s.tile q.inTile).byId q.id = some h)
    (hm : q.mc = false) (ha : (s.reqMembers out q h.pkt h.inPort).all (s.memberAdmits out q) = true) (ho : s.tooOld h.pkt = false)
    (hs : s.toSpare out h.pkt = false) : exec (.reservationGrant out port vc mc) s =
      .next ((s.grant out q h (s.reqMembers out q h.pkt h.inPort)).checkQuota out) := by
  rw [exec_reservationGrant_oldest hq hh, ho, hs, State.pruneFenced, hm]
  exact if_pos (Bool.or_eq_true_iff.2 (.inr ha))

/-- A member that R174 turns away leaves a request without room. -/
theorem State.all_memberAdmits_eq_false {l : List Nat} (hn : l.any (fun p => !s.asBefore.outAdmits out p q.vc q.sl q.n) = true) :
    l.all (s.memberAdmits out q) = false := by
  obtain ⟨p, hp, hpn⟩ := List.any_eq_true.1 hn
  rw [Bool.not_eq_true'] at hpn
  refine List.all_eq_false.2 ⟨p, hp, ?_⟩
  rw [State.memberAdmits, hpn]
  exact Bool.false_ne_true

/-- A request that R174 turns away at one of its members waits, counted as event 0x47. -/
theorem exec_reservationGrant_refused (hq : (s.tile out).oldestReq mc port vc = some q) (hh : (s.tile q.inTile).byId q.id = some h)
    (hf : toStaging out h.pkt = false)
    (hn : (s.reqMembers out q h.pkt h.inPort).any (fun p => !s.asBefore.outAdmits out p q.vc q.sl q.n) = true) :
    exec (.reservationGrant out port vc mc) s = .next (s.count 13 out 0x47) := by
  rw [exec_reservationGrant_oldest hq hh, hf]
  dsimp only
  rw [State.all_memberAdmits_eq_false hn]
  exact if_pos hn

end Grant

/-! ### Completion, timeout and abort (R170 to R173) -/

theorem exec_packetComplete_whole {t : Fin 72} {res : Fin 65536} {r : Resv} {s : State}
    (hr : (s.tile t).resv.find? (·.res == res.val) = some r) (hc : r.cells.length = r.n) (ho : (s.tile t).ordBlocked r = false) :
    exec (.packetComplete t res) s = .next ((s.release t r).checkQuota t) := by
  change execPacketComplete t res s = _
  unfold execPacketComplete
  rw [hr]
  exact if_pos (by rw [decide_eq_true hc, ho]; rfl)

/-- A reservation given back at its output. -/
def State.unreserve (s : State) (t res : Nat) : State := s.modTile t fun x => { x with resv := x.resv.filter (·.res != res) }

/-- A packet still incomplete after REASM_TO loses its reservation, and what is counted depends on what became of it. -/
theorem exec_reasmTimeout_due {t : Fin 72} {res : Fin 65536} {r : Resv} {s : State}
    (hr : (s.tile t).resv.find? (·.res == res.val) = some r) (hc : r.cells.length < r.n)
    (ho : s.over r.since (64 * s.get F.CORE_CTL_REASM_TO) 64 = true) : exec (.reasmTimeout t res) s =
      let u := s.unreserve t r.res
      if r.dead then .next u
      else if s.tooOld r.pkt then .next (u.dropAge t r.pkt.cls)
      else .next (((u.inc F.BUF_CNT_A_REASM_DROP t).count 13 t 0x44).raise E.BUF_REASM_DROP t) := by
  change execReasmTimeout t res s = _
  unfold execReasmTimeout
  rw [hr]
  exact if_pos (by rw [decide_eq_true hc, ho]; rfl)

theorem exec_packetAbort_closed {t : Fin 72} {id : Nat} {s : State} (h : (s.tile t).aborts.contains id = true) :
    exec (.packetAbort t id) s = .next ((s.modTile t fun x => { x with aborts := x.aborts.filter (· != id) }).abortHeld t id) :=
  if_pos h

/-! ### The sweep (R184) -/

theorem exec_ageSweep_due {t : Fin 72} {s : State} (h : s.due (markSweep t) (2 ^ s.get F.CORE_CTL_SWEEP_K) = true) :
    exec (.ageSweep t) s = .next ((((s.mark (markSweep t) (2 ^ s.get F.CORE_CTL_SWEEP_K)).sweepIn t).sweepOut t).checkQuota t) :=
  if_pos h

/-- Settles O26: each clause is the case of the guard that its premises choose; the two of a timeout are one lemma's cases, and a slot
has no guard. -/
theorem packetCommands : Obligations.PacketCommands := by
  unfold Obligations.PacketCommands
  refine ⟨fun t inPort pkt s ht => exec_packetArrival_fabric ht inPort pkt s, fun t inPort pkt s ht hm hr => exec_packetArrival_engine ht hm hr,
    fun t out port vc mc h s hh hp => exec_reservationRequest_waiting hh hp,
    fun out port vc mc q h s hq hh hm ha ho hs => exec_reservationGrant_admitted hq hh hm ha ho hs,
    fun out port vc mc q h s hq hh hf hn => exec_reservationGrant_refused hq hh hf hn, fun errs s => rfl, fun s => rfl,
    fun t res r s hr hc ho => exec_packetComplete_whole hr hc ho, fun t res r s hr hc ho hd hold => ?_, fun t res r s hr hc ho hd => ?_,
    fun t id s h => exec_packetAbort_closed h, fun t s h => exec_ageSweep_due h⟩
  · rw [exec_reasmTimeout_due hr hc ho, hd, hold]
    rfl
  · rw [exec_reasmTimeout_due hr hc ho, hd]
    rfl

end Sys2Proof.Machine

/-!
Fences of middles, of whole tiles and of routes, and the identity (R187 to R191, R203, R234): each command by the case of its guard.
-/
namespace Sys2Proof.Machine
open Sys2Proof

/-! ### Middles (R187, R188, R190) -/

/-- The captured CORE shadow in force, and the tiles on Run whose middles it no longer fences on their way out of their rungs. -/
def State.midCommit (s : State) : State :=
  (s.applyCapture (pageNo 16 0)).each ((List.range 64).filter fun m =>
    s.midFence m && !(s.applyCapture (pageNo 16 0)).midFence m && s.get F.TILE_PWR_RUNG m == 0) State.exitTile

/-- The middles that the captured CORE shadow fences anew. -/
def State.midsNew (s : State) : List Nat :=
  (List.range 72).filter fun m => (s.applyCapture (pageNo 16 0)).midFence m && !s.midFence m && !s.midOut m

/-- A commit in force at a period boundary: its new middles drain if no more than 8 would then be out, and are refused together otherwise. -/
theorem exec_midFenceEffect_due {s : State} (hb : s.boundary = true) (hc : s.capturePending (pageNo 16 0) = true) : exec .midFenceEffect s =
    if (s.midsOut.filter s.midCommit.midKept).length + s.midsNew.length ≤ 8 then .next (s.midCommit.each s.midsNew State.startDrain)
    else .next (s.midCommit.raise E.CORE_FENCE_REJ) :=
  if_pos (by rw [hb, hc]; rfl)

theorem exec_midDrainDone_empty {m : Fin 72} {s : State} (hb : s.boundary = true) (hd : s.core.draining.contains m.val = true)
    (he : s.midEmpty m = true) : exec (.midDrainDone m) s = .next (s.skipMid m) :=
  if_pos (by rw [hb, hd, he]; rfl)

theorem State.midKept_eq_false {s : State} {m : Nat} (hm : s.midFence m = false) (hf : s.flag F.TILE_FENCE_FULL m = false)
    (hr : s.get F.TILE_PWR_CUR m = 0) : s.midKept m = false := by
  rw [State.midKept, hm, hf, hr]
  rfl

theorem exec_midReturn_skipped {m : Fin 72} {s : State} (hb : s.boundary = true) (ho : s.midOut m = true) (hk : s.midKept m = false)
    (hs : s.midSkipped m = true) : exec (.midReturn m) s = .next (((s.setMidSkipped m false).raise E.CORE_MID_RESTORED).noteQuiet m) :=
  (if_pos (by rw [hb, ho, hk]; rfl)).trans (if_pos hs)

/-! ### Whole tiles (R191) -/

/-- FULL written to a tile that is not fenced whole: the tile is fenced unless it would be the ninth middle. -/
theorem exec_tileFenceFull_unfenced {t : Fin 72} {s : State} (hf : s.flag F.TILE_FENCE_FULL t = false) : exec (.tileFenceFull t) s =
    if s.ninth t then .next (s.raise E.CORE_FENCE_REJ) else .next (s.fenceTile t 1) :=
  if_neg (ne_true_of_eq_false hf)

theorem exec_tileFenceRelease (t : Fin 72) (s : State) : exec (.tileFenceRelease t) s =
    if s.flag F.TILE_FENCE_FULL t then .next (s.releaseTile t) else .next (s.write F.TILE_FENCE_FULL 0 t) := rfl

/-! ### The routing fence (R234) -/

/-- RTE_FENCE written with the fields PORTS, PEER and MGT_PASS; a bit that hardware needs and software does not write is hardware's. -/
def State.writeFence (s : State) (t ports peer pass : Nat) : State :=
  ((State.write { s with rte := { s.rte with hwFence := Tab.insert s.rte.hwFence t (s.hwNeed t - Nat.land (s.hwNeed t) ports) } }
    F.RTE_FENCE_PORTS (Nat.lor ports (s.hwNeed t)) t).write F.RTE_FENCE_PEER peer t).write F.RTE_FENCE_MGT_PASS pass t

theorem exec_rteFenceWrite (t : Fin 72) (v : Nat) (s : State) : exec (.rteFenceWrite t v) s =
    .next (s.writeFence t (if t.val < 64 then bits v 0 16 else bits v 0 4) (if t.val < 64 then bits v 16 16 else 0) (bits v 32 1)) := rfl

/-- Settles O27: each clause is the case of the guard that its premises choose; the two of a commit, of FULL and of the routing fence are
one lemma's cases. -/
theorem middleAndFenceCommands : Obligations.MiddleAndFenceCommands := by
  unfold Obligations.MiddleAndFenceCommands
  refine ⟨fun s hb hc hn => (exec_midFenceEffect_due hb hc).trans (if_pos hn),
    fun s hb hc hn => (exec_midFenceEffect_due hb hc).trans (if_neg (Nat.not_le.2 hn)),
    fun m s hb hd he => exec_midDrainDone_empty hb hd he,
    fun m s hb ho hm hf hr hs => exec_midReturn_skipped hb ho (State.midKept_eq_false hm hf hr) hs,
    fun t s hf hn => (exec_tileFenceFull_unfenced hf).trans (if_neg (ne_true_of_eq_false hn)),
    fun t s hf hn => (exec_tileFenceFull_unfenced hf).trans (if_pos hn), fun t s hf => (exec_tileFenceRelease t s).trans (if_pos hf),
    fun t s hf => (exec_tileFenceRelease t s).trans (if_neg (ne_true_of_eq_false hf)), fun t v s ht => ?_, fun t v s ht => ?_, fun v s => rfl⟩
  · rw [exec_rteFenceWrite, if_pos ht, if_pos ht]
    rfl
  · rw [exec_rteFenceWrite, if_neg (Nat.not_lt.2 ht), if_neg (Nat.not_lt.2 ht)]
    rfl

end Sys2Proof.Machine

/-!
The escape move, gossip and the banks of a tile (R212, R213, R218, R682 to R684): each command by the case of its guard.
-/
namespace Sys2Proof.Machine
open Sys2Proof

/-! ### The escape move (R218) -/

/-- A packet whose wait is over: a directed one is dropped, another goes to its escape port, or stays where it has none. -/
theorem exec_escMove_due {t : Fin 72} {id : Nat} {h : Held} {s : State} (hi : (s.tile t).byId id = some h) (hd : s.escDue t h = true) :
    exec (.escMove t id) s =
    if h.pkt.rmode = 2 then .next ((s.removeHeld t id).dropNoroute t) else .next (h.esc.elim s (s.escMove t h)) := by
  have hm : exec (.escMove t id) s = execEscMove t id s := rfl
  rw [hm, execEscMove, hi]
  refine (if_pos hd).trans ?_
  cases h.esc with
  | none => rfl
  | some p => rfl

/-! ### Gossip (R212, R213) -/

/-- The ports that send gossip: ACTIVE, in mode RLP3, and enabled for it. -/
def State.gossipPorts (s : State) : List Nat :=
  (List.range 1024).filter fun p => s.getBit F.RTE_GOSSIP_PORTS (p % 16) (tileOf p) && s.active p && s.mode p == 1

theorem exec_gossipSend_due {s : State} (hd : s.due markGossip 1000 = true) :
    exec .gossipSend s = .next ((s.mark markGossip 1000).each s.gossipPorts fun s p => s.sendDirect p (s.gossip p)) :=
  if_pos hd

theorem exec_gossipRx_gossip {p : Fin 1024} {pkt : Packet} {s : State} (hg : pkt.isGossip = true) : exec (.gossipRx p pkt) s =
    .next ((s.modTile (tileOf p) fun x => { x with fresh := x.fresh.filter fun f => !(f.pkt == pkt && f.inPort == p.val) }).applyGossip p pkt) :=
  if_pos hg

/-- A port with a stale level that has not been reported. -/
theorem exec_gossipStale_first {p : Fin 1024} {s : State} (hk : (s.staleKeys p).isEmpty = false) (hs : s.rte.stale.contains p.val = false) :
    exec (.gossipStale p) s =
    .next (State.raise { s with rte := { s.rte with stale := s.rte.stale ++ [p.val] } } E.RTE_GOSSIP_STALE (tileOf p)) :=
  if_pos (by rw [hk, hs]; rfl)

/-! ### The banks of a tile (R682 to R684) -/

/-- The bits of word `n` that a write reaches: those of a bank of the tile that no fence holds. -/
def State.freeBanks (s : State) (t : Fin 72) (n : Fin 2) : List Nat :=
  (List.range 64).filter fun b => (bankBits t).contains (64 * n.val + b) && !s.flt.bankFence.contains (t.val, 64 * n.val + b)

/-- The free bits of word `n` of OFF, or of RET, written with the bits of `v`. -/
def State.writeBanks (s : State) (t : Fin 72) (off : Bool) (n : Fin 2) (v : Nat) : State :=
  s.each (s.freeBanks t n) fun s b => s.setBit (if off then F.TILE_BANK_OFF_BITS else F.TILE_BANK_RET_BITS) b (bit v b) t n

/-- PEND after the write `u` of bank bits on `s`: set for the banks newly sent down, clear for those that are up. -/
def State.pendBanks (s u : State) (t : Fin 72) (n : Fin 2) : State :=
  u.each (s.freeBanks t n) fun u b =>
    if s.bankRung t (64 * n.val + b) = 0 ∧ u.bankRung t (64 * n.val + b) ≠ 0 then u.setBit F.TILE_BANK_PEND_BITS b true t n
    else if u.bankRung t (64 * n.val + b) = 0 then u.setBit F.TILE_BANK_PEND_BITS b false t n
    else u

/-- A write of bank bits is taken where it leaves room for the minima of the pools, and refused whole otherwise (R683). -/
theorem exec_bankBitWrite (t : Fin 72) (off : Bool) (n : Fin 2) (v : Nat) (s : State) : exec (.bankBitWrite t off n v) s =
    if (s.writeBanks t off n v).bankRoom t then .next ((s.pendBanks (s.writeBanks t off n v) t n).checkPools t)
    else .next (s.raise E.TILE_BANK_REJ t) := rfl

theorem exec_bankRungReached_pending {t : Fin 72} {l : Fin 128} {s : State}
    (hp : s.getBit F.TILE_BANK_PEND_BITS (l.val % 64) t (l.val / 64) = true) : exec (.bankRungReached t l) s =
    .next ((s.setBit F.TILE_BANK_PEND_BITS (l.val % 64) false t (l.val / 64)).checkPools t) :=
  if_pos hp

/-- Settles O28: each clause is the case of the guard that its premises choose; the two of a packet that waited and of a write of bank
bits are one lemma's cases. -/
theorem routingAndBankCommands : Obligations.RoutingAndBankCommands := by
  unfold Obligations.RoutingAndBankCommands
  refine ⟨fun t id p h s hi hd hr he => ?_, fun t id h s hi hd hr => (exec_escMove_due hi hd).trans (if_pos hr),
    fun s hd => exec_gossipSend_due hd, fun p pkt s hg => exec_gossipRx_gossip hg, fun p s hk hs => exec_gossipStale_first hk hs,
    fun t off n v s hr => (exec_bankBitWrite t off n v s).trans (if_neg (ne_true_of_eq_false hr)),
    fun t off n v s hr => (exec_bankBitWrite t off n v s).trans (if_pos hr), fun t l s hp => exec_bankRungReached_pending hp⟩
  rw [exec_escMove_due hi hd, if_neg hr, he]
  rfl

end Sys2Proof.Machine

/-!
Contexts (R285 to R299, R328): ranges, loads, CTX_CMD and the user page, each command by the case of its guard.
-/
namespace Sys2Proof.Machine
open Sys2Proof

/-! ### Ranges and arrivals (R285, R286) -/

/-- CTX_RANGE `n` of an engine with its four fields stored. -/
def State.storeRange (s : State) (e n v : Nat) : State :=
  (((s.set F.CTX_RANGE_FIRST (bits v 0 20) e n).set F.CTX_RANGE_COUNT (bits v 20 21) e n).set F.CTX_RANGE_EN (bits v 48 1) e n).set
    F.CTX_RANGE_HOLD (bits v 49 1) e n

/-- A range is stored, but not one that is enabled and overlaps another. -/
theorem exec_ctxRangeWrite (e : Fin 32) (n : Fin 2) (v : Nat) (s : State) : exec (.ctxRangeWrite e n v) s =
    if bit v 48 && s.rangeOverlap e n (bits v 0 20) (bits v 20 21) then .next (s.raise E.CTX_RANGE_OVERLAP e)
    else .next (s.storeRange e n v) := rfl

theorem exec_enginePacketRx_dead {e : Fin 32} {q : Packet} {s : State} (hh : s.handHead e q = true) (hd : s.handDead e q = true) :
    exec (.enginePacketRx e q) s = .next (s.dropHead e q) :=
  if_pos (by rw [hh, hd]; rfl)

theorem exec_enginePacketRx_handed {e : Fin 32} {q : Packet} {s : State} (hd : s.handDead e q = false) (hh : s.handed e q = true)
    (ho : ownCommand e q = false) : exec (.enginePacketRx e q) s = .next (((s.unhand e q).letIn e q).rest e) :=
  (if_neg (by rw [hd, Bool.and_false]; exact Bool.false_ne_true)).trans (if_pos (by rw [hh, ho]; rfl))

/-! ### Loads (R291, R294, R298) -/

/-- A request whose completion has been received: counted, off the list, and what the link held let go. -/
def State.taken (s : State) (r : HostReq) (n : Nat) : State := ((s.cplRx r.port n).dropReqTag r.tag).sendHeld r.port

/-- A load whose word 0 is accepted: in its second phase, with that word. -/
def State.word0In (s : State) (e c w0 : Nat) : State :=
  s.modEng e fun x => { x with loads := updWhere (·.ctx == c) (fun l => { l with phase := 2, w0 := w0 % 2 ^ 64 }) x.loads }

/-- The oldest waiting load begins without a victim while fewer than 512 contexts are cached or under way. -/
theorem exec_ctxLoadStart_room {e : Fin 32} {l : Load} {s : State} (hl : (s.eng e).loads.find? (·.phase == 0) = some l)
    (hf : s.loadsRun e < s.get F.CTX_CFG_FETCH_MAX e) (hc : (s.cached e).length + s.loadsRun e < 512) :
    exec (.ctxLoadStart e) s = .next ((s.beginLoad e l.ctx).rest e) := by
  change execCtxLoadStart e s = _
  unfold execCtxLoadStart
  rw [hl]
  exact (if_neg (Nat.not_le_of_lt hf)).trans (if_pos hc)

/-- Word 0 of a load that is out: R287 settles whether the other words are read or the load ends. -/
theorem exec_ctxWord0Return_out {e : Fin 32} {c w0 : Nat} {r : HostReq} {s : State} (hr : s.reqFor e (.word0 c) = some r) :
    exec (.ctxWord0Return e c w0) s =
      let t := s.taken r 8
      let u := t.word0In e c w0
      if t.binds e c w0 then
        .next ((u.request e r.port 0 (.record c) fun tag => .hostRead tag r.port 0 [(u.loadRecord e c + 8, 504, false)]).rest e)
      else .next ((((t.wakeEvents e c w0).raise E.CTX_BIND_ERR e).loadEnds e c false).rest e) := by
  change execCtxWord0Return e c w0 s = _
  unfold execCtxWord0Return
  rw [hr]
  rfl

theorem exec_ctxLoadDone_out {e : Fin 32} {c : Nat} {ws : List Nat} {r : HostReq} {l : Load} {s : State}
    (hr : s.reqFor e (.record c) = some r) (hl : (s.eng e).loads.find? (·.ctx == c) = some l) : exec (.ctxLoadDone e c ws) s =
      .next ((((((s.taken r 504).loaded e c (l.w0 :: ws.map (· % 2 ^ 64))).each (List.range 8) fun s q =>
        s.addJob e (.poll c q)).rematch e c).pagesDue e c).rest e) := by
  change execCtxLoadDone e c ws s = _
  unfold execCtxLoadDone
  rw [hr, hl]
  rfl

theorem exec_ctxLoadFail_out {e : Fin 32} {c : Nat} {r : HostReq} {s : State}
    (hr : (s.reqFor e (.word0 c) <|> s.reqFor e (.record c)) = some r) :
    exec (.ctxLoadFail e c) s = .next (((s.taken r 0).loadEnds e c true).rest e) := by
  change execCtxLoadFail e c s = _
  unfold execCtxLoadFail
  rw [hr]
  rfl

/-! ### CTX_CMD (R299) -/

section CtxCmd

variable {e : Fin 32} {s : State}

theorem exec_evict_idle {c : Nat} (hc : (s.eng e).cmd.isSome = false) : exec (.evict e c) s =
    .next ((s.setCtxCmd e 1 (s.get F.CTX_CMD_RANGE e) c).ctxCmd e 1 [c % 2 ^ 20]) :=
  if_neg (ne_true_of_eq_false hc)

/-- A CLOSE of a cached context drops its pulls only; its matching goes with the context, at CTX_CMD_END. -/
theorem exec_close_cached {c : Nat} (hc : (s.eng e).cmd.isSome = false)
    (hk : ((s.setCtxCmd e 2 (s.get F.CTX_CMD_RANGE e) (c % 2 ^ 20)).ctx e (c % 2 ^ 20)).isSome = true) : exec (.close e c) s =
      .next ((((s.setCtxCmd e 2 (s.get F.CTX_CMD_RANGE e) (c % 2 ^ 20)).dropPulls e (c % 2 ^ 20)).ctxCmd e 2 [c % 2 ^ 20]).rest e) := by
  refine (if_neg (ne_true_of_eq_false hc)).trans ?_
  rw [if_pos hk]

theorem exec_evictRange_idle {n : Fin 2} (hc : (s.eng e).cmd.isSome = false) : exec (.evictRange e n) s =
    .next ((s.setCtxCmd e 3 n (s.get F.CTX_CMD_CTX e)).ctxCmd e 3 (((s.cached e).filter (·.rng == n.val)).map (·.num))) :=
  if_neg (ne_true_of_eq_false hc)

/-- The running command has dropped what it can: with no context left it ends, else it goes on with those left. -/
theorem exec_ctxCmdEnd_running {op : Nat} {l : List Nat} (hc : (s.eng e).cmd = some (op, l)) : exec (.ctxCmdEnd e) s =
    let t := s.each l fun s c => s.cmdDrop e op c
    let left := l.filter fun c => (t.ctx e c).isSome
    if left.isEmpty then .next ((t.cmdDone e).rest e)
    else .next ((t.modEng e fun x => { x with cmd := some (op, left) }).rest e) := by
  change execCtxCmdEnd e s = _
  unfold execCtxCmdEnd
  rw [hc]

end CtxCmd

/-! ### The user page (R328) -/

/-- Outside the safe state and an FLR of the function, an access to the page of a cached context is applied at once. -/
theorem State.pageAccess_cached {s : State} {e c : Nat} {a : PageAcc} {k : Ctx} (hf : s.inFlr a = none) (hs : s.safe = false)
    (hk : s.ctx e c = some k) : s.pageAccess e c a = s.pageApply e k a := by
  unfold State.pageAccess
  rw [hf]
  dsimp only
  rw [if_neg (ne_true_of_eq_false hs), hk]

theorem exec_userPageAccess_served {e : Fin 32} {c : Nat} {port : Fin 64} {func off len : Nat} {val : Option Nat} {s : State}
    (hr : (s.rangeOf e c).isSome = true) : exec (.userPageAccess e c port func off len val) s =
      .next ((s.pageAccess e c ⟨off % 4096, len, val, .fn port func⟩).rest e) := if_pos hr

/-- Settles O38: each clause is the case of the guard that its premises choose; the three of a range, the two of a word 0 and the end of a
command are one lemma's cases. -/
theorem contextCommands : Obligations.ContextCommands := by
  unfold Obligations.ContextCommands
  refine ⟨fun e n v s hv => ?_, fun e n v s ho => ?_, fun e n v s hv ho => ?_,
    fun e q s hd hh ho => exec_enginePacketRx_handed hd hh ho, fun e q s hh hd => exec_enginePacketRx_dead hh hd,
    fun e l s hl hf hc => exec_ctxLoadStart_room hl hf hc, fun e c w0 r s hr hb => (exec_ctxWord0Return_out hr).trans (if_pos hb),
    fun e c w0 r s hr hb => (exec_ctxWord0Return_out hr).trans (if_neg (ne_true_of_eq_false hb)),
    fun e c ws r l s hr hl => exec_ctxLoadDone_out hr hl, fun e c r s hr => exec_ctxLoadFail_out hr, fun e c s hc => exec_evict_idle hc,
    fun e c s hc hk => exec_close_cached hc hk, fun e n s hc => exec_evictRange_idle hc,
    fun e op l s hc hl => (exec_ctxCmdEnd_running hc).trans (if_pos hl), fun e c port func off len val k s hr hf hs hk => ?_⟩
  · rw [exec_ctxRangeWrite, hv]
    rfl
  · rw [exec_ctxRangeWrite, ho, Bool.and_false]
    rfl
  · rw [exec_ctxRangeWrite, hv, ho]
    rfl
  · rw [exec_userPageAccess_served hr, State.pageAccess_cached hf hs hk]

end Sys2Proof.Machine

/-!
Work queues, their entries and their records (R303 to R326, R477): each command by the case of its guard.
-/
namespace Sys2Proof.Machine
open Sys2Proof

/-! ### User-page writes (R305, R307, R309, R326) -/

section PageWrites

variable (e : Fin 32) (c : Nat) (q : Fin 8) (index : Nat) (port : Fin 64) (func : Nat) (s : State)

theorem exec_nudge : exec (.nudge e c q port func) s =
    .next ((s.pageAccess e c ⟨8 * q.val, 8, some 0, .fn port func⟩).rest e) := rfl

theorem exec_wqInval : exec (.wqInval e c q index port func) s =
    .next ((s.pageAccess e c ⟨0x40 + 8 * q.val, 8, some (index % 2 ^ 32), .fn port func⟩).rest e) := rfl

/-- RESET is bit 32 of the written word (Table 8.10). -/
theorem exec_wqCtlReset : exec (.wqCtlReset e c q index port func) s =
    .next ((s.pageAccess e c ⟨0xC0 + 8 * q.val, 8, some (index % 2 ^ 32 + 2 ^ 32), .fn port func⟩).rest e) := rfl

theorem exec_evqArm : exec (.evqArm e c port func) s =
    .next ((s.pageAccess e c ⟨0x110, 8, some 0, .fn port func⟩).rest e) := rfl

end PageWrites

section Cached

variable {e : Fin 32} {c : Nat} {q : Fin 8} {k : Ctx} {s : State}

/-! ### Draining and polls (R303, R309) -/

/-- A drained queue started anew at the INDEX of its WQ_CTL. -/
def State.startAnew (s : State) (e c q : Nat) (k : Ctx) : State :=
  s.modQ e c q fun w =>
    { w with st := 1, start := w.ctl, done := w.ctl, compNow := !k.faulted, pollAt := s.now, drop := w.out.isSome, bad := none }

theorem exec_queueDrainDone_drained (hk : s.ctx e c = some k) (hst : (k.q q).st = 3) (hl : (k.q q).live = []) :
    exec (.queueDrainDone e c q) s = .next ((s.startAnew e c q k).rest e) := by
  change execQueueDrainDone e c q s = _
  unfold execQueueDrainDone
  rw [hk]
  exact if_pos ⟨hst, List.isEmpty_iff.2 hl⟩

theorem exec_queuePoll_due (hk : s.ctx e c = some k) (hp : s.pollable e k q = true) (ht : (k.q q).pollAt ≤ s.now) :
    exec (.queuePoll e c q) s = .next ((s.addJob e (.poll c q)).rest e) := by
  change execQueuePoll e c q s = _
  unfold execQueuePoll
  rw [hk]
  exact if_pos (by rw [hp, decide_eq_true ht]; rfl)

/-! ### Entries (R308, R311, R477, R478) -/

theorem exec_entryStart_next {d : Desc} {l : List Desc} (hn : s.nextQueue e = some (c, q.val)) (hk : s.ctx e c = some k)
    (hd : (k.q q).cache = d :: l) : exec (.entryStart e) s = .next ((s.startEntry e k q d).rest e) := by
  change execEntryStart e s = _
  unfold execEntryStart
  rw [hn]
  dsimp only
  rw [hk]
  dsimp only
  rw [hd]

theorem exec_nop_begun {b : Begun} (hb : s.begunEntry e c q 0x0E = some b) : exec (.nop e c q) s =
    .next (((s.dropBegun e b).endEntry e c q b.idx b.desc { status := 0 }).rest e) := by
  change execNop e c q s = _
  unfold execNop
  rw [hb]

theorem exec_fence_begun {b : Begun} (hb : s.begunEntry e c q 8 = some b) : exec (.fence e c q) s =
    .next ((s.dropBegun e b).modQ e c q fun w => { w with fence := some (b.idx, b.desc) }) := by
  change execFence e c q s = _
  unfold execFence
  rw [hb]

/-- A FENCE that heads the entries of its queue has nothing left to wait for, and one without DURABLE needs no FLUSH. -/
theorem exec_fenceFinish_first {idx : Nat} {d : Desc} (hk : s.ctx e c = some k) (hf : (k.q q).fence = some (idx, d))
    (hl : (k.q q).live.head? = some idx) (hd : dFlag d 11 = false) : exec (.fenceFinish e c q) s =
      .next ((s.fenceEnd e c q idx d { status := 0 }).rest e) := by
  change execFenceFinish e c q s = _
  unfold execFenceFinish
  rw [hk]
  dsimp only
  rw [hf]
  exact (if_neg (not_not_intro hl)).trans (if_neg (ne_true_of_eq_false hd))

/-! ### Records (R318, R319, R321) -/

/-- A completion record of the queue is due: at once, or at the end of its coalescing time. -/
def State.compDue (s : State) (k : Ctx) (q : Nat) : Bool :=
  (k.q q).compNow || (match (k.q q).compFrom with
    | some t => s.passed t (k.qCoal q)
    | none => false)

theorem State.compDue_of_now (h : (k.q q).compNow = true) : s.compDue k q = true := Bool.or_eq_true_iff.2 (.inl h)

theorem State.compDue_of_passed {t : Nat} (hf : (k.q q).compFrom = some t) (hp : s.passed t (k.qCoal q) = true) :
    s.compDue k q = true := by
  unfold State.compDue
  rw [hf]
  exact Bool.or_eq_true_iff.2 (.inr hp)

theorem exec_completionRecordWrite_due (hk : s.ctx e c = some k) (hd : s.compDue k q = true) : exec (.completionRecordWrite e c q) s =
    .next ((s.addJob e (.comp c q)).rest e) := by
  change execCompletionRecordWrite e c q s = _
  unfold execCompletionRecordWrite
  rw [hk]
  exact if_pos hd

theorem exec_eventRecordWrite_room (hk : s.ctx e c = some k) (hu : k.evUsed < 2 ^ k.ringLog 3) : exec (.eventRecordWrite e c) s =
    .next ((s.addJob e (.event c)).rest e) := by
  change execEventRecordWrite e c s = _
  unfold execEventRecordWrite
  rw [hk]
  exact if_pos hu

/-- An error record of a cached context is written where its ring has room, and lost otherwise. -/
theorem exec_errorRecordWrite_cached (hk : s.ctx e c = some k) : exec (.errorRecordWrite e c) s =
    if k.errUsed < 2 ^ k.ringLog 4 then .next ((s.addJob e (.error c)).rest e) else .next ((s.loseError e c).rest e) := by
  change execErrorRecordWrite e c s = _
  unfold execErrorRecordWrite
  rw [hk]

end Cached

/-- Settles O39: the four user-page writes are the access to a cached page, and every other clause is the case of the guard that its
premises choose. -/
theorem queueCommands : Obligations.QueueCommands := by
  unfold Obligations.QueueCommands
  refine ⟨fun e c q port func k s hk hf hs => ?_, fun e c q index port func k s hk hf hs => ?_,
    fun e c q index port func k s hk hf hs => ?_, fun e c port func k s hk hf hs => ?_,
    fun e c q k s hk hst hl => exec_queueDrainDone_drained hk hst hl, fun e c q k s hk hp ht => exec_queuePoll_due hk hp ht,
    fun e c q k d l s hn hk hd => exec_entryStart_next hn hk hd, fun e c q b s hb => exec_nop_begun hb,
    fun e c q b s hb => exec_fence_begun hb, fun e c q k idx d s hk hf hl hd => exec_fenceFinish_first hk hf hl hd,
    fun e c q k s hk hn => exec_completionRecordWrite_due hk (State.compDue_of_now hn),
    fun e c q k t s hk hf hp => exec_completionRecordWrite_due hk (State.compDue_of_passed hf hp),
    fun e c k s hk hu => exec_eventRecordWrite_room hk hu, fun e c k s hk hu => (exec_errorRecordWrite_cached hk).trans (if_pos hu),
    fun e c k s hk hu => (exec_errorRecordWrite_cached hk).trans (if_neg (Nat.not_lt.2 hu))⟩
  · rw [exec_nudge, State.pageAccess_cached hf hs hk]
  · rw [exec_wqInval, State.pageAccess_cached hf hs hk]
  · rw [exec_wqCtlReset, State.pageAccess_cached hf hs hk]
  · rw [exec_evqArm, State.pageAccess_cached hf hs hk]

end Sys2Proof.Machine

/-!
Completions from the host (R303, R374, R475, R481, R499, R505, R575): a completion by what its request is, then the commands.
-/
namespace Sys2Proof.Machine
open Sys2Proof

section Completion

variable {e tag : Nat} {p : Purpose → Bool} {ok : Bool} {data : List Byte} {r : HostReq} {w : Purpose} {s : State}

/-- A completion for a request of the engine that is on the list with a purpose of the command's kind, its TLP sent (R481, R575). -/
theorem State.completion_listed (hr : s.reqOf tag = some r) (he : r.eng = e) (hw : r.why = w) (hu : s.unsentTag tag = false)
    (hp : p w = true) : s.completion e tag p ok data =
      let t := s.cplRx r.port data.length
      if r.ended || r.closed then ((t.dropReqTag tag).inc F.HPT_CNT_C_LATE_CPL r.port).sendHeld r.port
      else (t.endReq r ok data).sendHeld r.port := by
  have hg : (r.eng != e || !p r.why || s.unsentTag tag) = false := by
    rw [he, hw, hp, hu, bne_self_eq_false]
    rfl
  unfold State.completion
  rw [hr]
  dsimp only
  rw [hg]
  rfl

/-- A completion in time ends its request. -/
theorem State.completion_out (hr : s.reqOf tag = some r) (he : r.eng = e) (hw : r.why = w) (hu : s.unsentTag tag = false)
    (hend : r.ended = false) (hclo : r.closed = false) (hp : p w = true) :
    s.completion e tag p ok data = ((s.cplRx r.port data.length).endReq r ok data).sendHeld r.port := by
  rw [State.completion_listed hr he hw hu hp, hend, hclo]
  rfl

/-- A completion after a timeout is only counted, and its request leaves the list (R575). -/
theorem State.completion_late (hr : s.reqOf tag = some r) (he : r.eng = e) (hw : r.why = w) (hu : s.unsentTag tag = false)
    (hclo : r.closed = true) (hp : p w = true) : s.completion e tag p ok data =
      (((s.cplRx r.port data.length).dropReqTag tag).inc F.HPT_CNT_C_LATE_CPL r.port).sendHeld r.port := by
  rw [State.completion_listed hr he hw hu hp, hclo, Bool.or_true]
  rfl

end Completion

/-- Settles O42: every command is a completion whose test of the purpose accepts its own kind, in time or late. -/
theorem hostReturnCommands : Obligations.HostReturnCommands := by
  unfold Obligations.HostReturnCommands
  refine ⟨
    fun e tag ok data r c q first n s hr he hw hu hend hclo => congrArg Host.Outcome.next (State.completion_out hr he hw hu hend hclo ?_),
    fun e tag ok data r c page s hr he hw hu hend hclo => congrArg Host.Outcome.next (State.completion_out hr he hw hu hend hclo ?_),
    fun e tag ok data r c page s hr he hw hu hend hclo => congrArg Host.Outcome.next (State.completion_out hr he hw hu hend hclo ?_),
    fun e tag ok r f s hr he hw hu hend hclo => congrArg Host.Outcome.next (State.completion_out hr he hw hu hend hclo ?_),
    fun e tag ok data r q s hr he hw hu hend hclo => congrArg Host.Outcome.next (State.completion_out hr he hw hu hend hclo ?_),
    fun e tag ok data r slot gen poff s hr he hw hu hend hclo => congrArg Host.Outcome.next (State.completion_out hr he hw hu hend hclo ?_),
    fun e tag ok data r slot gen poff s hr he hw hu hclo => congrArg Host.Outcome.next (State.completion_late hr he hw hu hclo ?_)⟩
  all_goals rfl

end Sys2Proof.Machine

/-!
Operations and their answers (R334 to R379): the launch of an operation, requests at the target, responses and timers at the
initiator, the caches and the rates, each command by the case of its guard.
-/
namespace Sys2Proof.Machine
open Sys2Proof

/-! ### Launching (R334, R340, R367, R373, R394, R524) -/

/-- An operation begun, with all its packets to be sent. -/
def State.beginOp (s : State) (e slot : Nat) : State := s.modOp e slot fun o => { o with begun := true, unsent := o.all 0 }

theorem State.launch_fresh {s : State} {e slot : Nat} {o : Op} (ho : s.op e slot = some o) (hb : o.begun = false) (hh : o.held = none) :
    s.launch e slot o.kind =
      if o.kind = 3 then (s.beginOp e slot).issueSegment e slot else (s.beginOp e slot).pump e slot := by
  unfold State.launch
  rw [ho]
  exact if_pos ⟨rfl, by rw [hb]; rfl, by rw [hh]; rfl⟩

/-- A command that launches operations of a kind other than GET queues all packets of a fresh one and sends those that may leave. -/
theorem exec_launch_packets {n : Nat} {cmd : Fin 32 → Fin 2048 → Instr} (hn : n ≠ 3)
    (hc : ∀ e slot s, exec (cmd e slot) s = .next ((s.launch e slot n).rest e)) (e : Fin 32) (slot : Fin 2048) (o : Op) (s : State)
    (ho : s.op e slot = some o) (hk : o.kind = n) (hb : o.begun = false) (hh : o.held = none) :
    exec (cmd e slot) s = .next (((s.beginOp e slot).pump e slot).rest e) := by
  subst hk
  rw [hc, State.launch_fresh ho hb hh, if_neg hn]

theorem exec_get_fresh {e : Fin 32} {slot : Fin 2048} {o : Op} {s : State} (ho : s.op e slot = some o) (hk : o.kind = 3)
    (hb : o.begun = false) (hh : o.held = none) : exec (.get e slot) s = .next (((s.beginOp e slot).issueSegment e slot).rest e) := by
  change Host.Outcome.next ((s.launch e slot 3).rest e) = _
  rw [← hk, State.launch_fresh ho hb hh, if_pos hk]

/-- Settles O40: nine commands are one launch, whose fresh operation sends its packets; that of a GET issues a segment instead. -/
theorem operationIssueCommands : Obligations.OperationIssueCommands := by
  unfold Obligations.OperationIssueCommands
  refine ⟨exec_launch_packets (cmd := .put) ?_ fun _ _ _ => rfl, exec_launch_packets (cmd := .putFlag) ?_ fun _ _ _ => rfl,
    exec_launch_packets (cmd := .send) ?_ fun _ _ _ => rfl, exec_launch_packets (cmd := .atomicAdd) ?_ fun _ _ _ => rfl,
    exec_launch_packets (cmd := .atomicFadd) ?_ fun _ _ _ => rfl, exec_launch_packets (cmd := .atomicCas) ?_ fun _ _ _ => rfl,
    exec_launch_packets (cmd := .lockAcq) ?_ fun _ _ _ => rfl, exec_launch_packets (cmd := .lockRel) ?_ fun _ _ _ => rfl,
    exec_launch_packets (cmd := .lockRenew) ?_ fun _ _ _ => rfl,
    fun e slot o s ho hk hb hh => exec_get_fresh ho hk hb hh, fun e slot s => rfl⟩
  all_goals decide

/-! ### Requests at the target (R347, R365, R370, R479) -/

section Requests

variable {e : Fin 32} {q : Packet} {s t u : State}

theorem exec_putPacketRx_arrived (ha : s.arrived e q 0 [1, 2] = (t, true)) :
    exec (.putPacketRx e q) s = .next ((t.addJob e (.req q)).rest e) := by
  change execPutPacketRx e q s = _
  unfold execPutPacketRx
  rw [ha]

theorem exec_getReqRx_arrived (ha : s.arrived e q 0 [3] = (t, true)) :
    exec (.getReqRx e q) s = .next ((t.addJob e (.req q)).rest e) := by
  change execGetReqRx e q s = _
  unfold execGetReqRx
  rw [ha]

theorem exec_atomicRequestRx_new (ha : s.arrived e q 0 [5, 6, 7] = (t, true)) (hd : t.dupLookup e q = (u, .new)) :
    exec (.atomicRequestRx e q) s = .next (((u.dupPend e q).addJob e (.req q)).rest e) := by
  change execAtomicRequestRx e q s = _
  unfold execAtomicRequestRx
  rw [ha]
  dsimp only
  rw [hd]

theorem exec_flushRx_cached {k : Ctx} (ha : s.arrived e q 0 [0x20] = (t, true)) (hk : t.ctx e (pTctx q) = some k) :
    exec (.flushRx e q) s = .next ((t.flushRead e k 0 false (.ack q)).rest e) := by
  change execFlushRx e q s = _
  unfold execFlushRx
  rw [ha]
  dsimp only
  rw [hk]

end Requests

/-- Settles O41: every request that reaches its handling is the case of its arrival that is taken. -/
theorem rmaRequestCommands : Obligations.RmaRequestCommands := by
  unfold Obligations.RmaRequestCommands
  exact ⟨fun e q s ha => exec_putPacketRx_arrived (Prod.ext rfl ha), fun e q s ha => exec_getReqRx_arrived (Prod.ext rfl ha),
    fun e q s ha hd => exec_atomicRequestRx_new (Prod.ext rfl ha) (Prod.ext rfl hd),
    fun e q k s ha hk => exec_flushRx_cached (Prod.ext rfl ha) hk⟩

/-! ### Responses at the initiator (R344, R353 to R358, R371, R376) -/

section Responses

variable {e : Fin 32} {q : Packet} {slot : Nat} {o : Op} {s t : State}

/-- A response of the current attempt to an operation without an outcome passes the test that the refusals and SACK share. -/
theorem current_of_attempt (hh : o.held = none) (ha : pAttempt q = o.attempt) : (o.held.isSome || pAttempt q != o.attempt) = false := by
  rw [hh, ha, bne_self_eq_false]
  rfl

theorem exec_ackRx_ends (hr : s.response e q 0x40 = (t, some (slot, o))) (hh : o.held = none) (hk : ackEnds o.kind = true) :
    exec (.ackRx e q) s =
      let v := if o.kind = 6 then q.w6 % 2 ^ 64 else if o.kind = 7 then q.w6 % 2 ^ 64 + q.w7 % 2 ^ 64 * 2 ^ 64 else 0
      .next (((t.gather e o.dest (pPkts q) (pMarks q)).endOp e slot { status := 0, info := v }).rest e) := by
  change execAckRx e q s = _
  unfold execAckRx
  rw [hr]
  exact if_neg (by rw [hh, hk]; exact Bool.false_ne_true)

/-- Kinds whose packets a SACK may name: PUT, PUT_FLAG and an eager SEND (R353). -/
theorem sackable_of_kind (hk : o.kind = 1 ∨ o.kind = 2 ∨ o.kind = 4 ∧ o.rdv = false) :
    (o.kind == 1 || o.kind == 2 || (o.kind == 4 && !o.rdv)) = true := by
  obtain hk | hk | ⟨hk, hv⟩ := hk
  · rw [hk]
    rfl
  · rw [hk]
    rfl
  · rw [hk, hv]
    rfl

/-- With the hole window open, the packets in the ranges of a SACK are sent again, save those still to be sent (R353, R361). -/
theorem exec_sackRx_open (hr : s.response e q 0x41 = (t, some (slot, o))) (hh : o.held = none) (ha : pAttempt q = o.attempt)
    (hk : o.kind = 1 ∨ o.kind = 2 ∨ o.kind = 4 ∧ o.rdv = false)
    (ho : (t.gather e o.dest (pPkts q) (pMarks q)).holeOpen e o = true) : exec (.sackRx e q) s =
      let g := t.gather e o.dest (pPkts q) (pMarks q)
      let l := (pieces 0 o.total 2).filter fun p => (sackRanges q).any fun r => decide (r.1 ≤ p.poff ∧ p.poff < r.1 + r.2)
      .next ((((g.modOp e slot fun x => { x with timer := some g.now }).queueSegs e slot (g.unasked e slot o l)).pump e slot).rest e) := by
  change execSackRx e q s = _
  unfold execSackRx
  rw [hr]
  dsimp only
  rw [current_of_attempt hh ha, sackable_of_kind hk, ho]
  rfl

/-- A NACK_BUSY of the current attempt is counted; the operation ends at MAX_TRIES, else its packet waits a drawn time (R354, R355). -/
theorem exec_nackBusyRx_current (hr : s.response e q 0x42 = (t, some (slot, o))) (hh : o.held = none) (ha : pAttempt q = o.attempt) :
    exec (.nackBusyRx e q) s =
      let u := (t.count 21 e 0x44).modOp e slot fun x => { x with busyN := o.busyN + 1 }
      if u.get F.RMA_BUSY_MAX_TRIES e ≤ o.busyN + 1 then .next ((u.exhaust e slot).rest e)
      else .next ((u.drawn.modOp e slot fun x =>
        { x with backoff := x.backoff ++ [(pNackPoff q, u.now + u.busyWait e (o.busyN + 1) o)] }).rest e) := by
  change execNackBusyRx e q s = _
  unfold execNackBusyRx
  rw [hr]
  exact if_neg (ne_true_of_eq_false (current_of_attempt hh ha))

theorem exec_nackAccessRx_current (hr : s.response e q 0x43 = (t, some (slot, o))) (hh : o.held = none) (ha : pAttempt q = o.attempt) :
    exec (.nackAccessRx e q) s =
      .next ((t.endOp e slot { status := 1, detail := pCode q, addr := dw o.desc 2 + pNackPoff q }).rest e) := by
  change execNackAccessRx e q s = _
  unfold execNackAccessRx
  rw [hr]
  exact if_neg (ne_true_of_eq_false (current_of_attempt hh ha))

/-- The payload offset of a GET_DATA lies in the segment. -/
def GetSeg.holds (q : Packet) (g : GetSeg) : Bool := decide (g.poff ≤ pPoff q ∧ pPoff q < g.poff + g.len)

/-- A GET_DATA for a GET or a pull that has no outcome: placed when it is of the current attempt and still missing, else stale. -/
theorem exec_getDataRx_awaited (hr : s.response e q 0x44 = (t, some (slot, o))) (hh : o.held = none) (hk : o.kind = 3 ∨ o.kind = 0x109) :
    exec (.getDataRx e q) s =
      if pAttempt q != o.attempt || !o.segs.any (fun g => g.holds q && !g.got.contains (pPoff q)) then .next ((t.stale e).rest e)
      else .next ((((t.gather e o.dest 1 (b2n q.ce)).modOp e slot fun x => { x with
        segs := updWhere (GetSeg.holds q) (fun g => { g with got := g.got ++ [pPoff q], last := t.now }) x.segs,
        timer := some t.now }).addJob e (.getData slot o.gen q)).rest e) := by
  have hg : (o.held.isSome || !(o.kind == 3 || o.kind == 0x109)) = false := by
    obtain hk | hk := hk
    all_goals
      rw [hh, hk]
      rfl
  change execGetDataRx e q s = _
  unfold execGetDataRx
  rw [hr]
  exact if_neg (ne_true_of_eq_false hg)

end Responses

/-- Settles O43: every response is the case of what it names; the two of a NACK_BUSY and the two of GET_DATA are one lemma's cases. -/
theorem rmaResponseCommands : Obligations.RmaResponseCommands := by
  unfold Obligations.RmaResponseCommands
  refine ⟨fun e q slot o s hr hh hk => exec_ackRx_ends (Prod.ext rfl hr) hh hk,
    fun e q slot o s hr hh ha hk ho => exec_sackRx_open (Prod.ext rfl hr) hh ha hk ho,
    fun e q slot o s hr hh ha hn => (exec_nackBusyRx_current (Prod.ext rfl hr) hh ha).trans (if_pos hn),
    fun e q slot o s hr hh ha hn => (exec_nackBusyRx_current (Prod.ext rfl hr) hh ha).trans (if_neg (Nat.not_le_of_lt hn)),
    fun e q slot o s hr hh ha => exec_nackAccessRx_current (Prod.ext rfl hr) hh ha,
    fun e q slot o s hr hh hk ha hm => (exec_getDataRx_awaited (Prod.ext rfl hr) hh hk).trans (if_neg ?_),
    fun e q slot o s hr hh hk ha => (exec_getDataRx_awaited (Prod.ext rfl hr) hh hk).trans (if_pos ?_)⟩
  · have hm' : o.segs.any (fun g => g.holds q && !g.got.contains (pPoff q)) = true := hm
    rw [ha, hm', bne_self_eq_false]
    exact Bool.false_ne_true
  · rw [bne_iff_ne.2 ha, Bool.true_or]

/-! ### Timers (R349 to R356, R365, R372) -/

section Timers

variable {e : Fin 32} {slot : Fin 2048} {o : Op} {s : State}

/-- The waits of an offset that are over leave the operation, and its packet is sent again unless it is still to be sent (R354). -/
theorem exec_busyBackoffExpiry_over {poff : Nat} (ho : s.op e slot = some o)
    (hb : o.backoff.any (fun b => b.1 == poff && decide (b.2 ≤ s.now)) = true) : exec (.busyBackoffExpiry e slot poff) s =
      let u := s.modOp e slot fun o => { o with backoff := o.backoff.filter fun b => !(b.1 == poff && decide (b.2 ≤ s.now)) }
      let x := (u.op e slot).getD o
      .next (((u.queueSegs e slot (u.unasked e slot x (x.pieceAt poff))).pump e slot).rest e) := by
  change execBusyBackoffExpiry e slot poff s = _
  unfold execBusyBackoffExpiry
  rw [ho]
  exact if_pos hb

theorem exec_holeTimeout_tracker {src opid : Nat} {t : Tracker} (ht : s.tracker e src opid = some t) :
    exec (.holeTimeout e false src opid) s = .next ((s.trackerTimeout e t).rest e) := by
  change execHoleTimeout e false src opid s = _
  unfold execHoleTimeout
  rw [if_neg Bool.false_ne_true, ht]

theorem exec_holeTimeout_get {src opid : Nat} (ho : s.opGen e (opid % 2048) (opid / 2048) = some o) (hk : o.kind = 3 ∨ o.kind = 0x109) :
    exec (.holeTimeout e true src opid) s = .next ((s.getTimeout e (opid % 2048) o).rest e) := by
  change execHoleTimeout e true src opid s = _
  unfold execHoleTimeout
  rw [if_pos rfl, ho]
  exact if_pos hk

/-- After TIMEOUT an operation without an outcome ends when its attempts are used up, else it begins a new one (R352, R355). -/
theorem exec_retryTimeout_past {t : Nat} (ho : s.op e slot = some o) (ht : o.timer = some t) (hh : o.held = none)
    (hp : s.past t (s.tR e o.dest o.tu) = true) : exec (.retryTimeout e slot) s =
      if s.get F.RMA_RTX_MAX_RETRY e + b2n o.probe ≤ o.tries then .next ((s.exhaust e slot).rest e)
      else .next ((s.newAttempt e slot).rest e) := by
  change execRetryTimeout e slot s = _
  unfold execRetryTimeout
  rw [ho]
  dsimp only
  rw [ht]
  exact if_neg (by rw [hh, hp]; exact Bool.false_ne_true)

theorem exec_completionHoldEnd_over {x : Ending} (ho : s.op e slot = some o) (hx : o.held = some x) (hd : s.holdOver e slot o = true) :
    exec (.completionHoldEnd e slot) s = .next ((s.conclude e slot o x).rest e) := by
  change execCompletionHoldEnd e slot s = _
  unfold execCompletionHoldEnd
  rw [ho]
  dsimp only
  rw [hx]
  exact if_pos hd

/-- A done entry of the filter that has reached its expiry is freed, and the pulls that waited for one answer (R365, R398). -/
theorem exec_dupExpiry_done {u : Fin 8} {src opid : Nat} {d : Dup} (hf : s.dupFind u src opid = some d) (hx : d.expiry ≤ s.now)
    (hd : d.done = true) : exec (.dupExpiry u src opid) s =
      .next ((s.modUnit u fun x => { x with dup := x.dup.erase d }).each ((List.range 4).map (4 * u.val + ·)) fun s e =>
        (s.pullsWaiting e).rest e) := by
  change execDupExpiry u src opid s = _
  unfold execDupExpiry
  rw [hf]
  refine (if_pos ⟨hx, .inl hd⟩).trans ?_
  dsimp only
  rw [if_pos hd]

end Timers

/-! ### The caches (R342, R375) -/

/-- The regions that a word of RMA_REG_INVAL names: one, those of a context, or all (R342). -/
def regionHit (v a b : Nat) : Bool :=
  if bits v 40 2 = 0 then a == bits v 0 20 && b == bits v 20 20 else if bits v 40 2 = 1 then a == bits v 0 20 else bits v 40 2 == 2

theorem exec_regInval_go {e : Fin 32} {v : Nat} {s : State} (hv : bit v 48 = true) : exec (.regInval e v) s =
    .next ((((((s.set F.RMA_REG_INVAL_CTX (bits v 0 20) e).set F.RMA_REG_INVAL_REGION (bits v 20 20) e).set F.RMA_REG_INVAL_SCOPE
      (bits v 40 2) e).modEng e fun x => { x with regions := x.regions.filter fun y => !regionHit v y.ctx y.reg }).rereadRegions e
        (regionHit v)).rest e) := if_pos hv

theorem exec_acacheFlush_flush {e : Fin 32} {v : Nat} {s : State} (hv : bit v 48 = true) : exec (.acacheFlush e v) s =
    .next (((s.set F.RMA_ACACHE_CTX (bits v 0 20) e).set F.RMA_ACACHE_ALL (bits v 20 1) e).writeBackLines e fun l =>
      bit v 20 || l.users.any (·.1 == bits v 0 20)) := if_pos hv

/-! ### Rates (R377 to R379) -/

/-- A congestion entry after a period: raised by `step` up to `line`, or with its decrease forgotten. -/
def CC.afterPeriod (line step : Nat) (x : CC) : CC :=
  if x.dec then { x with dec := false } else { x with rate := min line (x.rate + step) }

/-- The congestion entries after a period; those at `line` are freed (R377). -/
def ratesAfter (line step : Nat) (l : List CC) : List CC := (l.map (CC.afterPeriod line step)).filter fun x => x.rate < line

section Rates

variable {line step : Nat} {x y : CC} {l : List CC}

theorem CC.afterPeriod_decreased (hd : x.dec = true) : x.afterPeriod line step = { x with dec := false } := if_pos hd

theorem CC.afterPeriod_raised (hd : x.dec = false) : x.afterPeriod line step = { x with rate := min line (x.rate + step) } :=
  if_neg (ne_true_of_eq_false hd)

/-- An entry that did not decrease stands raised, unless it has reached `line`. -/
theorem raised_mem_ratesAfter (hx : x ∈ l) (hd : x.dec = false) :
    { x with rate := min line (x.rate + step) } ∈ ratesAfter line step l ∨ line ≤ x.rate + step := by
  rcases Nat.lt_or_ge (x.rate + step) line with hlt | hge
  · have hr : min line (x.rate + step) < line := Nat.lt_of_le_of_lt (Nat.min_le_right _ _) hlt
    exact .inl (List.mem_filter.2 ⟨List.mem_map.2 ⟨x, hx, CC.afterPeriod_raised hd⟩, decide_eq_true hr⟩)
  · exact .inr hge

/-- Every entry of the table comes from one before the period, whose rate it keeps or raises. -/
theorem source_of_mem_ratesAfter (hy : y ∈ ratesAfter line step l) : ∃ x ∈ l, y.dest = x.dest ∧
    (x.dec = true ∧ y.rate = x.rate ∨ x.dec = false ∧ y.rate = x.rate + step ∧ y.rate < line) := by
  obtain ⟨hm, hlt⟩ := List.mem_filter.1 hy
  obtain ⟨x, hx, rfl⟩ := List.mem_map.1 hm
  refine ⟨x, hx, ?_⟩
  rcases hd : x.dec with _ | _
  · rw [CC.afterPeriod_raised hd] at hlt ⊢
    have hr : min line (x.rate + step) < line := of_decide_eq_true hlt
    exact ⟨rfl, .inr ⟨rfl, by dsimp only; omega, hr⟩⟩
  · rw [CC.afterPeriod_decreased hd]
    exact ⟨rfl, .inl ⟨rfl, rfl⟩⟩

end Rates

theorem State.eng_modEng (s : State) (e : Nat) (g : Eng → Eng) : (s.modEng e g).eng e = g (s.eng e) := Tab.get_modify_same _ _ _ _

/-- The state after a rate increase: a new period begun at the last multiple of 64 ns of elapsed MT, and the rates after the old one. -/
def State.ratesRisen (s : State) (e : Nat) : State :=
  State.modEng { s with marks := s.marks.insert (markRate e) (s.clk.base + (s.now - s.clk.base) / ns 64 * ns 64) } e fun y =>
    { y with cc := ratesAfter (s.get F.RMA_CC_RATE_LINE e) (s.get F.RMA_CC_RATE_STEP e) y.cc }

theorem State.ratesRisen_cc (s : State) (e : Nat) : ((s.ratesRisen e).eng e).cc =
    ratesAfter (s.get F.RMA_CC_RATE_LINE e) (s.get F.RMA_CC_RATE_STEP e) (s.eng e).cc :=
  congrArg Eng.cc (State.eng_modEng _ e _)

theorem exec_rateIncrease_due {e : Fin 32} {s : State}
    (hp : s.past (Tab.get s.clk.base s.marks (markRate e)) (64 * s.get F.RMA_CC_INC_PERIOD e) = true) :
    exec (.rateIncrease e) s = .next (s.ratesRisen e) := if_pos hp

theorem exec_decGapExpiry_open {e : Fin 32} {dest : Nat} {s : State} (hd : s.decOpen e (s.gathered e dest) = true) :
    exec (.decGapExpiry e dest) s = .next (s.decrease e dest (s.gathered e dest)) := if_pos hd

/-- Settles O44: every command is the case of its guard that the premises choose; the two of a retry are one lemma's cases. -/
theorem rmaTimerCommands : Obligations.RmaTimerCommands := by
  unfold Obligations.RmaTimerCommands
  refine ⟨fun e slot poff o s ho hb => exec_busyBackoffExpiry_over ho hb, fun e src opid t s ht => exec_holeTimeout_tracker ht,
    fun e src opid o s ho hk => exec_holeTimeout_get ho hk,
    fun e slot o t s ho ht hh hp hn => (exec_retryTimeout_past ho ht hh hp).trans (if_neg (Nat.not_le_of_lt hn)),
    fun e slot o t s ho ht hh hp hn => (exec_retryTimeout_past ho ht hh hp).trans (if_pos hn),
    fun e slot o x s ho hx hd => exec_completionHoldEnd_over ho hx hd, fun u src opid d s hf hx hd => exec_dupExpiry_done hf hx hd,
    fun e v hit s hv hh => ?_, fun e v s hv => exec_acacheFlush_flush hv, fun e s hp => exec_rateIncrease_due hp,
    fun e dest s hd => exec_decGapExpiry_open hd⟩
  subst hh
  exact exec_regInval_go hv

/-- Settles O57: the table after a period is `ratesAfter` of the table before it. -/
theorem ratesRiseOncePerPeriod : Obligations.RatesRiseOncePerPeriod := by
  unfold Obligations.RatesRiseOncePerPeriod
  intro e s hp
  refine ⟨s.ratesRisen e, exec_rateIncrease_due hp, ?_⟩
  rw [State.ratesRisen_cc]
  exact ⟨fun x hx hd => raised_mem_ratesAfter hx hd, fun y hy => source_of_mem_ratesAfter hy⟩

end Sys2Proof.Machine

/-!
Matching and ordered streams (R392 to R411): receives, arrivals at the target's matching, the rendezvous and the expiries of stream
entries, each command by the case of its guard.
-/
namespace Sys2Proof.Machine
open Sys2Proof

section Matching

variable {e : Fin 32} {c : Nat} {s t : State}

/-! ### Receives (R392, R407, R410, R411) -/

section Receives

variable {q : Fin 8} {b : Begun} {k : Ctx}

/-- A begun MODE 0 entry waits while the event ring has no room for its hand-over, else it is posted (R392, R407). -/
theorem exec_recvPost_begun (hb : s.recvEntry e c q 0 = some b) (hk : s.ctx e c = some k) : exec (.recvPost e c q) s =
    if s.postWaits e k b.desc then .next s else .next (((s.dropBegun e b).post0 e k q b.idx b.desc).rest e) := by
  change execRecvPost e c q s = _
  unfold execRecvPost
  rw [hb, hk]

theorem exec_recvClaim_begun (hb : s.recvEntry e c q 1 = some b) (hk : s.ctx e c = some k) : exec (.recvClaim e c q) s =
    .next ((((s.dropBegun e b).endEntry e c q b.idx b.desc { status := 0 }).claim1 e k q b.idx b.desc).rest e) := by
  change execRecvClaim e c q s = _
  unfold execRecvClaim
  rw [hb, hk]

theorem exec_recvResume_begun (hb : s.recvEntry e c q 2 = some b) : exec (.recvResume e c q) s =
    .next ((((s.dropBegun e b).endEntry e c q b.idx b.desc { status := 0 }).modCtx e c fun k => { k with ovf := false }).rest e) := by
  change execRecvResume e c q s = _
  unfold execRecvResume
  rw [hb]

end Receives

/-! ### Arrivals and the rendezvous (R397, R399 to R401) -/

section Arrivals

variable {q : Packet} {k : Ctx} {slot : Nat} {o : Op}

/-- What SEND_PACKET_RX and RTS_RX do with an arriving packet of their kind (R401). -/
def matchArrival (kind : Nat) (e : Fin 32) (q : Packet) (s : State) : Host.Outcome State Fault Refusal :=
  match s.arrived e q 0 [kind] with
  | (s, true) => match s.ctx e (pTctx q) with
    | some k => .next ((s.sendRx e k q).rest e)
    | none => .next s
  | (s, false) => .next (s.rest e)

theorem exec_sendPacketRx (e : Fin 32) (q : Packet) (s : State) : exec (.sendPacketRx e q) s = matchArrival 4 e q s := rfl

theorem exec_rtsRx (e : Fin 32) (q : Packet) (s : State) : exec (.rtsRx e q) s = matchArrival 8 e q s := rfl

/-- A packet that reaches its handling, its context cached, enters the target's matching. -/
theorem matchArrival_cached {kind : Nat} (ha : s.arrived e q 0 [kind] = (t, true)) (hk : t.ctx e (pTctx q) = some k) :
    matchArrival kind e q s = .next ((t.sendRx e k q).rest e) := by
  unfold matchArrival
  rw [ha]
  dsimp only
  rw [hk]

theorem exec_rdvGetRx_arrived (ha : s.arrived e q 0 [9] = (t, true)) :
    exec (.rdvGetRx e q) s = .next ((t.addJob e (.rdv q)).rest e) := by
  change execRdvGetRx e q s = _
  unfold execRdvGetRx
  rw [ha]

/-- An accepted SEND without an outcome becomes a rendezvous whose attempts are probes (R397, R400). -/
theorem exec_rdvAcceptRx_send (hr : s.response e q 0x45 = (t, some (slot, o))) (hh : o.held = none) (hk : o.kind = 4) :
    exec (.rdvAcceptRx e q) s = .next ((t.modOp e slot fun o =>
      { o with rdv := true, probe := true, tries := 0, unsent := [], buf := none, backoff := [] }).rest e) := by
  change execRdvAcceptRx e q s = _
  unfold execRdvAcceptRx
  rw [hr]
  exact if_neg (by rw [hh, hk]; exact Bool.false_ne_true)

end Arrivals

/-! ### Streams (R402 to R404) -/

/-- A gap is over once a held message of the stream has waited WINDOW: it is counted, and the run from the lowest held SSEQ is
released (R404). -/
theorem exec_gapWindowExpiry_over {src sctx sq tctx : Nat} {m : Msg} {x : RxStream} {k : Known}
    (hm : m = ⟨tctx, src, sctx, 0, 0, 0, 0, false, false⟩) (hx : (s.eng e).rx.find? (fun x => x.is m sq) = some x)
    (hw : (s.heldOf e m sq).any (fun k => s.past k.at_ (s.tWindow e x.tu)) = true)
    (hl : lowestFrom x.expect (s.heldOf e m sq) = some k) : exec (.gapWindowExpiry e src sctx sq tctx) s =
      .next ((((((s.inc F.MAT_CNT_C_GAP_SKIP e).raise E.MAT_GAP_SKIP e).count 22 e 0x46).modRx e m sq fun x =>
        { x with expect := k.sseq }).releaseRun e m sq true ((s.heldOf e m sq).length + 1)).rest e) := by
  change execGapWindowExpiry e src sctx sq tctx s = _
  unfold execGapWindowExpiry
  rw [← hm]
  dsimp only
  rw [hx]
  dsimp only
  rw [if_pos hw, hl]

end Matching

/-- Settles O45: each clause is the case of the guard that its premises choose; SEND_PACKET_RX and RTS_RX are one lemma's cases, and the
expiry of a send-side entry has no guard. -/
theorem matchingCommands : Obligations.MatchingCommands := by
  unfold Obligations.MatchingCommands
  exact ⟨fun e c q b k s hb hk hw => (exec_recvPost_begun hb hk).trans (if_neg (ne_true_of_eq_false hw)),
    fun e c q b k s hb hk => exec_recvClaim_begun hb hk, fun e c q b s hb => exec_recvResume_begun hb,
    fun e q k s ha hk => (exec_sendPacketRx e q s).trans (matchArrival_cached (Prod.ext rfl ha) hk),
    fun e q k s ha hk => (exec_rtsRx e q s).trans (matchArrival_cached (Prod.ext rfl ha) hk),
    fun e q s ha => exec_rdvGetRx_arrived (Prod.ext rfl ha),
    fun e q slot o s hr hh hk => exec_rdvAcceptRx_send (Prod.ext rfl hr) hh hk,
    fun e src sctx sq tctx m x k s hm hx hw hl => exec_gapWindowExpiry_over hm hx hw hl, fun e c q dest tctx s => rfl⟩

end Sys2Proof.Machine

/-!
Constellations (R431 to R461): the commands of a collective unit, COLL, the group packets, prune notices and time-outs, each command by
the case of its guard.
-/
namespace Sys2Proof.Machine
open Sys2Proof

section Collectives

variable {s : State}

/-! ### Commands of a unit (R431) -/

/-- How SETUP, RELEASE and RESET end in a state `s` that has recorded COL_CMD: with the group's new state and ERR 0 where no check
fails, else with the code of the check and the group as it was. -/
def colCmdEnd (u : Nat) (s acted : State) (code : Nat) : Host.Outcome State Fault Refusal :=
  if code = 0 then .next (acted.colErr u 0) else .next (s.colErr u code)

section ColCmd

variable {u : Nat} {acted : State} {code : Nat}

theorem colCmdEnd_passed (h : code = 0) : colCmdEnd u s acted code = .next (acted.colErr u 0) := if_pos h

theorem colCmdEnd_failed (h : code ≠ 0) : colCmdEnd u s acted code = .next (s.colErr u code) := if_neg h

end ColCmd

theorem exec_setup (u : Fin 8) (g : Fin 4096) (seq : Nat) (s : State) : exec (.setup u g seq) s =
    colCmdEnd u (s.setColCmd u 1 g seq) ((s.setColCmd u 1 g seq).setupGroup u g (seq % 2 ^ 16))
      ((s.setColCmd u 1 g seq).setupErr u g) := rfl

theorem exec_release (u : Fin 8) (g : Fin 4096) (s : State) : exec (.release u g) s =
    colCmdEnd u (s.setColCmd u 2 g (s.get F.COL_CMD_SEQ u)) ((s.setColCmd u 2 g (s.get F.COL_CMD_SEQ u)).releaseGroup u g)
      ((s.setColCmd u 2 g (s.get F.COL_CMD_SEQ u)).releaseErr u g) := rfl

/-- RESET is a RELEASE and a SETUP behind the checks of RELEASE alone. -/
theorem exec_reset (u : Fin 8) (g : Fin 4096) (seq : Nat) (s : State) : exec (.reset u g seq) s =
    colCmdEnd u (s.setColCmd u 3 g seq) (((s.setColCmd u 3 g seq).releaseGroup u g).setupGroup u g (seq % 2 ^ 16))
      ((s.setColCmd u 3 g seq).releaseErr u g) := rfl

/-! ### COLL (R434, R461) -/

section Coll

variable {e : Fin 32} {c : Nat} {q : Fin 8}

/-- A started COLL ends with status 1 where a check refuses it, else it joins those in progress and sends its chunks. -/
theorem exec_coll_begun {b : Begun} (hb : s.begunEntry e c q 0x0C = some b) : exec (.coll e c q) s =
    if (s.dropBegun e b).collRefused e c b.desc then
      .next (((s.dropBegun e b).endEntry e c q b.idx b.desc { status := 1, peer := dDest b.desc }).rest e)
    else .next ((((s.dropBegun e b).modEng e fun x =>
      { x with colls := x.colls ++ [(s.dropBegun e b).newColl b] }).collPump e c q b.idx).rest e) := by
  change execColl e c q s = _
  unfold execColl
  rw [hb]

/-- The time without a RESULT after which a COLL is given up: TIMEOUT × (RETRY + 2) of its unit, in ns. -/
def State.collPatience (s : State) (x : Coll) : Nat :=
  64 * s.get F.COL_CTL_TIMEOUT (s.gUnit x.g) * (s.get F.COL_CTL_RETRY (s.gUnit x.g) + 2)

theorem exec_collWaitTimeout_late {x : Coll} (hx : (s.collsOf e c q).find? (fun x => s.past x.last (s.collPatience x)) = some x) :
    exec (.collWaitTimeout e c q) s = .next ((s.collEnd e x 2 0 0).rest e) := by
  unfold State.collPatience at hx
  change execCollWaitTimeout e c q s = _
  unfold execCollWaitTimeout
  dsimp only
  rw [hx]

end Coll

/-! ### Packets for a unit (R439, R454) -/

section UnitPackets

variable {u : Fin 8} {q : Packet}

/-- A CONTRIB handed over is taken, and handled unless the unit's host I/O die is fenced (R456). -/
theorem exec_contribRx_handed (hh : s.colHanded (4 * u.val) q 0x10 = true) : exec (.contribRx u q) s =
    if (s.unhand (4 * u.val) q).unitOut u then .next (s.unhand (4 * u.val) q)
    else .next ((s.unhand (4 * u.val) q).contrib u (s.handedPort (4 * u.val) q) q) := if_pos hh

/-- A FENCED packet handed over is taken, and handled unless the unit's host I/O die is fenced (R456). -/
theorem exec_fencedRx_handed (hh : s.colHanded (4 * u.val) q 0x13 = true) : exec (.fencedRx u q) s =
    if (s.unhand (4 * u.val) q).unitOut u then .next (s.unhand (4 * u.val) q)
    else .next ((s.unhand (4 * u.val) q).fencedRx u q) := if_pos hh

end UnitPackets

/-! ### Packets for an engine, with a copy for its unit (R443, R445, R459) -/

section EnginePackets

variable {e : Fin 32} {q : Packet} {copied : State}

/-- The state once the unit of a delivery engine, in a domain that is not fenced, has handled its copy of a packet: `copied`. Every
other engine has no unit to give a copy to. -/
def State.unitCopy (s : State) (e : Nat) (copied : State) : State := if e % 4 = 0 ∧ !s.unitOut (unitOf e) then copied else s

theorem State.unitCopy_delivery (he : e.val % 4 = 0) (ho : s.unitOut (unitOf e) = false) : s.unitCopy e copied = copied :=
  if_pos ⟨he, by rw [ho]; rfl⟩

theorem State.unitCopy_other (he : e.val % 4 ≠ 0) : s.unitCopy e copied = s := if_neg fun h => he h.1

theorem exec_resultRx_handed (hh : s.colHanded e q 0x11 = true) : exec (.resultRx e q) s =
    .next ((((s.unhand e q).unitCopy e (((s.unhand e q).count 17 (unitOf e) 0x43).resultAtUnit (unitOf e) q)).resultAtEngine e q).rest e) :=
  if_pos hh

theorem exec_reissueRx_handed (hh : s.colHanded e q 0x12 = true) : exec (.reissueRx e q) s =
    .next ((((s.unhand e q).unitCopy e ((s.unhand e q).reissueAtUnit (unitOf e) q)).reissueAtEngine e q).rest e) := if_pos hh

end EnginePackets

/-! ### Prune notices and the root's sequence timer (R453, R458) -/

section UnitNotices

variable {u : Fin 8}

theorem exec_pruneNotice_oldest {v g m out : Nat} {l : List (Nat × Nat × Nat × Nat)}
    (hn : takeFirst (fun n => n.1 == u.val) s.core.prunes = some ((v, g, m, out), l)) (ho : s.unitOut u = false) :
    exec (.pruneNotice u) s = .next (State.pruned { s with core := { s.core with prunes := l } } u g m out) := by
  change execPruneNotice u s = _
  unfold execPruneNotice
  rw [hn]
  exact if_neg (ne_true_of_eq_false ho)

theorem exec_colTimeout_past {g : Fin 4096} {x : Sequence} (hx : s.seqOf u g = some x) (ho : s.unitOut u = false)
    (hr : s.gRoot g = true) (hp : s.past x.timer (64 * s.get F.COL_CTL_TIMEOUT u) = true) :
    exec (.colTimeout u g) s = .next (s.seqTimeout u g x) := by
  change execColTimeout u g s = _
  unfold execColTimeout
  rw [hx]
  exact if_pos (by rw [ho, hr, hp]; rfl)

end UnitNotices

end Collectives

/-- Settles O46: the commands of a unit end as their checks say, a COLL by whether it is refused, a packet handed over by whether its
unit takes part, a notice and the time-outs once due. -/
theorem collectiveCommands : Obligations.CollectiveCommands := by
  unfold Obligations.CollectiveCommands
  refine ⟨fun u g seq s h => (exec_setup u g seq s).trans (colCmdEnd_passed h),
    fun u g seq s h => (exec_setup u g seq s).trans (colCmdEnd_failed h),
    fun u g s h => (exec_release u g s).trans (colCmdEnd_passed h), fun u g s h => (exec_release u g s).trans (colCmdEnd_failed h),
    fun u g seq s h => (exec_reset u g seq s).trans (colCmdEnd_passed h),
    fun u g seq s h => (exec_reset u g seq s).trans (colCmdEnd_failed h),
    fun e c q b s hb hr => (exec_coll_begun hb).trans (if_neg (ne_true_of_eq_false hr)),
    fun e c q b s hb hr => (exec_coll_begun hb).trans (if_pos hr),
    fun u q s hh ho => (exec_contribRx_handed hh).trans (if_neg (ne_true_of_eq_false ho)),
    fun u q s hh ho => (exec_fencedRx_handed hh).trans (if_neg (ne_true_of_eq_false ho)),
    fun e q s hh he ho => ?_, fun e q s hh he => ?_, fun e q s hh he ho => ?_, fun e q s hh he => ?_,
    fun u v g m out l s hn ho => exec_pruneNotice_oldest hn ho, fun u g x s hx ho hr hp => exec_colTimeout_past hx ho hr hp,
    fun e c q x s hx => exec_collWaitTimeout_late hx⟩
  · rw [exec_resultRx_handed hh, State.unitCopy_delivery he ho]
  · rw [exec_resultRx_handed hh, State.unitCopy_other he]
  · rw [exec_reissueRx_handed hh, State.unitCopy_delivery he ho]
  · rw [exec_reissueRx_handed hh, State.unitCopy_other he]

end Sys2Proof.Machine

/-!
The Almanac (R699 to R705, R718), the lifting of fences (R715), the bounds of R485 and management firmware (R712, R713): each command
by the case of its guard.
-/
namespace Sys2Proof.Machine
open Sys2Proof

section Almanac

variable {s : State}

/-! ### Commands begun (R699 to R705, R718) -/

/-- R701: a COMMIT is refused with RESULT 2 where its slot is protected, else the slot is invalid and the capture runs. -/
theorem exec_commit_free (slot : Fin 4) (h : s.almFree = true) : exec (.commit slot) s =
    let u := s.almFields 1 slot (s.get F.ALM_CMD_ARG)
    if u.getBit F.ALM_PROT_SLOT_WP slot then .next ((u.set F.ALM_STAT_RESULT 2).raise E.ALM_COMMIT_FAIL)
    else .next { u with almanac := { u.almanac with
      slots := Tab.erase u.almanac.slots slot, cmd := some ⟨1, slot, 0, false, some u.snapNow⟩ } } := if_pos h

/-- R704: ARG names a bank, or every bank. -/
theorem exec_repairClear_free (arg : Fin 65536) (h : s.almFree = true) : exec (.repairClear arg) s =
    let u := s.almFields 2 (s.get F.ALM_CMD_SLOT) arg
    if arg.val < 10496 ∨ arg.val = 0xFFFF then .next (u.almStart 2 0 arg none) else .next (u.set F.ALM_STAT_RESULT 5) := if_pos h

/-- R705: an owner operation by a party that may is accepted and done. -/
theorem State.ownerDo_accepted {m : Master} (f : State → State) (h : s.ownerOk m = true) : s.ownerDo m f = f (s.count 4 0 0x42) :=
  if_pos h

theorem exec_erase_free (m : Master) (mask : Fin 65536) (h : s.almFree = true) : exec (.erase m mask) s =
    .next (s.ownerDo m fun s => (s.almFields 3 (s.get F.ALM_CMD_SLOT) mask).almStart 3 0 mask none) := if_pos h

/-- R718: ARG names an engine, which is fenced for the load where it is fit for one. -/
theorem exec_ucode_free (arg : Fin 65536) (h : s.almFree = true) : exec (.ucode arg) s =
    let u := s.almFields 4 (s.get F.ALM_CMD_SLOT) arg
    if 32 ≤ arg.val then .next (u.set F.ALM_STAT_RESULT 5)
    else if u.ucodeOk arg then .next ((u.almStart 4 0 arg none).hwFenceOn (tileOfEng arg) (2 ^ (arg.val % 4)))
    else .next (u.set F.ALM_STAT_RESULT 4) := if_pos h

/-! ### The end of a REPAIR_CLEAR (R699, R704) -/

theorem exec_almCmdEnd_repairClear {c : AlmCmd} (hc : s.almanac.cmd = some c) (hop : c.op = 2) : exec (.almCmdEnd true) s =
    .next (State.set { s with almanac := { s.almanac with
      cmd := none, repair := if c.arg = 0xFFFF then [] else s.almanac.repair.filter (·.1 != c.arg) } } F.ALM_STAT_RESULT 0) := by
  change execAlmCmdEnd true s = _
  unfold execAlmCmdEnd
  rw [hc]
  dsimp only
  rw [hop]
  rfl

/-! ### Lifting the fence of a bank (R715) -/

/-- ALM_UNFENCE's fields written. -/
def State.unfenceFields (s : State) (cls i bank scope : Nat) : State :=
  (((s.set F.ALM_UNFENCE_CLASS cls).set F.ALM_UNFENCE_INSTANCE i).set F.ALM_UNFENCE_BANK bank).set F.ALM_UNFENCE_SCOPE scope

/-- How ALM_UNFENCE ends in a state `s` that has recorded its fields: `lifted` is the state without the fence it names, where there is
such a fence. -/
def unfenceEnd (s : State) (lifted : Option State) : Host.Outcome State Fault Refusal :=
  match lifted with
  | some t => .next ((t.set F.ALM_UNFENCE_ERR 0).raise E.ALM_UNFENCE_DONE)
  | none => .next (s.set F.ALM_UNFENCE_ERR 1)

/-- Outside safe state, SCOPE 1 lifts the fence of BANK whatever CLASS and INSTANCE name. -/
theorem exec_almUnfence_bank (cls : Fin 64) (i : Fin 1024) (bank : Fin 16384) (hf : s.blockFenced 4 = false)
    (hs : (s.unfenceFields cls i bank 1).safe = false) : exec (.almUnfence cls i bank 1) s =
      unfenceEnd (s.unfenceFields cls i bank 1) ((s.unfenceFields cls i bank 1).liftBank bank) :=
  (if_neg (ne_true_of_eq_false hf)).trans (if_neg (ne_true_of_eq_false hs))

/-! ### Bounds that have passed (R485, R715) -/

theorem exec_refusalPeriodEnd_past {e : Fin 32} (h : (s.eng e).refuseTo ≤ s.now) :
    exec (.refusalPeriodEnd e) s = .next (s.modEng e fun x => { x with refuseTo := 0 }) := if_pos h

theorem exec_injectPauseEnd_past {e : Fin 32} (h : (s.eng e).pauseTo ≤ s.now) :
    exec (.injectPauseEnd e) s = .next (s.modEng e fun x => { x with pauseTo := 0 }) := if_pos h

/-! ### Management firmware (R705, R712, R713) -/

/-- An image whose CRC checks, offered while the owner may act, goes into the slot that is not active. -/
theorem exec_fwImageAccept_owner (version : Fin 65536) (hf : s.blockFenced 4 = false) (ho : s.ownerOk .mctp = true) :
    exec (.fwImageAccept version true) s =
      if s.almanac.active = 0 then .next { s.count 4 0 0x42 with almanac := { s.almanac with verB := version, validB := true } }
      else .next { s.count 4 0 0x42 with almanac := { s.almanac with verA := version, validA := true } } :=
  (if_neg (ne_true_of_eq_false hf)).trans (if_neg (by rw [ho]; exact Bool.false_ne_true))

theorem exec_fwRestart_live (hf : s.blockFenced 4 = false) : exec .fwRestart s = .next { s with cps := ⟨true, false, s.now, 0⟩ } :=
  if_neg (ne_true_of_eq_false hf)

theorem exec_cpRestartDone_busy (h : s.cps.busy = true) : exec .cpRestartDone s = .next s.cpsBoot := if_pos h

end Almanac

/-- Settles O33: a command begins as its checks say, its end and the passed bounds act on what they find, ALM_UNFENCE ends by whether
the bank is fenced, and an accepted image goes into slot B where A is active. -/
theorem almanacCommands : Obligations.AlmanacCommands := by
  unfold Obligations.AlmanacCommands
  refine ⟨fun slot s h hw => (exec_commit_free slot h).trans (if_neg (ne_true_of_eq_false hw)),
    fun slot s h hw => (exec_commit_free slot h).trans (if_pos hw),
    fun arg s h ha => (exec_repairClear_free arg h).trans (if_pos (.inl ha)), fun m mask s h ho => ?_,
    fun arg s h ha hu => (exec_ucode_free arg h).trans ((if_neg (Nat.not_le_of_lt ha)).trans (if_pos hu)),
    fun c s hc hop ha => ?_, fun cls i bank t s hf hs hl => ?_, fun cls i bank s hf hs hl => ?_,
    fun e s h => exec_refusalPeriodEnd_past h, fun e s h => exec_injectPauseEnd_past h,
    fun version s hf ho ha => (exec_fwImageAccept_owner version hf ho).trans (if_pos ha), fun s hf => exec_fwRestart_live hf,
    fun s h => exec_cpRestartDone_busy h⟩
  · rw [exec_erase_free m mask h, State.ownerDo_accepted _ ho]
  · rw [exec_almCmdEnd_repairClear hc hop, if_neg ha]
  · exact (exec_almUnfence_bank cls i bank hf hs).trans (congrArg (unfenceEnd _) hl)
  · exact (exec_almUnfence_bank cls i bank hf hs).trans (congrArg (unfenceEnd _) hl)

end Sys2Proof.Machine

/-!
Steps (R610): every command answers a next state that keeps the queue of commands and the canonical form of table space, and all but
those of `mayStore` keep table space itself; with an empty queue a step is one core clock.
-/
namespace Sys2Proof.Machine
open Sys2Proof

/-! ### What a command does to table space and to the queue -/

/-- `o`, what command `c` answers on `s`, is a next state that keeps the queue and the canonical form of table space, and table space
itself where `c` stores nothing. -/
def KeepsTables (c : Instr) (s : State) (o : Host.Outcome State Fault Refusal) : Prop :=
  ∃ t, o = .next t ∧ t.pending = s.pending ∧ (Memory.wf s.mem = true → Memory.wf t.mem = true) ∧
    (mayStore c = false → t.mem = s.mem)

/-- A command that leaves table space and the queue. -/
theorem KeepsTables.keeps {c : Instr} {s : State} {o : Host.Outcome State Fault Refusal}
    (h : ∃ t, o = .next t ∧ t.memq = s.memq) : KeepsTables c s o := by
  obtain ⟨t, ht, hq⟩ := h
  have hm : t.mem = s.mem := congrArg Prod.fst hq
  exact ⟨t, ht, congrArg Prod.snd hq, fun hw => hm ▸ hw, fun _ => hm⟩

/-- A command that may store keeps what its own lemma says of every canonical form and queue. -/
theorem KeepsTables.stores {c : Instr} {s : State} {o : Host.Outcome State Fault Refusal} (hc : mayStore c = true)
    (h : ∀ {q : Bool × List Instr}, State.Ok q s.memq → ∃ t, o = .next t ∧ State.Ok q t.memq) : KeepsTables c s o := by
  obtain ⟨t, ht, hwf, hqueue⟩ := h (q := (Memory.wf s.mem, s.pending)) ⟨id, rfl⟩
  exact ⟨t, ht, hqueue, hwf, fun hn => absurd (hc.symm.trans hn) (by decide)⟩

/-- One case per command: its own lemma on table space. -/
theorem exec_keepsTables (c : Instr) (s : State) : KeepsTables c s (exec c s) :=
  match c with
  | .coldReset => .stores rfl fun hk => execColdReset_ok s hk
  | .warmReset => .stores rfl fun hk => execWarmReset_ok s hk
  | .devReset key => .stores rfl fun hk => execDevReset_ok key s hk
  | .pwrGoodFall => .stores rfl fun hk => execPwrGoodFall_ok s hk
  | .restoreStart faultMode => .keeps (execRestoreStart_memq faultMode s)
  | .restorePhase1Done => .keeps (execRestorePhase1Done_memq s)
  | .restoreDone => .stores rfl fun hk => execRestoreDone_ok s hk
  | .regWrite m off h v => .stores rfl fun hk => execRegWrite_ok m off h v s hk
  | .mtNowRead m => .keeps (execMtNowRead_memq m s)
  | .mtTodNextWrite v => .keeps (execMtTodNextWrite_memq v s)
  | .ppsInEdge x => .keeps (execPpsInEdge_memq x s)
  | .servoUpdate offPs err qual => .keeps (execServoUpdate_memq offPs err qual s)
  | .sourceLost => .keeps (execSourceLost_memq s)
  | .mtSrcWrite v => .keeps (execMtSrcWrite_memq v s)
  | .holdoverLimit => .keeps (execHoldoverLimit_memq s)
  | .settleQualified => .keeps (execSettleQualified_memq s)
  | .timeRequestDue p => .keeps (execTimeRequestDue_memq p s)
  | .timeFrameRx p k hd rest residual => .keeps (execTimeFrameRx_memq p k hd rest residual s)
  | .ptmDialog => .keeps (execPtmDialog_memq s)
  | .ptmResponseRx ok t residual => .keeps (execPtmResponseRx_memq ok t residual s)
  | .ppsOutRise => .keeps (execPpsOutRise_memq s)
  | .alarmFire n => .stores rfl fun hk => execAlarmFire_ok n s hk
  | .epochAtWrite cls inst t => .stores rfl fun hk => execEpochAtWrite_ok cls inst t s hk
  | .optReachWrite e reach => .keeps (execOptReachWrite_memq e reach s)
  | .feedLow e f pwr => .keeps (execFeedLow_memq e f pwr s)
  | .feedLost e f => .keeps (execFeedLost_memq e f s)
  | .lsrcRemoved e => .keeps (execLsrcRemoved_memq e s)
  | .lsrcInserted e => .keeps (execLsrcInserted_memq e s)
  | .feedQualified e f pwr => .keeps (execFeedQualified_memq e f pwr s)
  | .monitorRefresh l rx bias temp feed => .keeps (execMonitorRefresh_memq l rx bias temp feed s)
  | .portEnable p v => .keeps (execPortEnable_memq p v s)
  | .portDisable p v => .keeps (execPortDisable_memq p v s)
  | .laneSymbolLock l => .keeps (execLaneSymbolLock_memq l s)
  | .bringupDone p => .keeps (execBringupDone_memq p s)
  | .bringupTimeout p => .keeps (execBringupTimeout_memq p s)
  | .capSend p => .keeps (execCapSend_memq p s)
  | .capFrameRx p k hd rest => .keeps (execCapFrameRx_memq p k hd rest s)
  | .nonceRedraw p => .keeps (execNonceRedraw_memq p s)
  | .trainRestart p => .keeps (execTrainRestart_memq p s)
  | .frameLock p => .keeps (execFrameLock_memq p s)
  | .symbolLockLoss l => .keeps (execSymbolLockLoss_memq l s)
  | .laneLossExpiry l => .keeps (execLaneLossExpiry_memq l s)
  | .uncorrWindow l corr uncorr => .keeps (execUncorrWindow_memq l corr uncorr s)
  | .laneRetryAttempt l locked idx => .keeps (execLaneRetryAttempt_memq l locked idx s)
  | .portRestore p => .keeps (execPortRestore_memq p s)
  | .portRetrain p => .keeps (execPortRetrain_memq p s)
  | .portDown p => .keeps (execPortDown_memq p s)
  | .lockLossExpiry p => .keeps (execLockLossExpiry_memq p s)
  | .graceExpiry p => .keeps (execGraceExpiry_memq p s)
  | .rcalStep l live drifted => .keeps (execRcalStep_memq l live drifted s)
  | .frameSlot p k => .keeps (execFrameSlot_memq p k s)
  | .dataFrameRx p k b => .keeps (execDataFrameRx_memq p k b s)
  | .idleFrameRx p k b => .keeps (execIdleFrameRx_memq p k b s)
  | .ackFrameRx p k hd rest => .keeps (execAckFrameRx_memq p k hd rest s)
  | .fenceFrameRx p k b => .keeps (execFenceFrameRx_memq p k b s)
  | .badFrameRx lane b => .keeps (execBadFrameRx_memq lane b s)
  | .replayTimeout p => .keeps (execReplayTimeout_memq p s)
  | .creditGrant p => .keeps (execCreditGrant_memq p s)
  | .creditRelease p vc => .keeps (execCreditRelease_memq p vc s)
  | .slotsWrite p v => .keeps (execSlotsWrite_memq p v s)
  | .cellSlot errs => .keeps (execCellSlot_memq errs s)
  | .packetArrival t inPort pkt => .stores rfl fun hk => execPacketArrival_ok t inPort pkt s hk
  | .reservationRequest t out port vc mc => .keeps (execReservationRequest_memq t out port vc mc s)
  | .reservationGrant out port vc mc => .keeps (execReservationGrant_memq out port vc mc s)
  | .packetComplete t res => .keeps (execPacketComplete_memq t res s)
  | .reasmTimeout t res => .keeps (execReasmTimeout_memq t res s)
  | .packetAbort t id => .keeps (execPacketAbort_memq t id s)
  | .ageSweep t => .keeps (execAgeSweep_memq t s)
  | .midFenceEffect => .keeps (execMidFenceEffect_memq s)
  | .midDrainDone m => .keeps (execMidDrainDone_memq m s)
  | .midReturn m => .keeps (execMidReturn_memq m s)
  | .tileFenceFull t => .keeps (execTileFenceFull_memq t s)
  | .tileFenceRelease t => .keeps (execTileFenceRelease_memq t s)
  | .devSelfWrite v => .keeps (execDevSelfWrite_memq v s)
  | .escMove t id => .keeps (execEscMove_memq t id s)
  | .gossipSend => .keeps (execGossipSend_memq s)
  | .gossipRx p pkt => .keeps (execGossipRx_memq p pkt s)
  | .gossipStale p => .keeps (execGossipStale_memq p s)
  | .holdEnd t => .keeps (execHoldEnd_memq t s)
  | .rteFenceWrite t v => .keeps (execRteFenceWrite_memq t v s)
  | .shaperRefill => .keeps (execShaperRefill_memq s)
  | .shaperCfgWrite t j rate v => .keeps (execShaperCfgWrite_memq t j rate v s)
  | .queueSample t => .keeps (execQueueSample_memq t s)
  | .histClr t => .keeps (execHistClr_memq t s)
  | .telRecord t => .stores rfl fun hk => execTelRecord_ok t s hk
  | .pmcWrite cls inst k v => .keeps (execPmcWrite_memq cls inst k v s)
  | .pmcSnapNow cls inst => .stores rfl fun hk => execPmcSnapNow_ok cls inst s hk
  | .pmnSnapNow => .stores rfl fun hk => execPmnSnapNow_ok s hk
  | .cntClr cls inst => .keeps (execCntClr_memq cls inst s)
  | .ctxRangeWrite e n v => .keeps (execCtxRangeWrite_memq e n v s)
  | .enginePacketRx e q => .keeps (execEnginePacketRx_memq e q s)
  | .ctxLoadStart e => .keeps (execCtxLoadStart_memq e s)
  | .ctxWord0Return e c w0 => .keeps (execCtxWord0Return_memq e c w0 s)
  | .ctxLoadDone e c ws => .keeps (execCtxLoadDone_memq e c ws s)
  | .ctxLoadFail e c => .keeps (execCtxLoadFail_memq e c s)
  | .evict e c => .keeps (execEvict_memq e c s)
  | .close e c => .stores rfl fun hk => execClose_ok e c s hk
  | .evictRange e n => .keeps (execEvictRange_memq e n s)
  | .ctxCmdEnd e => .stores rfl fun hk => execCtxCmdEnd_ok e s hk
  | .queuePoll e c q => .keeps (execQueuePoll_memq e c q s)
  | .pollReadReturn e tag ok data => .keeps (execPollReadReturn_memq e tag ok data s)
  | .nudge e c q port func => .keeps (execNudge_memq e c q port func s)
  | .wqInval e c q index port func => .keeps (execWqInval_memq e c q index port func s)
  | .wqCtlReset e c q index port func => .keeps (execWqCtlReset_memq e c q index port func s)
  | .queueDrainDone e c q => .keeps (execQueueDrainDone_memq e c q s)
  | .entryStart e => .keeps (execEntryStart_memq e s)
  | .nop e c q => .keeps (execNop_memq e c q s)
  | .completionRecordWrite e c q => .keeps (execCompletionRecordWrite_memq e c q s)
  | .eventRecordWrite e c => .keeps (execEventRecordWrite_memq e c s)
  | .errorRecordWrite e c => .keeps (execErrorRecordWrite_memq e c s)
  | .evqArm e c port func => .keeps (execEvqArm_memq e c port func s)
  | .userPageAccess e c port func off len val => .keeps (execUserPageAccess_memq e c port func off len val s)
  | .put e slot => .keeps (execPut_memq e slot s)
  | .putFlag e slot => .keeps (execPutFlag_memq e slot s)
  | .get e slot => .keeps (execGet_memq e slot s)
  | .getSegmentIssue e slot => .keeps (execGetSegmentIssue_memq e slot s)
  | .atomicAdd e slot => .keeps (execAtomicAdd_memq e slot s)
  | .atomicFadd e slot => .keeps (execAtomicFadd_memq e slot s)
  | .atomicCas e slot => .keeps (execAtomicCas_memq e slot s)
  | .send e slot => .keeps (execSend_memq e slot s)
  | .fence e c q => .keeps (execFence_memq e c q s)
  | .fenceFinish e c q => .keeps (execFenceFinish_memq e c q s)
  | .recvPost e c q => .keeps (execRecvPost_memq e c q s)
  | .recvClaim e c q => .keeps (execRecvClaim_memq e c q s)
  | .recvResume e c q => .keeps (execRecvResume_memq e c q s)
  | .lockAcq e slot => .keeps (execLockAcq_memq e slot s)
  | .lockRel e slot => .keeps (execLockRel_memq e slot s)
  | .lockRenew e slot => .keeps (execLockRenew_memq e slot s)
  | .coll e c q => .keeps (execColl_memq e c q s)
  | .xltInval e c q => .keeps (execXltInval_memq e c q s)
  | .putPacketRx e q => .keeps (execPutPacketRx_memq e q s)
  | .getReqRx e q => .keeps (execGetReqRx_memq e q s)
  | .atomicRequestRx e q => .keeps (execAtomicRequestRx_memq e q s)
  | .flushRx e q => .keeps (execFlushRx_memq e q s)
  | .flushReadComplete e tag ok => .keeps (execFlushReadComplete_memq e tag ok s)
  | .atomicopCompletion e tag ok data => .keeps (execAtomicopCompletion_memq e tag ok data s)
  | .hostReadCompletion e tag ok data => .keeps (execHostReadCompletion_memq e tag ok data s)
  | .ackRx e q => .keeps (execAckRx_memq e q s)
  | .sackRx e q => .keeps (execSackRx_memq e q s)
  | .nackBusyRx e q => .keeps (execNackBusyRx_memq e q s)
  | .nackAccessRx e q => .keeps (execNackAccessRx_memq e q s)
  | .getDataRx e q => .keeps (execGetDataRx_memq e q s)
  | .holeTimeout e get src opid => .keeps (execHoleTimeout_memq e get src opid s)
  | .retryTimeout e slot => .keeps (execRetryTimeout_memq e slot s)
  | .busyBackoffExpiry e slot poff => .keeps (execBusyBackoffExpiry_memq e slot poff s)
  | .completionHoldEnd e slot => .keeps (execCompletionHoldEnd_memq e slot s)
  | .dupExpiry u src opid => .keeps (execDupExpiry_memq u src opid s)
  | .regInval e v => .keeps (execRegInval_memq e v s)
  | .acacheFlush e v => .keeps (execAcacheFlush_memq e v s)
  | .rateIncrease e => .keeps (execRateIncrease_memq e s)
  | .sendPacketRx e q => .keeps (execSendPacketRx_memq e q s)
  | .rtsRx e q => .keeps (execRtsRx_memq e q s)
  | .rdvGetRx e q => .keeps (execRdvGetRx_memq e q s)
  | .rdvAcceptRx e q => .keeps (execRdvAcceptRx_memq e q s)
  | .gapWindowExpiry e src sctx sq tctx => .keeps (execGapWindowExpiry_memq e src sctx sq tctx s)
  | .streamEntryExpiry e c q dest tctx => .keeps (execStreamEntryExpiry_memq e c q dest tctx s)
  | .setup u g seq => .stores rfl fun hk => execSetup_ok u g seq s hk
  | .release u g => .stores rfl fun hk => execRelease_ok u g s hk
  | .reset u g seq => .stores rfl fun hk => execReset_ok u g seq s hk
  | .contribRx u q => .stores rfl fun hk => execContribRx_ok u q s hk
  | .resultRx e q => .stores rfl fun hk => execResultRx_ok e q s hk
  | .reissueRx e q => .keeps (execReissueRx_memq e q s)
  | .fencedRx u q => .stores rfl fun hk => execFencedRx_ok u q s hk
  | .pruneNotice u => .stores rfl fun hk => execPruneNotice_ok u s hk
  | .colTimeout u g => .stores rfl fun hk => execColTimeout_ok u g s hk
  | .collWaitTimeout e c q => .keeps (execCollWaitTimeout_memq e c q s)
  | .walkReadReturn e tag ok entry => .keeps (execWalkReadReturn_memq e tag ok entry s)
  | .adCasReturn e tag ok entry => .keeps (execAdCasReturn_memq e tag ok entry s)
  | .xltInvalCmd e v => .keeps (execXltInvalCmd_memq e v s)
  | .invalComplete e => .keeps (execInvalComplete_memq e s)
  | .lockAcqRx e q => .stores rfl fun hk => execLockAcqRx_ok e q s hk
  | .lockRelRx e q => .stores rfl fun hk => execLockRelRx_ok e q s hk
  | .lockRenewRx e q => .stores rfl fun hk => execLockRenewRx_ok e q s hk
  | .lockRspRx e q => .keeps (execLockRspRx_memq e q s)
  | .leaseExpiry u l => .stores rfl fun hk => execLeaseExpiry_ok u l s hk
  | .waiterExpiry u src opid => .stores rfl fun hk => execWaiterExpiry_ok u src opid s hk
  | .boostRefresh u l => .keeps (execBoostRefresh_memq u l s)
  | .boostRx e q => .keeps (execBoostRx_memq e q s)
  | .boostExpiry e => .keeps (execBoostExpiry_memq e s)
  | .perstDeassert p => .keeps (execPerstDeassert_memq p s)
  | .perstAssert p => .stores rfl fun hk => execPerstAssert_ok p s hk
  | .hostLinkUp h gen width => .keeps (execHostLinkUp_memq h gen width s)
  | .hostLinkDown h => .stores rfl fun hk => execHostLinkDown_ok h s hk
  | .inboundRequest h f q poisoned => .stores rfl fun hk => execInboundRequest_ok h f q poisoned s hk
  | .winCommit h => .keeps (execWinCommit_memq h s)
  | .winCommitInForce h => .keeps (execWinCommitInForce_memq h s)
  | .completionTimeout tag => .keeps (execCompletionTimeout_memq tag s)
  | .fabTimeout tag => .keeps (execFabTimeout_memq tag s)
  | .d3hotEntry h f => .stores rfl fun hk => execD3hotEntry_ok h f s hk
  | .d0Return h f => .stores rfl fun hk => execD0Return_ok h f s hk
  | .l1Entry h => .keeps (execL1Entry_memq h s)
  | .flr h f => .stores rfl fun hk => execFlr_ok h f s hk
  | .flrComplete h f => .keeps (execFlrComplete_memq h f s)
  | .bmeWrite h f on => .keeps (execBmeWrite_memq h f on s)
  | .msixPendingSend h f v => .keeps (execMsixPendingSend_memq h f v s)
  | .shadowCommit cls inst => .keeps (execShadowCommit_memq cls inst s)
  | .shadowDiscard cls inst => .stores rfl fun hk => execShadowDiscard_ok cls inst s hk
  | .shadowDisarm cls inst => .stores rfl fun hk => execShadowDisarm_ok cls inst s hk
  | .evtForce m cls inst v => .stores rfl fun hk => execEvtForce_ok m cls inst v s hk
  | .injArm cls inst => .keeps (execInjArm_memq cls inst s)
  | .dptBurstWrite m off data => .stores rfl fun hk => execDptBurstWrite_ok m off data s hk
  | .dptBurstRead m off len => .keeps (execDptBurstRead_memq m off len s)
  | .regRd q => .stores rfl fun hk => execRegRd_ok q s hk
  | .regWr q => .stores rfl fun hk => execRegWr_ok q s hk
  | .dptRd q => .stores rfl fun hk => execDptRd_ok q s hk
  | .dptWr q => .stores rfl fun hk => execDptWr_ok q s hk
  | .response q => .keeps (execResponse_memq q s)
  | .mgtMboxGo => .keeps (execMgtMboxGo_memq s)
  | .mgtMboxResend => .keeps (execMgtMboxResend_memq s)
  | .replyCacheExpiry src tag => .keeps (execReplyCacheExpiry_memq src tag s)
  | .mctpRequest w2 w3 w4 w5 data => .stores rfl fun hk => execMctpRequest_ok w2 w3 w4 w5 data s hk
  | .faultEvent => .stores rfl fun hk => execFaultEvent_ok s hk
  | .repairEntryAdd => .keeps (execRepairEntryAdd_memq s)
  | .scrubRead bank word bad last => .keeps (execScrubRead_memq bank word bad last s)
  | .cfgCheck cls inst off bad => .keeps (execCfgCheck_memq cls inst off bad s)
  | .thermWarn temp => .keeps (execThermWarn_memq temp s)
  | .thermTrip temp => .keeps (execThermTrip_memq temp s)
  | .railFault g => .keeps (execRailFault_memq g s)
  | .refclkLoss => .keeps (execRefclkLoss_memq s)
  | .cpWatchdog => .keeps (execCpWatchdog_memq s)
  | .collectorErr => .stores rfl fun hk => execCollectorErr_ok s hk
  | .heartbeatEdge => .keeps (execHeartbeatEdge_memq s)
  | .faultPulseEnd => .keeps (execFaultPulseEnd_memq s)
  | .portIdleRequest p => .keeps (execPortIdleRequest_memq p s)
  | .portRungCmd p rung => .keeps (execPortRungCmd_memq p rung s)
  | .ladderReqTimeout p => .keeps (execLadderReqTimeout_memq p s)
  | .rungStepDown p => .keeps (execRungStepDown_memq p s)
  | .portWake p light => .keeps (execPortWake_memq p light s)
  | .wakeTimeout p d => .keeps (execWakeTimeout_memq p d s)
  | .tileRungCmd t rung => .keeps (execTileRungCmd_memq t rung s)
  | .tileRungEntry t => .keeps (execTileRungEntry_memq t s)
  | .tileAutoEntry t => .keeps (execTileAutoEntry_memq t s)
  | .deviceRungCmd rung => .stores rfl fun hk => execDeviceRungCmd_ok rung s hk
  | .deviceRungArrival => .keeps (execDeviceRungArrival_memq s)
  | .deviceWake w => .stores rfl fun hk => execDeviceWake_ok w s hk
  | .bankBitWrite t off n v => .keeps (execBankBitWrite_memq t off n v s)
  | .bankRungReached t l => .keeps (execBankRungReached_memq t l s)
  | .commit slot => .keeps (execCommit_memq slot s)
  | .repairClear arg => .keeps (execRepairClear_memq arg s)
  | .erase m mask => .keeps (execErase_memq m mask s)
  | .ucode arg => .keeps (execUcode_memq arg s)
  | .almCmdEnd ok => .stores rfl fun hk => execAlmCmdEnd_ok ok s hk
  | .almUnfence cls inst bank scope => .keeps (execAlmUnfence_memq cls inst bank scope s)
  | .refusalPeriodEnd e => .keeps (execRefusalPeriodEnd_memq e s)
  | .injectPauseEnd e => .keeps (execInjectPauseEnd_memq e s)
  | .ownerWrite m r v => .keeps (execOwnerWrite_memq m r v s)
  | .presenceEdge low => .keeps (execPresenceEdge_memq low s)
  | .presenceWindowExpiry => .keeps (execPresenceWindowExpiry_memq s)
  | .sealMismatch xfer => .keeps (execSealMismatch_memq xfer s)
  | .fuseProg m => .keeps (execFuseProg_memq m s)
  | .progDone ok => .keeps (execProgDone_memq ok s)
  | .debugUnlock m => .keeps (execDebugUnlock_memq m s)
  | .fwImageAccept version crc => .keeps (execFwImageAccept_memq version crc s)
  | .fwRestart => .keeps (execFwRestart_memq s)
  | .lsrcBusPoll e ok id ready => .keeps (execLsrcBusPoll_memq e ok id ready s)
  | .bringupRateAlternate p => .keeps (execBringupRateAlternate_memq p s)
  | .laneDelineated lane => .keeps (execLaneDelineated_memq lane s)
  | .decGapExpiry e dest => .keeps (execDecGapExpiry_memq e dest s)
  | .l1Exit h => .keeps (execL1Exit_memq h s)
  | .pwrGoodRise mainOut hio opt => .stores rfl fun hk => execPwrGoodRise_ok mainOut hio opt s hk
  | .rungExitDone u => .keeps (execRungExitDone_memq u s)
  | .cpRestartDone => .keeps (execCpRestartDone_memq s)

theorem exec_next (c : Instr) (s : State) : ∃ t, exec c s = .next t ∧ t.pending = s.pending ∧
    (Memory.wf s.mem = true → Memory.wf t.mem = true) := by
  obtain ⟨t, ht, hqueue, hwf, _⟩ := exec_keepsTables c s
  exact ⟨t, ht, hqueue, hwf⟩

theorem exec_mem_of_not_mayStore {c : Instr} {s t : State} (hc : mayStore c = false) (ht : exec c s = .next t) : t.mem = s.mem := by
  obtain ⟨u, hu, _, _, hm⟩ := exec_keepsTables c s
  obtain rfl : u = t := Host.Outcome.next.inj (hu.symm.trans ht)
  exact hm hc

/-- Settles O3: `exec_keepsTables`, whose cases are the commands' lemmas. -/
theorem everyCommandAnswersANextState : Obligations.EveryCommandAnswersANextState := exec_next

/-- Settles O7: a command that stores nothing keeps table space whole, so every byte of it. -/
theorem commandsThatLeaveTableSpaceAlone : Obligations.CommandsThatLeaveTableSpaceAlone := fun _ _ _ a hc ht =>
  congrArg (Memory.read · a) (exec_mem_of_not_mayStore hc ht)

/-! ### Steps -/

theorem step_front {c : Instr} {l : List Instr} {s : State} (h : s.pending = c :: l) : step s = exec c { s with pending := l } := by
  unfold step
  rw [h]

/-- A core clock counts itself, in Dark too. -/
theorem State.clock_cyc (s : State) : s.clock.clk.cyc = s.clk.cyc + 1 := rfl

theorem State.tick_mem (s : State) : s.tick.mem = s.mem := congrArg Prod.fst s.tick_memq

theorem State.tick_pending (s : State) : s.tick.pending = s.pending := congrArg Prod.snd s.tick_memq

/-- Settles O1, by the definition of a step. -/
theorem stepRunsFrontCommand : Obligations.StepRunsFrontCommand := fun _ _ _ h => step_front h

/-- Settles O2: the step is a tick, whose clock is that of `State.clock`. -/
theorem idleStepIsOneCoreClock : Obligations.IdleStepIsOneCoreClock := fun s h =>
  ⟨s.tick, step_idle h, (congrArg Clock.cyc s.tick_clk).trans s.clock_cyc, s.tick_mem, s.tick_pending.trans h⟩

/-- Settles O4: a step is a core clock on an empty queue, and else the front command on the state without it. -/
theorem stepKeepsCanonicalMemory : Obligations.StepKeepsCanonicalMemory := by
  unfold Obligations.StepKeepsCanonicalMemory
  intro s t hs ht
  cases hq : s.pending with
  | nil =>
    obtain rfl : s.tick = t := Host.Outcome.next.inj ((step_idle hq).symm.trans ht)
    exact ⟨(congrArg Memory.wf s.tick_mem).trans hs, s.tick_pending.trans hq⟩
  | cons c l =>
    obtain ⟨u, hu, hqueue, hwf⟩ := exec_next c { s with pending := l }
    obtain rfl : u = t := Host.Outcome.next.inj (hu.symm.trans ((step_front hq).symm.trans ht))
    exact ⟨hwf hs, hqueue⟩

/-- Settles O5: the reset state lists no byte and no command. -/
theorem resetMemoryIsCanonical : Obligations.ResetMemoryIsCanonical := ⟨rfl, rfl, rfl⟩

/-- Settles O8: a read of a field after a write of it, and of any other. -/
theorem fieldWriteChangesOneField : Obligations.FieldWriteChangesOneField := ⟨State.get_set_same, State.get_set_ne⟩

/-- `t` with the registers and the collector of a state that is `s` but for headers and arrivals is `s` with them. -/
theorem HdrOnly.eq {s t : State} (h : HdrOnly s t) : t = { s with rf := t.rf, flt := t.flt } := by
  obtain ⟨⟨_, _, _, _, rfl⟩, _⟩ := h
  rfl

/-- Settles O9: raising an event is `HdrOnly`. -/
theorem eventTouchesOnlyHeaderAndCollector : Obligations.EventTouchesOnlyHeaderAndCollector :=
  ⟨fun s e i g j n k hlow hhigh => s.get_raise e i g j n k hlow hhigh, fun s e i => (raise_hdr s e i).eq⟩

end Sys2Proof.Machine

/-!
Translation invalidation (R513 to R515), lock units (R529 to R546) and the boost table of an engine (R546).
-/
namespace Sys2Proof.Machine
open Sys2Proof

section Invalidation

variable {e : Fin 32} {s : State}

/-- The contexts of engine `f` that an XLT_INVAL entry `d` of context `k` names: of the function of `k`, and of the entry's scope (R513). -/
def State.invalMine (s : State) (k : Ctx) (d : Desc) (f x : Nat) : Bool :=
  (match s.ctx f x with
    | some y => y.port == k.port && y.func == k.func
    | none => false) && (bits (dw d 1) 20 2 == 2 || (bits (dw d 1) 20 2 != 3 && x == bits (dw d 1) 0 20))

/-- The 8 engines of the host I/O die of an engine. -/
def dieEngines (e : Nat) : List Nat := (List.range 8).map (8 * dieOfEng e + ·)

/-- The scope of an XLT_INVAL entry `d` of context `k` invalidated at every engine of its die, as `s` knows the contexts. -/
def State.invalidateDie (s : State) (e : Nat) (b : Begun) (k : Ctx) : State :=
  (s.dropBegun e b).each (dieEngines e) fun u f =>
    u.invalidate f (s.invalMine k b.desc f) (invalRange (bits (dw b.desc 1) 20 2) (dw b.desc 3) (dLen b.desc)) (bit (dw b.desc 1) 22)

/-- A started entry invalidates its scope in its die, and waits for the walks and held requests that it found. -/
theorem exec_xltInval_begun {c : Nat} {q : Fin 8} {b : Begun} {k : Ctx} (hb : s.begunEntry e c q 0x10 = some b)
    (hk : s.ctx e c = some k) : exec (.xltInval e c q) s =
      let u := s.invalidateDie e b k
      .next ((u.modEng e fun x => { x with invals := x.invals ++ [⟨some (c, q, b.idx, b.desc),
        (dieEngines e).flatMap fun f => s.walksIn f (s.invalMine k b.desc f),
        (dieEngines e).flatMap fun f => u.heldIn f (s.invalMine k b.desc f)⟩] }).rest e) := by
  change execXltInval e c q s = _
  unfold execXltInval
  rw [hb, hk]
  rfl

/-- The fields that a write to XLT_INVAL stores (R514). -/
def State.invalFields (s : State) (e v : Nat) : State :=
  ((s.set F.XLT_INVAL_CTX (bits v 0 20) e).set F.XLT_INVAL_SCOPE (bits v 20 2) e).set F.XLT_INVAL_REG (bits v 22 1) e

/-- The contexts that a write to XLT_INVAL names: one of them or all. -/
def invalNames (v x : Nat) : Bool := bits v 20 2 == 2 || (bits v 20 2 != 3 && x == bits v 0 20)

theorem exec_xltInvalCmd_go {v : Nat} (hbusy : s.invalBusy e = false) (hgo : bit v 48 = true) : exec (.xltInvalCmd e v) s =
    let t := s.invalFields e v
    let u := t.invalidate e (invalNames v) (invalRange (bits v 20 2) (t.get F.XLT_INVAL_ADDR_VA e * 4096) (t.get F.XLT_INVAL_LEN_LEN e))
      (bit v 22)
    .next ((u.modEng e fun x => { x with invals := x.invals ++ [⟨none, t.walksIn e (invalNames v), u.heldIn e (invalNames v)⟩] }).rest e) :=
  (if_neg (ne_true_of_eq_false hbusy)).trans (if_pos hgo)

/-- The oldest invalidation that is over leaves the engine and is counted; the page's own raises XLT_INVAL_DONE. -/
theorem exec_invalComplete_page {i : Inval} {l : List Inval} (ho : takeFirst s.invalOver (s.eng e).invals = some (i, l))
    (hi : i.entry = none) : exec (.invalComplete e) s =
      .next (((s.modEng e fun x => { x with invals := l }).count 23 e 0x47).raise E.XLT_INVAL_DONE e) := by
  change execInvalComplete e s = _
  unfold execInvalComplete
  rw [ho]
  dsimp only
  rw [hi]

/-- An entry's own ends it with SUCCESS. -/
theorem exec_invalComplete_entry {i : Inval} {l : List Inval} {c q idx : Nat} {d : Desc}
    (ho : takeFirst s.invalOver (s.eng e).invals = some (i, l)) (hi : i.entry = some (c, q, idx, d)) : exec (.invalComplete e) s =
      .next ((((s.modEng e fun x => { x with invals := l }).count 23 e 0x47).endEntry e c q idx d { status := 0 }).rest e) := by
  change execInvalComplete e s = _
  unfold execInvalComplete
  rw [ho]
  dsimp only
  rw [hi]

end Invalidation

/-- Settles O47: an invalidation starts at the engines that its entry or the page names, and completes by what started it. -/
theorem translationCommands : Obligations.TranslationCommands := by
  unfold Obligations.TranslationCommands
  refine ⟨fun e c q b k scope mine s hb hk hscope hmine => ?_, fun e v p s hbusy hgo hp => ?_,
    fun e i l s ho hi => exec_invalComplete_page ho hi, fun e i l c q idx d s ho hi => exec_invalComplete_entry ho hi⟩
  · subst hscope hmine
    exact exec_xltInval_begun hb hk
  · subst hp
    exact exec_xltInvalCmd_go hbusy hgo

/-! ### Lock requests and their answers (R529, R533, R535) -/

section Locks

variable {e : Fin 32} {q : Packet} {s t : State}

theorem exec_lockAcqRx_arrived (ha : s.lockArrived e q 0x28 = (t, true)) :
    exec (.lockAcqRx e q) s = .next (t.lockAcq (unitOf e) q) := by
  change execLockAcqRx e q s = _
  unfold execLockAcqRx
  rw [ha]

theorem exec_lockRelRx_arrived (ha : s.lockArrived e q 0x29 = (t, true)) :
    exec (.lockRelRx e q) s = .next (t.lockRel (unitOf e) q) := by
  change execLockRelRx e q s = _
  unfold execLockRelRx
  rw [ha]

theorem exec_lockRenewRx_arrived (ha : s.lockArrived e q 0x2A = (t, true)) :
    exec (.lockRenewRx e q) s = .next (t.lockRenew (unitOf e) q) := by
  change execLockRenewRx e q s = _
  unfold execLockRenewRx
  rw [ha]

/-- A LOCK_RSP to a lock operation without an outcome: queued keeps it waiting as a probe, any other LSTAT ends it (R533). -/
theorem exec_lockRspRx_awaited {slot : Nat} {o : Op} (hr : s.response e q 0x46 = (t, some (slot, o))) (hh : o.held = none)
    (hlow : 9 ≤ o.kind) (hhigh : o.kind ≤ 11) : exec (.lockRspRx e q) s =
      if bits q.w5 0 8 = 3 then .next ((t.modOp e slot fun o => { o with probe := true, tries := 0 }).rest e)
      else .next ((t.endOp e slot {
        status := lstatStatus (bits q.w5 0 8), info := if bits q.w5 0 8 ≤ 2 ∨ bits q.w5 0 8 = 6 then q.w6 % 2 ^ 64 else 0 }).rest e) := by
  change execLockRspRx e q s = _
  unfold execLockRspRx
  rw [hr]
  refine if_neg ?_
  rw [hh, decide_eq_true hlow, decide_eq_true hhigh]
  exact Bool.false_ne_true

/-! ### Leases, waiters and boosts (R534, R538, R545, R546) -/

theorem exec_leaseExpiry_over {u : Fin 8} {l : Fin 8192} (ho : s.leaseOver u l = true) (hs : s.savedInTime u l = false) :
    exec (.leaseExpiry u l) s = .next ((((s.inc F.LCK_CNT_A_LAPSES u).raise E.LCK_LAPSE u).count 24 u 0x42).pass u l 1) :=
  if_pos (by rw [ho, hs]; rfl)

/-- A waiter dropped, before the waiters of its unit are brought up to date (R534). -/
def State.waiterDropped (s : State) (u : Nat) : State := ((s.inc F.LCK_CNT_C_DROPPED u).raise E.LCK_WAITER_DROP u).count 24 u 0x45

theorem exec_waiterExpiry_gone {u : Fin 8} {src opid : Nat} {w : Waiter}
    (hw : (s.cunit u).waiters.find? (fun w => w.src == src && w.opid == opid) = some w) (hg : s.waiterGone u w = true) :
    exec (.waiterExpiry u src opid) s =
      .next (((s.waiterDropped u).setWaiters u w.lock (((s.waiterDropped u).cunit u).waiters.erase w)).boost u w.lock) := by
  change execWaiterExpiry u src opid s = _
  unfold execWaiterExpiry
  rw [hw]
  exact if_pos hg

/-- The unit notes that it sends the standing boost of a lock again now. -/
def State.boostRenewed (s : State) (u l : Nat) : State :=
  s.modUnit u fun x => { x with holders := Tab.modify ⟨0, 0, 0, false⟩ x.holders l fun h => { h with boostAt := s.now } }

theorem exec_boostRefresh_due {u : Fin 8} {l : Fin 8192} (hb : s.lBoosted u l = true)
    (hp : s.past (Tab.get ⟨0, 0, 0, false⟩ (s.cunit u).holders l).boostAt (64 * s.get F.LCK_TIME_BOOST_REFRESH u) = true) :
    exec (.boostRefresh u l) s = .next ((s.boostRenewed u l).sendBoost u l ((s.boostRenewed u l).lBoost u l) true) :=
  if_pos (by rw [hb, hp]; rfl)

theorem exec_boostRx_inTime (hh : s.handed e q = true) (hc : q.cls = 0) (hk : pKind q = 0x2B) (ha : (s.unhand e q).tooOld q = false) :
    exec (.boostRx e q) s = .next ((s.unhand e q).boostRx e q) :=
  (if_pos (by rw [hh, hc, hk]; rfl)).trans (if_neg (ne_true_of_eq_false ha))

theorem exec_boostExpiry (e : Fin 32) (s : State) : exec (.boostExpiry e) s =
    .next (s.modEng e fun x => { x with boosts := x.boosts.filter fun b => s.now < b.expiry }) := rfl

end Locks

/-- Settles O48: a request that arrives is the case of its arrival, an answer ends or keeps its operation by LSTAT, and the expiries and
boosts act where they are due. -/
theorem lockUnitCommands : Obligations.LockUnitCommands := by
  unfold Obligations.LockUnitCommands
  exact ⟨fun e q s ha => exec_lockAcqRx_arrived (Prod.ext rfl ha), fun e q s ha => exec_lockRelRx_arrived (Prod.ext rfl ha),
    fun e q s ha => exec_lockRenewRx_arrived (Prod.ext rfl ha),
    fun e q slot o s hr hh hlow hhigh hl => (exec_lockRspRx_awaited (Prod.ext rfl hr) hh hlow hhigh).trans (if_pos hl),
    fun e q slot o s hr hh hlow hhigh hl => (exec_lockRspRx_awaited (Prod.ext rfl hr) hh hlow hhigh).trans (if_neg hl),
    fun u l s ho hs => exec_leaseExpiry_over ho hs, fun u src opid w s hw hg => exec_waiterExpiry_gone hw hg,
    fun u l s hb hp => exec_boostRefresh_due hb hp, fun e q s hh hc hk ha => exec_boostRx_inTime hh hc hk ha, exec_boostExpiry⟩

/-! ### The boost table (R546) -/

/-- A boost table of 64 places after a BOOST for a key: without the entries of the key where the boost is off; else with `b` for each of
them, or as a new entry where there is room. -/
def boostTable (key : Boost → Bool) (b : Boost) (on : Bool) (l : List Boost) : List Boost :=
  if !on then l.filter fun y => !key y
  else if l.any key then updWhere key (fun _ => b) l
  else if 64 ≤ l.length then l
  else l ++ [b]

section BoostTable

variable {key : Boost → Bool} {b x : Boost} {l : List Boost}

theorem boostTable_off : boostTable key b false l = l.filter fun y => !key y := rfl

theorem boostTable_refresh (h : l.any key = true) : boostTable key b true l = updWhere key (fun _ => b) l := if_pos h

theorem boostTable_full (h : l.any key = false) (hl : 64 ≤ l.length) : boostTable key b true l = l :=
  (if_neg (ne_true_of_eq_false h)).trans (if_pos hl)

theorem boostTable_new (h : l.any key = false) (hl : l.length < 64) : boostTable key b true l = l ++ [b] :=
  (if_neg (ne_true_of_eq_false h)).trans (if_neg (Nat.not_le_of_lt hl))

/-- With the boost on, a table either takes `b` for the entries of its key, is full without one, or gains `b`. -/
theorem boostTable_on_cases (key : Boost → Bool) (l : List Boost) :
    l.any key = true ∨ l.any key = false ∧ 64 ≤ l.length ∨ l.any key = false ∧ l.length < 64 := by
  rcases l.any key with _ | _
  · exact .inr ((Nat.lt_or_ge l.length 64).elim (fun h => .inr ⟨rfl, h⟩) (fun h => .inl ⟨rfl, h⟩))
  · exact .inl rfl

theorem filter_updWhere_not (hb : key b = true) : (updWhere key (fun _ => b) l).filter (fun y => !key y) = l.filter fun y => !key y := by
  induction l with
  | nil => rfl
  | cons a l ih =>
    unfold updWhere at ih ⊢
    cases ha : key a with
    | false => simp [ha, ih]
    | true => simp [ha, hb, ih]

/-- Entries of other keys stay. -/
theorem boostTable_others (hb : key b = true) (on : Bool) :
    (boostTable key b on l).filter (fun y => !key y) = l.filter fun y => !key y := by
  cases on with
  | false => rw [boostTable_off, List.filter_filter, funext fun y => Bool.and_self (!key y)]
  | true =>
    rcases boostTable_on_cases key l with h | ⟨h, hl⟩ | ⟨h, hl⟩
    · rw [boostTable_refresh h, filter_updWhere_not hb]
    · rw [boostTable_full h hl]
    · rw [boostTable_new h hl, List.filter_append, List.filter_singleton, hb]
      exact List.append_nil _

theorem boostTable_length (on : Bool) (hl : l.length ≤ 64) : (boostTable key b on l).length ≤ 64 := by
  cases on with
  | false => exact Nat.le_trans (List.length_filter_le _ _) hl
  | true =>
    rcases boostTable_on_cases key l with h | ⟨h, hl'⟩ | ⟨h, hl'⟩
    · rw [boostTable_refresh h]
      exact (List.length_map _).trans_le hl
    · rw [boostTable_full h hl']
      exact hl
    · rw [boostTable_new h hl', List.length_append]
      exact hl'

/-- With the boost off no entry of the key is left. -/
theorem key_of_mem_boostTable_off (hx : x ∈ boostTable key b false l) : key x = false :=
  Bool.not_eq_true' _ ▸ (List.mem_filter.1 hx).2

/-- With the boost on, and an entry of the key or room for one, `b` is in the table. -/
theorem mem_boostTable_on (h : l.any key = true ∨ l.length < 64) : b ∈ boostTable key b true l := by
  rcases boostTable_on_cases key l with ha | ⟨ha, hl⟩ | ⟨ha, hl⟩
  · obtain ⟨y, hy, hk⟩ := List.any_eq_true.1 ha
    rw [boostTable_refresh ha]
    exact List.mem_map.2 ⟨y, hy, if_pos hk⟩
  · rcases h with h | h <;> [exact absurd (ha.symm.trans h) (by decide); omega]
  · rw [boostTable_new ha hl]
    exact List.mem_append_right _ (List.mem_singleton_self b)

/-- And it is the only entry of the key. -/
theorem eq_of_mem_boostTable_on (h : l.any key = true ∨ l.length < 64) (hx : x ∈ boostTable key b true l) (hk : key x = true) :
    x = b := by
  rcases boostTable_on_cases key l with ha | ⟨ha, hl⟩ | ⟨ha, hl⟩
  · rw [boostTable_refresh ha] at hx
    obtain ⟨y, hy, rfl⟩ := List.mem_map.1 hx
    cases hy' : key y with
    | false => simp [hy'] at hk
    | true => exact if_pos rfl
  · rcases h with h | h <;> [exact absurd (ha.symm.trans h) (by decide); omega]
  · rw [boostTable_new ha hl] at hx
    rcases List.mem_append.1 hx with hx | hx
    · exact absurd hk (List.any_eq_false.1 ha x hx)
    · exact List.mem_singleton.1 hx

end BoostTable

/-! ### A BOOST at an engine (R546) -/

/-- An entry is of the key of a BOOST: the device of SRC, the unit and the lock. -/
def boostKey (q : Packet) (b : Boost) : Bool := b.dev == q.src / 32 && b.unit == bits q.w4 13 3 && b.lock == bits q.w4 0 13

/-- The entry that a BOOST with ON = 1 asks for. -/
def State.boostEntry (s : State) (e : Nat) (q : Packet) : Boost :=
  ⟨q.src / 32, bits q.w4 13 3, bits q.w4 0 13, pTctx q, bits q.w5 0 4, s.now + ns (4 * 64 * s.get F.LCK_TIME_BOOST_REFRESH (unitOf e))⟩

theorem boostKey_boostEntry (s : State) (e : Nat) (q : Packet) : boostKey q (s.boostEntry e q) = true := by
  simp [boostKey, State.boostEntry]

theorem State.boosts_inc (s : State) (f : Fld) (i e : Nat) : ((s.inc f i).eng e).boosts = (s.eng e).boosts :=
  congrArg (fun x => (Tab.get Eng.reset x e).boosts) (congrArg Prod.fst (s.inc_engClk f i 0 0))

theorem State.boostRx_eq (s : State) (e : Nat) (q : Packet) : s.boostRx e q =
    if !bit q.w5 4 then s.modEng e fun x => { x with boosts := x.boosts.filter fun y => !boostKey q y }
    else if (s.eng e).boosts.any (boostKey q) then
      s.modEng e fun x => { x with boosts := updWhere (boostKey q) (fun _ => s.boostEntry e q) x.boosts }
    else if 64 ≤ (s.eng e).boosts.length then s.inc F.ENG_BOOST_IGNORED e
    else s.modEng e fun x => { x with boosts := x.boosts ++ [s.boostEntry e q] } := rfl

theorem State.boostRx_boosts (s : State) (e : Nat) (q : Packet) : ((s.boostRx e q).eng e).boosts =
    boostTable (boostKey q) (s.boostEntry e q) (bit q.w5 4) (s.eng e).boosts := by
  rw [State.boostRx_eq]
  unfold boostTable
  split
  · exact congrArg Eng.boosts (s.eng_modEng e _)
  · split
    · exact congrArg Eng.boosts (s.eng_modEng e _)
    · split
      · exact s.boosts_inc _ _ _
      · exact congrArg Eng.boosts (s.eng_modEng e _)

/-- A BOOST that finds the table full without an entry of its key only counts itself. -/
theorem State.boostRx_full {s : State} {e : Nat} {q : Packet} (hon : bit q.w5 4 = true) (ha : (s.eng e).boosts.any (boostKey q) = false)
    (hl : 64 ≤ (s.eng e).boosts.length) : s.boostRx e q = s.inc F.ENG_BOOST_IGNORED e :=
  (if_neg (by rw [hon]; exact Bool.false_ne_true)).trans ((if_neg (ne_true_of_eq_false ha)).trans (if_pos hl))

/-- A counter field after it counts: as it was where a write of the clock clears it (R764), else advanced up to its width. -/
theorem State.get_inc_same (s : State) (f : Fld) (i : Nat) : (s.inc f i).get f i =
    if s.rf.wrote.contains (f.key i 0 0) then s.get f i else satAdd (s.get f i) 1 f.w := by
  have hlt : satAdd (s.get f i) 1 f.w < 2 ^ f.w :=
    Nat.lt_of_le_of_lt (Nat.min_le_right _ _) (Nat.sub_lt (Nat.two_pow_pos _) Nat.one_pos)
  rw [State.inc_eq]
  unfold State.hw
  split
  · rfl
  · rw [State.get_set_same, Nat.mod_eq_of_lt hlt]

/-- Settles O56: taking the packet from its tile leaves the engines and the clock, and what the BOOST does to the table is
`boostTable`. -/
theorem boostTableFollowsItsPackets : Obligations.BoostTableFollowsItsPackets := by
  unfold Obligations.BoostTableFollowsItsPackets
  refine ⟨fun e q s u mine hh hc hk hu ha hm => ?_, fun e s => ⟨_, exec_boostExpiry e s, fun b => ?_⟩⟩
  · subst hu hm
    have heng : (s.unhand e q).eng e = s.eng e := congrArg (fun x : Tab Eng × Clock => Tab.get Eng.reset x.1 e) (s.unhand_engClk e q)
    have hnow : (s.unhand e q).now = s.now := congrArg (fun x : Tab Eng × Clock => x.2.emt) (s.unhand_engClk e q)
    have htab := (s.unhand e q).boostRx_boosts e q
    have hkey := boostKey_boostEntry (s.unhand e q) e q
    rw [← heng, ← hnow]
    refine ⟨_, exec_boostRx_inTime hh hc hk ha, ?_, ?_, ?_, ?_, ?_⟩
    · rw [htab]
      exact boostTable_others hkey _
    · rw [htab]
      exact boostTable_length _
    · intro hon b hb
      rw [htab, hon] at hb
      exact key_of_mem_boostTable_off hb
    · intro hon hroom
      rw [htab, hon]
      exact ⟨mem_boostTable_on hroom, fun b hb hk => eq_of_mem_boostTable_on hroom hb hk⟩
    · intro hon hany hfull
      refine ⟨?_, ?_⟩
      · rw [htab, hon]
        exact boostTable_full hany hfull
      · rw [State.boostRx_full hon hany hfull]
        exact State.get_inc_same _ _ _
  · rw [State.eng_modEng]
    exact List.mem_filter.trans (and_congr_right fun _ => decide_eq_true_iff)

end Sys2Proof.Machine

/-!
Host links and the requests on them (R553 to R585), and the functions of host ports (R577 to R585): each command by the case of its guard.
-/
namespace Sys2Proof.Machine
open Sys2Proof

section HostLinks

variable {h : Fin 64} {s : State}

/-! ### A link up and down (R554, R579, R580, R585) -/

/-- The rate, coded as MAX_GEN, that a link may take when `gen` is offered. -/
def State.genUpTo (s : State) (h gen : Nat) : Nat := min (max 1 gen) (s.get F.HPT_CTL_MAX_GEN h)

/-- The width that a link takes when `width` is offered: a power of two at most its own. -/
def State.widthUpTo (s : State) (h width : Nat) : Nat := 2 ^ (min width (s.hport h).width).log2

/-- A link shown as up at a rate and a width, idle from now. -/
def State.showUp (s : State) (h gen width : Nat) : State :=
  let u := ((s.set F.HPT_STAT_UP 1 h).set F.HPT_STAT_GEN gen h).set F.HPT_STAT_WIDTH width h
  u.modHport h fun x => { x with idleFrom := u.now }

/-- A rate and a width are below what a link may have. -/
def State.degraded (s : State) (h gen width : Nat) : Bool :=
  decide (gen < s.get F.HPT_CTL_MAX_GEN h ∨ width < (s.hport h).width)

/-- A formed link, out of PERST_N and not fenced, takes a rate and a width after phase 1 on the Run rung, unless it has them. One that
is up goes through Recovery, from L0 or out of L1 (R554, R697). -/
theorem exec_hostLinkUp_formed {gen width : Nat} (hform : (s.hport h).formed = true) (hperst : (s.hport h).perst = false)
    (hfence : (s.hport h).fenced = false) (hstage : 2 ≤ s.boot.stage) (hrung : s.get F.PWR_STAT_RUNG = 0) :
    exec (.hostLinkUp h gen width) s =
      let g := s.genUpTo h gen
      let w := s.widthUpTo h width
      if s.linkUp h && s.get F.HPT_STAT_GEN h == g && s.get F.HPT_STAT_WIDTH h == w then .next s
      else
        let u := if !s.linkUp h then s.set F.HPT_STAT_PM 0 h
          else if s.get F.HPT_STAT_PM h = 0 then s.inc F.HPT_CNT_A_RECOVERY h else s.exitL1 h
        .next (((u.showUp h g w).raiseIf (!s.linkUp h) E.HPT_LINK_UP h).raiseIf (s.degraded h g w) E.HPT_DEGRADED h) :=
  if_pos (by rw [hform, hperst, hfence, hrung, decide_eq_true hstage]; rfl)

/-- A link that is down comes up and raises LINK_UP. -/
theorem exec_hostLinkUp_down {gen width : Nat} (hform : (s.hport h).formed = true) (hperst : (s.hport h).perst = false)
    (hfence : (s.hport h).fenced = false) (hstage : 2 ≤ s.boot.stage) (hrung : s.get F.PWR_STAT_RUNG = 0) (hup : s.linkUp h = false) :
    exec (.hostLinkUp h gen width) s =
      let g := s.genUpTo h gen
      let w := s.widthUpTo h width
      .next ((((s.set F.HPT_STAT_PM 0 h).showUp h g w).raise E.HPT_LINK_UP h).raiseIf (s.degraded h g w) E.HPT_DEGRADED h) := by
  rw [exec_hostLinkUp_formed hform hperst hfence hstage hrung, hup]
  rfl

/-- A link that is up changes its rate or width through Recovery. -/
theorem exec_hostLinkUp_change {gen width : Nat} (hform : (s.hport h).formed = true) (hperst : (s.hport h).perst = false)
    (hfence : (s.hport h).fenced = false) (hstage : 2 ≤ s.boot.stage) (hrung : s.get F.PWR_STAT_RUNG = 0) (hup : s.linkUp h = true)
    (hne : s.get F.HPT_STAT_GEN h ≠ s.genUpTo h gen ∨ s.get F.HPT_STAT_WIDTH h ≠ s.widthUpTo h width) :
    exec (.hostLinkUp h gen width) s =
      let g := s.genUpTo h gen
      let w := s.widthUpTo h width
      .next (((if s.get F.HPT_STAT_PM h = 0 then s.inc F.HPT_CNT_A_RECOVERY h else s.exitL1 h).showUp h g w).raiseIf
        (s.degraded h g w) E.HPT_DEGRADED h) := by
  have hsame : (s.get F.HPT_STAT_GEN h == s.genUpTo h gen && s.get F.HPT_STAT_WIDTH h == s.widthUpTo h width) = false := by
    rcases hne with hne | hne
    · rw [beq_false_of_ne hne, Bool.false_and]
    · rw [beq_false_of_ne hne, Bool.and_false]
  rw [exec_hostLinkUp_formed hform hperst hfence hstage hrung, hup]
  dsimp only
  rw [Bool.true_and, hsame]
  rfl

/-- The status of a link cleared, and its requests ended as Completion Timeouts (R585). -/
def State.linkDropped (s : State) (h : Nat) : State :=
  ((((s.set F.HPT_STAT_UP 0 h).set F.HPT_STAT_GEN 0 h).set F.HPT_STAT_WIDTH 0 h).set F.HPT_STAT_PM 0 h).timeOutAll h

theorem exec_hostLinkDown_up (hup : s.linkUp h = true) : exec (.hostLinkDown h) s =
    .next (((s.linkDropped h).each ((s.linkDropped h).funcsOf h) fun s f => s.clearFn h f).raise E.HPT_LINK_DOWN h).settleAll :=
  congrArg Host.Outcome.next (if_pos hup)

/-- PERST_N high at the links of an x16 port, and WAKE_N released. -/
def State.perstReleased (s : State) (p : Nat) : State :=
  s.each ((List.range 4).map (4 * p + ·)) fun s h => s.modHport h fun x => { x with perst := false, wake := false }

theorem exec_perstDeassert_formed {p : Fin 16} (hp : (s.hport (4 * p.val)).perst = true) (hb : 2 ≤ (s.perstReleased p).boot.stage) :
    exec (.perstDeassert p) s = .next ((s.perstReleased p).formPort p) := (if_pos hp).trans (if_pos hb)

/-! ### L1 (R581) -/

/-- A link that may enter L1: up, in L0 with L1 enabled, with nothing held or outstanding, and idle for L1_IDLE. -/
def State.l1Due (s : State) (h : Nat) : Prop :=
  s.linkUp h = true ∧ bit (s.fn h 0).l1 0 = true ∧ s.get F.HPT_STAT_PM h = 0 ∧ s.parked.any (·.1 == h) = false ∧ s.npOut h = 0 ∧
    s.over (s.hport h).idleFrom (1000 * s.get F.HPT_CTL_L1_IDLE h) 1000 = true

/-- Such a link enters L1.2 behind a report of LTR_NS where L1.2 is enabled, else L1.1 where that is, else L1. -/
theorem exec_l1Entry_due (hd : s.l1Due h) : exec (.l1Entry h) s =
    if bit (s.fn h 0).l1 2 then .next ((s.emitMsg h (.ltr h (s.get F.HPT_CTL_LTR_NS h))).set F.HPT_STAT_PM 3 h)
    else .next (s.set F.HPT_STAT_PM (if bit (s.fn h 0).l1 1 then 2 else 1) h) := by
  obtain ⟨hup, hen, hpm, hpark, hout, hidle⟩ := hd
  exact if_pos (by rw [hup, hen, hpm, hpark, hout, hidle]; rfl)

theorem exec_l1Entry_shallow {on : Bool} (hd : s.l1Due h) (h2 : bit (s.fn h 0).l1 2 = false) (h1 : bit (s.fn h 0).l1 1 = on) :
    exec (.l1Entry h) s = .next (s.set F.HPT_STAT_PM (if on then 2 else 1) h) := by
  rw [exec_l1Entry_due hd, h2, h1]
  rfl

theorem exec_l1Exit_low (hpm : s.get F.HPT_STAT_PM h ≠ 0) : exec (.l1Exit h) s = .next (s.exitL1 h) := if_neg hpm

/-! ### Time-outs of requests (R573, R574) -/

section TimeOuts

variable {tag : Nat} {r : HostReq}

/-- A request without an end that has been out for the Completion Timeout closes and ends as one. -/
theorem exec_completionTimeout_passed (hr : s.reqOf tag = some r) (hclo : r.closed = false) (hend : r.ended = false)
    (hbme : s.waitsBme r = false) (hp : s.passed r.since (1000 * ctoMicros (s.fn r.port r.func).cto) = true) :
    exec (.completionTimeout tag) s =
      let t := { s with parked := s.parked.filter fun x => x.2.2.tagOf != some tag,
                        reqs := updWhere (·.tag == tag) (fun r => { r with closed := true }) s.reqs }
      .next (((t.cplTimeout r.port r.func).hostReturn r false []).rest r.eng |>.sendHeld r.port) := by
  change execCompletionTimeout tag s = _
  unfold execCompletionTimeout
  rw [hr]
  dsimp only
  rw [hclo, hbme, hp, hend]
  rfl

/-- A host access for the fabric that has been out for FAB_TO, where that is the shorter time, ends as a host failure. -/
theorem exec_fabTimeout_over (hr : s.reqOf tag = some r) (hfab : r.why.fabric = true) (hend : r.ended = false) (hclo : r.closed = false)
    (hbme : s.waitsBme r = false) (hshort : 64 * s.get F.HPT_CTL_FAB_TO r.port < 1000 * ctoMicros (s.fn r.port r.func).cto)
    (ho : s.over r.since (64 * s.get F.HPT_CTL_FAB_TO r.port) 64 = true) : exec (.fabTimeout tag) s =
      let t := { s with reqs := updWhere (·.tag == tag) (fun r => { r with ended := true }) s.reqs }
      .next ((((t.inc F.HPT_CNT_C_FAB_TO r.port).raise E.HPT_FAB_TIMEOUT r.port).hostReturn r false []).rest r.eng) := by
  change execFabTimeout tag s = _
  unfold execFabTimeout
  rw [hr]
  exact if_pos (by rw [hfab, hend, hclo, hbme, decide_eq_true hshort, ho]; rfl)

end TimeOuts

/-! ### The window commit (R569) -/

theorem exec_winCommit_free (hc : s.capturePending (pageNo 27 h) = false) :
    exec (.winCommit h) s = .next ((s.disarm (pageNo 27 h)).capture (pageNo 27 h)) := if_neg (ne_true_of_eq_false hc)

theorem exec_winCommitInForce_pending (hc : s.capturePending (pageNo 27 h) = true) : exec (.winCommitInForce h) s =
    let t := s.applyCapture (pageNo 27 h)
    .next (((t.set F.WIN_COMMIT_COUNT ((t.get F.WIN_COMMIT_COUNT h + 1) % 2 ^ 16) h).raise E.WIN_COMMIT_DONE h).count 27 h 0x42) :=
  if_pos hc

/-! ### Inbound requests (R565, R582, R697) -/

section Inbound

variable {f : Fin 264} {q : Tlp} {t : State}

/-- What becomes of a counted request: poisoned, without a function that answers it, a configuration request too early, within an FLR,
or served. -/
def State.takeTlp (t : State) (h : Fin 64) (f : Fin 264) (q : Tlp) (poisoned : Bool) : Host.Outcome State Fault Refusal :=
  if poisoned then .next ((t.raise E.HPT_POISON_RX h).aer h f 12)
  else if t.answers h f = false then .next (t.unsupported h f q.posted)
  else if q.isCfg ∧ ((t.fn h f).flrAt.isSome ∨ t.boot.stage < 3) then .next (t.emit (.retryStatus h f))
  else if (t.fn h f).flrAt.isSome then .next (t.unsupported h f q.posted)
  else .next (t.serveTlp h f q)

theorem State.takeTlp_poisoned : t.takeTlp h f q true = .next ((t.raise E.HPT_POISON_RX h).aer h f 12) := rfl

theorem State.takeTlp_unanswered (ha : t.answers h f = false) : t.takeTlp h f q false = .next (t.unsupported h f q.posted) := if_pos ha

theorem State.takeTlp_early (ha : t.answers h f = true)
    (hc : q.isCfg = true ∧ ((t.fn h f).flrAt.isSome = true ∨ t.boot.stage < 3)) :
    t.takeTlp h f q false = .next (t.emit (.retryStatus h f)) := (if_neg (ne_false_of_eq_true ha)).trans (if_pos hc)

theorem State.takeTlp_flr (ha : t.answers h f = true) (hc : q.isCfg = false) (hf : (t.fn h f).flrAt.isSome = true) :
    t.takeTlp h f q false = .next (t.unsupported h f q.posted) :=
  (if_neg (ne_false_of_eq_true ha)).trans ((if_neg fun hq => ne_true_of_eq_false hc hq.1).trans (if_pos hf))

theorem State.takeTlp_served (ha : t.answers h f = true) (hf : (t.fn h f).flrAt.isSome = false)
    (hc : 3 ≤ t.boot.stage ∨ q.isCfg = false) : t.takeTlp h f q false = .next (t.serveTlp h f q) := by
  have hq : ¬(q.isCfg = true ∧ ((t.fn h f).flrAt.isSome = true ∨ t.boot.stage < 3)) := by
    rintro ⟨hcfg, hflr | hstage⟩
    · exact ne_true_of_eq_false hf hflr
    · rcases hc with hc | hc
      · exact Nat.not_lt_of_le hc hstage
      · exact ne_true_of_eq_false hc hcfg
  exact (if_neg (ne_false_of_eq_true ha)).trans ((if_neg hq).trans (if_neg (ne_true_of_eq_false hf)))

theorem State.did_next (s t : State) : s.did (.next t) = t := rfl

/-- A request on an active link returns it to L0, is counted and taken. -/
theorem exec_inboundRequest_up {poisoned : Bool} (hup : s.linkUp h = true) : exec (.inboundRequest h f q poisoned) s =
    ((((s.did (execL1Exit h s)).modHport h fun x => { x with idleFrom := s.now }).count 26 h 0x43).count 26 h 0x45
      (divUp q.bytes 64)).takeTlp h f q poisoned := if_pos hup

theorem exec_inboundRequest_l0 {poisoned : Bool} (hup : s.linkUp h = true) (hpm : s.get F.HPT_STAT_PM h = 0) :
    exec (.inboundRequest h f q poisoned) s =
      (((s.modHport h fun x => { x with idleFrom := s.now }).count 26 h 0x43).count 26 h 0x45 (divUp q.bytes 64)).takeTlp h f q
        poisoned := by
  have hexit : execL1Exit h s = .next s := if_pos hpm
  rw [exec_inboundRequest_up hup, hexit, State.did_next]

theorem exec_inboundRequest_l1 {poisoned : Bool} (hup : s.linkUp h = true) (hpm : s.get F.HPT_STAT_PM h ≠ 0) :
    exec (.inboundRequest h f q poisoned) s =
      ((((s.exitL1 h).modHport h fun x => { x with idleFrom := s.now }).count 26 h 0x43).count 26 h 0x45 (divUp q.bytes 64)).takeTlp h f
        q poisoned := by
  have hexit : execL1Exit h s = .next (s.exitL1 h) := if_neg hpm
  rw [exec_inboundRequest_up hup, hexit, State.did_next]

end Inbound

end HostLinks

/-- Settles O49: a link and its requests by the case of their guards; an inbound request is taken alike in L0 and, after the exit, in
L1. -/
theorem hostLinkCommands : Obligations.HostLinkCommands := by
  unfold Obligations.HostLinkCommands
  refine ⟨fun h gen width s hform hperst hfence hstage hup hrung => exec_hostLinkUp_down hform hperst hfence hstage hrung hup,
    fun h gen width s hform hperst hfence hstage hup hrung hne =>
      exec_hostLinkUp_change hform hperst hfence hstage hrung hup hne,
    fun h s hup => exec_hostLinkDown_up hup, fun p s => rfl, fun p s hp hb => exec_perstDeassert_formed hp hb,
    fun h s hup hen hpm hpark hout hidle h2 => (exec_l1Entry_due ⟨hup, hen, hpm, hpark, hout, hidle⟩).trans (if_pos h2),
    fun h s hup hen hpm hpark hout hidle h2 h1 => exec_l1Entry_shallow ⟨hup, hen, hpm, hpark, hout, hidle⟩ h2 h1,
    fun h s hup hen hpm hpark hout hidle h2 h1 => exec_l1Entry_shallow ⟨hup, hen, hpm, hpark, hout, hidle⟩ h2 h1,
    fun h s hpm => exec_l1Exit_low hpm, fun tag r s hr hclo hend hbme hp => exec_completionTimeout_passed hr hclo hend hbme hp,
    fun tag r s hr hfab hend hclo hbme hshort ho => exec_fabTimeout_over hr hfab hend hclo hbme hshort ho,
    fun h s hc => exec_winCommit_free hc, fun h s hc => exec_winCommitInForce_pending hc,
    fun h f q s hup hpm => (exec_inboundRequest_l0 hup hpm).trans State.takeTlp_poisoned,
    fun h f q s hup hpm ha => (exec_inboundRequest_l0 hup hpm).trans (State.takeTlp_unanswered ha),
    fun h f q s hup hpm ha hc => (exec_inboundRequest_l0 hup hpm).trans (State.takeTlp_early ha hc),
    fun h f q s hup hpm ha hc hf => (exec_inboundRequest_l0 hup hpm).trans (State.takeTlp_flr ha hc hf),
    fun h f q s hup hpm ha hf hc => (exec_inboundRequest_l0 hup hpm).trans (State.takeTlp_served ha hf hc),
    fun h f q s hup hpm => (exec_inboundRequest_l1 hup hpm).trans State.takeTlp_poisoned,
    fun h f q s hup hpm ha => (exec_inboundRequest_l1 hup hpm).trans (State.takeTlp_unanswered ha),
    fun h f q s hup hpm ha hc => (exec_inboundRequest_l1 hup hpm).trans (State.takeTlp_early ha hc),
    fun h f q s hup hpm ha hc hf => (exec_inboundRequest_l1 hup hpm).trans (State.takeTlp_flr ha hc hf),
    fun h f q s hup hpm ha hf hc => (exec_inboundRequest_l1 hup hpm).trans (State.takeTlp_served ha hf hc)⟩

/-! ### Functions (R577 to R585) -/

section Functions

variable {h : Fin 64} {f : Fin 264} {s : State}

/-- A function at the start of its FLR: its work discarded, its configuration space reset, and the time noted (R582). -/
def State.flrStarted (s : State) (h f : Nat) : State := (s.clearFn h f).modFn h f fun x => { x with flrAt := some s.now }

/-- An FLR of a PF clears its VFs too. -/
theorem exec_flr_up (hup : s.linkUp h = true) (hex : s.funcExists h f = true) : exec (.flr h f) s =
    let t := if f.val < 8 then (s.flrStarted h f).each ((s.flrStarted h f).vfsOf h f) fun s v => s.clearFn h v else s.flrStarted h f
    .next (((t.raise E.FUN_FLR h).count 28 h 0x42).settleAll) := if_pos (by rw [hup, hex]; rfl)

theorem exec_d3hotEntry_d0 (hup : s.linkUp h = true) (hex : s.funcExists h f = true) (hd : (s.fn h f).d3 = false) :
    exec (.d3hotEntry h f) s = .next (((s.dropWork h f).modFn h f fun x => { x with d3 := true, gone := true }).settleAll) :=
  if_pos (by rw [hup, hex, hd]; rfl)

theorem exec_d0Return_d3 (hd : (s.fn h f).d3 = true) : exec (.d0Return h f) s = .next (s.clearAll h f).settleAll := if_pos hd

theorem exec_bmeWrite_exists {on : Bool} (hex : s.funcExists h f = true) : exec (.bmeWrite h f on) s =
    .next ((s.modFn h f fun x => { x with bme := on, gone := x.gone && !(on && s.linkUp h) }).sendHeld h).settleAll := if_pos hex

theorem exec_msixPendingSend_open {v : Fin 2048} (hp : (s.vec h f v).pending = true) (ho : s.vecOpen h f v = true) :
    exec (.msixPendingSend h f v) s =
      .next ((s.modVec h f v fun x => { x with pending := false }).issue h f (.msix h f (s.vec h f v).addr (s.vec h f v).data)) :=
  if_pos (by rw [hp, ho]; rfl)

end Functions

/-- Settles O50: every command is the case of its guard; the FLRs of a PF and of a VF are one lemma's cases. -/
theorem hostFunctionCommands : Obligations.HostFunctionCommands := by
  unfold Obligations.HostFunctionCommands
  refine ⟨fun h f s hup hex hpf => ?_, fun h f s hup hex hvf => ?_, fun h f s => rfl,
    fun h f s hup hex hd => exec_d3hotEntry_d0 hup hex hd, fun h f s hd => exec_d0Return_d3 hd,
    fun h f on s hex => exec_bmeWrite_exists hex, fun h f v s hp ho => exec_msixPendingSend_open hp ho⟩
  · rw [exec_flr_up hup hex, if_pos hpf]
    rfl
  · rw [exec_flr_up hup hex, if_neg (Nat.not_lt_of_le hvf)]
    rfl

end Sys2Proof.Machine

/-!
Events and the collector (R597), pages that do not exist (R593), and the data port (R604 to R610).
-/
namespace Sys2Proof.Machine
open Sys2Proof

/-! ### Raising an event (R597) -/

/-- Raising an event sets its bit of EVT_STAT, whatever counts it. -/
theorem evt_raiseAt_same (s : State) (cls i b : Nat) (c : Capture) (hb : b < 64) :
    (s.raiseAt cls i b c).getBit (F.EVT_STAT_EVT.of cls) b i = true := by
  have h := evt_raiseBit_same s cls i b c hb
  unfold State.raiseAt
  split
  · exact h
  · exact evt_count_keep _ _ _ _ _ _ _ hb h

/-- From `s` to `t` the events that came to the collector are events of a page that its EVT_EN enables, and EVT_EN stays. -/
structure PageReports (cls i : Nat) (s t : State) : Prop where
  arrivals : ∀ a ∈ t.flt.arrivals, a ∈ s.flt.arrivals ∨
    a.slot / 64 = cls ∧ a.inst = i ∧ s.getBit (F.EVT_EN_EN.of cls) (a.slot % 64) i = true
  enables : t.get (F.EVT_EN_EN.of cls) i = s.get (F.EVT_EN_EN.of cls) i

section PageReports

variable {cls i : Nat} {s t u : State}

/-- No event came. -/
theorem PageReports.silent (hf : t.flt = s.flt) (he : t.get (F.EVT_EN_EN.of cls) i = s.get (F.EVT_EN_EN.of cls) i) :
    PageReports cls i s t := ⟨fun _ ha => .inl (hf ▸ ha), he⟩

theorem PageReports.refl (s : State) : PageReports cls i s s := .silent rfl rfl

theorem PageReports.trans (h : PageReports cls i s t) (h' : PageReports cls i t u) : PageReports cls i s u := by
  refine ⟨fun a ha => ?_, h'.enables.trans h.enables⟩
  rcases h'.arrivals a ha with ht | ⟨hc, hi, hen⟩
  · exact h.arrivals a ht
  · exact .inr ⟨hc, hi, by rw [← hen, State.getBit, State.getBit, h.enables]⟩

theorem PageReports.fold {α : Type} (f : State → α → State) (l : List α) (h : ∀ s a, a ∈ l → PageReports cls i s (f s a)) (s : State) :
    PageReports cls i s (l.foldl f s) := by
  induction l generalizing s with
  | nil => exact .refl s
  | cons a l ih => exact (h s a (List.mem_cons_self ..)).trans (ih (fun s b hb => h s b (List.mem_cons_of_mem _ hb)) (f s a))

theorem State.pageCapture_flt (s : State) (cls i b : Nat) (c : Capture) : (s.pageCapture cls i b c).flt = s.flt := by
  unfold State.pageCapture
  split
  · exact s.event_flt _ _ _ _
  · simp only [State.event_flt, State.set_flt]

/-- An event is reported only where its EVT_EN bit is 1. -/
theorem PageReports.report (s : State) {b : Nat} (c : Capture) (hb : b < 64) : PageReports cls i s (s.report cls i b c) := by
  refine ⟨fun a ha => ?_, evtEn_report s cls i b c⟩
  unfold State.report at ha
  split at ha
  · rename_i hen
    dsimp only at ha
    have hcap : (if 2 ≤ s.severity (64 * cls + b) then s.pageCapture cls i b c else s).flt = s.flt := by
      split
      · exact s.pageCapture_flt cls i b c
      · rfl
    split at ha
    · exact .inl (hcap ▸ ha)
    · rcases List.mem_append.1 ha with ha | ha
      · exact .inl (hcap ▸ ha)
      · obtain rfl := List.mem_singleton.1 ha
        have hslot : (64 * cls + b) / 64 = cls ∧ (64 * cls + b) % 64 = b := by omega
        exact .inr ⟨hslot.1, rfl, by rw [hslot.2]; exact hen⟩
  · exact .inl ha

theorem PageReports.raiseBit (s : State) {b : Nat} (c : Capture) (hb : b < 64) : PageReports cls i s (s.raiseBit cls i b c) := by
  refine PageReports.trans (t := s.event (F.EVT_STAT_EVT.of cls) b i) (.silent rfl ?_) (.report _ c hb)
  rw [State.get_event]
  exact s.get_set_low _ _ _ i 0 0 i 0 0 (Nat.lt_trans (low_EVT_STAT_EVT cls) (by decide)) (Nat.lt_trans (low_EVT_EN_EN cls) (by decide))
    (by simp only [Fld.low, Fld.of, F.EVT_STAT_EVT, F.EVT_EN_EN]; decide)

theorem PageReports.pmcAdd (s : State) {k : Nat} (d : Nat) (hk : k < 8) : PageReports cls i s (s.pmcAdd cls i k d) := by
  refine .silent ?_ (evtEn_pmcAdd s cls i k d hk)
  unfold State.pmcAdd
  dsimp only
  split
  · exact s.hw_flt _ _ _ _ _
  · exact (State.hw_flt _ _ _ _ _ _).trans (s.hw_flt _ _ _ _ _)

theorem PageReports.raiseSat (s : State) : PageReports cls i s (s.raiseSat cls i) := by
  have hsat : PageReports cls i s (s.raiseBit cls i E.bitPmcSat (blockCapture cls i)) := .raiseBit s _ (by decide)
  have hadd : ∀ (p : Nat → Bool) (t : State), PageReports cls i t (((List.range (pmcNum cls)).filter p).foldl (fun t k => t.pmcAdd cls i k 1) t) :=
    fun p t => .fold _ _ (fun t k hk => .pmcAdd t 1 (pmc_filter_lt cls p k hk)) t
  unfold State.raiseSat
  dsimp only
  split
  · exact hsat
  · split
    · exact (hsat.trans (hadd _ _)).trans (.raiseBit _ _ (by decide))
    · exact hsat.trans (hadd _ _)

theorem PageReports.countIn (s : State) {k : Nat} (d : Nat) (hk : k < 8) : PageReports cls i s (s.countIn cls i d k) := by
  unfold State.countIn
  dsimp only
  split
  · exact (PageReports.pmcAdd s d hk).trans (.raiseSat _)
  · exact .pmcAdd s d hk

theorem PageReports.count (s : State) (ev d : Nat) (ctx : Option Nat) : PageReports cls i s (s.count cls i ev d ctx) := by
  unfold State.count
  split
  · exact .refl s
  · exact .fold _ _ (fun t k hk => .countIn t d (pmc_filter_lt cls _ k hk)) s

theorem PageReports.raiseAt (s : State) {b : Nat} (c : Capture) (hb : b < 64) : PageReports cls i s (s.raiseAt cls i b c) := by
  unfold State.raiseAt
  split
  · exact .raiseBit s c hb
  · exact (PageReports.raiseBit s c hb).trans (.count _ _ _ _)

end PageReports

/-- Settles O51: the bit stays set through the counting of the event, and every event that comes is one of the page's that EVT_EN
enables, PMC_SAT among them. -/
theorem raisedEventSetsItsBitAndReachesTheCollectorWhenEnabled :
    Obligations.RaisedEventSetsItsBitAndReachesTheCollectorWhenEnabled := by
  unfold Obligations.RaisedEventSetsItsBitAndReachesTheCollectorWhenEnabled
  intro s cls i b c hb
  refine ⟨evt_raiseAt_same s cls i b c hb, fun a ha => ?_⟩
  rcases (PageReports.raiseAt s c hb).arrivals a ha with hold | ⟨rfl, rfl, hen⟩
  · exact .inl hold
  · exact .inr hen

/-! ### Pages that do not exist (R593) -/

theorem Half.cut_zero (h : Half) : h.cut 0 = 0 := by
  cases h <;> rfl

theorem State.regValue_absent (s : State) {o : Nat} (ho : implemented (offCls o) (offInst o) = false) : s.regValue o = 0 :=
  if_neg (by rw [ho]; exact Bool.false_ne_true)

/-- MT_NOW, whose read latches MT_FRAC, stands in a page that exists, so a read of one that does not changes nothing. -/
theorem State.regRead_absent (s : State) {o : Nat} (h : Half) (ho : implemented (offCls o) (offInst o) = false) :
    s.regRead o h = (s, 0) := by
  have hmt : ¬(offCls o = 1 ∧ offInst o = 0 ∧ offReg o = F.MT_NOW_NS.off) := by
    rintro ⟨hc, hi, _⟩
    rw [hc, hi] at ho
    exact absurd ho (by decide)
  unfold State.regRead
  rw [if_neg hmt]
  dsimp only
  rw [s.regValue_absent ho, Half.cut_zero]

/-- Settles O53: neither a write nor a read reaches a register of a page that does not exist. -/
theorem instancesBeyondAClassReadZero : Obligations.InstancesBeyondAClassReadZero := by
  unfold Obligations.InstancesBeyondAClassReadZero
  intro m off v h s ho
  exact ⟨by rw [exec_regWrite, s.maskWrite_absent m _ _ _ ho], s.regRead_absent h ho⟩

/-! ### Bursts by their guards (R604, R606, R765) -/

section Bursts

variable {m : Master} {off len : Nat} {data : List Byte} {s : State}

theorem exec_dptBurstWrite_live (hf : s.blockFenced 6 = false) : exec (.dptBurstWrite m off data) s =
    if badBurst off data.length || !s.flag F.DPT_CTL_DIR then
      .next (s.burstBad m (badBurst off data.length) (!s.flag F.DPT_CTL_DIR) 2)
    else
      let ws := wordsOfBytes (data.length / 8) data
      .next ((s.burstWrite m (s.get F.DPT_ADDR_ADDR) (s.get F.DPT_CTL_STRIDE) (s.get F.DPT_CTL_BANK) ws).dptStep ws.length) :=
  if_neg (ne_true_of_eq_false hf)

theorem exec_dptBurstRead_live (hf : s.blockFenced 6 = false) : exec (.dptBurstRead m off len) s =
    if badBurst off len || s.flag F.DPT_CTL_DIR then
      .next ((s.burstBad m (badBurst off len) (s.flag F.DPT_CTL_DIR) 1).emitData m len (.burst m (List.replicate (divUp len 8) 0)))
    else
      let r := s.burstRead m (s.get F.DPT_ADDR_ADDR) (s.get F.DPT_CTL_STRIDE) (s.get F.DPT_CTL_BANK) (len / 8)
      .next ((r.1.dptStep (len / 8)).emitData m len (.burst m r.2)) :=
  if_neg (ne_true_of_eq_false hf)

/-- A burst of whole aligned words with its direction is applied. -/
theorem exec_dptBurstWrite_applied (hf : s.blockFenced 6 = false) (hb : badBurst off data.length = false)
    (hd : s.flag F.DPT_CTL_DIR = true) : exec (.dptBurstWrite m off data) s =
      let ws := wordsOfBytes (data.length / 8) data
      .next ((s.burstWrite m (s.get F.DPT_ADDR_ADDR) (s.get F.DPT_CTL_STRIDE) (s.get F.DPT_CTL_BANK) ws).dptStep ws.length) := by
  rw [exec_dptBurstWrite_live hf, hb, hd]
  rfl

theorem exec_dptBurstRead_applied (hf : s.blockFenced 6 = false) (hb : badBurst off len = false) (hd : s.flag F.DPT_CTL_DIR = false) :
    exec (.dptBurstRead m off len) s =
      let r := s.burstRead m (s.get F.DPT_ADDR_ADDR) (s.get F.DPT_CTL_STRIDE) (s.get F.DPT_CTL_BANK) (len / 8)
      .next ((r.1.dptStep (len / 8)).emitData m len (.burst m r.2)) := by
  rw [exec_dptBurstRead_live hf, hb, hd]
  rfl

theorem exec_dptBurstWrite_badLen (hf : s.blockFenced 6 = false) (hb : badBurst off data.length = true) :
    exec (.dptBurstWrite m off data) s = .next (s.burstBad m true (!s.flag F.DPT_CTL_DIR) 2) := by
  rw [exec_dptBurstWrite_live hf, hb]
  rfl

theorem exec_dptBurstWrite_against (hf : s.blockFenced 6 = false) (hd : s.flag F.DPT_CTL_DIR = false) :
    exec (.dptBurstWrite m off data) s = .next (s.burstBad m (badBurst off data.length) true 2) := by
  rw [exec_dptBurstWrite_live hf, hd, Bool.not_false, Bool.or_true]
  rfl

theorem exec_dptBurstRead_against (hf : s.blockFenced 6 = false) (hd : s.flag F.DPT_CTL_DIR = true) :
    exec (.dptBurstRead m off len) s =
      .next ((s.burstBad m (badBurst off len) true 1).emitData m len (.burst m (List.replicate (divUp len 8) 0))) := by
  rw [exec_dptBurstRead_live hf, hd, Bool.or_true]
  rfl

end Bursts

/-! ### A burst without effect (R604, R606) -/

/-- A flag of one bit that hardware sets. -/
theorem State.get_event_flag (s : State) {f : Fld} (hw : f.w = 1) (i n : Nat) : (s.event f 0 i n).get f i n = 1 := by
  rw [State.get_event, State.get_set_same, hw, setBits_one]
  omega

/-- A field elsewhere in its page after hardware sets a bit. -/
theorem State.get_event_low (s : State) (f g : Fld) (b i n j m l : Nat) (hf : f.low n 0 < 262144) (hg : g.low m l < 262144)
    (h : g.low m l ≠ f.low n 0) : (s.event f b i n).get g j m l = s.get g j m l := by
  rw [State.get_event]
  exact s.get_set_low f g _ i n 0 j m l hf hg h

/-- The flags of DPT_STAT that a burst without effect sets: BAD_LEN, DIR_ERR or both. -/
def State.badFlags (s : State) (len dir : Bool) : State :=
  let s := if len then s.event F.DPT_STAT_BAD_LEN 0 else s
  if dir then s.event F.DPT_STAT_DIR_ERR 0 else s

theorem State.badFlags_eq (s : State) (len dir : Bool) : s.badFlags len dir = { s with rf := (s.badFlags len dir).rf } := by
  cases len <;> cases dir <;> rfl

/-- They leave every other field of the page. -/
theorem State.get_badFlags (s : State) (len dir : Bool) (g : Fld) (hg : g.low 0 0 < 262144)
    (hlen : g.low 0 0 ≠ F.DPT_STAT_BAD_LEN.low 0 0) (hdir : g.low 0 0 ≠ F.DPT_STAT_DIR_ERR.low 0 0) :
    (s.badFlags len dir).get g = s.get g := by
  have h1 : (if len then s.event F.DPT_STAT_BAD_LEN 0 else s).get g = s.get g := by
    cases len with
    | false => rfl
    | true => exact s.get_event_low _ _ _ _ _ _ _ _ (by decide) hg hlen
  cases dir with
  | false => exact h1
  | true => exact (State.get_event_low _ _ _ _ _ _ _ _ _ (by decide) hg hdir).trans h1

theorem State.badFlags_len (s : State) (dir : Bool) : (s.badFlags true dir).get F.DPT_STAT_BAD_LEN = 1 := by
  have h1 : (s.event F.DPT_STAT_BAD_LEN 0).get F.DPT_STAT_BAD_LEN = 1 := s.get_event_flag rfl 0 0
  cases dir with
  | false => exact h1
  | true => exact (State.get_event_low _ _ _ _ _ _ _ _ _ (by decide) (by decide) (by decide)).trans h1

theorem State.badFlags_dir (s : State) (len : Bool) : (s.badFlags len true).get F.DPT_STAT_DIR_ERR = 1 :=
  State.get_event_flag _ rfl 0 0

/-- A burst without effect sets its flags, and raises and counts DPT_ERR. -/
theorem State.burstBad_eq (s : State) (m : Master) (len dir : Bool) (acc : Nat) : s.burstBad m len dir acc =
    ((s.badFlags len dir).raiseCap E.DPT_ERR 0 (m.capture ((s.badFlags len dir).get F.DPT_ADDR_ADDR) 2 acc)).count 6 0 0x42 := rfl

theorem State.burstBad_hdr (s : State) (m : Master) (len dir : Bool) (acc : Nat) : HdrOnly (s.badFlags len dir) (s.burstBad m len dir acc) := by
  rw [State.burstBad_eq]
  exact (raiseCap_hdr _ _ _ _).trans (count_hdr _ _ _ _ _ _)

/-- The registers and the events on their way to the collector are all that it changes. -/
theorem State.burstBad_frame (s : State) (m : Master) (len dir : Bool) (acc : Nat) : s.burstBad m len dir acc =
    { s with rf := (s.burstBad m len dir acc).rf, flt := { s.flt with arrivals := (s.burstBad m len dir acc).flt.arrivals } } := by
  obtain ⟨⟨a, b, c, d, h⟩, _⟩ := s.burstBad_hdr m len dir acc
  rw [h, s.badFlags_eq len dir]

/-- Above the header, a field of the page that is no such flag stays. -/
theorem State.get_burstBad (s : State) (m : Master) (len dir : Bool) (acc : Nat) (g : Fld) (h1 : 16384 ≤ g.low 0 0)
    (h2 : g.low 0 0 < 262144) (hlen : g.low 0 0 ≠ F.DPT_STAT_BAD_LEN.low 0 0) (hdir : g.low 0 0 ≠ F.DPT_STAT_DIR_ERR.low 0 0) :
    (s.burstBad m len dir acc).get g = s.get g :=
  ((s.burstBad_hdr m len dir acc).2 g 0 0 0 h1 h2).trans (s.get_badFlags len dir g h2 hlen hdir)

theorem State.burstBad_addr (s : State) (m : Master) (len dir : Bool) (acc : Nat) :
    (s.burstBad m len dir acc).get F.DPT_ADDR_ADDR = s.get F.DPT_ADDR_ADDR :=
  s.get_burstBad m len dir acc _ (by decide) (by decide) (by decide) (by decide)

theorem State.burstBad_words (s : State) (m : Master) (len dir : Bool) (acc : Nat) :
    (s.burstBad m len dir acc).get F.DPT_STAT_WORDS = s.get F.DPT_STAT_WORDS :=
  s.get_burstBad m len dir acc _ (by decide) (by decide) (by decide) (by decide)

theorem State.burstBad_len (s : State) (m : Master) (dir : Bool) (acc : Nat) : (s.burstBad m true dir acc).get F.DPT_STAT_BAD_LEN = 1 :=
  ((s.burstBad_hdr m true dir acc).2 _ 0 0 0 (by decide) (by decide)).trans (s.badFlags_len dir)

theorem State.burstBad_dir (s : State) (m : Master) (len : Bool) (acc : Nat) : (s.burstBad m len true acc).get F.DPT_STAT_DIR_ERR = 1 :=
  ((s.burstBad_hdr m len true acc).2 _ 0 0 0 (by decide) (by decide)).trans (s.badFlags_dir len)

/-- DPT_ERR is raised. -/
theorem State.burstBad_evt (s : State) (m : Master) (len dir : Bool) (acc : Nat) :
    (s.burstBad m len dir acc).getBit (F.EVT_STAT_EVT.of 6) E.DPT_ERR.bit = true := by
  rw [State.burstBad_eq]
  exact evt_count_keep _ 6 0 _ _ _ _ (by decide) (evt_raiseAt_same _ 6 0 _ _ (by decide))

/-- Settles O37: a live port applies a burst or refuses it, and one refused for its length only sets its flags. -/
theorem dataPortBursts : Obligations.DataPortBursts := by
  unfold Obligations.DataPortBursts
  refine ⟨fun m off data s hf hb hd => exec_dptBurstWrite_applied hf hb hd, fun m off len s hf hb hd => exec_dptBurstRead_applied hf hb hd,
    fun m off data s hf hb => ⟨_, exec_dptBurstWrite_badLen hf hb, ?_⟩⟩
  exact ⟨congrArg Prod.fst (s.burstBad_memq ..), s.burstBad_len .., s.burstBad_addr .., s.burstBad_words ..⟩

/-- Settles O52: a burst against the direction is one without effect, whose flags include DIR_ERR. -/
theorem burstAgainstTheDirectionHasNoEffect : Obligations.BurstAgainstTheDirectionHasNoEffect := by
  unfold Obligations.BurstAgainstTheDirectionHasNoEffect
  exact ⟨fun m off data s hf hd => ⟨_, exec_dptBurstWrite_against hf hd, s.burstBad_frame .., s.burstBad_addr .., s.burstBad_words ..,
      s.burstBad_dir .., s.burstBad_evt ..⟩,
    fun m off len s hf hd => ⟨_, exec_dptBurstRead_against hf hd, s.burstBad_frame .., s.burstBad_addr .., s.burstBad_words ..,
      s.burstBad_dir .., s.burstBad_evt ..⟩⟩

/-! ### Where a word lands (R605, R608 to R610) -/

/-- From `s` to `t` no byte of table space changes outside the words at `keys`. -/
def StoresIn (keys : List Nat) (s t : State) : Prop :=
  ∀ x, (∀ k ∈ keys, x < k ∨ k + 8 ≤ x) → Memory.read t.mem x = Memory.read s.mem x

section StoresIn

variable {keys : List Nat} {s t : State}

theorem StoresIn.of_mem (h : t.mem = s.mem) : StoresIn keys s t := fun x _ => congrArg (Memory.read · x) h

theorem StoresIn.wordUnder (s : State) {a : Nat} (m v : Nat) (ha : a ∈ keys) : StoresIn keys s (s.wordUnder a m v) :=
  fun x hx => Memory.read_setWord_ne s.mem a _ x (hx a ha)

/-- The key at which a word of the banked tables of a tile stands in the bank that BANK names. -/
def State.bankedKey (s : State) (bank r t : Nat) : Nat := bankKey (s.physBank bank t) (groupAddr t 0 + r)

theorem StoresIn.bankWrite (s : State) (bank a r v t : Nat) (b : Burst) (hk : s.bankedKey bank r t ∈ keys) :
    StoresIn keys s (s.bankWrite bank a r v t b).1 := by
  unfold State.bankWrite
  dsimp only
  split
  · exact .of_mem rfl
  · split
    · exact .wordUnder s.almTouch _ _ hk
    · exact .wordUnder s _ _ hk

/-- Writing a word of the tables of one tile leaves the bank of every tile. -/
theorem State.bankWrite_rf (s : State) (bank a r v t : Nat) (b : Burst) : (s.bankWrite bank a r v t b).1.rf = s.rf := by
  unfold State.bankWrite
  dsimp only
  split
  · rfl
  · split <;> rfl

theorem State.bankedKey_congr (h : t.rf = s.rf) (bank r n : Nat) : t.bankedKey bank r n = s.bankedKey bank r n := by
  unfold State.bankedKey State.physBank State.bankOf State.get
  rw [h]

theorem StoresIn.bankWrites (bank a r v : Nat) (ts : List Nat) (p : State × Burst)
    (hk : ∀ t ∈ ts, p.1.bankedKey bank r t ∈ keys) :
    StoresIn keys p.1 (ts.foldl (fun (p : State × Burst) t => p.1.bankWrite bank a r v t p.2) p).1 := by
  induction ts generalizing p with
  | nil => exact .of_mem rfl
  | cons t ts ih =>
    have hrest := ih (p.1.bankWrite bank a r v t p.2) fun n hn => by
      rw [State.bankedKey_congr (p.1.bankWrite_rf bank a r v t p.2)]
      exact hk n (List.mem_cons_of_mem _ hn)
    exact fun x hx => (hrest x hx).trans (StoresIn.bankWrite p.1 bank a r v t p.2 (hk t (List.mem_cons_self ..)) x hx)

theorem StoresIn.colgWrite (s : State) {a : Nat} (m v : Nat) (user : Option Nat) (b : Burst) (ha : a ∈ keys) :
    StoresIn keys s (s.colgWrite a m v user b).1 := by
  unfold State.colgWrite
  split
  · exact .of_mem rfl
  · exact .wordUnder s _ _ ha

theorem State.quotaWritten_mem (s : State) (u : Nat) (ls : List Nat) : (s.quotaWritten u ls).mem = s.mem :=
  congrArg Prod.fst (s.quotaWritten_memq u ls)

/-- The keys of the words that an address of table space names; none where it is unmapped or the device's own. -/
def State.tabKeys (s : State) (bank a : Nat) : List Nat := match tabAt a with
  | some (.banked ts r) => ts.map fun t => bankKey (s.physBank bank t) (groupAddr t 0 + r)
  | some (.colg _ _) => [a]
  | some (.child _) => [a]
  | some (.member _) => [a]
  | some (.lock _ _ _) => [a]
  | _ => []

/-- A word written at an address of table space lands in the words that the address names. -/
theorem StoresIn.tabWrite (s : State) (bank a v : Nat) (b : Burst) : StoresIn (s.tabKeys bank a) s (s.tabWrite bank a v b).1 := by
  unfold State.tabWrite State.tabKeys
  cases tabAt a with
  | none => exact .of_mem rfl
  | some x =>
    cases x with
    | banked ts r => exact .bankWrites bank a r v ts (s, b) fun t ht => List.mem_map_of_mem ht
    | colg g k =>
      dsimp only
      split
      · exact .of_mem rfl
      · exact .colgWrite s _ v _ b (List.mem_singleton_self a)
    | child i => exact .colgWrite s _ v _ b (List.mem_singleton_self a)
    | member i => exact .colgWrite s _ v _ b (List.mem_singleton_self a)
    | lock u l k =>
      dsimp only
      split
      · exact fun x hx => (congrArg (Memory.read · x) (State.quotaWritten_mem _ _ _)).trans
          (StoresIn.wordUnder s _ _ (List.mem_singleton_self a) x hx)
      · split <;> exact .of_mem rfl
    | fixed => exact .of_mem rfl

end StoresIn

theorem State.burstEnd_mem (s : State) (m : Master) (acc ev : Nat) (b : Burst) : (s.burstEnd m acc ev b).mem = s.mem :=
  congrArg Prod.fst (s.burstEnd_memq m acc ev b)

theorem State.dptStep_mem (s : State) (n : Nat) : (s.dptStep n).mem = s.mem := congrArg Prod.fst (s.dptStep_memq n)

/-- A burst of one word writes that word and leaves its flags. -/
theorem State.burstWrite_one (s : State) (m : Master) (a stride bank w : Nat) : s.burstWrite m a stride bank [w] =
    (s.tabWrite bank (burstAddr a stride 0) w {}).1.burstEnd m 2 0x40 (s.tabWrite bank (burstAddr a stride 0) w {}).2 := rfl

theorem wordsOfBytes_one {data : List Byte} (hl : data.length = 8) :
    wordsOfBytes (data.length / 8) data = [ofLeBytes (data.take 8)] := by
  rw [hl]
  rfl

/-- Settles O59: the memory after a burst of one word is that after the word written at its address. -/
theorem dataPortWordStoresOnlyThere : Obligations.DataPortWordStoresOnlyThere := by
  unfold Obligations.DataPortWordStoresOnlyThere
  intro m off data s a keys hf hb hd hl ha hkeys
  subst ha hkeys
  refine ⟨_, exec_dptBurstWrite_applied hf hb hd, fun x hx => ?_⟩
  rw [State.dptStep_mem, wordsOfBytes_one hl, State.burstWrite_one, State.burstEnd_mem]
  exact StoresIn.tabWrite s _ _ _ {} x hx

end Sys2Proof.Machine

/-!
The mailbox and the management endpoint (R613 to R620) and the DEV page (R612): each command by the case of its guard.
-/
namespace Sys2Proof.Machine
open Sys2Proof

section Management

variable {s t : State} {q : Packet}

/-! ### The mailbox (R618) -/

/-- A request sent by the mailbox as its `n`-th resend, with the time noted. -/
def State.mboxSend (s : State) (q : Packet) (n : Nat) : State :=
  State.mgtSend { s with mgmt := { s.mgmt with mbox := some (s.mgtStamped q, n, s.now) } } (s.mgtStamped q)

theorem exec_mgtMboxGo_free (hm : s.mgmt.mbox = none) (hf : s.blockFenced 5 = false) :
    exec .mgtMboxGo s = .next (s.mboxSend s.mboxPacket 0) := if_neg (by rw [hm, hf]; exact Bool.false_ne_true)

/-- RTO after its last sending a request is sent again while resends are left, else the mailbox fails. -/
theorem exec_mgtMboxResend_late {n at_ : Nat} (hm : s.mgmt.mbox = some (q, n, at_)) (ho : s.over at_ (s.mgtRto q.tu) 1000 = true)
    (hf : s.blockFenced 5 = false) : exec .mgtMboxResend s =
      if n < s.get F.MGT_CTL_RETRIES then .next ((s.mboxSend q (n + 1)).count 5 0 0x44)
      else .next ((s.event F.MGT_MBOX_FAIL 0).mboxDone 0x10) := by
  change execMgtMboxResend s = _
  unfold execMgtMboxResend
  rw [hm]
  exact if_pos (by rw [ho, hf]; rfl)

/-- A response with the TAG of the request that is out completes the mailbox. -/
theorem exec_response_tagged {r : Packet} {p n at_ : Nat} (hr : isResponse q = true) (ht : s.mgtTake q = some (p, t))
    (hm : t.mgmt.mbox = some (r, n, at_)) (htag : mTag r = mTag q) (hf : t.blockFenced 5 = false) :
    exec (.response q) s = .next ((t.mboxStore q).mboxDone (bits q.w2 8 8)) := by
  change execResponse q s = _
  unfold execResponse
  rw [if_pos hr, ht]
  dsimp only
  rw [hm]
  exact if_pos ⟨htag, by rw [hf]; rfl⟩

/-! ### Requests to the endpoint (R613, R616, R620) -/

/-- A request that waits at the endpoint is taken and served. -/
theorem State.mgtRequest_waiting {p : Nat} (ht : s.mgtTake q = some (p, t)) (hf : t.blockFenced 5 = false) :
    s.mgtRequest q = t.mgtServe q p := by
  unfold State.mgtRequest
  rw [ht]
  exact if_neg (ne_true_of_eq_false hf)

theorem exec_regRd_read (hq : mType q = 2) : exec (.regRd q) s = .next (s.mgtRequest q) := if_pos (.inl hq)
theorem exec_regWr_write (hq : mType q = 3) : exec (.regWr q) s = .next (s.mgtRequest q) := if_pos hq
theorem exec_dptRd_read (hq : mType q = 4) : exec (.dptRd q) s = .next (s.mgtRequest q) := if_pos hq
theorem exec_dptWr_write (hq : mType q = 5) : exec (.dptWr q) s = .next (s.mgtRequest q) := if_pos hq

/-- A request over MCTP that is served whole is carried out and answered. -/
theorem exec_mctpRequest_whole {w2 w3 w4 w5 : Nat} {data : List Byte} {r : MReq}
    (hr : r = ⟨w2 % 2 ^ 64, w3 % 2 ^ 64, w4 % 2 ^ 64, w5 % 2 ^ 64, data⟩) (h0 : s.mctpRule r = 0) :
    exec (.mctpRequest w2 w3 w4 w5 data) s =
      .next ((s.mgtDo .mctp r).1.emit (.mctp ((s.mgtDo .mctp r).2.words r) (s.mgtDo .mctp r).2.data)) := by
  subst hr
  exact if_pos h0

end Management

/-- Settles O34: the mailbox by what is out and when, a request that waits at the endpoint by its type. -/
theorem managementCommands : Obligations.ManagementCommands := by
  unfold Obligations.ManagementCommands
  exact ⟨fun s hm hf => exec_mgtMboxGo_free hm hf,
    fun q n at_ s hm ho hf hn => (exec_mgtMboxResend_late hm ho hf).trans (if_pos hn),
    fun q n at_ s hm ho hf hn => (exec_mgtMboxResend_late hm ho hf).trans (if_neg (Nat.not_lt_of_le hn)),
    fun q r p n at_ t s hr ht hm htag hf => exec_response_tagged hr ht hm htag hf, fun src tag s => rfl,
    fun q p t s hq ht hf => (exec_regRd_read hq).trans (congrArg _ (State.mgtRequest_waiting ht hf)),
    fun q p t s hq ht hf => (exec_regWr_write hq).trans (congrArg _ (State.mgtRequest_waiting ht hf)),
    fun q p t s hq ht hf => (exec_dptRd_read hq).trans (congrArg _ (State.mgtRequest_waiting ht hf)),
    fun q p t s hq ht hf => (exec_dptWr_write hq).trans (congrArg _ (State.mgtRequest_waiting ht hf)),
    fun w2 w3 w4 w5 data r s hr h0 => exec_mctpRequest_whole hr h0⟩

/-! ### DEV_RESET (R612) -/

theorem exec_devReset (key : Nat) (s : State) : exec (.devReset key) s = .next (if key % 2 ^ 16 = 0x5752 then s.warmReset false else s) := by
  split
  · exact if_pos ‹_›
  · exact exec_devReset_other s ‹_›

/-- The KEY of a whole write to DEV_RESET is the low 16 bits of its value. -/
theorem devReset_key (v : Nat) : bits (Nat.land (v % 2 ^ 64) (2 ^ 64 - 1)) 0 16 = v % 2 ^ 16 := by
  have hand : Nat.land (v % 2 ^ 64) (2 ^ 64 - 1) = v % 2 ^ 64 % 2 ^ 64 := Nat.and_two_pow_sub_one_eq_mod _ 64
  rw [hand, Nat.mod_mod, bits_mod_word (by decide)]
  exact congrArg (· % 2 ^ 16) (Nat.div_one v)

/-- A whole write to DEV_RESET goes to the rules of the DEV page, and starts a reset with its KEY. -/
theorem State.maskWrite_devReset (s : State) (m : Master) (v : Nat) (hf : s.blockFenced 0 = false) :
    s.maskWrite m (regOffset 0 0 0x108) (2 ^ 64 - 1) (v % 2 ^ 64) = s.did (execDevReset (v % 2 ^ 16) s) := by
  have hcls : offCls (regOffset 0 0 0x108) = 0 := by decide
  have hinst : offInst (regOffset 0 0 0x108) = 0 := by decide
  have hreg : offReg (regOffset 0 0 0x108) = 0x108 := by decide
  have himp : implemented 0 0 = true := by decide
  have hreach : writeReaches 0 0x108 (2 ^ 64 - 1) = true := by decide
  unfold State.maskWrite
  rw [hcls, hinst, hreg]
  dsimp only
  rw [himp, hreach, hf, ← devReset_key v]
  rfl

/-- Settles O54: the four registers stand in the DEV page, and the command and the register write are one reset. -/
theorem devicePageAndItsReset : Obligations.DevicePageAndItsReset := by
  unfold Obligations.DevicePageAndItsReset
  refine ⟨⟨rfl, rfl, rfl, rfl⟩, exec_devReset, fun m key s hf => ?_⟩
  have hoff : regOffset 0 0 0x108 % 2 ^ 28 = regOffset 0 0 0x108 := by decide
  have hdid : s.did (exec (.devReset (key % 2 ^ 16)) s) = if key % 2 ^ 16 = 0x5752 then s.warmReset false else s := by
    rw [exec_devReset, Nat.mod_mod]
    rfl
  rw [exec_regWrite, hoff]
  exact congrArg _ ((s.maskWrite_devReset m key hf).trans hdid)

end Sys2Proof.Machine

/-!
Faults (R627 to R648, R702, R726, R743): what the block detects, the collector's reactions, and the pins FAULT_N and THERM_TRIP_N.
-/
namespace Sys2Proof.Machine
open Sys2Proof

section Faults

variable {s : State}

/-! ### Detectors (R635, R643, R726, R743) -/

theorem exec_thermWarn_hot {temp : Nat} (h : s.get F.FLT_CTL_THERM_WARN ≤ temp) :
    exec (.thermWarn temp) s = .next (s.raise E.FLT_THERM_WARN) := if_pos h

/-- THERM_TRIP asserts its pin before it raises its event. -/
theorem exec_thermTrip_hot {temp : Nat} (h : 115 ≤ temp) : exec (.thermTrip temp) s =
    .next (State.raise { s with pins := { s.pins with thermTrip := true } } E.FLT_THERM_TRIP) := if_pos h

/-- A rail out of limits with PWR_GOOD raises the event of its group, with the group as block. -/
theorem exec_railFault_on (g : RailGroup) (h : s.boot.pwrGood = true) : exec (.railFault g) s = match g with
    | .main => .next (s.raise E.FLT_RAIL_MAIN)
    | .hio k => .next (s.raiseCap E.FLT_RAIL_HIO 0 (blockCapture 18 (8 * k.val)))
    | .opt e => .next (s.raiseCap E.FLT_RAIL_OPT 0 (blockCapture 9 e.val)) := by
  cases g <;> exact if_pos h

theorem exec_cpWatchdog_running (hh : s.cps.halted = false) (hb : s.cps.busy = false) :
    exec .cpWatchdog s = .next (s.watchdog (blockCapture 2 0)) := if_neg (by rw [hh, hb]; exact Bool.false_ne_true)

theorem exec_cfgCheck_bad {cls : Fin 31} {i : Fin 1024} (off : Fin 512) (hi : implemented cls i = true) :
    exec (.cfgCheck cls i off true) s =
      .next (s.raiseAt cls i E.bitCfgErr { blockCapture cls i with addr := regOffset cls i (8 * off.val), space := 1 }) :=
  if_pos (by rw [hi]; rfl)

/-- A good word read in a bank that is on is counted. -/
theorem exec_scrubRead_good {bank : Fin 10496} (word : Fin 8192) (he : s.flag F.FLT_SCRUB_EN = true)
    (hb : s.bankOn (bankHome bank).1 (bankHome bank).2 = true) : exec (.scrubRead bank word 0 false) s = .next (s.count 2 0 0x43) :=
  (if_pos he).trans (congrArg Host.Outcome.next (if_pos hb))

/-! ### The collector's own error (R635) -/

/-- COLLECTOR_ERR in the FLT page: its bit and its capture, counted where the bit rises. -/
def State.collectorErrNoted (s : State) (c : Capture) : State :=
  let t := (s.event (F.EVT_STAT_EVT.of 2) E.FLT_COLLECTOR_ERR.bit).pageCapture 2 0 E.FLT_COLLECTOR_ERR.bit c
  if !s.getBit (F.EVT_STAT_EVT.of 2) E.FLT_COLLECTOR_ERR.bit then t.count 2 0 4 else t

/-- Noting it touches the header of the page alone, so it does not enter safe state by itself. -/
theorem State.collectorErrNoted_safe (s : State) (c : Capture) : (s.collectorErrNoted c).safe = s.safe := by
  have h1 : HdrOnly s ((s.event (F.EVT_STAT_EVT.of 2) E.FLT_COLLECTOR_ERR.bit).pageCapture 2 0 E.FLT_COLLECTOR_ERR.bit c) :=
    (HdrOnly.event s _ _ _ _ (low_EVT_STAT_EVT 2) rfl).trans (pageCapture_hdr _ _ _ _ _)
  have h : HdrOnly s (s.collectorErrNoted c) := by
    unfold State.collectorErrNoted
    dsimp only
    split
    · exact h1.trans (count_hdr _ _ _ _ _ _)
    · exact h1
  exact congrArg (· != 0) (h.2 F.FLT_STAT_SAFE 0 0 0 (by decide) (by decide))

theorem exec_collectorErr_live (h : s.safe = false) :
    exec .collectorErr s = .next ((s.collectorErrNoted (blockCapture 2 0)).enterSafe) :=
  congrArg Host.Outcome.next (if_neg (ne_true_of_eq_false ((s.collectorErrNoted_safe (blockCapture 2 0)).trans h)))

/-! ### Reactions (R627, R637, R644, R645, R702) -/

/-- An arrival taken from the collector's queue. -/
def State.takeArrival (s : State) (a : Arrival) : State := { s with flt := { s.flt with arrivals := s.flt.arrivals.erase a } }

/-- An arrival of severity 1 or 2 takes no reaction: it is booked with the collector busy for 64 ns, or lost to another's handling. -/
theorem exec_faultEvent_minor {a : Arrival} (hn : s.flt.next = some a) (hs : a.sev ≤ 2) : exec .faultEvent s =
    let t := s.takeArrival a
    let u := if a.emt < s.flt.busyUntil then t.count 2 0 0x41
      else State.bookEvent { t with flt := { t.flt with busyUntil := a.emt + ns 64 } } a a.sev
    .next (u.settleAll.refreshPins) := by
  have h3 : a.sev ≠ 3 := by omega
  have h4 : a.sev ≠ 4 := by omega
  change execFaultEvent s = _
  unfold execFaultEvent
  rw [hn]
  simp only [h3, h4, if_false, decide_false, Bool.false_and, Bool.false_eq_true, decide_eq_true_eq]
  rfl

theorem exec_heartbeatEdge_on (hm : s.pins.faultMode = true) (hr : s.flag F.FLT_STAT_HB_RUN = true) :
    exec .heartbeatEdge s = .next s.refreshPins := if_pos (by rw [hm, hr]; rfl)

theorem exec_faultPulseEnd_passed {t : Nat} (hp : s.flt.pulseEnd = some t) (ht : t ≤ s.now) :
    exec .faultPulseEnd s = .next (State.refreshPins { s with flt := { s.flt with pulseEnd := none } }) := by
  change execFaultPulseEnd s = _
  unfold execFaultPulseEnd
  rw [hp]
  exact if_pos ht

/-- The oldest bank fence without an entry enters the repair record where that has room, else it raises REPAIR_FULL. -/
theorem exec_repairEntryAdd_due {x : Nat × Nat} {l : List (Nat × Nat)} (hd : s.almanac.repairDue = x :: l) :
    exec .repairEntryAdd s =
      if s.almanac.repair.length < 1024 then
        .next { s with almanac := { s.almanac with repairDue := l, repair := s.almanac.repair ++ [x] } }
      else .next (State.raise { s with almanac := { s.almanac with repairDue := l } } E.ALM_REPAIR_FULL) := by
  change execRepairEntryAdd s = _
  unfold execRepairEntryAdd
  rw [hd]

/-! ### THERM_TRIP forced (R598, R643) -/

theorem exec_evtForce_thermTrip (m : Master) (hf : s.blockFenced 2 = false) :
    exec (.evtForce m 2 0 (2 ^ E.FLT_THERM_TRIP.bit)) s = .next (State.raiseAt { s with pins := { s.pins with thermTrip := true } } 2 0
      E.FLT_THERM_TRIP.bit (m.capture (regOffset 2 0 F.EVT_FORCE_FORCE.off) 1 2)) := by
  have hbits : setBitsOf (2 ^ E.FLT_THERM_TRIP.bit) 64 = [E.FLT_THERM_TRIP.bit] := by decide
  rw [exec_evtForce m 2 0 _ s (by decide) hf, hbits]
  rfl

end Faults

/-- Settles O30: every detector is the case of its guard, and the collector's own error leaves SAFE to the entry of safe state. -/
theorem faultEventCommands : Obligations.FaultEventCommands := by
  unfold Obligations.FaultEventCommands
  exact ⟨fun temp s h => exec_thermWarn_hot h, fun temp s h => exec_thermTrip_hot h, fun s h => exec_railFault_on .main h,
    fun k s h => exec_railFault_on (.hio k) h, fun e s h => exec_railFault_on (.opt e) h, fun s => rfl,
    fun s hh hb => exec_cpWatchdog_running hh hb, fun s h => exec_collectorErr_live h, fun cls i off s hi => exec_cfgCheck_bad off hi,
    fun bank word s he hb => exec_scrubRead_good word he hb⟩

/-- Settles O31: an arrival of severity 1 or 2 by whether another is being handled, a repair entry by the room in its record. -/
theorem faultReactionCommands : Obligations.FaultReactionCommands := by
  unfold Obligations.FaultReactionCommands
  refine ⟨fun a s hn hs hb => ?_, fun a s hn hs hb => ?_, fun s hm hr => exec_heartbeatEdge_on hm hr,
    fun t s hp ht => exec_faultPulseEnd_passed hp ht, fun x l s hd hl => (exec_repairEntryAdd_due hd).trans (if_pos hl),
    fun x l s hd hl => (exec_repairEntryAdd_due hd).trans (if_neg (Nat.not_lt_of_le hl))⟩
  · rw [exec_faultEvent_minor hn hs]
    dsimp only
    rw [if_neg (Nat.not_lt_of_le hb)]
    rfl
  · rw [exec_faultEvent_minor hn hs]
    dsimp only
    rw [if_pos hb]
    rfl

/-- Settles O55: the pin is asserted before the event is raised, and raising an event leaves the pins. -/
theorem thermTripAssertsItsPin : Obligations.ThermTripAssertsItsPin := by
  unfold Obligations.ThermTripAssertsItsPin
  exact ⟨fun temp s h => ⟨_, exec_thermTrip_hot h, congrArg Pins.thermTrip (raise_hdr _ _ _).pins⟩,
    fun m s hf => ⟨_, exec_evtForce_thermTrip m hf, congrArg Pins.thermTrip (raiseAt_hdr _ _ _ _ _).pins⟩⟩

end Sys2Proof.Machine

/-!
The power ladder of ports, tiles and the device (R654 to R678): each command by the case of its guard.
-/
namespace Sys2Proof.Machine
open Sys2Proof

/-! ### Ports (R662, R666, R668, R670) -/

section PortLadder

variable {p : Fin 1024} {s : State}

/-- An end of an ACTIVE link with a ladder, in Run, that is idle and has nothing of the ladder under way. -/
structure State.LadderIdle (s : State) (p : Nat) : Prop where
  active : s.active p = true
  ladder : s.feat p 6 = true
  auto : 1 ≤ s.get F.PORT_PWR_AUTO_MAX p
  idle : s.idle p = true
  free : s.namedInSrc p = false
  req : (s.port p).ladReq.isNone = true
  cmd : (s.port p).ladCmd.isNone = true
  wake : (s.port p).wake.isNone = true
  width : (s.port p).widthReq.isNone = true
  run : s.get F.PORT_PWR_STAT_RUNG p = 0

theorem exec_portIdleRequest_idle (h : s.LadderIdle p) :
    exec (.portIdleRequest p) s = .next (s.ladAsk p (s.get F.PORT_PWR_AUTO_MAX p) false) :=
  if_pos (by rw [h.active, h.ladder, decide_eq_true h.auto, h.idle, h.free, h.req, h.cmd, h.wake, h.width, h.run]; rfl)

theorem exec_portRungCmd_rung {rung : Fin 8} (h0 : rung.val ≠ 0) (h4 : rung.val ≤ 4) : exec (.portRungCmd p rung) s =
    .next (((s.set F.PORT_PWR_CMD_RUNG rung p).modPort p fun x => { x with ladCmd := some rung.val }).ladCommand p) :=
  (if_neg h0).trans (if_pos h4)

theorem exec_ladderReqTimeout_late {rung at_ : Nat} {cmd : Bool} (hr : (s.port p).ladReq = some (rung, cmd, at_)) (hq : s.quiet p = true)
    (ht : at_ + ns 100000 ≤ s.now) : exec (.ladderReqTimeout p) s = .next (s.ladRefused p) := by
  change execLadderReqTimeout p s = _
  unfold execLadderReqTimeout
  rw [hr]
  exact (if_neg (by rw [hq]; exact Bool.false_ne_true)).trans (if_pos ht)

/-- The next rung of an automatic entry, 10^(j-1) idle times after it. -/
theorem exec_rungStepDown_due {j : Nat} (hj : s.get F.PORT_PWR_STAT_RUNG p + 1 = j) (h2 : 2 ≤ j) (hm : j ≤ (s.port p).ladMax)
    (hc : s.flag F.PORT_PWR_STAT_COMMANDED p = false) (hw : (s.port p).wake = none)
    (ho : s.over (s.port p).ladAt (10 ^ (j - 1) * s.get F.PORT_PWR_IDLE p * 64) 64 = true) :
    exec (.rungStepDown p) s = .next (s.set F.PORT_PWR_STAT_RUNG j p) := by
  subst hj
  exact if_pos ⟨h2, hm, by rw [hc]; rfl, hw, ho⟩

theorem exec_portWake_light (hw : (s.port p).wake = none) : exec (.portWake p true) s = .next (s.wakePort p) := by
  change execPortWake p true s = _
  unfold execPortWake
  dsimp only
  rw [hw]
  rfl

theorem exec_wakeTimeout_late {d at_ rung m : Nat} (hw : (s.port p).wake = some (at_, rung, m))
    (hm : holdsMask m (s.port p).act = false)
    (ht : at_ + ns (exitNs rung true + 2 * d + 16 * s.get F.PORT_TIMERS_LOCK_LOSS p) ≤ s.now) :
    exec (.wakeTimeout p d) s = .next ((s.linkDown p).raise E.PORT_WAKE_FAIL p) := by
  change execWakeTimeout p d s = _
  unfold execWakeTimeout
  dsimp only
  rw [hw]
  exact if_pos (by rw [hm, decide_eq_true ht]; rfl)

end PortLadder

/-- Settles O23: every command of the ladder is the case of its guard. -/
theorem portLadderCommands : Obligations.PortLadderCommands := by
  unfold Obligations.PortLadderCommands
  exact ⟨fun p s active ladder auto idle free req cmd wake width run =>
      exec_portIdleRequest_idle ⟨active, ladder, auto, idle, free, req, cmd, wake, width, run⟩,
    fun p s => rfl, fun p rung s h0 h4 => exec_portRungCmd_rung h0 h4,
    fun p rung at_ cmd s hr hq ht => exec_ladderReqTimeout_late hr hq ht,
    fun p j s hj h2 hm hc hw ho => exec_rungStepDown_due hj h2 hm hc hw ho, fun p s hw => exec_portWake_light hw,
    fun p d at_ rung m s hw hm ht => exec_wakeTimeout_late hw hm ht⟩

/-! ### Tiles (R673 to R675) -/

section Tiles

variable {s u : State}

theorem exec_tileRungCmd_ready {t : Fin 72} {rung : Fin 8} (h0 : rung.val ≠ 0) (h4 : rung.val ≤ 4)
    (ht : (s.set F.TILE_PWR_RUNG rung t).tryTile t = some u) : exec (.tileRungCmd t rung) s = .next u := by
  change execTileRungCmd t rung s = _
  unfold execTileRungCmd
  dsimp only
  rw [if_neg h0, if_pos h4, ht]

theorem exec_tileRungEntry_ready {t : Fin 72} (hc : s.get F.TILE_PWR_CUR t = 0) (ht : s.tryTile t = some u) :
    exec (.tileRungEntry t) s = .next u :=
  (if_pos hc).trans (congrArg (fun x : Option State => Host.Outcome.next (x.getD s)) ht)

theorem exec_tileAutoEntry_quiet {t : Fin 64} {at_ : Nat} (hs : (s.tile t).quietSince = some at_)
    (h1 : 1 ≤ s.get F.TILE_PWR_AUTO_MAX t) (h4 : s.get F.TILE_PWR_AUTO_MAX t ≤ 4) (hc : s.get F.TILE_PWR_CUR t = 0)
    (hr : s.get F.TILE_PWR_RUNG t = 0) (hq : s.tileQuiet t = true) (ho : s.over at_ (64 * s.get F.TILE_PWR_IDLE t) 64 = true) :
    exec (.tileAutoEntry t) s = .next (s.enterTile t (s.get F.TILE_PWR_AUTO_MAX t)) := by
  change execTileAutoEntry t s = _
  unfold execTileAutoEntry
  dsimp only
  rw [hs]
  exact if_pos ⟨h1, h4, hc, hr, hq, ho⟩

end Tiles

/-! ### The device (R676 to R678) -/

section Device

variable {rung : Fin 8} {s : State}

/-- A command to leave Run: refused where a host link is up, in safe state, or while another rung is under way. -/
theorem exec_deviceRungCmd_run (hf : s.blockFenced 3 = false) (hr : (s.set F.PWR_CTL_RUNG rung).get F.PWR_STAT_RUNG = 0)
    (h1 : 1 ≤ rung.val) (h5 : rung.val ≤ 5) : exec (.deviceRungCmd rung) s =
      let t := s.set F.PWR_CTL_RUNG rung
      if (List.range 64).any t.linkUp then .next (t.rungRefused 1)
      else if t.safe then .next (t.rungRefused 2)
      else if t.ladder.goal.isSome || t.ladder.wakeAt.isSome then .next (t.rungRefused 3)
      else .next (State.each (List.range 1024) (fun s p => s.portForRung rung p)
        { t.set F.PWR_STAT_REFUSE 0 with ladder := ⟨some rung.val, none⟩ }) := by
  have hout : ¬(6 ≤ rung.val ∨ rung.val = 0) := by omega
  exact (if_neg (ne_true_of_eq_false hf)).trans ((if_neg fun h => h.2.1 hr).trans (if_neg hout))

theorem exec_deviceRungCmd_linkUp (hf : s.blockFenced 3 = false) (hr : (s.set F.PWR_CTL_RUNG rung).get F.PWR_STAT_RUNG = 0)
    (h1 : 1 ≤ rung.val) (h5 : rung.val ≤ 5) (hl : (List.range 64).any (s.set F.PWR_CTL_RUNG rung).linkUp = true) :
    exec (.deviceRungCmd rung) s = .next ((s.set F.PWR_CTL_RUNG rung).rungRefused 1) :=
  (exec_deviceRungCmd_run hf hr h1 h5).trans (if_pos hl)

theorem exec_deviceRungCmd_taken (hf : s.blockFenced 3 = false) (hr : (s.set F.PWR_CTL_RUNG rung).get F.PWR_STAT_RUNG = 0)
    (h1 : 1 ≤ rung.val) (h5 : rung.val ≤ 5) (hl : (List.range 64).any (s.set F.PWR_CTL_RUNG rung).linkUp = false)
    (hs : (s.set F.PWR_CTL_RUNG rung).safe = false) (hd : (s.set F.PWR_CTL_RUNG rung).ladder = Ladder.reset) :
    exec (.deviceRungCmd rung) s = .next (State.each (List.range 1024) (fun s p => s.portForRung rung p)
      { (s.set F.PWR_CTL_RUNG rung).set F.PWR_STAT_REFUSE 0 with ladder := ⟨some rung.val, none⟩ }) :=
  (exec_deviceRungCmd_run hf hr h1 h5).trans ((if_neg (ne_true_of_eq_false hl)).trans ((if_neg (ne_true_of_eq_false hs)).trans
    (if_neg (by rw [hd]; exact Bool.false_ne_true))))

theorem exec_deviceRungArrival_all {r : Nat} (hg : s.ladder.goal = some r) (ha : s.allArrived = true) : exec .deviceRungArrival s =
    .next ((((State.each (List.range 72) (fun s t => s.enterTile t r) { s with ladder := Ladder.reset }).set F.PWR_STAT_RUNG r).raise
      E.PWR_DEV_RUNG_DONE).count 3 0 0x40) := by
  change execDeviceRungArrival s = _
  unfold execDeviceRungArrival
  rw [hg]
  exact if_pos ha

theorem exec_deviceWake_enabled {w : WakeSource} {c : Nat} (hr : s.get F.PWR_STAT_RUNG ≠ 0) (hl : s.ladder.wakeAt = none)
    (hw : s.wakeBy w = some c) : exec (.deviceWake w) s = .next (s.wakeDevice c) := by
  change execDeviceWake w s = _
  unfold execDeviceWake
  rw [if_pos ⟨hr, hl⟩, hw]

end Device

/-! ### The ends of exits (R654) -/

section Exits

variable {s : State}

theorem exec_rungExitDone_tile {t : Fin 72} (h : (s.tile t).exitAt.isSome = true) :
    exec (.rungExitDone (.tile t)) s = .next (s.tileInRun t) := if_pos h

theorem exec_rungExitDone_port {p : Fin 1024} (hw : (s.port p).wake.isSome = true) (hr : s.get F.PORT_PWR_STAT_RUNG p ≠ 0) :
    exec (.rungExitDone (.port p)) s =
      .next ((((s.set F.PORT_PWR_STAT_RUNG 0 p).set F.PORT_PWR_STAT_COMMANDED 0 p).inc F.PORT_PWR_STAT_EXITS p).count 10 p 0x45) :=
  if_pos (by rw [hw, bne_iff_ne.2 hr]; rfl)

end Exits

/-- Settles O35: tiles, the device and the ends of exits by their guards; the two clauses of a device command are one lemma's cases. -/
theorem powerLadderCommands : Obligations.PowerLadderCommands := by
  unfold Obligations.PowerLadderCommands
  exact ⟨fun t s => rfl, fun t rung u s h0 h4 ht => exec_tileRungCmd_ready h0 h4 ht, fun t u s hc ht => exec_tileRungEntry_ready hc ht,
    fun t at_ s hs h1 h4 hc hr hq ho => exec_tileAutoEntry_quiet hs h1 h4 hc hr hq ho,
    fun rung s hf hr h1 h5 hl hs hd => exec_deviceRungCmd_taken hf hr h1 h5 hl hs hd,
    fun rung s hf hr h1 h5 hl => exec_deviceRungCmd_linkUp hf hr h1 h5 hl, fun r s hg ha => exec_deviceRungArrival_all hg ha,
    fun w c s hr hl hw => exec_deviceWake_enabled hr hl hw, fun t s h => exec_rungExitDone_tile h,
    fun p s hw hr => exec_rungExitDone_port hw hr⟩

end Sys2Proof.Machine

/-!
The restore (R690 to R697, R743) and the owner (R705 to R710): each command by the case of its guard.
-/
namespace Sys2Proof.Machine
open Sys2Proof

/-! ### The restore (R690, R695 to R697) -/

section Restore

variable {s : State}

theorem exec_restoreStart_waiting {fm : Bool} (hg : s.boot.pwrGood = true) (hst : s.boot.stage = 0) (hr : s.boot.railOut = false) :
    exec (.restoreStart fm) s = .next (State.refreshPins
      { s with boot := { s.boot with stage := 1, since := s.now }, pins := { s.pins with faultMode := fm } }) :=
  if_pos (by rw [hg, hst, hr]; rfl)

/-- The Almanac fields of a restore: `base` under those of the calibration copy; the restore goes to stage 2. -/
@[reducible] def State.almRestored (s : State) (base cal : Tab Nat) : State :=
  { s with rf := { s.rf with alm := cal.foldl (fun t e => Tab.insert t e.1 e.2) base }, boot := { s.boot with stage := 2 } }

/-- What phase 1 does once the fields and the repair record are in force: the host ports formed anew, the minima of tiles and the
staging of engines checked, and after a warm reset the pauses of the engines. -/
@[reducible] def State.phase1Formed (u : State) : State :=
  let v := State.each (List.range 16) State.formPort (State.each (List.range 64) State.unform
    { u with rte := { u.rte with selfNext := [], selfOld := (u.get F.DEV_SELF_GROUP, u.get F.DEV_SELF_DEVICE, u.flag F.DEV_SELF_VALID) } })
  let v := State.each (List.range 32) State.checkStaging (State.each (List.range 72) State.checkOvercommit v)
  if v.boot.warm then v.each (List.range 32) fun s e => s.afterwards e s.boot.since else v

/-- The choice of phase 1 recorded: SLOT and SOURCE of the snapshot, or RESTORE_FAIL where none is valid (R695). -/
@[reducible] def State.choiceRecorded (u : State) : Option (Nat × Snapshot × Nat) → State
  | some (n, _, src) => (u.set F.ALM_STAT_SLOT n).set F.ALM_STAT_SOURCE src
  | none => ((u.set F.ALM_STAT_SLOT 7).set F.ALM_STAT_SOURCE 2).raise E.ALM_RESTORE_FAIL

/-- The fields that a chosen snapshot gives: all but calibration. -/
@[reducible] def chosenFields : Option (Nat × Snapshot × Nat) → Tab Nat
  | some (_, x, _) => x.fields.filter fun e => !isCal e.1
  | none => []

/-- Phase 1 in its parts, for whatever snapshot and calibration copy were found. -/
theorem exec_restorePhase1Done (hst : s.boot.stage = 1) : exec .restorePhase1Done s =
    .next ((((((s.almRestored (chosenFields s.chooseSnap) (s.calCopy.getD [])).setFlag F.ALM_STAT_CAL_OK s.calCopy.isSome).choiceRecorded
      s.chooseSnap).raiseIf s.calCopy.isNone E.ALM_CAL_FAIL).applyRepair).phase1Formed) := by
  change execRestorePhase1Done s = _
  unfold execRestorePhase1Done
  refine (if_pos hst).trans ?_
  cases s.chooseSnap with
  | none => with_reducible rfl
  | some c => with_reducible rfl

theorem exec_restorePhase1Done_chosen {n src : Nat} {x : Snapshot} {cal : Tab Nat} (hst : s.boot.stage = 1)
    (hp : s.chooseSnap = some (n, x, src)) (hc : s.calCopy = some cal) : exec .restorePhase1Done s =
      .next ((((((s.almRestored (x.fields.filter fun e => !isCal e.1) cal).setFlag F.ALM_STAT_CAL_OK true).set F.ALM_STAT_SLOT n).set
        F.ALM_STAT_SOURCE src).raiseIf false E.ALM_CAL_FAIL).applyRepair).phase1Formed := by
  rw [exec_restorePhase1Done hst, hp, hc]
  dsimp only [chosenFields, State.choiceRecorded, Option.getD, Option.isSome, Option.isNone]

theorem exec_restorePhase1Done_nothing (hst : s.boot.stage = 1) (hp : s.chooseSnap = none) (hc : s.calCopy = none) :
    exec .restorePhase1Done s =
      .next ((((((State.setFlag { s with rf := { s.rf with alm := [] }, boot := { s.boot with stage := 2 } } F.ALM_STAT_CAL_OK false).set
        F.ALM_STAT_SLOT 7).set F.ALM_STAT_SOURCE 2).raise
        E.ALM_RESTORE_FAIL).raiseIf true E.ALM_CAL_FAIL).applyRepair).phase1Formed := by
  rw [exec_restorePhase1Done hst, hp, hc]
  dsimp only [chosenFields, State.choiceRecorded, Option.getD, Option.isSome, Option.isNone, State.almRestored, List.foldl_nil]

/-- The end of the restore, with the tables loaded: the ports that are enabled begin bring-up, and the heartbeat starts. -/
@[reducible] def State.restoreEnded (s : State) : State :=
  let v := ((State.set { s with boot := { s.boot with stage := 3 } } F.ALM_STAT_RESTORED 1).raise E.ALM_RESTORE_DONE).setFlag
    F.FLT_STAT_HB_RUN s.pins.faultMode
  let on := (List.range 1024).filter fun p => v.flag F.PORT_CTL_EN p
  (State.each on State.enablePort (State.each on (fun s p => s.set F.PORT_CTL_EN 0 p) v)).refreshPins

theorem exec_restoreDone_loaded {x : Snapshot} (hst : s.boot.stage = 2) (hx : s.snapOf (s.get F.ALM_STAT_SLOT) = some x) :
    exec .restoreDone s = .next (State.restoreEnded { s with mem := loadTables x.tables s.mem }) := by
  change execRestoreDone s = _
  unfold execRestoreDone
  rw [if_pos hst, hx]

theorem exec_restoreDone_noSnapshot (hst : s.boot.stage = 2) (hx : s.snapOf (s.get F.ALM_STAT_SLOT) = none) :
    exec .restoreDone s = .next s.restoreEnded := by
  change execRestoreDone s = _
  unfold execRestoreDone
  rw [if_pos hst, hx]

/-- R743: with the host and optical rails good, PWR_GOOD rises, and a main rail out leaves the device in safe state. -/
theorem exec_pwrGoodRise_low (mainOut : Bool) (h : s.boot.pwrGood = false) : exec (.pwrGoodRise mainOut [] []) s =
    let u := { s with boot := { s.boot with pwrGood := true, railOut := mainOut } }
    if mainOut then .next ((State.raise u E.FLT_RAIL_MAIN).enterSafe) else .next u := if_neg (ne_true_of_eq_false h)

end Restore

/-- Settles O11: every stage of the restore is the case of its guard, and phase 1 of any choice is one lemma. -/
theorem restoreGoesThroughItsStages : Obligations.RestoreGoesThroughItsStages := by
  unfold Obligations.RestoreGoesThroughItsStages
  exact ⟨fun fm s hg hst hr => ⟨_, exec_restoreStart_waiting hg hst hr, rfl, rfl, rfl, rfl, rfl⟩,
    fun n src x cal s hst hp hc => by with_reducible exact exec_restorePhase1Done_chosen hst hp hc,
    fun s hst hp hc => by with_reducible exact exec_restorePhase1Done_nothing hst hp hc,
    fun s x hst hx => exec_restoreDone_loaded hst hx, fun s hst hx => exec_restoreDone_noSnapshot hst hx,
    fun s h => exec_pwrGoodRise_low false h, fun s h => exec_pwrGoodRise_low true h⟩

/-! ### The owner (R705 to R710) -/

section Owner

variable {m : Master} {s : State}

/-- R705: an owner operation by a party that may not is counted and raises OWNER_REFUSED. -/
theorem State.ownerDo_refused (f : State → State) (h : s.ownerOk m = false) : s.ownerDo m f =
    ((s.inc F.ALM_CNT_OWNER_REFUSED).raise E.ALM_OWNER_REFUSED).count 4 0 0x43 := if_neg (ne_true_of_eq_false h)

theorem exec_ownerWrite_unfenced (r : OwnerReg) (v : Nat) (hf : s.blockFenced (ownerClass r) = false) :
    exec (.ownerWrite m r v) s = .next (s.ownerDo m fun s => s.setOwner r v) := if_neg (ne_true_of_eq_false hf)

theorem exec_presenceEdge_fall (h : s.presence.low = false) :
    exec (.presenceEdge true) s = .next { s with presence := { s.presence with low := true, broken := false } } :=
  (if_neg (by rw [h]; decide)).trans (if_pos rfl)

theorem exec_presenceEdge_rise (h : s.presence.low = true) :
    exec (.presenceEdge false) s = .next { s with presence := { s.presence with low := false, until_ := s.now + ns 60000000000 } } :=
  (if_neg (by rw [h]; decide)).trans (if_neg Bool.false_ne_true)

theorem exec_presenceWindowExpiry_due (h : s.presence.low = false) (ht : s.presence.until_ ≤ s.now) :
    exec .presenceWindowExpiry s = .next { s with presence := { s.presence with until_ := 0 } } :=
  if_pos (by rw [h, decide_eq_true ht]; rfl)

/-- R709: a row from 128 begins to be programmed; a lower one is read-only. -/
theorem exec_fuseProg_accepted (hf : s.blockFenced 30 = false) (hp : s.presence.prog = none) (ho : s.ownerOk m = true) :
    exec (.fuseProg m) s = .next (
      let u := s.count 4 0 0x42
      if u.get F.FUS_ROW_ROW < 128 then (u.event F.FUS_STAT_ERR 0).raise E.FUS_PROG_ERR
      else { u with presence := { u.presence with prog := some (u.get F.FUS_ROW_ROW, u.get F.FUS_DATA_DATA) } }) :=
  (if_neg (by rw [hf, hp]; exact Bool.false_ne_true)).trans (congrArg Host.Outcome.next (State.ownerDo_accepted _ ho))

theorem exec_progDone_good {r v : Nat} (hp : s.presence.prog = some (r, v)) : exec (.progDone true) s =
    .next (State.raise { s with presence := { s.presence with
      prog := none, fuses := Tab.insert s.presence.fuses r (Nat.lor (s.fuseRow r) v) } } E.FUS_PROG_DONE) := by
  change execProgDone true s = _
  unfold execProgDone
  rw [hp]
  rfl

/-- R710: debug access opens unless DEBUG_LOCK is blown. -/
theorem exec_debugUnlock_accepted (hf : s.blockFenced 30 = false) (ho : s.ownerOk m = true) : exec (.debugUnlock m) s = .next (
    let u := s.count 4 0 0x42
    if bit (u.fuseRow 128) 0 then u else State.raise { u with presence := { u.presence with debug := true } } E.FUS_DEBUG_UNLOCKED) :=
  (if_neg (ne_true_of_eq_false hf)).trans (congrArg Host.Outcome.next (State.ownerDo_accepted _ ho))

end Owner

/-- Settles O32: an owner operation is `ownerDo`, done where the party may and refused otherwise; the rest are the cases of their guards. -/
theorem ownerCommands : Obligations.OwnerCommands := by
  unfold Obligations.OwnerCommands
  exact ⟨fun m r v s hf ho => (exec_ownerWrite_unfenced r v hf).trans (congrArg _ (State.ownerDo_accepted _ ho)),
    fun m r v s hf ho => (exec_ownerWrite_unfenced r v hf).trans (congrArg _ (State.ownerDo_refused _ ho)),
    fun s h => exec_presenceEdge_fall h, fun s h => exec_presenceEdge_rise h,
    fun s h ht => exec_presenceWindowExpiry_due h ht, fun s => rfl,
    fun m s hf hp ho hr => (exec_fuseProg_accepted hf hp ho).trans (congrArg _ (if_neg (Nat.not_lt.2 hr))),
    fun m s hf hp ho hr => (exec_fuseProg_accepted hf hp ho).trans (congrArg _ (if_pos hr)),
    fun r v s hp => exec_progDone_good hp,
    fun m s hf ho hb => (exec_debugUnlock_accepted hf ho).trans (congrArg _ (if_neg (ne_true_of_eq_false hb)))⟩

end Sys2Proof.Machine
